-- ==== Sys2Proof/Word.lean ====
section
/-! DEFINITION. The word types of the W1 and the plainest arithmetic on them: bit fields of a
natural number, two's complement readings, and the little-endian reading of bytes. -/

namespace Sys2Proof

/-- A 4-byte word of program text, a literal, or one lane of a vector register (R161, R223). -/
abbrev W32 := BitVec 32
/-- A scalar register, a program counter, or a virtual address (R161). -/
abbrev W64 := BitVec 64
/-- The contents of one vector register or queue entry, lane 0 first (R161, R283). -/
abbrev Lanes := List (BitVec 32)

/-- Bits `hi` down to `lo` of a number. -/
def bits (x hi lo : Nat) : Nat := x / 2 ^ lo % 2 ^ (hi + 1 - lo)

/-- One bit of a number. -/
def bit (x i : Nat) : Bool := x / 2 ^ i % 2 == 1

/-- A truth value as the number 0 or 1. -/
def b2n (b : Bool) : Nat := if b then 1 else 0

/-- The number whose low bits are `n` ones. -/
def ones (n : Nat) : Nat := 2 ^ n - 1

/-- Lane `i` of a vector value (R283). -/
def lane (l : Lanes) (i : Nat) : W32 := l.getD i 0

/-- Little-endian bytes of a number, least significant first. -/
def leBytes : Nat → Nat → List (BitVec 8)
  | 0, _ => []
  | n + 1, x => BitVec.ofNat 8 x :: leBytes n (x / 256)

/-- The number that little-endian bytes spell. -/
def leNat : List (BitVec 8) → Nat
  | [] => 0
  | b :: bs => b.toNat + 256 * leNat bs

/-- Round `x` down to a multiple of `n`. -/
def alignDown (x n : Nat) : Nat := x / n * n

/-- Round `x` up to a multiple of `n`. -/
def alignUp (x n : Nat) : Nat := (x + n - 1) / n * n

end Sys2Proof
end

