-- ==== Sys2Proof/Syntax.lean ====
section
/-! DEFINITION. The abstract syntax of everything the opcode table lists: the words of the cores
(VXA), the words of the mills, and the events of the part, one constructor of `Instr` per row. -/

namespace Sys2Proof

/-- A scalar register number, s0 to s15 (R224). -/
abbrev SReg := Fin 16
/-- A mill scalar register number, g0 to g31 (R353). -/
abbrev GReg := Fin 32
/-- The value of a 6-bit field that a page reads as a number: a mask number, a condition code, a
rounding code, an immediate, a tile number (R228). -/
abbrev Code := Fin 64

/-- A 6-bit source field with its literal, if it takes one (R224, R226). -/
inductive Src
  /-- Result-queue entry by age, codes 0x00 to 0x0F. -/
  | q (n : Fin 16)
  /-- Named vector register, codes 0x10 to 0x27. -/
  | v (n : Fin 24)
  /-- Scalar, codes 0x28 to 0x37. -/
  | s (n : Fin 16)
  /-- Code 0x38. -/
  | zero
  /-- Code 0x39. -/
  | lid
  /-- Code 0x3A with the literal word that follows. -/
  | lit (x : BitVec 32)
  /-- The reserved codes 0x3B to 0x3F. -/
  | rsv (n : Fin 5)
  deriving DecidableEq, Repr

/-- A 6-bit destination field (R225). -/
inductive Dst
  /-- Code 0x00: queue push only. -/
  | push
  /-- Push and write a named vector register. -/
  | v (n : Fin 24)
  /-- Scalar, no push. -/
  | s (n : Fin 16)
  /-- The reserved codes 0x01 to 0x0F and 0x38 to 0x3F, in that order. -/
  | rsv (n : Fin 23)
  deriving DecidableEq, Repr

/-- The modifier fields of a format-M word (R227). -/
structure MemMods where
  scope : Fin 8
  order : Fin 4
  nt : Bool
  deriving DecidableEq, Repr

/-- The shift kinds of `shfi` (R360); kind 3 is no instruction. -/
inductive ShiftKind | shl | shr | sar
  deriving DecidableEq, Repr

/-- A core: compute die, logical cluster, core within the cluster (R10, R13). -/
structure CoreId where
  die : Nat
  cluster : Nat
  core : Nat
  deriving DecidableEq, Repr

/-- A group: task, team number of R88, group index (R158). -/
structure GroupRef where
  tid : Nat
  team : Nat
  grp : Nat
  deriving DecidableEq, Repr

/-- A mill: tower and place 0 to 7 in it (R187). -/
structure MillRef where
  tower : Nat
  idx : Nat
  deriving DecidableEq, Repr

/-- A site of the panel: a compute die or a tower, by index (R9, R10). -/
inductive Site | die (i : Nat) | tower (j : Nat)
  deriving DecidableEq, Repr

/-- A level of the directory hierarchy (R108). -/
inductive Node
  | l1 (c : CoreId)
  | hub (die cluster : Nat)
  | l2 (die : Nat)
  | slice (tower : Nat)
  | home (tower : Nat)
  deriving DecidableEq, Repr

/-- How a residue check goes (R180). -/
inductive Residue | clean | transient | lasting
  deriving DecidableEq, Repr

/-- What a step finds in the storage that it reads (R198): nothing, an error that is corrected, or one that cannot be. -/
inductive Ecc | clean | corrected | broken
  deriving DecidableEq, Repr

/-- What one boot phase reports of its work (R13, R16, R20, R204, R208). -/
structure BootReport where
  /-- Phase 0x01: for each farrier, whether the signature of its firmware checks, its security version, and the SHA3-512 digest of
  its image. -/
  firmware : List (Bool × Nat × List (BitVec 8))
  /-- Phase 0x02: the sheets whose clocks have started, one bit each. -/
  sheets : Nat
  /-- Phase 0x03: every link and crossing has trained. -/
  trained : Bool
  /-- Phase 0x04: DRAM training and the tower self-test have passed. -/
  towersGood : Bool
  /-- Phase 0x05: for each compute die, the physical clusters that passed self-test, one bit each. -/
  goodClusters : List Nat
  /-- Phase 0x02: each sheet counter's offset at release, in ns (R16). -/
  offsets : List Nat
  /-- Phase 0x01: for each port, whether it trained as CXL (R49). -/
  cxlPorts : List Bool
  /-- Phase 0x07: the fibres that trained (R21). -/
  fibresUp : List Nat
  /-- Phase 0x08: HOPMIN, HOPMAX, then XMIN, XMAX for the 8 crossings (R30). -/
  lbtab : List Nat
  deriving DecidableEq, Repr

/-- A panel link, by the compute die and the tower it joins (R9). -/
structure LinkId where
  die : Nat
  tower : Nat
  deriving DecidableEq, Repr

/-- An access by the outside world: a read of some bytes or a write of given bytes. -/
inductive ExtAccess
  | read (n : Nat)
  | write (bytes : List (BitVec 8))
  deriving DecidableEq, Repr

/-- Who makes a pool access: a package, or a host through a package's port (R44). -/
inductive Grantee | pkg (k : Nat) | host (k port : Nat)
  deriving DecidableEq, Repr

/-- Who makes a pool access, and the hops that its packet has made (R40, R44). -/
structure PoolSource where
  who : Grantee
  hops : Nat
  deriving DecidableEq, Repr

/-- A write of a port to BAR0 or BAR2: where it goes in the management window, and its bytes (R51, R52). -/
structure BarWrite where
  port : Nat
  off : Nat
  size : Nat
  deriving DecidableEq, Repr

/-- A flit of a fibre (R38). -/
structure FlitRef where
  fibre : Nat
  seq : Nat
  deriving DecidableEq, Repr

/-- Where a tail write comes from (R56). -/
inductive TailSource
  /-- A write of a port to BAR2, of some bytes (R51). -/
  | host (port size : Nat)
  | device
  /-- A message of another package, with the hops it has made. -/
  | remote (pkg hops : Nat)
  deriving DecidableEq, Repr

/-- Where the arbiter places one team: its core, scratchpad base and size (R88, R160). -/
structure TeamSpot where
  core : CoreId
  spbase : Nat
  deriving DecidableEq, Repr

/-- What a debug agent reads (R206). -/
inductive ReadTarget
  | errorLog (index : Nat)
  | register (off size : Nat)
  | scalar (g : GroupRef) (n : Fin 16)
  | vector (g : GroupRef) (n : Fin 24) (lane : Fin 64)
  | queue (g : GroupRef) (n : Fin 16) (lane : Fin 64)
  | mask (g : GroupRef) (n : Fin 8)
  /-- A cached line's contents. -/
  | line (level : Node) (asid line : Nat)
  /-- A directory entry: the line's state at the level, and those of the children recorded as holding it. -/
  | directory (level : Node) (asid line : Nat)
  | dram (tower pa : Nat)
  | exm (g : GroupRef)
  | maskStack (g : GroupRef) (n : Fin 16)
  | tile (tid team t i : Nat)
  | millScalar (m : MillRef) (n : Fin 32)
  | millVector (m : MillRef) (n : Fin 16) (i : Nat)
  | millMask (m : MillRef) (n : Fin 4)
  /-- A 64-byte line of an instruction cache. -/
  | text (c : CoreId) (asid line : Nat)
  /-- A tower-cache line. -/
  | towerCache (tower line : Nat)
  deriving DecidableEq, Repr

/-- A transit packet between packages (R40, R41). -/
structure Packet where
  cls : Nat
  src : Nat
  dst : Nat
  addr : Nat
  hops : Nat
  deriving DecidableEq, Repr

/-- Everything the opcode table lists, one constructor per row, in the table's order. -/
inductive Instr
  /-- PART_RESET (R20). -/
  | partReset
  /-- BOOT_PHASE (R20). -/
  | bootPhase (r : BootReport)
  /-- BOOT_PHASE_LIMIT_EXPIRY (R20). -/
  | bootPhaseLimitExpiry
  /-- CLOCK_STRETCH_CHANGE (R17). -/
  | clockStretchChange (sheet : Fin 4) (n : Nat)
  /-- FREEZE_REQUEST (R205). -/
  | freezeRequest
  /-- DEBUG_FREEZE_REQUEST (R205). -/
  | debugFreezeRequest
  /-- SHEET_FREEZE (R22). -/
  | sheetFreeze (sheet : Fin 4)
  /-- THAW (R23). -/
  | thaw
  /-- FRZCTL_RESET (R205). -/
  | frzctlReset
  /-- READOUT_1687 (R206). -/
  | readout1687 (what : ReadTarget)
  /-- DEBUG_GRANT (R206). -/
  | debugGrant (valid : Bool) (marker : Option (BitVec 64))
  /-- FARRIER_LOST (R207). -/
  | farrierLost (sheet : Fin 4)
  /-- LINK_FLIT_CRC_FAIL (R199). -/
  | linkFlitCrcFail (l : LinkId)
  /-- LINK_RETRAIN (R199). -/
  | linkRetrain (l : LinkId)
  /-- LINK_RETRAIN_FAIL (R199). -/
  | linkRetrainFail (l : LinkId)
  /-- ROUTER_FORWARD (R26). -/
  | routerForward (k : Nat)
  /-- OPTICAL_NAK (R39). -/
  | opticalNak (f : FlitRef)
  /-- FIBRE_RETRAIN (R39). -/
  | fibreRetrain (f good : Nat)
  /-- HASH_BUCKET_MOVE (R41). -/
  | hashBucketMove (b f : Nat)
  /-- OPTICAL_TRANSIT (R40). -/
  | opticalTransit (p : Nat) (pkt : Packet)
  /-- ROUTE_ENTRY_WRITE (R42). -/
  | routeEntryWrite (p k : Nat) (v : BitVec 32)
  /-- RESPONSE_ARRIVAL (R32). -/
  | responseArrival (k : Nat)
  /-- WATERMARK_NOTICE (R33). -/
  | watermarkNotice (k : Nat)
  /-- REQUEST_TIMEOUT (R34). -/
  | requestTimeout (site : Site) (tag : Nat)
  /-- XTOCFG_WRITE (R36). -/
  | xtocfgWrite (site : Site) (v : BitVec 32)
  /-- PKGNUM_WRITE (R52). -/
  | pkgnumWrite (v : BitVec 32)
  /-- LRBASE_WRITE (R44). -/
  | lrbaseWrite (r : Nat) (v : BitVec 64)
  /-- LRGRANT_WRITE (R44). -/
  | lrgrantWrite (r g : Nat) (v : BitVec 64)
  /-- GRANT_WITHDRAW_COMPLETE (R44). -/
  | grantWithdrawComplete (r : Nat)
  /-- POOL_ACCESS (R45). -/
  | poolAccess (who : PoolSource) (region off : Nat) (acc : ExtAccess)
  /-- COMPOSITION_ENTRY_WRITE (R47). -/
  | compositionEntryWrite (n : Nat) (v : BitVec 64)
  /-- CXL_MEM_ACCESS (R47). -/
  | cxlMemAccess (port dpa : Nat) (acc : ExtAccess)
  /-- BAR4_ACCESS (R152). -/
  | bar4Access (port off : Nat) (acc : ExtAccess)
  /-- REGISTER_WRITE (R52). -/
  | registerWrite (off : BarWrite) (v : BitVec 64)
  /-- QUEUE_ENABLE (R54). -/
  | queueEnable (q : Nat) (v : BitVec 32)
  /-- QUEUE_DISABLE (R54). -/
  | queueDisable (q : Nat) (v : BitVec 32)
  /-- QSTAT_CLEAR (R54). -/
  | qstatClear (q : Nat) (v : BitVec 32)
  /-- TAIL_WRITE (R56). -/
  | tailWrite (src : TailSource) (q : Nat) (t : BitVec 32)
  /-- RECORD_PULL (R57). -/
  | recordPull (q : Nat) (ext : List (BitVec 8))
  /-- RECORD_READ_FAIL (R59). -/
  | recordReadFail (q : Nat)
  /-- HEAD_SHADOW_FAIL (R54). -/
  | headShadowFail (q : Nat)
  /-- TASK_ADMIT (R64). -/
  | taskAdmit (q : Nat)
  /-- ADMISSION_RETRY (R72). -/
  | admissionRetry (q : Nat)
  /-- SUCCESSOR_LIST_READ (R74). -/
  | successorListRead (tid : Nat)
  /-- HAZARD_RELEASE (R76). -/
  | hazardRelease (tid : Nat)
  /-- TASK_PLACE (R88). -/
  | taskPlace (tid set : Nat) (spots : List TeamSpot) (cwbase : Nat)
  /-- AGEING_RESERVE (R86). -/
  | ageingReserve (tid set : Nat)
  /-- EDGE_INVALIDATE (R80). -/
  | edgeInvalidate (tid die : Nat)
  /-- TEAM_START (R159). -/
  | teamStart (tid set : Nat)
  /-- PREEMPT_CHOOSE (R91). -/
  | preemptChoose (tid victim set : Nat)
  /-- PREEMPT_SEQUENCE (R92). -/
  | preemptSequence (tid set : Nat)
  /-- PREEMPT_COMPLETE (R72). -/
  | preemptComplete (tid set : Nat)
  /-- TASK_RESUME (R94). -/
  | taskResume (tid set : Nat) (spots : List TeamSpot)
  /-- TASK_DRAIN (R80). -/
  | taskDrain (tid : Nat)
  /-- EDGE_WRITEBACK (R80). -/
  | edgeWriteback (tid die : Nat)
  /-- TASK_DONE (R72). -/
  | taskDone (tid : Nat)
  /-- TASK_FAULT_END (R73). -/
  | taskFaultEnd (tid : Nat)
  /-- COMPLETION_STORE_FAIL (R66). -/
  | completionStoreFail (tid : Nat)
  /-- MSIX_SEND (R67). -/
  | msixSend (tid : Nat)
  /-- STABLE_POOL_WRITE (R416). -/
  | stablePoolWrite (off : Nat) (v : BitVec 64)
  /-- MILL_ASSIGN (R189). -/
  | millAssign (tid : Nat) (m : MillRef)
  /-- MILL_LOAD_COMPLETE (R189). -/
  | millLoadComplete (m : MillRef)
  /-- MILL_PREEMPT (R190). -/
  | millPreempt (m : MillRef)
  /-- MILL_RESTORE (R189). -/
  | millRestore (tid rank : Nat) (m : MillRef)
  /-- OWNER_TABLE_WRITE (R101). -/
  | ownerTableWrite (die n : Nat) (v : BitVec 32)
  /-- HOME_TABLE_WRITE (R115). -/
  | homeTableWrite (die n : Nat) (v : BitVec 128)
  /-- TOWER_HOME_TABLE_WRITE (R188). -/
  | towerHomeTableWrite (tower n : Nat) (v : BitVec 128)
  /-- GETS (R110). -/
  | gets (k : Nat)
  /-- GETX (R110). -/
  | getx (k : Nat)
  /-- UPGR (R110). -/
  | upgr (k : Nat)
  /-- INV (R414). -/
  | inv (k : Nat)
  /-- FWDS (R110). -/
  | fwds (k : Nat)
  /-- FWDX (R110). -/
  | fwdx (k : Nat)
  /-- RECALL (R110). -/
  | recallMsg (k : Nat)
  /-- DRAIN (R112). -/
  | drain (k : Nat)
  /-- DRAINACK (R112). -/
  | drainack (k : Nat)
  /-- DATA (R110). -/
  | data (k : Nat)
  /-- DATAX (R110). -/
  | datax (k : Nat)
  /-- INVACK (R414). -/
  | invack (k : Nat)
  /-- WBDIRTY (R104). -/
  | wbdirty (k : Nat)
  /-- W_REGISTRATION_TIMER (R111). -/
  | wRegistrationTimer (node : Node) (asid line : Nat)
  /-- LINE_EVICTION (R110). -/
  | lineEviction (node : Node) (asid line : Nat) (ecc : Ecc)
  /-- TOWER_CACHE_EVICTION (R186). -/
  | towerCacheEviction (tower line : Nat)
  /-- PAGE_WALK (R121). -/
  | pageWalk (k : Nat)
  /-- PROMREQ_WRITE (R127). -/
  | promreqWrite (tower : Nat) (v : BitVec 64)
  /-- PROMOTION_COMPLETE (R127). -/
  | promotionComplete (tower : Nat)
  /-- LOST_MARK_CLEAR (R126). -/
  | lostMarkClear (tower : Nat) (v : BitVec 32)
  /-- FAULT_RECORD_POST (R130). -/
  | faultRecordPost (fid : Nat)
  /-- DIE_FAILURE (R131). -/
  | dieFailure (die : Nat)
  /-- DIRECTORY_SCAN_COMPLETE (R131). -/
  | directoryScanComplete (tower die : Nat)
  /-- TOWER_FAILURE (R133). -/
  | towerFailure (tower : Nat)
  /-- SLICE_REBUILD_COMPLETE (R133). -/
  | sliceRebuildComplete (tower : Nat)
  /-- DIE_RESET (R31). -/
  | dieReset (die : Nat)
  /-- TOWER_RESET (R133). -/
  | towerReset (tower : Nat)
  /-- LOAD_RESPONSE (R305). -/
  | loadResponse (g : GroupRef) (ecc : Ecc)
  /-- MATRIX_K_STEP (R168). -/
  | matrixKStep (c : CoreId) (res : Residue)
  /-- COPY_START (R170). -/
  | copyStart (c : CoreId) (k : Nat)
  /-- COPY_UNIT_COMPLETE (R170). -/
  | copyUnitComplete (c : CoreId) (k : Nat) (ecc : Ecc)
  /-- TETHCFG_WRITE (R172). -/
  | tethcfgWrite (t : Nat) (v : BitVec 32)
  /-- TETHCNT_WRITE (R172). -/
  | tethcntWrite (t : Nat) (v : BitVec 32)
  /-- TETHER_ARRIVAL (R173). -/
  | tetherArrival (tid team t : Nat)
  /-- TETHER_RELEASE (R173). -/
  | tetherRelease (t : Nat)
  /-- EXIT_COMPLETE (R179). -/
  | exitComplete (g : GroupRef)
  /-- ROW_STEP_START (R191). -/
  | rowStepStart (m : MillRef) (c : Nat)
  /-- ROW_STEP_COMPLETE (R191). -/
  | rowStepComplete (m : MillRef) (c : Nat)
  /-- REFRESH (R194). -/
  | refresh (tower ch bank : Nat)
  /-- REFRESH_COMPLETE (R194). -/
  | refreshComplete (tower ch bank : Nat)
  /-- BANK_LOCK_TAKEN (R195). -/
  | bankLockTaken (m : MillRef)
  /-- BANK_LOCK_FORCED_RELEASE (R195). -/
  | bankLockForcedRelease (m : MillRef) (pair : Nat)
  /-- WFA_WAKE (R343). -/
  | wfaWake (g : GroupRef)
  /-- MPARK_WAKE (R371). -/
  | mparkWake (m : MillRef)
  /-- ERROR_RECORD_POST (R202). -/
  | errorRecordPost
  /-- ATTESTATION_GO (R209). -/
  | attestationGo (v : BitVec 32)
  /-- ATTESTATION_DONE (R209). -/
  | attestationDone
  /-- CLAUSE_HEADER (R219). -/
  | clauseHeader (n : Fin 16) (cls : Fin 8) (mbw : Fin 16) (sdr cpw : Bool)
  /-- NOP (R272). -/
  | nop
  /-- SADD (R272). -/
  | sadd (d : Dst) (a b : Src)
  /-- SSUB (R272). -/
  | ssub (d : Dst) (a b : Src)
  /-- SMUL (R272). -/
  | smul (d : Dst) (a b : Src)
  /-- SMULH_S (R272). -/
  | smulhS (d : Dst) (a b : Src)
  /-- SMULH_Z (R272). -/
  | smulhZ (d : Dst) (a b : Src)
  /-- SDIV_S (R273). -/
  | sdivS (d : Dst) (a b : Src)
  /-- SDIV_Z (R273). -/
  | sdivZ (d : Dst) (a b : Src)
  /-- SREM_S (R273). -/
  | sremS (d : Dst) (a b : Src)
  /-- SREM_Z (R273). -/
  | sremZ (d : Dst) (a b : Src)
  /-- SAND (R272). -/
  | sand (d : Dst) (a b : Src)
  /-- SOR (R272). -/
  | sor (d : Dst) (a b : Src)
  /-- SXOR (R272). -/
  | sxor (d : Dst) (a b : Src)
  /-- SSHL (R274). -/
  | sshl (d : Dst) (a b : Src)
  /-- SSHR (R274). -/
  | sshr (d : Dst) (a b : Src)
  /-- SSAR (R274). -/
  | ssar (d : Dst) (a b : Src)
  /-- SMIN_S (R272). -/
  | sminS (d : Dst) (a b : Src)
  /-- SMAX_S (R272). -/
  | smaxS (d : Dst) (a b : Src)
  /-- SMIN_Z (R272). -/
  | sminZ (d : Dst) (a b : Src)
  /-- SMAX_Z (R272). -/
  | smaxZ (d : Dst) (a b : Src)
  /-- SCMP_S (R272). -/
  | scmpS (d : Dst) (a b : Src)
  /-- SCMP_Z (R272). -/
  | scmpZ (d : Dst) (a b : Src)
  /-- SSEL (R272). -/
  | ssel (d : Dst) (a b : Src) (c : Code)
  /-- SMOV (R272). -/
  | smov (d : Dst) (a : Src)
  /-- SMOVL (R272). -/
  | smovl (d : Dst) (lo hi : BitVec 32)
  /-- SCLZ (R272). -/
  | sclz (d : Dst) (a : Src)
  /-- SPOPC (R272). -/
  | spopc (d : Dst) (a : Src)
  /-- SBFX (R274). -/
  | sbfx (d : Dst) (a b : Src) (c : Code)
  /-- SBFI (R274). -/
  | sbfi (d : Dst) (a b : Src) (c : Code)
  /-- SEXW (R272). -/
  | sexw (d : Dst) (a : Src)
  /-- SZXW (R272). -/
  | szxw (d : Dst) (a : Src)
  /-- SMAD (R272). -/
  | smad (d : Dst) (a b c : Src)
  /-- VADD (R285). -/
  | vadd (d : Dst) (a b : Src)
  /-- VSUB (R285). -/
  | vsub (d : Dst) (a b : Src)
  /-- VMUL (R285). -/
  | vmul (d : Dst) (a b : Src)
  /-- VMULH_S (R285). -/
  | vmulhS (d : Dst) (a b : Src)
  /-- VMULH_Z (R285). -/
  | vmulhZ (d : Dst) (a b : Src)
  /-- VMAD (R285). -/
  | vmad (d : Dst) (a b c : Src)
  /-- VADDS_S (R285). -/
  | vaddsS (d : Dst) (a b : Src)
  /-- VSUBS_S (R285). -/
  | vsubsS (d : Dst) (a b : Src)
  /-- VMIN_S (R285). -/
  | vminS (d : Dst) (a b : Src)
  /-- VMAX_S (R285). -/
  | vmaxS (d : Dst) (a b : Src)
  /-- VMIN_Z (R285). -/
  | vminZ (d : Dst) (a b : Src)
  /-- VMAX_Z (R285). -/
  | vmaxZ (d : Dst) (a b : Src)
  /-- VABS_S (R285). -/
  | vabsS (d : Dst) (a : Src)
  /-- VAND (R285). -/
  | vand (d : Dst) (a b : Src)
  /-- VOR (R285). -/
  | vor (d : Dst) (a b : Src)
  /-- VXOR (R285). -/
  | vxor (d : Dst) (a b : Src)
  /-- VSHL (R286). -/
  | vshl (d : Dst) (a b : Src)
  /-- VSHR (R286). -/
  | vshr (d : Dst) (a b : Src)
  /-- VSAR (R286). -/
  | vsar (d : Dst) (a b : Src)
  /-- VCLZ (R285). -/
  | vclz (d : Dst) (a : Src)
  /-- VPOPC (R285). -/
  | vpopc (d : Dst) (a : Src)
  /-- VBFX (R286). -/
  | vbfx (d : Dst) (a b : Src) (c : Code)
  /-- VBFI (R286). -/
  | vbfi (d : Dst) (a b : Src) (c : Code)
  /-- VSEL (R285). -/
  | vsel (d : Dst) (a b : Src) (c : Code)
  /-- VMOV (R285). -/
  | vmov (d : Dst) (a : Src)
  /-- VFADD (R287). -/
  | vfadd (d : Dst) (a b : Src)
  /-- VFSUB (R287). -/
  | vfsub (d : Dst) (a b : Src)
  /-- VFMUL (R287). -/
  | vfmul (d : Dst) (a b : Src)
  /-- VFFMA (R287). -/
  | vffma (d : Dst) (a b c : Src)
  /-- VFMIN (R287). -/
  | vfmin (d : Dst) (a b : Src)
  /-- VFMAX (R287). -/
  | vfmax (d : Dst) (a b : Src)
  /-- VFABS (R287). -/
  | vfabs (d : Dst) (a : Src)
  /-- VFNEG (R287). -/
  | vfneg (d : Dst) (a : Src)
  /-- VFDIV (R287). -/
  | vfdiv (d : Dst) (a b : Src)
  /-- VFSQRT (R287). -/
  | vfsqrt (d : Dst) (a : Src)
  /-- VFRCP (R263). -/
  | vfrcp (d : Dst) (a : Src)
  /-- VFRSQ (R263). -/
  | vfrsq (d : Dst) (a : Src)
  /-- VFEX2 (R263). -/
  | vfex2 (d : Dst) (a : Src)
  /-- VFLG2 (R263). -/
  | vflg2 (d : Dst) (a : Src)
  /-- VFSINP (R263). -/
  | vfsinp (d : Dst) (a : Src)
  /-- VFCOSP (R263). -/
  | vfcosp (d : Dst) (a : Src)
  /-- VFRND (R288). -/
  | vfrnd (d : Dst) (a : Src) (c : Code)
  /-- VFCLS (R289). -/
  | vfcls (d : Dst) (a : Src)
  /-- VCMP_S (R290). -/
  | vcmpS (d : Code) (a b : Src) (c : Code)
  /-- VCMP_Z (R290). -/
  | vcmpZ (d : Code) (a b : Src) (c : Code)
  /-- VFCMP (R291). -/
  | vfcmp (d : Code) (a b : Src) (c : Code)
  /-- MAND (R292). -/
  | mand (a b c : Code)
  /-- MOR (R292). -/
  | mor (a b c : Code)
  /-- MXOR (R292). -/
  | mxor (a b c : Code)
  /-- MNOT (R292). -/
  | mnot (a c : Code)
  /-- MTOEX (R292). -/
  | mtoex (c : Code)
  /-- MFREX (R292). -/
  | mfrex (c : Code)
  /-- MPOPC (R292). -/
  | mpopc (d : Dst) (c : Code)
  /-- MFIRST (R292). -/
  | mfirst (d : Dst) (c : Code)
  /-- MFROMS (R292). -/
  | mfroms (a : Src) (c : Code)
  /-- MTOS (R292). -/
  | mtos (d : Dst) (c : Code)
  /-- VSHFL (R294). -/
  | vshfl (d : Dst) (a b : Src) (c : Code)
  /-- VBCAST (R295). -/
  | vbcast (d : Dst) (a b : Src)
  /-- VTOS (R295). -/
  | vtos (d : Dst) (a b : Src)
  /-- VREDADD_F32 (R296). -/
  | vredaddF32 (d : Dst) (a : Src)
  /-- VREDADD_B32 (R296). -/
  | vredaddB32 (d : Dst) (a : Src)
  /-- VREDMIN_S (R296). -/
  | vredminS (d : Dst) (a : Src)
  /-- VREDMAX_S (R296). -/
  | vredmaxS (d : Dst) (a : Src)
  /-- VREDMIN_F32 (R296). -/
  | vredminF32 (d : Dst) (a : Src)
  /-- VREDMAX_F32 (R296). -/
  | vredmaxF32 (d : Dst) (a : Src)
  /-- VSCANADD_F32 (R297). -/
  | vscanaddF32 (d : Dst) (a : Src)
  /-- VSCANADD_B32 (R297). -/
  | vscanaddB32 (d : Dst) (a : Src)
  /-- VCVT_F32_S32 (R300). -/
  | vcvtF32S32 (d : Dst) (a : Src) (c : Code)
  /-- VCVT_F32_Z32 (R300). -/
  | vcvtF32Z32 (d : Dst) (a : Src) (c : Code)
  /-- VCVT_S32_F32 (R300). -/
  | vcvtS32F32 (d : Dst) (a : Src) (c : Code)
  /-- VCVT_Z32_F32 (R300). -/
  | vcvtZ32F32 (d : Dst) (a : Src) (c : Code)
  /-- VCVT_F16_F32 (R300). -/
  | vcvtF16F32 (d : Dst) (a : Src) (c : Code)
  /-- VCVT_BF16_F32 (R300). -/
  | vcvtBf16F32 (d : Dst) (a : Src) (c : Code)
  /-- VCVT_F32_F16 (R300). -/
  | vcvtF32F16 (d : Dst) (a : Src) (c : Code)
  /-- VCVT_F32_BF16 (R300). -/
  | vcvtF32Bf16 (d : Dst) (a : Src) (c : Code)
  /-- VCVT_E8_F32 (R301). -/
  | vcvtE8F32 (d : Dst) (a b : Src) (c : Code)
  /-- VCVT_F32_E8 (R301). -/
  | vcvtF32E8 (d : Dst) (a b : Src) (c : Code)
  /-- VCVT_N4_F32 (R301). -/
  | vcvtN4F32 (d : Dst) (a b : Src)
  /-- VCVT_F32_N4 (R301). -/
  | vcvtF32N4 (d : Dst) (a b : Src) (c : Code)
  /-- VMXSCALE (R302). -/
  | vmxscale (d : Dst) (a : Src) (c : Code)
  /-- LD_B8 (R305). -/
  | ldB8 (d : Dst) (base off : Src) (m : MemMods)
  /-- LD_S8 (R305). -/
  | ldS8 (d : Dst) (base off : Src) (m : MemMods)
  /-- LD_B16 (R305). -/
  | ldB16 (d : Dst) (base off : Src) (m : MemMods)
  /-- LD_S16 (R305). -/
  | ldS16 (d : Dst) (base off : Src) (m : MemMods)
  /-- LD_B32 (R305). -/
  | ldB32 (d : Dst) (base off : Src) (m : MemMods)
  /-- LD_B64 (R305). -/
  | ldB64 (d : Dst) (base off : Src) (m : MemMods)
  /-- LD_B128 (R305). -/
  | ldB128 (d : Dst) (base off : Src) (m : MemMods)
  /-- ST_B8 (R306). -/
  | stB8 (x base off : Src) (m : MemMods)
  /-- ST_B16 (R306). -/
  | stB16 (x base off : Src) (m : MemMods)
  /-- ST_B32 (R306). -/
  | stB32 (x base off : Src) (m : MemMods)
  /-- ST_B64 (R306). -/
  | stB64 (x base off : Src) (m : MemMods)
  /-- ST_B128 (R306). -/
  | stB128 (x base off : Src) (m : MemMods)
  /-- ST_N4 (R307). -/
  | stN4 (x base off : Src) (m : MemMods)
  /-- LDS_B8 (R305). -/
  | ldsB8 (d : Dst) (base off : Src) (m : MemMods)
  /-- LDS_S8 (R305). -/
  | ldsS8 (d : Dst) (base off : Src) (m : MemMods)
  /-- LDS_B16 (R305). -/
  | ldsB16 (d : Dst) (base off : Src) (m : MemMods)
  /-- LDS_S16 (R305). -/
  | ldsS16 (d : Dst) (base off : Src) (m : MemMods)
  /-- LDS_B32 (R305). -/
  | ldsB32 (d : Dst) (base off : Src) (m : MemMods)
  /-- LDS_B64 (R305). -/
  | ldsB64 (d : Dst) (base off : Src) (m : MemMods)
  /-- LDS_B128 (R305). -/
  | ldsB128 (d : Dst) (base off : Src) (m : MemMods)
  /-- STS_B8 (R306). -/
  | stsB8 (x base off : Src) (m : MemMods)
  /-- STS_B16 (R306). -/
  | stsB16 (x base off : Src) (m : MemMods)
  /-- STS_B32 (R306). -/
  | stsB32 (x base off : Src) (m : MemMods)
  /-- STS_B64 (R306). -/
  | stsB64 (x base off : Src) (m : MemMods)
  /-- STS_B128 (R306). -/
  | stsB128 (x base off : Src) (m : MemMods)
  /-- STS_N4 (R307). -/
  | stsN4 (x base off : Src) (m : MemMods)
  /-- LDC_B8 (R305). -/
  | ldcB8 (d : Dst) (base off : Src) (m : MemMods)
  /-- LDC_S8 (R305). -/
  | ldcS8 (d : Dst) (base off : Src) (m : MemMods)
  /-- LDC_B16 (R305). -/
  | ldcB16 (d : Dst) (base off : Src) (m : MemMods)
  /-- LDC_S16 (R305). -/
  | ldcS16 (d : Dst) (base off : Src) (m : MemMods)
  /-- LDC_B32 (R305). -/
  | ldcB32 (d : Dst) (base off : Src) (m : MemMods)
  /-- LDC_B64 (R305). -/
  | ldcB64 (d : Dst) (base off : Src) (m : MemMods)
  /-- LDC_B128 (R305). -/
  | ldcB128 (d : Dst) (base off : Src) (m : MemMods)
  /-- STC_B8 (R306). -/
  | stcB8 (x base off : Src) (m : MemMods)
  /-- STC_B16 (R306). -/
  | stcB16 (x base off : Src) (m : MemMods)
  /-- STC_B32 (R306). -/
  | stcB32 (x base off : Src) (m : MemMods)
  /-- STC_B64 (R306). -/
  | stcB64 (x base off : Src) (m : MemMods)
  /-- STC_B128 (R306). -/
  | stcB128 (x base off : Src) (m : MemMods)
  /-- LDD_B8 (R305). -/
  | lddB8 (d : Dst) (base off : Src) (m : MemMods)
  /-- LDD_S8 (R305). -/
  | lddS8 (d : Dst) (base off : Src) (m : MemMods)
  /-- LDD_B16 (R305). -/
  | lddB16 (d : Dst) (base off : Src) (m : MemMods)
  /-- LDD_S16 (R305). -/
  | lddS16 (d : Dst) (base off : Src) (m : MemMods)
  /-- LDD_B32 (R305). -/
  | lddB32 (d : Dst) (base off : Src) (m : MemMods)
  /-- LDD_B64 (R305). -/
  | lddB64 (d : Dst) (base off : Src) (m : MemMods)
  /-- LDD_B128 (R305). -/
  | lddB128 (d : Dst) (base off : Src) (m : MemMods)
  /-- STD_B8 (R306). -/
  | stdB8 (x base off : Src) (m : MemMods)
  /-- STD_B16 (R306). -/
  | stdB16 (x base off : Src) (m : MemMods)
  /-- STD_B32 (R306). -/
  | stdB32 (x base off : Src) (m : MemMods)
  /-- STD_B64 (R306). -/
  | stdB64 (x base off : Src) (m : MemMods)
  /-- STD_B128 (R306). -/
  | stdB128 (x base off : Src) (m : MemMods)
  /-- LDP_B8 (R305). -/
  | ldpB8 (d : Dst) (base off : Src) (m : MemMods)
  /-- LDP_S8 (R305). -/
  | ldpS8 (d : Dst) (base off : Src) (m : MemMods)
  /-- LDP_B16 (R305). -/
  | ldpB16 (d : Dst) (base off : Src) (m : MemMods)
  /-- LDP_S16 (R305). -/
  | ldpS16 (d : Dst) (base off : Src) (m : MemMods)
  /-- LDP_B32 (R305). -/
  | ldpB32 (d : Dst) (base off : Src) (m : MemMods)
  /-- LDP_B64 (R305). -/
  | ldpB64 (d : Dst) (base off : Src) (m : MemMods)
  /-- LDP_B128 (R305). -/
  | ldpB128 (d : Dst) (base off : Src) (m : MemMods)
  /-- STP_B8 (R306). -/
  | stpB8 (x base off : Src) (m : MemMods)
  /-- STP_B16 (R306). -/
  | stpB16 (x base off : Src) (m : MemMods)
  /-- STP_B32 (R306). -/
  | stpB32 (x base off : Src) (m : MemMods)
  /-- STP_B64 (R306). -/
  | stpB64 (x base off : Src) (m : MemMods)
  /-- STP_B128 (R306). -/
  | stpB128 (x base off : Src) (m : MemMods)
  /-- SLD_B32 (R308). -/
  | sldB32 (d : Dst) (base off : Src) (m : MemMods)
  /-- SLD_B64 (R308). -/
  | sldB64 (d : Dst) (base off : Src) (m : MemMods)
  /-- SST_B32 (R308). -/
  | sstB32 (x base off : Src) (m : MemMods)
  /-- SST_B64 (R308). -/
  | sstB64 (x base off : Src) (m : MemMods)
  /-- SLDS_B64 (R308). -/
  | sldsB64 (d : Dst) (base off : Src) (m : MemMods)
  /-- SSTS_B64 (R308). -/
  | sstsB64 (x base off : Src) (m : MemMods)
  /-- ATOM_ADD_B32 (R309). -/
  | atomAddB32 (d : Dst) (base off : Src) (m : MemMods)
  /-- ATOM_ADD_F32 (R309). -/
  | atomAddF32 (d : Dst) (base off : Src) (m : MemMods)
  /-- ATOM_MIN_S32 (R309). -/
  | atomMinS32 (d : Dst) (base off : Src) (m : MemMods)
  /-- ATOM_MAX_S32 (R309). -/
  | atomMaxS32 (d : Dst) (base off : Src) (m : MemMods)
  /-- ATOM_MIN_Z32 (R309). -/
  | atomMinZ32 (d : Dst) (base off : Src) (m : MemMods)
  /-- ATOM_MAX_Z32 (R309). -/
  | atomMaxZ32 (d : Dst) (base off : Src) (m : MemMods)
  /-- ATOM_AND (R309). -/
  | atomAnd (d : Dst) (base off : Src) (m : MemMods)
  /-- ATOM_OR (R309). -/
  | atomOr (d : Dst) (base off : Src) (m : MemMods)
  /-- ATOM_XOR (R309). -/
  | atomXor (d : Dst) (base off : Src) (m : MemMods)
  /-- ATOM_XCHG (R309). -/
  | atomXchg (d : Dst) (base off : Src) (m : MemMods)
  /-- ATOM_CAS (R309). -/
  | atomCas (d : Dst) (base off : Src) (m : MemMods)
  /-- ATOM_ADD_B64 (R309). -/
  | atomAddB64 (d : Dst) (base off : Src) (m : MemMods)
  /-- ATOM_CAS_B64 (R309). -/
  | atomCasB64 (d : Dst) (base off : Src) (m : MemMods)
  /-- ATOMS_ADD_B32 (R309). -/
  | atomsAddB32 (d : Dst) (base off : Src) (m : MemMods)
  /-- ATOMS_ADD_F32 (R309). -/
  | atomsAddF32 (d : Dst) (base off : Src) (m : MemMods)
  /-- ATOMS_MIN_S32 (R309). -/
  | atomsMinS32 (d : Dst) (base off : Src) (m : MemMods)
  /-- ATOMS_MAX_S32 (R309). -/
  | atomsMaxS32 (d : Dst) (base off : Src) (m : MemMods)
  /-- ATOMS_MIN_Z32 (R309). -/
  | atomsMinZ32 (d : Dst) (base off : Src) (m : MemMods)
  /-- ATOMS_MAX_Z32 (R309). -/
  | atomsMaxZ32 (d : Dst) (base off : Src) (m : MemMods)
  /-- ATOMS_AND (R309). -/
  | atomsAnd (d : Dst) (base off : Src) (m : MemMods)
  /-- ATOMS_OR (R309). -/
  | atomsOr (d : Dst) (base off : Src) (m : MemMods)
  /-- ATOMS_XOR (R309). -/
  | atomsXor (d : Dst) (base off : Src) (m : MemMods)
  /-- ATOMS_XCHG (R309). -/
  | atomsXchg (d : Dst) (base off : Src) (m : MemMods)
  /-- ATOMS_CAS (R309). -/
  | atomsCas (d : Dst) (base off : Src) (m : MemMods)
  /-- ATOMS_ADD_B64 (R309). -/
  | atomsAddB64 (d : Dst) (base off : Src) (m : MemMods)
  /-- ATOMS_CAS_B64 (R309). -/
  | atomsCasB64 (d : Dst) (base off : Src) (m : MemMods)
  /-- SATOM_ADD_B64 (R310). -/
  | satomAddB64 (d : Dst) (base off : Src) (m : MemMods)
  /-- SATOM_CAS_B64 (R310). -/
  | satomCasB64 (d : Dst) (base off : Src) (m : MemMods)
  /-- RED_ADD_B32 (R312). -/
  | redAddB32 (x base off : Src) (m : MemMods)
  /-- RED_ADD_F32 (R312). -/
  | redAddF32 (x base off : Src) (m : MemMods)
  /-- RED_MIN_S32 (R312). -/
  | redMinS32 (x base off : Src) (m : MemMods)
  /-- RED_MAX_S32 (R312). -/
  | redMaxS32 (x base off : Src) (m : MemMods)
  /-- RED_AND (R312). -/
  | redAnd (x base off : Src) (m : MemMods)
  /-- RED_OR (R312). -/
  | redOr (x base off : Src) (m : MemMods)
  /-- RED_XOR (R312). -/
  | redXor (x base off : Src) (m : MemMods)
  /-- HOME_ATOMIC (R311). -/
  | homeAtomic (k : Nat)
  /-- NEAR_MEMORY_REDUCTION (R197). -/
  | nearMemoryReduction (k : Nat)
  /-- FENCE (R313). -/
  | fence (scope : Fin 8) (order : Fin 4)
  /-- PREF (R314). -/
  | pref (base off : Src) (scope : Fin 8) (nt : Bool)
  /-- CWB (R316). -/
  | cwb (base off : Src) (scope : Fin 8)
  /-- CINV (R317). -/
  | cinv (base off : Src)
  /-- DKFLUSH (R318). -/
  | dkflush (base : Src)
  /-- CPY (R322). -/
  | cpy (st desc : SReg) (srcsp dstsp vscope : Fin 8)
  /-- CPY2 (R322). -/
  | cpy2 (st desc : SReg) (srcsp vscope : Fin 8)
  /-- CPYG (R322). -/
  | cpyg (st desc : SReg) (srcsp dstsp vscope : Fin 8)
  /-- CPYS (R322). -/
  | cpys (st desc : SReg) (srcsp dstsp vscope : Fin 8)
  /-- CPYM (R323). -/
  | cpym (st desc : SReg) (srcsp vscope : Fin 8)
  /-- CPYR (R324). -/
  | cpyr (st desc : SReg) (srcsp dstsp vscope mode : Fin 8)
  /-- CPYF (R322). -/
  | cpyf (st desc : SReg) (dstsp vscope : Fin 8)
  /-- MRED (R324). -/
  | mred (st desc : SReg) (srcsp vscope mode : Fin 8)
  /-- MMA (R330). -/
  | mma (t : Fin 16) (amap bmap fblk : SReg) (ra rb : Bool)
  /-- MMAZ (R330). -/
  | mmaz (t : Fin 16) (amap bmap fblk : SReg) (ra rb : Bool)
  /-- MBATCH (R332). -/
  | mbatch (d : Dst)
  /-- MWAIT (R332). -/
  | mwait (a : Src)
  /-- MDRAIN (R333). -/
  | mdrain (d : Code) (a : Src) (c : Code)
  /-- MDRAINX (R334). -/
  | mdrainx (d : Code) (a b : Src) (c : Code)
  /-- MFILL (R333). -/
  | mfill (d : Code) (a : Src) (c : Code)
  /-- MZERO (R335). -/
  | mzero (d : Code)
  /-- MRDV (R335). -/
  | mrdv (d : Dst) (a : Code) (b : Src) (c : Code)
  /-- MWRV (R335). -/
  | mwrv (d : Code) (a b : Src) (c : Code)
  /-- MPROG (R336). -/
  | mprog (d : Dst) (a : Code)
  /-- BR (R277). -/
  | br (o : BitVec 18)
  /-- BCC (R277). -/
  | bcc (f : Code) (o : BitVec 18)
  /-- BMZ (R277). -/
  | bmz (f : Code) (o : BitVec 18)
  /-- BMNZ (R277). -/
  | bmnz (f : Code) (o : BitVec 18)
  /-- BXZ (R277). -/
  | bxz (o : BitVec 18)
  /-- BXNZ (R277). -/
  | bxnz (o : BitVec 18)
  /-- CALL (R278). -/
  | call (o : BitVec 18)
  /-- CALL_INDIRECT (R278). -/
  | callIndirect (k : SReg)
  /-- RET (R278). -/
  | ret
  /-- JMPI (R277). -/
  | jmpi (t : Src)
  /-- EXIF (R280). -/
  | exif (f : Code)
  /-- EXELSE (R280). -/
  | exelse
  /-- EXEND (R280). -/
  | exend
  /-- TBAR (R339). -/
  | tbar (f : Code)
  /-- TARR (R339). -/
  | tarr (f : Code)
  /-- TWAIT (R339). -/
  | twait (f : Code)
  /-- CBAR (R339). -/
  | cbar (f : Code)
  /-- TETH_ARR (R339). -/
  | tethArr (f : Code)
  /-- TETH_WAIT (R339). -/
  | tethWait (f : Code)
  /-- TLAUNCH (R340). -/
  | tlaunch (k : SReg)
  /-- QTAIL (R341). -/
  | qtail (k : SReg)
  /-- EXIT (R342). -/
  | exit
  /-- TRAP (R342). -/
  | trap (o : BitVec 18)
  /-- BRK (R342). -/
  | brk (o : BitVec 18)
  /-- WFA (R343). -/
  | wfa (k : SReg) (l : BitVec 18)
  /-- RDSYS (R345). -/
  | rdsys (d : Dst) (id : BitVec 12)
  /-- WRSYS (R345). -/
  | wrsys (a : Src) (id : BitVec 12)
  /-- TOPO (R346). -/
  | topo (d : Dst) (c : Code)
  /-- TNOW (R347). -/
  | tnow (d : Dst) (c : Code)
  /-- PMRD (R348). -/
  | pmrd (d : Dst) (c : Code)
  /-- FLTACK (R349). -/
  | fltack (a : Src) (c : Code)
  /-- XLINV (R350). -/
  | xlinv (a b c : Src)
  /-- DBGMK (R351). -/
  | dbgmk (a : Src)
  /-- ADD (R359). -/
  | millAdd (d a b : GReg)
  /-- SUB (R359). -/
  | millSub (d a b : GReg)
  /-- MUL (R359). -/
  | millMul (d a b : GReg)
  /-- MULH (R359). -/
  | millMulh (d a b : GReg)
  /-- AND (R359). -/
  | millAnd (d a b : GReg)
  /-- OR (R359). -/
  | millOr (d a b : GReg)
  /-- XOR (R359). -/
  | millXor (d a b : GReg)
  /-- SHL (R359). -/
  | millShl (d a b : GReg)
  /-- SHR (R359). -/
  | millShr (d a b : GReg)
  /-- SAR (R359). -/
  | millSar (d a b : GReg)
  /-- SLT (R359). -/
  | millSlt (d a b : GReg)
  /-- SLTZ (R359). -/
  | millSltz (d a b : GReg)
  /-- MIN (R359). -/
  | millMin (d a b : GReg)
  /-- MAX (R359). -/
  | millMax (d a b : GReg)
  /-- ADDI (R360). -/
  | millAddi (d a : GReg) (imm : BitVec 16)
  /-- ANDI (R360). -/
  | millAndi (d a : GReg) (imm : BitVec 16)
  /-- ORI (R360). -/
  | millOri (d a : GReg) (imm : BitVec 16)
  /-- XORI (R360). -/
  | millXori (d a : GReg) (imm : BitVec 16)
  /-- SHFI (R360). -/
  | millShfi (d a : GReg) (k : ShiftKind) (n : Code)
  /-- LUI (R360). -/
  | millLui (d : GReg) (imm : BitVec 16)
  /-- LD64 (R361). -/
  | millLd64 (d a : GReg) (imm : BitVec 16)
  /-- ST64 (R361). -/
  | millSt64 (d a : GReg) (imm : BitVec 16)
  /-- LD32 (R361). -/
  | millLd32 (d a : GReg) (imm : BitVec 16)
  /-- ST32 (R361). -/
  | millSt32 (d a : GReg) (imm : BitVec 16)
  /-- LDT (R362). -/
  | millLdt (d a : GReg) (imm : BitVec 16)
  /-- STT (R362). -/
  | millStt (d a : GReg) (imm : BitVec 16)
  /-- BEQ (R363). -/
  | millBeq (a b : GReg) (off : BitVec 16)
  /-- BNE (R363). -/
  | millBne (a b : GReg) (off : BitVec 16)
  /-- BLT (R363). -/
  | millBlt (a b : GReg) (off : BitVec 16)
  /-- BGE (R363). -/
  | millBge (a b : GReg) (off : BitVec 16)
  /-- JAL (R363). -/
  | millJal (d : GReg) (imm : BitVec 16)
  /-- JR (R363). -/
  | millJr (d a : GReg)
  /-- WADD_B32 (R364). -/
  | millWaddB32 (d a b : Fin 16) (k : Fin 4)
  /-- WSUB_B32 (R364). -/
  | millWsubB32 (d a b : Fin 16) (k : Fin 4)
  /-- WMUL_B32 (R364). -/
  | millWmulB32 (d a b : Fin 16) (k : Fin 4)
  /-- WFADD (R364). -/
  | millWfadd (d a b : Fin 16) (k : Fin 4)
  /-- WFMUL (R364). -/
  | millWfmul (d a b : Fin 16) (k : Fin 4)
  /-- WFFMA (R364). -/
  | millWffma (d a b c : Fin 16) (k : Fin 4)
  /-- WFMAX (R364). -/
  | millWfmax (d a b : Fin 16) (k : Fin 4)
  /-- WFMIN (R364). -/
  | millWfmin (d a b : Fin 16) (k : Fin 4)
  /-- WREDADD_F32 (R364). -/
  | millWredaddF32 (d a : Fin 16) (k : Fin 4)
  /-- WCMP (R364). -/
  | millWcmp (kd : Fin 4) (a b : Fin 16) (k : Fin 4) (cond : Fin 16)
  /-- WSEL (R364). -/
  | millWsel (d a b : Fin 16) (kc : Fin 4) (k : Fin 4)
  /-- WBCAST (R364). -/
  | millWbcast (d a b : Fin 16) (k : Fin 4)
  /-- WLD (R365). -/
  | millWld (w : Fin 16) (buf : Bool) (a : GReg) (imm : BitVec 16)
  /-- WST (R365). -/
  | millWst (w : Fin 16) (buf : Bool) (a : GReg) (imm : BitVec 16)
  /-- ROWCP (R367). -/
  | millRowcp (m d s : GReg)
  /-- ROWZERO (R367). -/
  | millRowzero (m p : GReg)
  /-- ROWBUF (R367). -/
  | millRowbuf (p i : GReg)
  /-- BUFROW (R367). -/
  | millBufrow (p i : GReg)
  /-- ROWMAC (R196). -/
  | millRowmac (o p m : GReg)
  /-- BANKLK (R368). -/
  | millBanklk (p : GReg)
  /-- BANKUL (R368). -/
  | millBankul (p : GReg)
  /-- ROWINV (R369). -/
  | millRowinv (m p : GReg)
  /-- ROWWAIT (R367). -/
  | millRowwait
  /-- MSYNC (R370). -/
  | millMsync
  /-- MHALT (R370). -/
  | millMhalt
  /-- MTRAP (R370). -/
  | millMtrap (imm : BitVec 16)
  /-- MRDSR (R354). -/
  | millMrdsr (d : GReg) (id : BitVec 16)
  /-- MWRSR (R354). -/
  | millMwrsr (a : GReg) (id : BitVec 16)
  /-- MPARK (R371). -/
  | millMpark (a : GReg) (limit : BitVec 16)
  /-- LINK_RETRAIN_COMPLETE (R199). -/
  | linkRetrainComplete (l : LinkId)
  /-- RETIRED_TAG_RELEASE (R35). -/
  | retiredTagRelease (site : Site) (tag : Nat)
  /-- FIBRE_COMES_BACK (R41). -/
  | fibreComesBack (f : Nat)
  /-- BACK_INVALIDATE_RESPONSE (R112). -/
  | backInvalidateResponse (port : Nat)
  /-- MILL_LDT_STT_AT_HOME (R362). -/
  | millLdtSttAtHome (k : Nat)
  /-- CLUSTER_WINDOW_ACCESS (R99). -/
  | clusterWindowAccess (k : Nat)
  /-- TNOW_REQUEST_ARRIVAL (R347). -/
  | tnowRequestArrival (k : Nat)
  deriving DecidableEq, Repr

end Sys2Proof
end

