-- ==== Sys2Proof/WellFormed.lean ====
section
/-! DEFINITION. Well-formedness: the operand codes each word accepts, from its page (R224 to R228,
R269, R282, R304, R319, R327, R339, R345 to R351, R356 to R371). A word that decodes but is not well
formed raises ILLOPND when it is executed (BADCLAUSE for a clause header). -/

namespace Sys2Proof

/-- Any source code of R224 that is not reserved. -/
def Src.isSrc : Src → Bool | .rsv _ => false | _ => true
/-- A uniform source: a scalar, zero or a literal (R269). -/
def Src.isUni : Src → Bool | .s _ => true | .zero => true | .lit _ => true | _ => false
/-- A scalar register. -/
def Src.isSReg : Src → Bool | .s _ => true | _ => false
/-- A literal. -/
def Src.isLit : Src → Bool | .lit _ => true | _ => false
/-- A scalar register or zero (data of a .b64 store, R304). -/
def Src.isSZ : Src → Bool | .s _ => true | .zero => true | _ => false
/-- The code zero (data of a .b128 store, R304). -/
def Src.isZ : Src → Bool | .zero => true | _ => false
/-- A named vector register whose number is a multiple of `k` (R304, R310). -/
def Src.isVEvery (a : Src) (k : Nat) : Bool := match a with | .v n => n.val % k == 0 | _ => false
/-- A vector-result destination (R282). -/
def Dst.isVec : Dst → Bool | .push => true | .v _ => true | _ => false
/-- A scalar-result destination (R282). -/
def Dst.isS : Dst → Bool | .s _ => true | _ => false
/-- A named vector register whose number is a multiple of `k` (R304, R310). -/
def Dst.isVEvery (d : Dst) (k : Nat) : Bool := match d with | .v n => n.val % k == 0 | _ => false
/-- An even scalar register (R310). -/
def Dst.isSEven : Dst → Bool | .s n => n.val % 2 == 0 | _ => false
/-- A code below `n`. -/
def Code.below (c : Code) (n : Nat) : Bool := decide (c.val < n)
/-- The integer condition codes of R275. -/
def Code.isCond (c : Code) : Bool := decide (c.val < 10)
/-- The codes `vcmp.s` accepts (R290). -/
def Code.isCondS (c : Code) : Bool := decide (c.val < 6)
/-- The codes `vcmp.z` accepts (R290). -/
def Code.isCondZ (c : Code) : Bool := decide (c.val < 2) || (decide (6 ≤ c.val) && decide (c.val < 10))
/-- The rounding and saturation codes of R248. -/
def Code.isMode (c : Code) : Bool := decide (c.val < 4) || (decide (8 ≤ c.val) && decide (c.val < 12))
/-- The set codes of R302. -/
def Code.isSet (c : Code) : Bool := c == 0x10 || c == 0x11 || c == 0x20 || c == 0x21 || c == 0x22 || c == 0x23
/-- The conversions `mdrain` accepts (R333). -/
def Code.isDrain (c : Code) : Bool :=
  c == 0 || ((c.val / 16 == 1 || c.val / 16 == 2) && (decide (c.val % 16 < 4) || (decide (8 ≤ c.val % 16) && decide (c.val % 16 < 12))))
/-- The formats `mfill` accepts (R333). -/
def Code.isFill (c : Code) : Bool := c == 0 || c == 0x10 || c == 0x20
/-- The sheet selectors of `tnow` (R347). -/
def Code.isTnow (c : Code) : Bool := c == 0 || (decide (0x10 ≤ c.val) && decide (c.val < 0x14))
/-- Scope and order of a load or store: a plain access has scope 0 (R227, R304). -/
def MemMods.ok (m : MemMods) : Bool :=
  decide (m.scope.val < 6) && decide (m.order.val < 2) && (m.order.val == 1 || m.scope.val == 0)
/-- Scope and order of an atomic or a reduction (R227, R304; DEDUCED, log entry 20: the scope says where
it is performed whatever the order, R311, R312). -/
def MemMods.okAtom (m : MemMods) : Bool := decide (m.scope.val < 6) && decide (m.order.val < 2)
/-- System registers that `rdsys` reads (R345). -/
def sysReadable (id : BitVec 12) : Bool :=
  let n := id.toNat
  decide (n ≤ 0x0E) || (decide (0x10 ≤ n) && decide (n ≤ 0x17)) || (decide (0x20 ≤ n) && decide (n ≤ 0x26)) || n == 0x40 || n == 0x41
/-- System registers with a read-write field (R345). -/
def sysWritable (id : BitVec 12) : Bool := id == 0x10#12 || id == 0x12#12 || id == 0x17#12
/-- Mill system registers (R354). -/
def millReadable (id : BitVec 16) : Bool :=
  let n := id.toNat
  decide (n ≤ 0x07) || (decide (0x10 ≤ n) && decide (n ≤ 0x13)) || (decide (0x20 ≤ n) && decide (n ≤ 0x26))
/-- Mill system registers that `mwrsr` writes (R354). -/
def millWritable (id : BitVec 16) : Bool := decide (0x11 ≤ id.toNat) && decide (id.toNat ≤ 0x13)


def okHeader (n : Fin 16) (cls : Fin 8) : Bool := decide (n.val ≠ 0) && decide (cls.val < 6)
def okS3 (d : Dst) (a : Src) (b : Src) : Bool := d.isS && a.isUni && b.isUni
def okSsel (d : Dst) (a : Src) (b : Src) (c : Code) : Bool := d.isS && a.isUni && b.isUni && c.isCond
def okS2 (d : Dst) (a : Src) : Bool := d.isS && a.isUni
def okSbf (d : Dst) (a : Src) (b : Src) : Bool := d.isS && a.isUni && b.isUni
def okS4 (d : Dst) (a : Src) (b : Src) (c : Src) : Bool := d.isS && a.isUni && b.isUni && c.isUni
def okV3 (d : Dst) (a : Src) (b : Src) : Bool := d.isVec && a.isSrc && b.isSrc
def okV4 (d : Dst) (a : Src) (b : Src) (c : Src) : Bool := d.isVec && a.isSrc && b.isSrc && c.isSrc
def okV2 (d : Dst) (a : Src) : Bool := d.isVec && a.isSrc
def okVbf (d : Dst) (a : Src) (b : Src) (c : Code) : Bool := d.isVec && a.isSrc && b.isSrc && c.below 33
def okVk8 (d : Dst) (a : Src) (b : Src) (c : Code) : Bool := d.isVec && a.isSrc && b.isSrc && c.below 8
def okVrnd (d : Dst) (a : Src) (c : Code) : Bool := d.isVec && a.isSrc && c.below 4
def okCmpS (d : Code) (a : Src) (b : Src) (c : Code) : Bool := d.isCondS && a.isSrc && b.isSrc && c.below 8
def okCmpZ (d : Code) (a : Src) (b : Src) (c : Code) : Bool := d.isCondZ && a.isSrc && b.isSrc && c.below 8
def okCmpF (d : Code) (a : Src) (b : Src) (c : Code) : Bool := d.below 8 && a.isSrc && b.isSrc && c.below 8
def okM3 (a : Code) (b : Code) (c : Code) : Bool := a.below 8 && b.below 8 && c.below 8
def okM2 (a : Code) (c : Code) : Bool := a.below 8 && c.below 8
def okDM (d : Dst) (c : Code) : Bool := d.isS && c.below 8
def okMfroms (a : Src) (c : Code) : Bool := a.isUni && c.below 8
def okVc4 (d : Dst) (a : Src) (b : Src) (c : Code) : Bool := d.isVec && a.isSrc && b.isSrc && c.below 4
def okBcast (d : Dst) (a : Src) (b : Src) : Bool := d.isVec && a.isSrc && b.isUni
def okVtos (d : Dst) (a : Src) (b : Src) : Bool := d.isS && a.isSrc && b.isUni
def okRed (d : Dst) (a : Src) : Bool := d.isS && a.isSrc
def okCvt (d : Dst) (a : Src) (c : Code) : Bool := d.isVec && a.isSrc && c.isMode
def okHalf (d : Dst) (a : Src) (c : Code) : Bool := d.isVec && a.isSrc && c.below 2
def okE8 (d : Dst) (a : Src) (b : Src) (c : Code) : Bool := d.isVec && a.isSrc && b.isSrc && c.isMode
def okScale (d : Dst) (a : Src) (c : Code) : Bool := d.isVec && a.isSrc && c.isSet
def okLd (d : Dst) (base : Src) (off : Src) (m : MemMods) : Bool := d.isVec && base.isSrc && off.isSrc && m.ok
def okLd64 (d : Dst) (base : Src) (off : Src) (m : MemMods) : Bool := d.isVEvery 2 && base.isSrc && off.isSrc && m.ok
def okLd128 (d : Dst) (base : Src) (off : Src) (m : MemMods) : Bool := d.isVEvery 4 && base.isSrc && off.isSrc && m.ok
def okSt (x : Src) (base : Src) (off : Src) (m : MemMods) : Bool := x.isSrc && base.isSrc && off.isSrc && m.ok
def okSt64 (x : Src) (base : Src) (off : Src) (m : MemMods) : Bool := (x.isVEvery 2 || x.isSZ) && base.isSrc && off.isSrc && m.ok
def okSt128 (x : Src) (base : Src) (off : Src) (m : MemMods) : Bool := (x.isVEvery 4 || x.isZ) && base.isSrc && off.isSrc && m.ok
def okSld (d : Dst) (base : Src) (off : Src) (m : MemMods) : Bool := d.isS && base.isUni && off.isUni && m.ok
def okSst (x : Src) (base : Src) (off : Src) (m : MemMods) : Bool := x.isUni && base.isUni && off.isUni && m.ok
def okAtom1 (d : Dst) (base : Src) (off : Src) (m : MemMods) : Bool := d.isVEvery 1 && base.isSrc && off.isSrc && m.okAtom
def okAtom2 (d : Dst) (base : Src) (off : Src) (m : MemMods) : Bool := d.isVEvery 2 && base.isSrc && off.isSrc && m.okAtom
def okAtom4 (d : Dst) (base : Src) (off : Src) (m : MemMods) : Bool := d.isVEvery 4 && base.isSrc && off.isSrc && m.okAtom
def okSatom (d : Dst) (base : Src) (off : Src) (m : MemMods) : Bool := d.isS && base.isUni && off.isUni && m.okAtom
def okSatomCas (d : Dst) (base : Src) (off : Src) (m : MemMods) : Bool := d.isSEven && base.isUni && off.isUni && m.okAtom
def okRedm (x : Src) (base : Src) (off : Src) (m : MemMods) : Bool := x.isSrc && base.isSrc && off.isSrc && m.okAtom
def okFence (scope : Fin 8) (order : Fin 4) : Bool := decide (scope.val < 6) && decide (order.val ≠ 0)
def okPref (base : Src) (off : Src) (scope : Fin 8) : Bool := base.isSrc && off.isSrc && (scope == 0 || scope == 2 || scope == 4)
def okCwb (base : Src) (off : Src) (scope : Fin 8) : Bool := base.isSReg && off.isUni && decide (scope.val < 6)
def okCinv (base : Src) (off : Src) : Bool := base.isSReg && off.isUni
def okCpy (srcsp : Fin 8) (dstsp : Fin 8) (vscope : Fin 8) : Bool := decide (srcsp.val < 4) && decide (dstsp.val < 4) && decide (vscope.val < 6)
def okCpyD (srcsp : Fin 8) (vscope : Fin 8) : Bool := decide (srcsp.val < 4) && decide (vscope.val < 6)
def okCpyr (srcsp : Fin 8) (dstsp : Fin 8) (vscope : Fin 8) (mode : Fin 8) : Bool := decide (srcsp.val < 4) && (dstsp == 1 || dstsp == 2) && decide (vscope.val < 6) && decide (mode.val < 6)
def okCpyf (dstsp : Fin 8) (vscope : Fin 8) : Bool := decide (dstsp.val < 4) && decide (vscope.val < 6)
def okMred (srcsp : Fin 8) (vscope : Fin 8) (mode : Fin 8) : Bool := decide (srcsp.val < 4) && (vscope == 3 || vscope == 4 || vscope == 5) && decide (mode.val < 6)
def okDrain (d : Code) (a : Src) (c : Code) : Bool := d.below 16 && a.isUni && c.isDrain
def okDrainx (d : Code) (a : Src) (b : Src) (c : Code) : Bool := d.below 16 && a.isUni && b.isUni && c.isSet
def okFill (d : Code) (a : Src) (c : Code) : Bool := d.below 16 && a.isUni && c.isFill
def okMrdv (d : Dst) (a : Code) (b : Src) (c : Code) : Bool := d.isVec && a.below 16 && b.isUni && c.below 2
def okMwrv (d : Code) (a : Src) (b : Src) (c : Code) : Bool := d.below 16 && a.isSrc && b.isUni && c.below 2
def okMprog (d : Dst) (a : Code) : Bool := d.isS && a.below 16
def okJmpi (t : Src) : Bool := t.isSReg || t.isLit
def okRdsys (d : Dst) (id : BitVec 12) : Bool := d.isS && sysReadable id
def okWrsys (a : Src) (id : BitVec 12) : Bool := a.isUni && sysWritable id
def okTopo (d : Dst) (c : Code) : Bool := d.isS && c.below 9
def okTnow (d : Dst) (c : Code) : Bool := d.isS && c.isTnow
def okFltack (a : Src) (c : Code) : Bool := a.isUni && c.below 2
def okXlinv (a : Src) (b : Src) (c : Src) : Bool := a.isUni && b.isUni && c.isUni
def okWcmp (kd : Fin 4) (cond : Fin 16) : Bool := decide (kd.val ≠ 0) && decide (cond.val ≤ 10)

/-- The operands of the instruction are ones its page accepts. -/
def Instr.wf : Instr → Bool
  | .partReset => true
  | .bootPhase _ => true
  | .bootPhaseLimitExpiry => true
  | .clockStretchChange _ _ => true
  | .freezeRequest => true
  | .debugFreezeRequest => true
  | .sheetFreeze _ => true
  | .thaw => true
  | .frzctlReset => true
  | .readout1687 _ => true
  | .debugGrant _ _ => true
  | .farrierLost _ => true
  | .linkFlitCrcFail _ => true
  | .linkRetrain _ => true
  | .linkRetrainFail _ => true
  | .routerForward _ => true
  | .opticalNak _ => true
  | .fibreRetrain _ _ => true
  | .hashBucketMove _ _ => true
  | .opticalTransit _ _ => true
  | .routeEntryWrite _ _ _ => true
  | .responseArrival _ => true
  | .watermarkNotice _ => true
  | .requestTimeout _ _ => true
  | .xtocfgWrite _ _ => true
  | .pkgnumWrite _ => true
  | .lrbaseWrite _ _ => true
  | .lrgrantWrite _ _ _ => true
  | .grantWithdrawComplete _ => true
  | .poolAccess _ _ _ _ => true
  | .compositionEntryWrite _ _ => true
  | .cxlMemAccess _ _ _ => true
  | .bar4Access _ _ _ => true
  | .registerWrite _ _ => true
  | .queueEnable _ _ => true
  | .queueDisable _ _ => true
  | .qstatClear _ _ => true
  | .tailWrite _ _ _ => true
  | .recordPull _ _ => true
  | .recordReadFail _ => true
  | .headShadowFail _ => true
  | .taskAdmit _ => true
  | .admissionRetry _ => true
  | .successorListRead _ => true
  | .hazardRelease _ => true
  | .taskPlace _ _ _ _ => true
  | .ageingReserve _ _ => true
  | .edgeInvalidate _ _ => true
  | .teamStart _ _ => true
  | .preemptChoose _ _ _ => true
  | .preemptSequence _ _ => true
  | .preemptComplete _ _ => true
  | .taskResume _ _ _ => true
  | .taskDrain _ => true
  | .edgeWriteback _ _ => true
  | .taskDone _ => true
  | .taskFaultEnd _ => true
  | .completionStoreFail _ => true
  | .msixSend _ => true
  | .stablePoolWrite _ _ => true
  | .millAssign _ _ => true
  | .millLoadComplete _ => true
  | .millPreempt _ => true
  | .millRestore _ _ _ => true
  | .ownerTableWrite _ _ _ => true
  | .homeTableWrite _ _ _ => true
  | .towerHomeTableWrite _ _ _ => true
  | .gets _ => true
  | .getx _ => true
  | .upgr _ => true
  | .inv _ => true
  | .fwds _ => true
  | .fwdx _ => true
  | .recallMsg _ => true
  | .drain _ => true
  | .drainack _ => true
  | .data _ => true
  | .datax _ => true
  | .invack _ => true
  | .wbdirty _ => true
  | .wRegistrationTimer _ _ _ => true
  | .lineEviction _ _ _ _ => true
  | .towerCacheEviction _ _ => true
  | .pageWalk _ => true
  | .promreqWrite _ _ => true
  | .promotionComplete _ => true
  | .lostMarkClear _ _ => true
  | .faultRecordPost _ => true
  | .dieFailure _ => true
  | .directoryScanComplete _ _ => true
  | .towerFailure _ => true
  | .sliceRebuildComplete _ => true
  | .dieReset _ => true
  | .towerReset _ => true
  | .loadResponse _ _ => true
  | .matrixKStep _ _ => true
  | .copyStart _ _ => true
  | .copyUnitComplete _ _ _ => true
  | .tethcfgWrite _ _ => true
  | .tethcntWrite _ _ => true
  | .tetherArrival _ _ _ => true
  | .tetherRelease _ => true
  | .exitComplete _ => true
  | .rowStepStart _ _ => true
  | .rowStepComplete _ _ => true
  | .refresh _ _ _ => true
  | .refreshComplete _ _ _ => true
  | .bankLockTaken _ => true
  | .bankLockForcedRelease _ _ => true
  | .wfaWake _ => true
  | .mparkWake _ => true
  | .errorRecordPost => true
  | .attestationGo _ => true
  | .attestationDone => true
  | .clauseHeader n cls _ _ _ => okHeader n cls
  | .nop => true
  | .sadd d a b => okS3 d a b
  | .ssub d a b => okS3 d a b
  | .smul d a b => okS3 d a b
  | .smulhS d a b => okS3 d a b
  | .smulhZ d a b => okS3 d a b
  | .sdivS d a b => okS3 d a b
  | .sdivZ d a b => okS3 d a b
  | .sremS d a b => okS3 d a b
  | .sremZ d a b => okS3 d a b
  | .sand d a b => okS3 d a b
  | .sor d a b => okS3 d a b
  | .sxor d a b => okS3 d a b
  | .sshl d a b => okS3 d a b
  | .sshr d a b => okS3 d a b
  | .ssar d a b => okS3 d a b
  | .sminS d a b => okS3 d a b
  | .smaxS d a b => okS3 d a b
  | .sminZ d a b => okS3 d a b
  | .smaxZ d a b => okS3 d a b
  | .scmpS d a b => okS3 d a b
  | .scmpZ d a b => okS3 d a b
  | .ssel d a b c => okSsel d a b c
  | .smov d a => okS2 d a
  | .smovl d _ _ => d.isS
  | .sclz d a => okS2 d a
  | .spopc d a => okS2 d a
  | .sbfx d a b _ => okSbf d a b
  | .sbfi d a b _ => okSbf d a b
  | .sexw d a => okS2 d a
  | .szxw d a => okS2 d a
  | .smad d a b c => okS4 d a b c
  | .vadd d a b => okV3 d a b
  | .vsub d a b => okV3 d a b
  | .vmul d a b => okV3 d a b
  | .vmulhS d a b => okV3 d a b
  | .vmulhZ d a b => okV3 d a b
  | .vmad d a b c => okV4 d a b c
  | .vaddsS d a b => okV3 d a b
  | .vsubsS d a b => okV3 d a b
  | .vminS d a b => okV3 d a b
  | .vmaxS d a b => okV3 d a b
  | .vminZ d a b => okV3 d a b
  | .vmaxZ d a b => okV3 d a b
  | .vabsS d a => okV2 d a
  | .vand d a b => okV3 d a b
  | .vor d a b => okV3 d a b
  | .vxor d a b => okV3 d a b
  | .vshl d a b => okV3 d a b
  | .vshr d a b => okV3 d a b
  | .vsar d a b => okV3 d a b
  | .vclz d a => okV2 d a
  | .vpopc d a => okV2 d a
  | .vbfx d a b c => okVbf d a b c
  | .vbfi d a b c => okVbf d a b c
  | .vsel d a b c => okVk8 d a b c
  | .vmov d a => okV2 d a
  | .vfadd d a b => okV3 d a b
  | .vfsub d a b => okV3 d a b
  | .vfmul d a b => okV3 d a b
  | .vffma d a b c => okV4 d a b c
  | .vfmin d a b => okV3 d a b
  | .vfmax d a b => okV3 d a b
  | .vfabs d a => okV2 d a
  | .vfneg d a => okV2 d a
  | .vfdiv d a b => okV3 d a b
  | .vfsqrt d a => okV2 d a
  | .vfrcp d a => okV2 d a
  | .vfrsq d a => okV2 d a
  | .vfex2 d a => okV2 d a
  | .vflg2 d a => okV2 d a
  | .vfsinp d a => okV2 d a
  | .vfcosp d a => okV2 d a
  | .vfrnd d a c => okVrnd d a c
  | .vfcls d a => okV2 d a
  | .vcmpS d a b c => okCmpS d a b c
  | .vcmpZ d a b c => okCmpZ d a b c
  | .vfcmp d a b c => okCmpF d a b c
  | .mand a b c => okM3 a b c
  | .mor a b c => okM3 a b c
  | .mxor a b c => okM3 a b c
  | .mnot a c => okM2 a c
  | .mtoex c => c.below 8
  | .mfrex c => c.below 8
  | .mpopc d c => okDM d c
  | .mfirst d c => okDM d c
  | .mfroms a c => okMfroms a c
  | .mtos d c => okDM d c
  | .vshfl d a b c => okVc4 d a b c
  | .vbcast d a b => okBcast d a b
  | .vtos d a b => okVtos d a b
  | .vredaddF32 d a => okRed d a
  | .vredaddB32 d a => okRed d a
  | .vredminS d a => okRed d a
  | .vredmaxS d a => okRed d a
  | .vredminF32 d a => okRed d a
  | .vredmaxF32 d a => okRed d a
  | .vscanaddF32 d a => okV2 d a
  | .vscanaddB32 d a => okV2 d a
  | .vcvtF32S32 d a c => okCvt d a c
  | .vcvtF32Z32 d a c => okCvt d a c
  | .vcvtS32F32 d a c => okCvt d a c
  | .vcvtZ32F32 d a c => okCvt d a c
  | .vcvtF16F32 d a c => okCvt d a c
  | .vcvtBf16F32 d a c => okCvt d a c
  | .vcvtF32F16 d a c => okHalf d a c
  | .vcvtF32Bf16 d a c => okHalf d a c
  | .vcvtE8F32 d a b c => okE8 d a b c
  | .vcvtF32E8 d a b c => okVc4 d a b c
  | .vcvtN4F32 d a b => okV3 d a b
  | .vcvtF32N4 d a b c => okVk8 d a b c
  | .vmxscale d a c => okScale d a c
  | .ldB8 d base off m => okLd d base off m
  | .ldS8 d base off m => okLd d base off m
  | .ldB16 d base off m => okLd d base off m
  | .ldS16 d base off m => okLd d base off m
  | .ldB32 d base off m => okLd d base off m
  | .ldB64 d base off m => okLd64 d base off m
  | .ldB128 d base off m => okLd128 d base off m
  | .stB8 x base off m => okSt x base off m
  | .stB16 x base off m => okSt x base off m
  | .stB32 x base off m => okSt x base off m
  | .stB64 x base off m => okSt64 x base off m
  | .stB128 x base off m => okSt128 x base off m
  | .stN4 x base off m => okSt x base off m
  | .ldsB8 d base off m => okLd d base off m
  | .ldsS8 d base off m => okLd d base off m
  | .ldsB16 d base off m => okLd d base off m
  | .ldsS16 d base off m => okLd d base off m
  | .ldsB32 d base off m => okLd d base off m
  | .ldsB64 d base off m => okLd64 d base off m
  | .ldsB128 d base off m => okLd128 d base off m
  | .stsB8 x base off m => okSt x base off m
  | .stsB16 x base off m => okSt x base off m
  | .stsB32 x base off m => okSt x base off m
  | .stsB64 x base off m => okSt64 x base off m
  | .stsB128 x base off m => okSt128 x base off m
  | .stsN4 x base off m => okSt x base off m
  | .ldcB8 d base off m => okLd d base off m
  | .ldcS8 d base off m => okLd d base off m
  | .ldcB16 d base off m => okLd d base off m
  | .ldcS16 d base off m => okLd d base off m
  | .ldcB32 d base off m => okLd d base off m
  | .ldcB64 d base off m => okLd64 d base off m
  | .ldcB128 d base off m => okLd128 d base off m
  | .stcB8 x base off m => okSt x base off m
  | .stcB16 x base off m => okSt x base off m
  | .stcB32 x base off m => okSt x base off m
  | .stcB64 x base off m => okSt64 x base off m
  | .stcB128 x base off m => okSt128 x base off m
  | .lddB8 d base off m => okLd d base off m
  | .lddS8 d base off m => okLd d base off m
  | .lddB16 d base off m => okLd d base off m
  | .lddS16 d base off m => okLd d base off m
  | .lddB32 d base off m => okLd d base off m
  | .lddB64 d base off m => okLd64 d base off m
  | .lddB128 d base off m => okLd128 d base off m
  | .stdB8 x base off m => okSt x base off m
  | .stdB16 x base off m => okSt x base off m
  | .stdB32 x base off m => okSt x base off m
  | .stdB64 x base off m => okSt64 x base off m
  | .stdB128 x base off m => okSt128 x base off m
  | .ldpB8 d base off m => okLd d base off m
  | .ldpS8 d base off m => okLd d base off m
  | .ldpB16 d base off m => okLd d base off m
  | .ldpS16 d base off m => okLd d base off m
  | .ldpB32 d base off m => okLd d base off m
  | .ldpB64 d base off m => okLd64 d base off m
  | .ldpB128 d base off m => okLd128 d base off m
  | .stpB8 x base off m => okSt x base off m
  | .stpB16 x base off m => okSt x base off m
  | .stpB32 x base off m => okSt x base off m
  | .stpB64 x base off m => okSt64 x base off m
  | .stpB128 x base off m => okSt128 x base off m
  | .sldB32 d base off m => okSld d base off m
  | .sldB64 d base off m => okSld d base off m
  | .sstB32 x base off m => okSst x base off m
  | .sstB64 x base off m => okSst x base off m
  | .sldsB64 d base off m => okSld d base off m
  | .sstsB64 x base off m => okSst x base off m
  | .atomAddB32 d base off m => okAtom1 d base off m
  | .atomAddF32 d base off m => okAtom1 d base off m
  | .atomMinS32 d base off m => okAtom1 d base off m
  | .atomMaxS32 d base off m => okAtom1 d base off m
  | .atomMinZ32 d base off m => okAtom1 d base off m
  | .atomMaxZ32 d base off m => okAtom1 d base off m
  | .atomAnd d base off m => okAtom1 d base off m
  | .atomOr d base off m => okAtom1 d base off m
  | .atomXor d base off m => okAtom1 d base off m
  | .atomXchg d base off m => okAtom1 d base off m
  | .atomCas d base off m => okAtom2 d base off m
  | .atomAddB64 d base off m => okAtom2 d base off m
  | .atomCasB64 d base off m => okAtom4 d base off m
  | .atomsAddB32 d base off m => okAtom1 d base off m
  | .atomsAddF32 d base off m => okAtom1 d base off m
  | .atomsMinS32 d base off m => okAtom1 d base off m
  | .atomsMaxS32 d base off m => okAtom1 d base off m
  | .atomsMinZ32 d base off m => okAtom1 d base off m
  | .atomsMaxZ32 d base off m => okAtom1 d base off m
  | .atomsAnd d base off m => okAtom1 d base off m
  | .atomsOr d base off m => okAtom1 d base off m
  | .atomsXor d base off m => okAtom1 d base off m
  | .atomsXchg d base off m => okAtom1 d base off m
  | .atomsCas d base off m => okAtom2 d base off m
  | .atomsAddB64 d base off m => okAtom2 d base off m
  | .atomsCasB64 d base off m => okAtom4 d base off m
  | .satomAddB64 d base off m => okSatom d base off m
  | .satomCasB64 d base off m => okSatomCas d base off m
  | .redAddB32 x base off m => okRedm x base off m
  | .redAddF32 x base off m => okRedm x base off m
  | .redMinS32 x base off m => okRedm x base off m
  | .redMaxS32 x base off m => okRedm x base off m
  | .redAnd x base off m => okRedm x base off m
  | .redOr x base off m => okRedm x base off m
  | .redXor x base off m => okRedm x base off m
  | .homeAtomic _ => true
  | .nearMemoryReduction _ => true
  | .fence scope order => okFence scope order
  | .pref base off scope _ => okPref base off scope
  | .cwb base off scope => okCwb base off scope
  | .cinv base off => okCinv base off
  | .dkflush base => base.isUni
  | .cpy _ _ srcsp dstsp vscope => okCpy srcsp dstsp vscope
  | .cpy2 _ _ srcsp vscope => okCpyD srcsp vscope
  | .cpyg _ _ srcsp dstsp vscope => okCpy srcsp dstsp vscope
  | .cpys _ _ srcsp dstsp vscope => okCpy srcsp dstsp vscope
  | .cpym _ _ srcsp vscope => okCpyD srcsp vscope
  | .cpyr _ _ srcsp dstsp vscope mode => okCpyr srcsp dstsp vscope mode
  | .cpyf _ _ dstsp vscope => okCpyf dstsp vscope
  | .mred _ _ srcsp vscope mode => okMred srcsp vscope mode
  | .mma _ _ _ _ _ _ => true
  | .mmaz _ _ _ _ _ _ => true
  | .mbatch d => d.isS
  | .mwait a => a.isUni
  | .mdrain d a c => okDrain d a c
  | .mdrainx d a b c => okDrainx d a b c
  | .mfill d a c => okFill d a c
  | .mzero d => d.below 16
  | .mrdv d a b c => okMrdv d a b c
  | .mwrv d a b c => okMwrv d a b c
  | .mprog d a => okMprog d a
  | .br _ => true
  | .bcc f _ => f.isCond
  | .bmz f _ => f.below 8
  | .bmnz f _ => f.below 8
  | .bxz _ => true
  | .bxnz _ => true
  | .call _ => true
  | .callIndirect _ => true
  | .ret => true
  | .jmpi t => okJmpi t
  | .exif f => f.below 8
  | .exelse => true
  | .exend => true
  | .tbar f => f.below 16
  | .tarr f => f.below 16
  | .twait f => f.below 16
  | .cbar f => f.below 8
  | .tethArr _ => true
  | .tethWait _ => true
  | .tlaunch _ => true
  | .qtail _ => true
  | .exit => true
  | .trap _ => true
  | .brk _ => true
  | .wfa _ _ => true
  | .rdsys d id => okRdsys d id
  | .wrsys a id => okWrsys a id
  | .topo d c => okTopo d c
  | .tnow d c => okTnow d c
  | .pmrd d c => okDM d c
  | .fltack a c => okFltack a c
  | .xlinv a b c => okXlinv a b c
  | .dbgmk a => a.isUni
  | .millAdd _ _ _ => true
  | .millSub _ _ _ => true
  | .millMul _ _ _ => true
  | .millMulh _ _ _ => true
  | .millAnd _ _ _ => true
  | .millOr _ _ _ => true
  | .millXor _ _ _ => true
  | .millShl _ _ _ => true
  | .millShr _ _ _ => true
  | .millSar _ _ _ => true
  | .millSlt _ _ _ => true
  | .millSltz _ _ _ => true
  | .millMin _ _ _ => true
  | .millMax _ _ _ => true
  | .millAddi _ _ _ => true
  | .millAndi _ _ _ => true
  | .millOri _ _ _ => true
  | .millXori _ _ _ => true
  | .millShfi _ _ _ _ => true
  | .millLui _ _ => true
  | .millLd64 _ _ _ => true
  | .millSt64 _ _ _ => true
  | .millLd32 _ _ _ => true
  | .millSt32 _ _ _ => true
  | .millLdt _ _ _ => true
  | .millStt _ _ _ => true
  | .millBeq _ _ _ => true
  | .millBne _ _ _ => true
  | .millBlt _ _ _ => true
  | .millBge _ _ _ => true
  | .millJal _ _ => true
  | .millJr _ _ => true
  | .millWaddB32 _ _ _ _ => true
  | .millWsubB32 _ _ _ _ => true
  | .millWmulB32 _ _ _ _ => true
  | .millWfadd _ _ _ _ => true
  | .millWfmul _ _ _ _ => true
  | .millWffma _ _ _ _ _ => true
  | .millWfmax _ _ _ _ => true
  | .millWfmin _ _ _ _ => true
  | .millWredaddF32 _ _ _ => true
  | .millWcmp kd _ _ _ cond => okWcmp kd cond
  | .millWsel _ _ _ _ _ => true
  | .millWbcast _ _ _ _ => true
  | .millWld _ _ _ _ => true
  | .millWst _ _ _ _ => true
  | .millRowcp _ _ _ => true
  | .millRowzero _ _ => true
  | .millRowbuf _ _ => true
  | .millBufrow _ _ => true
  | .millRowmac _ _ _ => true
  | .millBanklk _ => true
  | .millBankul _ => true
  | .millRowinv _ _ => true
  | .millRowwait => true
  | .millMsync => true
  | .millMhalt => true
  | .millMtrap _ => true
  | .millMrdsr _ id => millReadable id
  | .millMwrsr _ id => millWritable id
  | .millMpark _ _ => true
  | .linkRetrainComplete _ => true
  | .retiredTagRelease _ _ => true
  | .fibreComesBack _ => true
  | .backInvalidateResponse _ => true
  | .millLdtSttAtHome _ => true
  | .clusterWindowAccess _ => true
  | .tnowRequestArrival _ => true

end Sys2Proof
end

