-- ==== Sys2Proof/Decode.lean ====
section
/-! DEFINITION. The decoder, total on any words, and after it the encoder, both from the encoding
tables of the spec: clause headers (R219), word classes (R222), formats A, M, X, T and C (R223 to
R228), the opcode maps (R229 to R231), and the mill formats and maps (R356, R357). -/

namespace Sys2Proof

/-- Why a word is not an instruction. -/
inductive DecodeError
  /-- An unlisted opcode, or a control transfer that is not last (R221, R222, R358). -/
  | illop
  /-- A reserved operand, a non-zero unused field, a literal past the end of its clause (R233). -/
  | illopnd
  /-- A word that is no clause header where a header must stand (R219, R233). -/
  | badclause
  /-- Fewer bytes than a word. -/
  | truncated
  deriving DecidableEq, Repr

/-- The clause classes of R219. -/
inductive ClauseClass | alu | mem | mtx | asy | ctl | sys
  deriving DecidableEq, Repr

/-- Where a word stands: at a clause header's place, in the body of a clause, or in mill code. -/
inductive Ctx
  | header
  | clause (c : ClauseClass)
  | mill
  deriving DecidableEq, Repr

/-- The class named by the CLS field of a header (R219). -/
def ClauseClass.ofCode : Nat → Option ClauseClass
  | 0 => some .alu | 1 => some .mem | 2 => some .mtx | 3 => some .asy | 4 => some .ctl | 5 => some .sys | _ => none

/-- Field of `n` values at bit `lo` of a word. -/
def fieldAt (n lo : Nat) (hn : 0 < n) (w : W32) : Fin n := ⟨w.toNat / 2 ^ lo % n, Nat.mod_lt _ hn⟩
def f1 (lo : Nat) (w : W32) : Bool := w.toNat / 2 ^ lo % 2 == 1
def f2 (lo : Nat) (w : W32) : Fin 4 := fieldAt 4 lo (by decide) w
def f3 (lo : Nat) (w : W32) : Fin 8 := fieldAt 8 lo (by decide) w
def f4 (lo : Nat) (w : W32) : Fin 16 := fieldAt 16 lo (by decide) w
def f5 (lo : Nat) (w : W32) : Fin 32 := fieldAt 32 lo (by decide) w
def f6 (lo : Nat) (w : W32) : Fin 64 := fieldAt 64 lo (by decide) w
/-- Bits [15:0]. -/
def imm16 (w : W32) : BitVec 16 := BitVec.ofNat 16 (w.toNat % 2 ^ 16)
/-- Bits [17:0]. -/
def imm18 (w : W32) : BitVec 18 := BitVec.ofNat 18 (w.toNat % 2 ^ 18)
/-- Bits [11:0]. -/
def imm12 (w : W32) : BitVec 12 := BitVec.ofNat 12 (w.toNat % 2 ^ 12)

/-- What the decoder answers. -/
inductive Dec
  /-- The instruction and the words after it. -/
  | ok (i : Instr) (rest : List W32)
  /-- Not an instruction, and why. -/
  | error (e : DecodeError)
  deriving DecidableEq, Repr
/-- A format: reads the fields of a word and takes its literals from the words that follow. -/
abbrev Fmt := W32 → List W32 → Dec

/-- A field the page marks unused must be zero (R223). -/
def unused (n : Nat) (k : Dec) : Dec := if n = 0 then k else .error .illopnd

/-- A source field, taking its literal when its code is 0x3A (R224, R226). -/
def withSrc (code : Fin 64) (ls : List W32) (k : Src → List W32 → Dec) : Dec :=
  if h : code.val < 0x10 then k (.q ⟨code.val, h⟩) ls
  else if h : code.val < 0x28 then k (.v ⟨code.val - 0x10, by omega⟩) ls
  else if h : code.val < 0x38 then k (.s ⟨code.val - 0x28, by omega⟩) ls
  else if code.val = 0x38 then k .zero ls
  else if code.val = 0x39 then k .lid ls
  else if code.val = 0x3A then
    match ls with
    | [] => .error .illopnd
    | x :: ls => k (.lit x) ls
  else k (.rsv ⟨(code.val - 0x3B) % 5, Nat.mod_lt _ (by decide)⟩) ls

/-- A destination field (R225). -/
def dst (code : Fin 64) : Dst :=
  if code.val = 0 then .push
  else if h : code.val < 0x10 then .rsv ⟨code.val - 1, by omega⟩
  else if h : code.val < 0x28 then .v ⟨code.val - 0x10, by omega⟩
  else if h : code.val < 0x38 then .s ⟨code.val - 0x28, by omega⟩
  else .rsv ⟨code.val - 0x38 + 15, by omega⟩

/-- A field restricted to scalar registers; any other code raises ILLOPND (R224). -/
def withSReg (code : Fin 64) (k : SReg → Dec) : Dec :=
  if h : 0x28 ≤ code.val ∧ code.val < 0x38 then k ⟨code.val - 0x28, by omega⟩ else .error .illopnd

/-! Format A (R223): d [23:18], a [17:12], b [11:6], c [5:0]. -/

def aNONE (i : Instr) : Fmt := fun w ls => unused (w.toNat % 2 ^ 24) <| .ok i ls
def aDSS0 (mk : Dst → Src → Src → Instr) : Fmt := fun w ls =>
  unused (f6 0 w).val <| withSrc (f6 12 w) ls fun a ls => withSrc (f6 6 w) ls fun b ls => .ok (mk (dst (f6 18 w)) a b) ls
def aDSSI (mk : Dst → Src → Src → Code → Instr) : Fmt := fun w ls =>
  withSrc (f6 12 w) ls fun a ls => withSrc (f6 6 w) ls fun b ls => .ok (mk (dst (f6 18 w)) a b (f6 0 w)) ls
def aDS00 (mk : Dst → Src → Instr) : Fmt := fun w ls =>
  unused (f6 6 w).val <| unused (f6 0 w).val <| withSrc (f6 12 w) ls fun a ls => .ok (mk (dst (f6 18 w)) a) ls
def aDSSS (mk : Dst → Src → Src → Src → Instr) : Fmt := fun w ls =>
  withSrc (f6 12 w) ls fun a ls => withSrc (f6 6 w) ls fun b ls => withSrc (f6 0 w) ls fun c ls => .ok (mk (dst (f6 18 w)) a b c) ls
def aDS0I (mk : Dst → Src → Code → Instr) : Fmt := fun w ls =>
  unused (f6 6 w).val <| withSrc (f6 12 w) ls fun a ls => .ok (mk (dst (f6 18 w)) a (f6 0 w)) ls
def aISSI (mk : Code → Src → Src → Code → Instr) : Fmt := fun w ls =>
  withSrc (f6 12 w) ls fun a ls => withSrc (f6 6 w) ls fun b ls => .ok (mk (f6 18 w) a b (f6 0 w)) ls
def a0III (mk : Code → Code → Code → Instr) : Fmt := fun w ls =>
  unused (f6 18 w).val <| .ok (mk (f6 12 w) (f6 6 w) (f6 0 w)) ls
def a0I0I (mk : Code → Code → Instr) : Fmt := fun w ls =>
  unused (f6 18 w).val <| unused (f6 6 w).val <| .ok (mk (f6 12 w) (f6 0 w)) ls
def a000I (mk : Code → Instr) : Fmt := fun w ls =>
  unused (f6 18 w).val <| unused (f6 12 w).val <| unused (f6 6 w).val <| .ok (mk (f6 0 w)) ls
def aD00I (mk : Dst → Code → Instr) : Fmt := fun w ls =>
  unused (f6 12 w).val <| unused (f6 6 w).val <| .ok (mk (dst (f6 18 w)) (f6 0 w)) ls
def a0S0I (mk : Src → Code → Instr) : Fmt := fun w ls =>
  unused (f6 18 w).val <| unused (f6 6 w).val <| withSrc (f6 12 w) ls fun a ls => .ok (mk a (f6 0 w)) ls
def a0SSS (mk : Src → Src → Src → Instr) : Fmt := fun w ls =>
  unused (f6 18 w).val <| withSrc (f6 12 w) ls fun a ls => withSrc (f6 6 w) ls fun b ls => withSrc (f6 0 w) ls fun c ls => .ok (mk a b c) ls
def a0S00 (mk : Src → Instr) : Fmt := fun w ls =>
  unused (f6 18 w).val <| unused (f6 6 w).val <| unused (f6 0 w).val <| withSrc (f6 12 w) ls fun a ls => .ok (mk a) ls
def aD000 (mk : Dst → Instr) : Fmt := fun w ls =>
  unused (f6 12 w).val <| unused (f6 6 w).val <| unused (f6 0 w).val <| .ok (mk (dst (f6 18 w))) ls
def aIS0I (mk : Code → Src → Code → Instr) : Fmt := fun w ls =>
  unused (f6 6 w).val <| withSrc (f6 12 w) ls fun a ls => .ok (mk (f6 18 w) a (f6 0 w)) ls
def aI000 (mk : Code → Instr) : Fmt := fun w ls =>
  unused (f6 12 w).val <| unused (f6 6 w).val <| unused (f6 0 w).val <| .ok (mk (f6 18 w)) ls
def aDISI (mk : Dst → Code → Src → Code → Instr) : Fmt := fun w ls =>
  withSrc (f6 6 w) ls fun b ls => .ok (mk (dst (f6 18 w)) (f6 12 w) b (f6 0 w)) ls
def aDI00 (mk : Dst → Code → Instr) : Fmt := fun w ls =>
  unused (f6 6 w).val <| unused (f6 0 w).val <| .ok (mk (dst (f6 18 w)) (f6 12 w)) ls
def aLIT2 (mk : Dst → BitVec 32 → BitVec 32 → Instr) : Fmt := fun w ls =>
  unused (f6 0 w).val <|
    if (f6 12 w).val = 0x3A ∧ (f6 6 w).val = 0x3A then
      match ls with
      | lo :: hi :: ls => .ok (mk (dst (f6 18 w)) lo hi) ls
      | _ => .error .illopnd
    else .error .illopnd
def aRDS (mk : Dst → BitVec 12 → Instr) : Fmt := fun w ls =>
  unused (f6 12 w).val <| .ok (mk (dst (f6 18 w)) (imm12 w)) ls
def aWRS (mk : Src → BitVec 12 → Instr) : Fmt := fun w ls =>
  unused (f6 18 w).val <| withSrc (f6 12 w) ls fun a ls => .ok (mk a (imm12 w)) ls

/-! Format M (R223): d [23:18], base [17:12], off [11:6], scope [5:3], order [2:1], nt [0]. -/

def mods (w : W32) : MemMods := ⟨f3 3 w, f2 1 w, f1 0 w⟩
def aMLD (mk : Dst → Src → Src → MemMods → Instr) : Fmt := fun w ls =>
  withSrc (f6 12 w) ls fun base ls => withSrc (f6 6 w) ls fun off ls => .ok (mk (dst (f6 18 w)) base off (mods w)) ls
def aMST (mk : Src → Src → Src → MemMods → Instr) : Fmt := fun w ls =>
  withSrc (f6 18 w) ls fun data ls => withSrc (f6 12 w) ls fun base ls => withSrc (f6 6 w) ls fun off ls =>
    .ok (mk data base off (mods w)) ls
def aMFENCE (mk : Fin 8 → Fin 4 → Instr) : Fmt := fun w ls =>
  unused (w.toNat / 2 ^ 6 % 2 ^ 18) <| unused (b2n (f1 0 w)) <| .ok (mk (f3 3 w) (f2 1 w)) ls
def aMPREF (mk : Src → Src → Fin 8 → Bool → Instr) : Fmt := fun w ls =>
  unused (f6 18 w).val <| unused (f2 1 w).val <|
    withSrc (f6 12 w) ls fun base ls => withSrc (f6 6 w) ls fun off ls => .ok (mk base off (f3 3 w) (f1 0 w)) ls
def aMCWB (mk : Src → Src → Fin 8 → Instr) : Fmt := fun w ls =>
  unused (f6 18 w).val <| unused (f3 0 w).val <|
    withSrc (f6 12 w) ls fun base ls => withSrc (f6 6 w) ls fun off ls => .ok (mk base off (f3 3 w)) ls
def aMCINV (mk : Src → Src → Instr) : Fmt := fun w ls =>
  unused (f6 18 w).val <| unused (f6 0 w).val <|
    withSrc (f6 12 w) ls fun base ls => withSrc (f6 6 w) ls fun off ls => .ok (mk base off) ls
def aMDK (mk : Src → Instr) : Fmt := fun w ls =>
  unused (f6 18 w).val <| unused (w.toNat % 2 ^ 12) <| withSrc (f6 12 w) ls fun base ls => .ok (mk base) ls

/-! Format X (R223, R319): status [23:18], desc [17:12], srcsp [11:9], dstsp [8:6], vscope [5:3], mode [2:0]. -/

def aXCPY (mk : SReg → SReg → Fin 8 → Fin 8 → Fin 8 → Instr) : Fmt := fun w ls =>
  withSReg (f6 18 w) fun st => withSReg (f6 12 w) fun de => unused (f3 0 w).val <|
    .ok (mk st de (f3 9 w) (f3 6 w) (f3 3 w)) ls
def aXCPYR (mk : SReg → SReg → Fin 8 → Fin 8 → Fin 8 → Fin 8 → Instr) : Fmt := fun w ls =>
  withSReg (f6 18 w) fun st => withSReg (f6 12 w) fun de => .ok (mk st de (f3 9 w) (f3 6 w) (f3 3 w) (f3 0 w)) ls
/-- The destination space is the core scratchpad, code 1 (cpy2, cpym; R322). -/
def aXCPYD (mk : SReg → SReg → Fin 8 → Fin 8 → Instr) : Fmt := fun w ls =>
  withSReg (f6 18 w) fun st => withSReg (f6 12 w) fun de => unused (f3 0 w).val <|
    if (f3 6 w).val = 1 then .ok (mk st de (f3 9 w) (f3 3 w)) ls else .error .illopnd
/-- The source space field is 0 (cpyf; R322). -/
def aXCPYF (mk : SReg → SReg → Fin 8 → Fin 8 → Instr) : Fmt := fun w ls =>
  withSReg (f6 18 w) fun st => withSReg (f6 12 w) fun de => unused (f3 0 w).val <| unused (f3 9 w).val <|
    .ok (mk st de (f3 6 w) (f3 3 w)) ls
/-- The destination space is global, code 0 (mred; R322). -/
def aXMRED (mk : SReg → SReg → Fin 8 → Fin 8 → Fin 8 → Instr) : Fmt := fun w ls =>
  withSReg (f6 18 w) fun st => withSReg (f6 12 w) fun de => unused (f3 6 w).val <|
    .ok (mk st de (f3 9 w) (f3 3 w) (f3 0 w)) ls

/-- Format T (R223): tile [23:20], amap [19:14], bmap [13:8], fblk [7:2], reuse-A [1], reuse-B [0]. -/
def aT (mk : Fin 16 → SReg → SReg → SReg → Bool → Bool → Instr) : Fmt := fun w ls =>
  withSReg (f6 14 w) fun am => withSReg (f6 8 w) fun bm => withSReg (f6 2 w) fun fb =>
    .ok (mk (f4 20 w) am bm fb (f1 1 w) (f1 0 w)) ls

/-! Format C (R223): condition or operand [23:18], offset [17:0]. -/

def aCREL (mk : BitVec 18 → Instr) : Fmt := fun w ls => unused (f6 18 w).val <| .ok (mk (imm18 w)) ls
def aCCOND (mk : Code → BitVec 18 → Instr) : Fmt := fun w ls => .ok (mk (f6 18 w) (imm18 w)) ls
def aCS (mk : SReg → Instr) : Fmt := fun w ls => unused (w.toNat % 2 ^ 18) <| withSReg (f6 18 w) fun k => .ok (mk k) ls
def aCSRC (mk : Src → Instr) : Fmt := fun w ls =>
  unused (w.toNat % 2 ^ 18) <| withSrc (f6 18 w) ls fun t ls => .ok (mk t) ls
def aCF (mk : Code → Instr) : Fmt := fun w ls => unused (w.toNat % 2 ^ 18) <| .ok (mk (f6 18 w)) ls
def aCSL (mk : SReg → BitVec 18 → Instr) : Fmt := fun w ls => withSReg (f6 18 w) fun k => .ok (mk k (imm18 w)) ls
/-- Opcode 0x06 is the relative call when its field is 0x00 and the indirect call on a scalar (R277). -/
noncomputable def aCALL : Fmt := fun w ls => if (f6 18 w).val = 0 then aCREL .call w ls else aCS .callIndirect w ls

/-- The ALU class map (R229). -/
def aluMap : Nat → Option Fmt
  | 0x00 => some (aNONE .nop)
  | 0x01 => some (aDSS0 .sadd)
  | 0x02 => some (aDSS0 .ssub)
  | 0x03 => some (aDSS0 .smul)
  | 0x04 => some (aDSS0 .smulhS)
  | 0x05 => some (aDSS0 .smulhZ)
  | 0x06 => some (aDSS0 .sdivS)
  | 0x07 => some (aDSS0 .sdivZ)
  | 0x08 => some (aDSS0 .sremS)
  | 0x09 => some (aDSS0 .sremZ)
  | 0x0A => some (aDSS0 .sand)
  | 0x0B => some (aDSS0 .sor)
  | 0x0C => some (aDSS0 .sxor)
  | 0x0D => some (aDSS0 .sshl)
  | 0x0E => some (aDSS0 .sshr)
  | 0x0F => some (aDSS0 .ssar)
  | 0x10 => some (aDSS0 .sminS)
  | 0x11 => some (aDSS0 .smaxS)
  | 0x12 => some (aDSS0 .sminZ)
  | 0x13 => some (aDSS0 .smaxZ)
  | 0x14 => some (aDSS0 .scmpS)
  | 0x15 => some (aDSS0 .scmpZ)
  | 0x16 => some (aDSSI .ssel)
  | 0x17 => some (aDS00 .smov)
  | 0x18 => some (aLIT2 .smovl)
  | 0x19 => some (aDS00 .sclz)
  | 0x1A => some (aDS00 .spopc)
  | 0x1B => some (aDSSI .sbfx)
  | 0x1C => some (aDSSI .sbfi)
  | 0x1D => some (aDS00 .sexw)
  | 0x1E => some (aDS00 .szxw)
  | 0x1F => some (aDSSS .smad)
  | 0x40 => some (aDSS0 .vadd)
  | 0x41 => some (aDSS0 .vsub)
  | 0x42 => some (aDSS0 .vmul)
  | 0x43 => some (aDSS0 .vmulhS)
  | 0x44 => some (aDSS0 .vmulhZ)
  | 0x45 => some (aDSSS .vmad)
  | 0x46 => some (aDSS0 .vaddsS)
  | 0x47 => some (aDSS0 .vsubsS)
  | 0x48 => some (aDSS0 .vminS)
  | 0x49 => some (aDSS0 .vmaxS)
  | 0x4A => some (aDSS0 .vminZ)
  | 0x4B => some (aDSS0 .vmaxZ)
  | 0x4C => some (aDS00 .vabsS)
  | 0x4D => some (aDSS0 .vand)
  | 0x4E => some (aDSS0 .vor)
  | 0x4F => some (aDSS0 .vxor)
  | 0x50 => some (aDSS0 .vshl)
  | 0x51 => some (aDSS0 .vshr)
  | 0x52 => some (aDSS0 .vsar)
  | 0x53 => some (aDS00 .vclz)
  | 0x54 => some (aDS00 .vpopc)
  | 0x55 => some (aDSSI .vbfx)
  | 0x56 => some (aDSSI .vbfi)
  | 0x57 => some (aDSSI .vsel)
  | 0x58 => some (aDS00 .vmov)
  | 0x60 => some (aDSS0 .vfadd)
  | 0x61 => some (aDSS0 .vfsub)
  | 0x62 => some (aDSS0 .vfmul)
  | 0x63 => some (aDSSS .vffma)
  | 0x64 => some (aDSS0 .vfmin)
  | 0x65 => some (aDSS0 .vfmax)
  | 0x66 => some (aDS00 .vfabs)
  | 0x67 => some (aDS00 .vfneg)
  | 0x68 => some (aDSS0 .vfdiv)
  | 0x69 => some (aDS00 .vfsqrt)
  | 0x6A => some (aDS00 .vfrcp)
  | 0x6B => some (aDS00 .vfrsq)
  | 0x6C => some (aDS00 .vfex2)
  | 0x6D => some (aDS00 .vflg2)
  | 0x6E => some (aDS00 .vfsinp)
  | 0x6F => some (aDS00 .vfcosp)
  | 0x70 => some (aDS0I .vfrnd)
  | 0x71 => some (aDS00 .vfcls)
  | 0x80 => some (aISSI .vcmpS)
  | 0x81 => some (aISSI .vcmpZ)
  | 0x82 => some (aISSI .vfcmp)
  | 0x83 => some (a0III .mand)
  | 0x84 => some (a0III .mor)
  | 0x85 => some (a0III .mxor)
  | 0x86 => some (a0I0I .mnot)
  | 0x87 => some (a000I .mtoex)
  | 0x88 => some (a000I .mfrex)
  | 0x89 => some (aD00I .mpopc)
  | 0x8A => some (aD00I .mfirst)
  | 0x8B => some (a0S0I .mfroms)
  | 0x8C => some (aD00I .mtos)
  | 0x90 => some (aDSSI .vshfl)
  | 0x91 => some (aDSS0 .vbcast)
  | 0x92 => some (aDSS0 .vtos)
  | 0x93 => some (aDS00 .vredaddF32)
  | 0x94 => some (aDS00 .vredaddB32)
  | 0x95 => some (aDS00 .vredminS)
  | 0x96 => some (aDS00 .vredmaxS)
  | 0x97 => some (aDS00 .vredminF32)
  | 0x98 => some (aDS00 .vredmaxF32)
  | 0x99 => some (aDS00 .vscanaddF32)
  | 0x9A => some (aDS00 .vscanaddB32)
  | 0xA0 => some (aDS0I .vcvtF32S32)
  | 0xA1 => some (aDS0I .vcvtF32Z32)
  | 0xA2 => some (aDS0I .vcvtS32F32)
  | 0xA3 => some (aDS0I .vcvtZ32F32)
  | 0xA4 => some (aDS0I .vcvtF16F32)
  | 0xA5 => some (aDS0I .vcvtBf16F32)
  | 0xA6 => some (aDS0I .vcvtF32F16)
  | 0xA7 => some (aDS0I .vcvtF32Bf16)
  | 0xA8 => some (aDSSI .vcvtE8F32)
  | 0xA9 => some (aDSSI .vcvtF32E8)
  | 0xAA => some (aDSS0 .vcvtN4F32)
  | 0xAB => some (aDSSI .vcvtF32N4)
  | 0xAC => some (aDS0I .vmxscale)
  | _ => none

/-- The MEM class map (R230). -/
noncomputable def memMap : Nat → Option Fmt
  | 0x00 => some (aMLD .ldB8)
  | 0x01 => some (aMLD .ldS8)
  | 0x02 => some (aMLD .ldB16)
  | 0x03 => some (aMLD .ldS16)
  | 0x04 => some (aMLD .ldB32)
  | 0x05 => some (aMLD .ldB64)
  | 0x06 => some (aMLD .ldB128)
  | 0x08 => some (aMST .stB8)
  | 0x09 => some (aMST .stB16)
  | 0x0A => some (aMST .stB32)
  | 0x0B => some (aMST .stB64)
  | 0x0C => some (aMST .stB128)
  | 0x0D => some (aMST .stN4)
  | 0x10 => some (aMLD .ldsB8)
  | 0x11 => some (aMLD .ldsS8)
  | 0x12 => some (aMLD .ldsB16)
  | 0x13 => some (aMLD .ldsS16)
  | 0x14 => some (aMLD .ldsB32)
  | 0x15 => some (aMLD .ldsB64)
  | 0x16 => some (aMLD .ldsB128)
  | 0x18 => some (aMST .stsB8)
  | 0x19 => some (aMST .stsB16)
  | 0x1A => some (aMST .stsB32)
  | 0x1B => some (aMST .stsB64)
  | 0x1C => some (aMST .stsB128)
  | 0x1D => some (aMST .stsN4)
  | 0x20 => some (aMLD .ldcB8)
  | 0x21 => some (aMLD .ldcS8)
  | 0x22 => some (aMLD .ldcB16)
  | 0x23 => some (aMLD .ldcS16)
  | 0x24 => some (aMLD .ldcB32)
  | 0x25 => some (aMLD .ldcB64)
  | 0x26 => some (aMLD .ldcB128)
  | 0x28 => some (aMST .stcB8)
  | 0x29 => some (aMST .stcB16)
  | 0x2A => some (aMST .stcB32)
  | 0x2B => some (aMST .stcB64)
  | 0x2C => some (aMST .stcB128)
  | 0x30 => some (aMLD .lddB8)
  | 0x31 => some (aMLD .lddS8)
  | 0x32 => some (aMLD .lddB16)
  | 0x33 => some (aMLD .lddS16)
  | 0x34 => some (aMLD .lddB32)
  | 0x35 => some (aMLD .lddB64)
  | 0x36 => some (aMLD .lddB128)
  | 0x38 => some (aMST .stdB8)
  | 0x39 => some (aMST .stdB16)
  | 0x3A => some (aMST .stdB32)
  | 0x3B => some (aMST .stdB64)
  | 0x3C => some (aMST .stdB128)
  | 0x40 => some (aMLD .ldpB8)
  | 0x41 => some (aMLD .ldpS8)
  | 0x42 => some (aMLD .ldpB16)
  | 0x43 => some (aMLD .ldpS16)
  | 0x44 => some (aMLD .ldpB32)
  | 0x45 => some (aMLD .ldpB64)
  | 0x46 => some (aMLD .ldpB128)
  | 0x48 => some (aMST .stpB8)
  | 0x49 => some (aMST .stpB16)
  | 0x4A => some (aMST .stpB32)
  | 0x4B => some (aMST .stpB64)
  | 0x4C => some (aMST .stpB128)
  | 0x50 => some (aMLD .sldB32)
  | 0x51 => some (aMLD .sldB64)
  | 0x52 => some (aMST .sstB32)
  | 0x53 => some (aMST .sstB64)
  | 0x54 => some (aMLD .sldsB64)
  | 0x55 => some (aMST .sstsB64)
  | 0x60 => some (aMLD .atomAddB32)
  | 0x61 => some (aMLD .atomAddF32)
  | 0x62 => some (aMLD .atomMinS32)
  | 0x63 => some (aMLD .atomMaxS32)
  | 0x64 => some (aMLD .atomMinZ32)
  | 0x65 => some (aMLD .atomMaxZ32)
  | 0x66 => some (aMLD .atomAnd)
  | 0x67 => some (aMLD .atomOr)
  | 0x68 => some (aMLD .atomXor)
  | 0x69 => some (aMLD .atomXchg)
  | 0x6A => some (aMLD .atomCas)
  | 0x6B => some (aMLD .atomAddB64)
  | 0x6C => some (aMLD .atomCasB64)
  | 0x70 => some (aMLD .atomsAddB32)
  | 0x71 => some (aMLD .atomsAddF32)
  | 0x72 => some (aMLD .atomsMinS32)
  | 0x73 => some (aMLD .atomsMaxS32)
  | 0x74 => some (aMLD .atomsMinZ32)
  | 0x75 => some (aMLD .atomsMaxZ32)
  | 0x76 => some (aMLD .atomsAnd)
  | 0x77 => some (aMLD .atomsOr)
  | 0x78 => some (aMLD .atomsXor)
  | 0x79 => some (aMLD .atomsXchg)
  | 0x7A => some (aMLD .atomsCas)
  | 0x7B => some (aMLD .atomsAddB64)
  | 0x7C => some (aMLD .atomsCasB64)
  | 0x7D => some (aMLD .satomAddB64)
  | 0x7E => some (aMLD .satomCasB64)
  | 0x80 => some (aMST .redAddB32)
  | 0x81 => some (aMST .redAddF32)
  | 0x82 => some (aMST .redMinS32)
  | 0x83 => some (aMST .redMaxS32)
  | 0x84 => some (aMST .redAnd)
  | 0x85 => some (aMST .redOr)
  | 0x86 => some (aMST .redXor)
  | 0x90 => some (aMFENCE .fence)
  | 0x91 => some (aMPREF .pref)
  | 0x92 => some (aMCWB .cwb)
  | 0x93 => some (aMCINV .cinv)
  | 0x94 => some (aMDK .dkflush)
  | _ => none

/-- The MTX class map (R231). -/
noncomputable def mtxMap : Nat → Option Fmt
  | 0x00 => some (aT .mma)
  | 0x01 => some (aT .mmaz)
  | 0x02 => some (aD000 .mbatch)
  | 0x03 => some (a0S00 .mwait)
  | 0x04 => some (aIS0I .mdrain)
  | 0x05 => some (aISSI .mdrainx)
  | 0x06 => some (aIS0I .mfill)
  | 0x07 => some (aI000 .mzero)
  | 0x08 => some (aDISI .mrdv)
  | 0x09 => some (aISSI .mwrv)
  | 0x0A => some (aDI00 .mprog)
  | _ => none

/-- The ASY class map (R231). -/
noncomputable def asyMap : Nat → Option Fmt
  | 0x00 => some (aXCPY .cpy)
  | 0x01 => some (aXCPYD .cpy2)
  | 0x02 => some (aXCPY .cpyg)
  | 0x03 => some (aXCPY .cpys)
  | 0x04 => some (aXCPYD .cpym)
  | 0x05 => some (aXCPYR .cpyr)
  | 0x06 => some (aXCPYF .cpyf)
  | 0x07 => some (aXMRED .mred)
  | _ => none

/-- The CTL class map (R231). -/
noncomputable def ctlMap : Nat → Option Fmt
  | 0x00 => some (aCREL .br)
  | 0x01 => some (aCCOND .bcc)
  | 0x02 => some (aCCOND .bmz)
  | 0x03 => some (aCCOND .bmnz)
  | 0x04 => some (aCREL .bxz)
  | 0x05 => some (aCREL .bxnz)
  | 0x06 => some aCALL
  | 0x07 => some (aNONE .ret)
  | 0x08 => some (aCSRC .jmpi)
  | 0x09 => some (aCF .exif)
  | 0x0A => some (aNONE .exelse)
  | 0x0B => some (aNONE .exend)
  | 0x0C => some (aCF .tbar)
  | 0x0D => some (aCF .tarr)
  | 0x0E => some (aCF .twait)
  | 0x0F => some (aCF .cbar)
  | 0x10 => some (aCF .tethArr)
  | 0x11 => some (aCF .tethWait)
  | 0x12 => some (aCS .tlaunch)
  | 0x13 => some (aCS .qtail)
  | 0x14 => some (aNONE .exit)
  | 0x15 => some (aCREL .trap)
  | 0x16 => some (aCREL .brk)
  | 0x17 => some (aCSL .wfa)
  | _ => none

/-- The SYS class map (R231). -/
noncomputable def sysMap : Nat → Option Fmt
  | 0x00 => some (aRDS .rdsys)
  | 0x01 => some (aWRS .wrsys)
  | 0x02 => some (aD00I .topo)
  | 0x03 => some (aD00I .tnow)
  | 0x04 => some (aD00I .pmrd)
  | 0x05 => some (a0S0I .fltack)
  | 0x06 => some (a0SSS .xlinv)
  | 0x07 => some (a0S00 .dbgmk)
  | _ => none

/-- The class's own map, ALU words apart (R222). -/
noncomputable def ClauseClass.map : ClauseClass → Nat → Option Fmt
  | .alu => aluMap | .mem => memMap | .mtx => mtxMap | .asy => asyMap | .ctl => ctlMap | .sys => sysMap

/-- What an opcode means in a clause class: the class's own word when its map lists the opcode,
otherwise the ALU word (R222). -/
noncomputable def wordFmt (c : ClauseClass) (op : Nat) : Option Fmt :=
  match c.map op with
  | some f => some f
  | none => aluMap op

/-- The control transfers of R221, by opcode. -/
def isTransferOp (op : Nat) : Bool := decide (op ≤ 0x08) || (decide (0x14 ≤ op) && decide (op ≤ 0x16))

/-- The literal that a control transfer takes (R226). -/
def transferLits (w : W32) : Nat := if w.toNat / 2 ^ 24 = 0x08 ∧ (f6 18 w).val = 0x3A then 1 else 0

/-- Decode the next word of a clause, given the words left in the clause from that word on. The
checks are made in the order of R232: ILLOP, then ILLOPND. -/
noncomputable def decodeWord (c : ClauseClass) : List W32 → Dec
  | [] => .error .truncated
  | w :: ls =>
    match wordFmt c (w.toNat / 2 ^ 24) with
    | none => .error .illop
    | some f =>
      if c = .ctl ∧ isTransferOp (w.toNat / 2 ^ 24) = true ∧ ls.length ≠ transferLits w then .error .illop
      else f w ls

/-- Decode a word standing where a clause header must stand (R219, R233). -/
def decodeHeader : List W32 → Dec
  | [] => .error .truncated
  | w :: ls =>
    if w.toNat % 2 ^ 19 = 0xA5 then
      .ok (.clauseHeader (f4 28 w) (f3 25 w) (f4 21 w) (f1 20 w) (f1 19 w)) ls
    else .error .badclause

/-! Mill formats (R356). -/

def mMR (mk : GReg → GReg → GReg → Instr) : Fmt := fun w ls => unused (w.toNat / 2 ^ 4 % 2 ^ 7) <| .ok (mk (f5 21 w) (f5 16 w) (f5 11 w)) ls
def mMI (mk : GReg → GReg → BitVec 16 → Instr) : Fmt := fun w ls => .ok (mk (f5 21 w) (f5 16 w) (imm16 w)) ls
def mMIb (mk : GReg → GReg → BitVec 16 → Instr) : Fmt := fun w ls => .ok (mk (f5 21 w) (f5 16 w) (imm16 w)) ls
def mMLUI (mk : GReg → BitVec 16 → Instr) : Fmt := fun w ls => unused (f5 16 w).val <| .ok (mk (f5 21 w) (imm16 w)) ls
def mMJR (mk : GReg → GReg → Instr) : Fmt := fun w ls => unused (w.toNat % 2 ^ 16) <| .ok (mk (f5 21 w) (f5 16 w)) ls
def mW3 (mk : Fin 16 → Fin 16 → Fin 16 → Fin 4 → Instr) : Fmt := fun w ls => unused (f4 10 w).val <| unused (f4 4 w).val <| .ok (mk (f4 22 w) (f4 18 w) (f4 14 w) (f2 8 w)) ls
def mW4 (mk : Fin 16 → Fin 16 → Fin 16 → Fin 16 → Fin 4 → Instr) : Fmt := fun w ls => unused (f4 4 w).val <| .ok (mk (f4 22 w) (f4 18 w) (f4 14 w) (f4 10 w) (f2 8 w)) ls
def mW2 (mk : Fin 16 → Fin 16 → Fin 4 → Instr) : Fmt := fun w ls => unused (w.toNat / 2 ^ 10 % 2 ^ 8) <| unused (f4 4 w).val <| .ok (mk (f4 22 w) (f4 18 w) (f2 8 w)) ls
def mWCMP (mk : Fin 4 → Fin 16 → Fin 16 → Fin 4 → Fin 16 → Instr) : Fmt := fun w ls => unused (f2 24 w).val <| unused (f4 10 w).val <| .ok (mk (f2 22 w) (f4 18 w) (f4 14 w) (f2 8 w) (f4 4 w)) ls
def mWSEL (mk : Fin 16 → Fin 16 → Fin 16 → Fin 4 → Fin 4 → Instr) : Fmt := fun w ls => unused (f2 12 w).val <| unused (f4 4 w).val <| .ok (mk (f4 22 w) (f4 18 w) (f4 14 w) (f2 10 w) (f2 8 w)) ls
def mWV (mk : Fin 16 → Bool → GReg → BitVec 16 → Instr) : Fmt := fun w ls => .ok (mk (f4 22 w) (f1 21 w) (f5 16 w) (imm16 w)) ls
def mRM2 (mk : GReg → GReg → GReg → Instr) : Fmt := fun w ls => unused (w.toNat % 2 ^ 11) <| .ok (mk (f5 21 w) (f5 16 w) (f5 11 w)) ls
def mRMAC (mk : GReg → GReg → GReg → Instr) : Fmt := fun w ls => unused (w.toNat % 2 ^ 11) <| .ok (mk (f5 21 w) (f5 16 w) (f5 11 w)) ls
def mRM1 (mk : GReg → GReg → Instr) : Fmt := fun w ls => unused (w.toNat % 2 ^ 16) <| .ok (mk (f5 21 w) (f5 16 w)) ls
def mRPI (mk : GReg → GReg → Instr) : Fmt := fun w ls => unused (f5 21 w).val <| unused (w.toNat % 2 ^ 11) <| .ok (mk (f5 16 w) (f5 11 w)) ls
def mRP (mk : GReg → Instr) : Fmt := fun w ls => unused (f5 21 w).val <| unused (w.toNat % 2 ^ 16) <| .ok (mk (f5 16 w)) ls
def mMIMM (mk : BitVec 16 → Instr) : Fmt := fun w ls => unused (w.toNat / 2 ^ 16 % 2 ^ 10) <| .ok (mk (imm16 w)) ls
def mMRS (mk : GReg → BitVec 16 → Instr) : Fmt := fun w ls => unused (f5 16 w).val <| .ok (mk (f5 21 w) (imm16 w)) ls
def mMWS (mk : GReg → BitVec 16 → Instr) : Fmt := fun w ls => unused (f5 21 w).val <| .ok (mk (f5 16 w) (imm16 w)) ls
def mMPK (mk : GReg → BitVec 16 → Instr) : Fmt := fun w ls => unused (f5 21 w).val <| .ok (mk (f5 16 w) (imm16 w)) ls
def mNONE (i : Instr) : Fmt := fun w ls => unused (w.toNat % 2 ^ 26) <| .ok i ls
/-- shfi (R360): kind 3 is ILLOP; bits [15:8] are zero. -/
def mSHF (mk : GReg → GReg → ShiftKind → Code → Instr) : Fmt := fun w ls =>
  match (f2 6 w).val with
  | 0 => unused (w.toNat / 2 ^ 8 % 2 ^ 8) <| .ok (mk (f5 21 w) (f5 16 w) .shl (f6 0 w)) ls
  | 1 => unused (w.toNat / 2 ^ 8 % 2 ^ 8) <| .ok (mk (f5 21 w) (f5 16 w) .shr (f6 0 w)) ls
  | 2 => unused (w.toNat / 2 ^ 8 % 2 ^ 8) <| .ok (mk (f5 21 w) (f5 16 w) .sar (f6 0 w)) ls
  | _ => .error .illop

/-- The MR group, by func[3:0] (R359). -/
noncomputable def mrMap : Nat → Option Fmt
  | 0 => some (mMR .millAdd)
  | 1 => some (mMR .millSub)
  | 2 => some (mMR .millMul)
  | 3 => some (mMR .millMulh)
  | 4 => some (mMR .millAnd)
  | 5 => some (mMR .millOr)
  | 6 => some (mMR .millXor)
  | 7 => some (mMR .millShl)
  | 8 => some (mMR .millShr)
  | 9 => some (mMR .millSar)
  | 10 => some (mMR .millSlt)
  | 11 => some (mMR .millSltz)
  | 12 => some (mMR .millMin)
  | 13 => some (mMR .millMax)
  | _ => none

/-- The MW group, by func[3:0] (R364). -/
noncomputable def mwMap : Nat → Option Fmt
  | 0 => some (mW3 .millWaddB32)
  | 1 => some (mW3 .millWsubB32)
  | 2 => some (mW3 .millWmulB32)
  | 3 => some (mW3 .millWfadd)
  | 4 => some (mW3 .millWfmul)
  | 5 => some (mW4 .millWffma)
  | 6 => some (mW3 .millWfmax)
  | 7 => some (mW3 .millWfmin)
  | 8 => some (mW2 .millWredaddF32)
  | 9 => some (mWCMP .millWcmp)
  | 10 => some (mWSEL .millWsel)
  | 11 => some (mW3 .millWbcast)
  | _ => none

/-- The mill's major opcodes (R357). -/
noncomputable def millMap : Nat → Option Fmt
  | 0x01 => some (mMI .millAddi)
  | 0x02 => some (mMI .millAndi)
  | 0x03 => some (mMI .millOri)
  | 0x04 => some (mMI .millXori)
  | 0x05 => some (mSHF .millShfi)
  | 0x06 => some (mMLUI .millLui)
  | 0x08 => some (mMI .millLd64)
  | 0x09 => some (mMI .millSt64)
  | 0x0A => some (mMI .millLd32)
  | 0x0B => some (mMI .millSt32)
  | 0x0C => some (mMI .millLdt)
  | 0x0D => some (mMI .millStt)
  | 0x10 => some (mMIb .millBeq)
  | 0x11 => some (mMIb .millBne)
  | 0x12 => some (mMIb .millBlt)
  | 0x13 => some (mMIb .millBge)
  | 0x14 => some (mMLUI .millJal)
  | 0x15 => some (mMJR .millJr)
  | 0x19 => some (mWV .millWld)
  | 0x1A => some (mWV .millWst)
  | 0x20 => some (mRM2 .millRowcp)
  | 0x21 => some (mRM1 .millRowzero)
  | 0x22 => some (mRPI .millRowbuf)
  | 0x23 => some (mRPI .millBufrow)
  | 0x24 => some (mRMAC .millRowmac)
  | 0x25 => some (mRP .millBanklk)
  | 0x26 => some (mRP .millBankul)
  | 0x27 => some (mRM1 .millRowinv)
  | 0x28 => some (mNONE .millRowwait)
  | 0x30 => some (mNONE .millMsync)
  | 0x31 => some (mNONE .millMhalt)
  | 0x32 => some (mMIMM .millMtrap)
  | 0x33 => some (mMRS .millMrdsr)
  | 0x34 => some (mMWS .millMwrsr)
  | 0x35 => some (mMPK .millMpark)
  | _ => none

/-- What a mill word means: groups MR and MW by func[3:0], the others by opcode (R357). -/
noncomputable def millFmt (w : W32) : Option Fmt :=
  if w.toNat / 2 ^ 26 = 0x00 then mrMap (w.toNat % 2 ^ 4)
  else if w.toNat / 2 ^ 26 = 0x18 then mwMap (w.toNat % 2 ^ 4)
  else millMap (w.toNat / 2 ^ 26)

/-- Decode a mill word (R355 to R358). -/
noncomputable def decodeMill : List W32 → Dec
  | [] => .error .truncated
  | w :: ls =>
    match millFmt w with
    | none => .error .illop
    | some f => f w ls

/-- Decode the first word of a list where it stands. -/
noncomputable def decode : Ctx → List W32 → Dec
  | .header => decodeHeader
  | .clause c => decodeWord c
  | .mill => decodeMill

/-- Little-endian words of a byte string; bytes past the last whole word are dropped. -/
def wordsOf : List (BitVec 8) → List W32
  | a :: b :: c :: d :: bs => BitVec.ofNat 32 (leNat [a, b, c, d]) :: wordsOf bs
  | _ => []

/-- Decode from bytes in memory order (program text is little-endian). -/
noncomputable def decodeBytes (ctx : Ctx) (bs : List (BitVec 8)) : Dec := decode ctx (wordsOf bs)

/-! The encoder. -/

/-- The 6-bit code of a source (R224). -/
def Src.code : Src → Nat
  | .q n => n.val | .v n => 0x10 + n.val | .s n => 0x28 + n.val | .zero => 0x38 | .lid => 0x39 | .lit _ => 0x3A
  | .rsv n => 0x3B + n.val
/-- The literal words of a source (R226). -/
def Src.lits : Src → List W32
  | .lit x => [x] | _ => []
/-- The 6-bit code of a destination (R225). -/
def Dst.code : Dst → Nat
  | .push => 0 | .v n => 0x10 + n.val | .s n => 0x28 + n.val | .rsv n => if n.val < 15 then n.val + 1 else 0x38 + (n.val - 15)
/-- The modifier bits of a format-M word (R223). -/
def MemMods.code (m : MemMods) : Nat := m.scope.val * 8 + m.order.val * 2 + b2n m.nt

/-- Format A, with the same field places as format M's registers (R223). -/
def wordA (op d a b c : Nat) : W32 := BitVec.ofNat 32 (op * 2 ^ 24 + d * 2 ^ 18 + a * 2 ^ 12 + b * 2 ^ 6 + c)
/-- Format X (R223). -/
def wordX (op st de s d v m : Nat) : W32 := wordA op (0x28 + st) (0x28 + de) (s * 8 + d) (v * 8 + m)
/-- Format T (R223). -/
def wordT (op t am bm fb x y : Nat) : W32 :=
  BitVec.ofNat 32 (op * 2 ^ 24 + t * 2 ^ 20 + (0x28 + am) * 2 ^ 14 + (0x28 + bm) * 2 ^ 8 + (0x28 + fb) * 2 ^ 2 + x * 2 + y)
/-- Format C (R223). -/
def wordC (op f o : Nat) : W32 := BitVec.ofNat 32 (op * 2 ^ 24 + f * 2 ^ 18 + o)
/-- Mill formats MR, MI and MB (R356). -/
def wordM (op d a low : Nat) : W32 := BitVec.ofNat 32 (op * 2 ^ 26 + d * 2 ^ 21 + a * 2 ^ 16 + low)
/-- Mill format MW (R356). -/
def wordW (d a b c func : Nat) : W32 :=
  BitVec.ofNat 32 (0x18 * 2 ^ 26 + d * 2 ^ 22 + a * 2 ^ 18 + b * 2 ^ 14 + c * 2 ^ 10 + func)
/-- The kind field of `shfi` (R360). -/
def ShiftKind.code : ShiftKind → Nat | .shl => 0 | .shr => 1 | .sar => 2

/-- The words of an instruction, its literals after it; an event has none. -/
def Instr.encode : Instr → List W32
  | .partReset => []
  | .bootPhase _ => []
  | .bootPhaseLimitExpiry => []
  | .clockStretchChange _ _ => []
  | .freezeRequest => []
  | .debugFreezeRequest => []
  | .sheetFreeze _ => []
  | .thaw => []
  | .frzctlReset => []
  | .readout1687 _ => []
  | .debugGrant _ _ => []
  | .farrierLost _ => []
  | .linkFlitCrcFail _ => []
  | .linkRetrain _ => []
  | .linkRetrainFail _ => []
  | .routerForward _ => []
  | .opticalNak _ => []
  | .fibreRetrain _ _ => []
  | .hashBucketMove _ _ => []
  | .opticalTransit _ _ => []
  | .routeEntryWrite _ _ _ => []
  | .responseArrival _ => []
  | .watermarkNotice _ => []
  | .requestTimeout _ _ => []
  | .xtocfgWrite _ _ => []
  | .pkgnumWrite _ => []
  | .lrbaseWrite _ _ => []
  | .lrgrantWrite _ _ _ => []
  | .grantWithdrawComplete _ => []
  | .poolAccess _ _ _ _ => []
  | .compositionEntryWrite _ _ => []
  | .cxlMemAccess _ _ _ => []
  | .bar4Access _ _ _ => []
  | .registerWrite _ _ => []
  | .queueEnable _ _ => []
  | .queueDisable _ _ => []
  | .qstatClear _ _ => []
  | .tailWrite _ _ _ => []
  | .recordPull _ _ => []
  | .recordReadFail _ => []
  | .headShadowFail _ => []
  | .taskAdmit _ => []
  | .admissionRetry _ => []
  | .successorListRead _ => []
  | .hazardRelease _ => []
  | .taskPlace _ _ _ _ => []
  | .ageingReserve _ _ => []
  | .edgeInvalidate _ _ => []
  | .teamStart _ _ => []
  | .preemptChoose _ _ _ => []
  | .preemptSequence _ _ => []
  | .preemptComplete _ _ => []
  | .taskResume _ _ _ => []
  | .taskDrain _ => []
  | .edgeWriteback _ _ => []
  | .taskDone _ => []
  | .taskFaultEnd _ => []
  | .completionStoreFail _ => []
  | .msixSend _ => []
  | .stablePoolWrite _ _ => []
  | .millAssign _ _ => []
  | .millLoadComplete _ => []
  | .millPreempt _ => []
  | .millRestore _ _ _ => []
  | .ownerTableWrite _ _ _ => []
  | .homeTableWrite _ _ _ => []
  | .towerHomeTableWrite _ _ _ => []
  | .gets _ => []
  | .getx _ => []
  | .upgr _ => []
  | .inv _ => []
  | .fwds _ => []
  | .fwdx _ => []
  | .recallMsg _ => []
  | .drain _ => []
  | .drainack _ => []
  | .data _ => []
  | .datax _ => []
  | .invack _ => []
  | .wbdirty _ => []
  | .wRegistrationTimer _ _ _ => []
  | .lineEviction _ _ _ _ => []
  | .towerCacheEviction _ _ => []
  | .pageWalk _ => []
  | .promreqWrite _ _ => []
  | .promotionComplete _ => []
  | .lostMarkClear _ _ => []
  | .faultRecordPost _ => []
  | .dieFailure _ => []
  | .directoryScanComplete _ _ => []
  | .towerFailure _ => []
  | .sliceRebuildComplete _ => []
  | .dieReset _ => []
  | .towerReset _ => []
  | .loadResponse _ _ => []
  | .matrixKStep _ _ => []
  | .copyStart _ _ => []
  | .copyUnitComplete _ _ _ => []
  | .tethcfgWrite _ _ => []
  | .tethcntWrite _ _ => []
  | .tetherArrival _ _ _ => []
  | .tetherRelease _ => []
  | .exitComplete _ => []
  | .rowStepStart _ _ => []
  | .rowStepComplete _ _ => []
  | .refresh _ _ _ => []
  | .refreshComplete _ _ _ => []
  | .bankLockTaken _ => []
  | .bankLockForcedRelease _ _ => []
  | .wfaWake _ => []
  | .mparkWake _ => []
  | .errorRecordPost => []
  | .attestationGo _ => []
  | .attestationDone => []
  | .clauseHeader n cls mbw sdr cpw => [BitVec.ofNat 32 (n.val * 2 ^ 28 + cls.val * 2 ^ 25 + mbw.val * 2 ^ 21 + b2n sdr * 2 ^ 20 + b2n cpw * 2 ^ 19 + 0xA5)]
  | .nop => [wordA 0x00 0 0 0 0]
  | .sadd d a b => wordA 0x01 d.code a.code b.code 0 :: (a.lits ++ b.lits)
  | .ssub d a b => wordA 0x02 d.code a.code b.code 0 :: (a.lits ++ b.lits)
  | .smul d a b => wordA 0x03 d.code a.code b.code 0 :: (a.lits ++ b.lits)
  | .smulhS d a b => wordA 0x04 d.code a.code b.code 0 :: (a.lits ++ b.lits)
  | .smulhZ d a b => wordA 0x05 d.code a.code b.code 0 :: (a.lits ++ b.lits)
  | .sdivS d a b => wordA 0x06 d.code a.code b.code 0 :: (a.lits ++ b.lits)
  | .sdivZ d a b => wordA 0x07 d.code a.code b.code 0 :: (a.lits ++ b.lits)
  | .sremS d a b => wordA 0x08 d.code a.code b.code 0 :: (a.lits ++ b.lits)
  | .sremZ d a b => wordA 0x09 d.code a.code b.code 0 :: (a.lits ++ b.lits)
  | .sand d a b => wordA 0x0A d.code a.code b.code 0 :: (a.lits ++ b.lits)
  | .sor d a b => wordA 0x0B d.code a.code b.code 0 :: (a.lits ++ b.lits)
  | .sxor d a b => wordA 0x0C d.code a.code b.code 0 :: (a.lits ++ b.lits)
  | .sshl d a b => wordA 0x0D d.code a.code b.code 0 :: (a.lits ++ b.lits)
  | .sshr d a b => wordA 0x0E d.code a.code b.code 0 :: (a.lits ++ b.lits)
  | .ssar d a b => wordA 0x0F d.code a.code b.code 0 :: (a.lits ++ b.lits)
  | .sminS d a b => wordA 0x10 d.code a.code b.code 0 :: (a.lits ++ b.lits)
  | .smaxS d a b => wordA 0x11 d.code a.code b.code 0 :: (a.lits ++ b.lits)
  | .sminZ d a b => wordA 0x12 d.code a.code b.code 0 :: (a.lits ++ b.lits)
  | .smaxZ d a b => wordA 0x13 d.code a.code b.code 0 :: (a.lits ++ b.lits)
  | .scmpS d a b => wordA 0x14 d.code a.code b.code 0 :: (a.lits ++ b.lits)
  | .scmpZ d a b => wordA 0x15 d.code a.code b.code 0 :: (a.lits ++ b.lits)
  | .ssel d a b c => wordA 0x16 d.code a.code b.code c.val :: (a.lits ++ b.lits)
  | .smov d a => wordA 0x17 d.code a.code 0 0 :: a.lits
  | .smovl d lo hi => [wordA 0x18 d.code 0x3A 0x3A 0, lo, hi]
  | .sclz d a => wordA 0x19 d.code a.code 0 0 :: a.lits
  | .spopc d a => wordA 0x1A d.code a.code 0 0 :: a.lits
  | .sbfx d a b c => wordA 0x1B d.code a.code b.code c.val :: (a.lits ++ b.lits)
  | .sbfi d a b c => wordA 0x1C d.code a.code b.code c.val :: (a.lits ++ b.lits)
  | .sexw d a => wordA 0x1D d.code a.code 0 0 :: a.lits
  | .szxw d a => wordA 0x1E d.code a.code 0 0 :: a.lits
  | .smad d a b c => wordA 0x1F d.code a.code b.code c.code :: (a.lits ++ b.lits ++ c.lits)
  | .vadd d a b => wordA 0x40 d.code a.code b.code 0 :: (a.lits ++ b.lits)
  | .vsub d a b => wordA 0x41 d.code a.code b.code 0 :: (a.lits ++ b.lits)
  | .vmul d a b => wordA 0x42 d.code a.code b.code 0 :: (a.lits ++ b.lits)
  | .vmulhS d a b => wordA 0x43 d.code a.code b.code 0 :: (a.lits ++ b.lits)
  | .vmulhZ d a b => wordA 0x44 d.code a.code b.code 0 :: (a.lits ++ b.lits)
  | .vmad d a b c => wordA 0x45 d.code a.code b.code c.code :: (a.lits ++ b.lits ++ c.lits)
  | .vaddsS d a b => wordA 0x46 d.code a.code b.code 0 :: (a.lits ++ b.lits)
  | .vsubsS d a b => wordA 0x47 d.code a.code b.code 0 :: (a.lits ++ b.lits)
  | .vminS d a b => wordA 0x48 d.code a.code b.code 0 :: (a.lits ++ b.lits)
  | .vmaxS d a b => wordA 0x49 d.code a.code b.code 0 :: (a.lits ++ b.lits)
  | .vminZ d a b => wordA 0x4A d.code a.code b.code 0 :: (a.lits ++ b.lits)
  | .vmaxZ d a b => wordA 0x4B d.code a.code b.code 0 :: (a.lits ++ b.lits)
  | .vabsS d a => wordA 0x4C d.code a.code 0 0 :: a.lits
  | .vand d a b => wordA 0x4D d.code a.code b.code 0 :: (a.lits ++ b.lits)
  | .vor d a b => wordA 0x4E d.code a.code b.code 0 :: (a.lits ++ b.lits)
  | .vxor d a b => wordA 0x4F d.code a.code b.code 0 :: (a.lits ++ b.lits)
  | .vshl d a b => wordA 0x50 d.code a.code b.code 0 :: (a.lits ++ b.lits)
  | .vshr d a b => wordA 0x51 d.code a.code b.code 0 :: (a.lits ++ b.lits)
  | .vsar d a b => wordA 0x52 d.code a.code b.code 0 :: (a.lits ++ b.lits)
  | .vclz d a => wordA 0x53 d.code a.code 0 0 :: a.lits
  | .vpopc d a => wordA 0x54 d.code a.code 0 0 :: a.lits
  | .vbfx d a b c => wordA 0x55 d.code a.code b.code c.val :: (a.lits ++ b.lits)
  | .vbfi d a b c => wordA 0x56 d.code a.code b.code c.val :: (a.lits ++ b.lits)
  | .vsel d a b c => wordA 0x57 d.code a.code b.code c.val :: (a.lits ++ b.lits)
  | .vmov d a => wordA 0x58 d.code a.code 0 0 :: a.lits
  | .vfadd d a b => wordA 0x60 d.code a.code b.code 0 :: (a.lits ++ b.lits)
  | .vfsub d a b => wordA 0x61 d.code a.code b.code 0 :: (a.lits ++ b.lits)
  | .vfmul d a b => wordA 0x62 d.code a.code b.code 0 :: (a.lits ++ b.lits)
  | .vffma d a b c => wordA 0x63 d.code a.code b.code c.code :: (a.lits ++ b.lits ++ c.lits)
  | .vfmin d a b => wordA 0x64 d.code a.code b.code 0 :: (a.lits ++ b.lits)
  | .vfmax d a b => wordA 0x65 d.code a.code b.code 0 :: (a.lits ++ b.lits)
  | .vfabs d a => wordA 0x66 d.code a.code 0 0 :: a.lits
  | .vfneg d a => wordA 0x67 d.code a.code 0 0 :: a.lits
  | .vfdiv d a b => wordA 0x68 d.code a.code b.code 0 :: (a.lits ++ b.lits)
  | .vfsqrt d a => wordA 0x69 d.code a.code 0 0 :: a.lits
  | .vfrcp d a => wordA 0x6A d.code a.code 0 0 :: a.lits
  | .vfrsq d a => wordA 0x6B d.code a.code 0 0 :: a.lits
  | .vfex2 d a => wordA 0x6C d.code a.code 0 0 :: a.lits
  | .vflg2 d a => wordA 0x6D d.code a.code 0 0 :: a.lits
  | .vfsinp d a => wordA 0x6E d.code a.code 0 0 :: a.lits
  | .vfcosp d a => wordA 0x6F d.code a.code 0 0 :: a.lits
  | .vfrnd d a c => wordA 0x70 d.code a.code 0 c.val :: a.lits
  | .vfcls d a => wordA 0x71 d.code a.code 0 0 :: a.lits
  | .vcmpS d a b c => wordA 0x80 d.val a.code b.code c.val :: (a.lits ++ b.lits)
  | .vcmpZ d a b c => wordA 0x81 d.val a.code b.code c.val :: (a.lits ++ b.lits)
  | .vfcmp d a b c => wordA 0x82 d.val a.code b.code c.val :: (a.lits ++ b.lits)
  | .mand a b c => [wordA 0x83 0 a.val b.val c.val]
  | .mor a b c => [wordA 0x84 0 a.val b.val c.val]
  | .mxor a b c => [wordA 0x85 0 a.val b.val c.val]
  | .mnot a c => [wordA 0x86 0 a.val 0 c.val]
  | .mtoex c => [wordA 0x87 0 0 0 c.val]
  | .mfrex c => [wordA 0x88 0 0 0 c.val]
  | .mpopc d c => [wordA 0x89 d.code 0 0 c.val]
  | .mfirst d c => [wordA 0x8A d.code 0 0 c.val]
  | .mfroms a c => wordA 0x8B 0 a.code 0 c.val :: a.lits
  | .mtos d c => [wordA 0x8C d.code 0 0 c.val]
  | .vshfl d a b c => wordA 0x90 d.code a.code b.code c.val :: (a.lits ++ b.lits)
  | .vbcast d a b => wordA 0x91 d.code a.code b.code 0 :: (a.lits ++ b.lits)
  | .vtos d a b => wordA 0x92 d.code a.code b.code 0 :: (a.lits ++ b.lits)
  | .vredaddF32 d a => wordA 0x93 d.code a.code 0 0 :: a.lits
  | .vredaddB32 d a => wordA 0x94 d.code a.code 0 0 :: a.lits
  | .vredminS d a => wordA 0x95 d.code a.code 0 0 :: a.lits
  | .vredmaxS d a => wordA 0x96 d.code a.code 0 0 :: a.lits
  | .vredminF32 d a => wordA 0x97 d.code a.code 0 0 :: a.lits
  | .vredmaxF32 d a => wordA 0x98 d.code a.code 0 0 :: a.lits
  | .vscanaddF32 d a => wordA 0x99 d.code a.code 0 0 :: a.lits
  | .vscanaddB32 d a => wordA 0x9A d.code a.code 0 0 :: a.lits
  | .vcvtF32S32 d a c => wordA 0xA0 d.code a.code 0 c.val :: a.lits
  | .vcvtF32Z32 d a c => wordA 0xA1 d.code a.code 0 c.val :: a.lits
  | .vcvtS32F32 d a c => wordA 0xA2 d.code a.code 0 c.val :: a.lits
  | .vcvtZ32F32 d a c => wordA 0xA3 d.code a.code 0 c.val :: a.lits
  | .vcvtF16F32 d a c => wordA 0xA4 d.code a.code 0 c.val :: a.lits
  | .vcvtBf16F32 d a c => wordA 0xA5 d.code a.code 0 c.val :: a.lits
  | .vcvtF32F16 d a c => wordA 0xA6 d.code a.code 0 c.val :: a.lits
  | .vcvtF32Bf16 d a c => wordA 0xA7 d.code a.code 0 c.val :: a.lits
  | .vcvtE8F32 d a b c => wordA 0xA8 d.code a.code b.code c.val :: (a.lits ++ b.lits)
  | .vcvtF32E8 d a b c => wordA 0xA9 d.code a.code b.code c.val :: (a.lits ++ b.lits)
  | .vcvtN4F32 d a b => wordA 0xAA d.code a.code b.code 0 :: (a.lits ++ b.lits)
  | .vcvtF32N4 d a b c => wordA 0xAB d.code a.code b.code c.val :: (a.lits ++ b.lits)
  | .vmxscale d a c => wordA 0xAC d.code a.code 0 c.val :: a.lits
  | .ldB8 d base off m => wordA 0x00 d.code base.code off.code m.code :: (base.lits ++ off.lits)
  | .ldS8 d base off m => wordA 0x01 d.code base.code off.code m.code :: (base.lits ++ off.lits)
  | .ldB16 d base off m => wordA 0x02 d.code base.code off.code m.code :: (base.lits ++ off.lits)
  | .ldS16 d base off m => wordA 0x03 d.code base.code off.code m.code :: (base.lits ++ off.lits)
  | .ldB32 d base off m => wordA 0x04 d.code base.code off.code m.code :: (base.lits ++ off.lits)
  | .ldB64 d base off m => wordA 0x05 d.code base.code off.code m.code :: (base.lits ++ off.lits)
  | .ldB128 d base off m => wordA 0x06 d.code base.code off.code m.code :: (base.lits ++ off.lits)
  | .stB8 x base off m => wordA 0x08 x.code base.code off.code m.code :: (x.lits ++ base.lits ++ off.lits)
  | .stB16 x base off m => wordA 0x09 x.code base.code off.code m.code :: (x.lits ++ base.lits ++ off.lits)
  | .stB32 x base off m => wordA 0x0A x.code base.code off.code m.code :: (x.lits ++ base.lits ++ off.lits)
  | .stB64 x base off m => wordA 0x0B x.code base.code off.code m.code :: (x.lits ++ base.lits ++ off.lits)
  | .stB128 x base off m => wordA 0x0C x.code base.code off.code m.code :: (x.lits ++ base.lits ++ off.lits)
  | .stN4 x base off m => wordA 0x0D x.code base.code off.code m.code :: (x.lits ++ base.lits ++ off.lits)
  | .ldsB8 d base off m => wordA 0x10 d.code base.code off.code m.code :: (base.lits ++ off.lits)
  | .ldsS8 d base off m => wordA 0x11 d.code base.code off.code m.code :: (base.lits ++ off.lits)
  | .ldsB16 d base off m => wordA 0x12 d.code base.code off.code m.code :: (base.lits ++ off.lits)
  | .ldsS16 d base off m => wordA 0x13 d.code base.code off.code m.code :: (base.lits ++ off.lits)
  | .ldsB32 d base off m => wordA 0x14 d.code base.code off.code m.code :: (base.lits ++ off.lits)
  | .ldsB64 d base off m => wordA 0x15 d.code base.code off.code m.code :: (base.lits ++ off.lits)
  | .ldsB128 d base off m => wordA 0x16 d.code base.code off.code m.code :: (base.lits ++ off.lits)
  | .stsB8 x base off m => wordA 0x18 x.code base.code off.code m.code :: (x.lits ++ base.lits ++ off.lits)
  | .stsB16 x base off m => wordA 0x19 x.code base.code off.code m.code :: (x.lits ++ base.lits ++ off.lits)
  | .stsB32 x base off m => wordA 0x1A x.code base.code off.code m.code :: (x.lits ++ base.lits ++ off.lits)
  | .stsB64 x base off m => wordA 0x1B x.code base.code off.code m.code :: (x.lits ++ base.lits ++ off.lits)
  | .stsB128 x base off m => wordA 0x1C x.code base.code off.code m.code :: (x.lits ++ base.lits ++ off.lits)
  | .stsN4 x base off m => wordA 0x1D x.code base.code off.code m.code :: (x.lits ++ base.lits ++ off.lits)
  | .ldcB8 d base off m => wordA 0x20 d.code base.code off.code m.code :: (base.lits ++ off.lits)
  | .ldcS8 d base off m => wordA 0x21 d.code base.code off.code m.code :: (base.lits ++ off.lits)
  | .ldcB16 d base off m => wordA 0x22 d.code base.code off.code m.code :: (base.lits ++ off.lits)
  | .ldcS16 d base off m => wordA 0x23 d.code base.code off.code m.code :: (base.lits ++ off.lits)
  | .ldcB32 d base off m => wordA 0x24 d.code base.code off.code m.code :: (base.lits ++ off.lits)
  | .ldcB64 d base off m => wordA 0x25 d.code base.code off.code m.code :: (base.lits ++ off.lits)
  | .ldcB128 d base off m => wordA 0x26 d.code base.code off.code m.code :: (base.lits ++ off.lits)
  | .stcB8 x base off m => wordA 0x28 x.code base.code off.code m.code :: (x.lits ++ base.lits ++ off.lits)
  | .stcB16 x base off m => wordA 0x29 x.code base.code off.code m.code :: (x.lits ++ base.lits ++ off.lits)
  | .stcB32 x base off m => wordA 0x2A x.code base.code off.code m.code :: (x.lits ++ base.lits ++ off.lits)
  | .stcB64 x base off m => wordA 0x2B x.code base.code off.code m.code :: (x.lits ++ base.lits ++ off.lits)
  | .stcB128 x base off m => wordA 0x2C x.code base.code off.code m.code :: (x.lits ++ base.lits ++ off.lits)
  | .lddB8 d base off m => wordA 0x30 d.code base.code off.code m.code :: (base.lits ++ off.lits)
  | .lddS8 d base off m => wordA 0x31 d.code base.code off.code m.code :: (base.lits ++ off.lits)
  | .lddB16 d base off m => wordA 0x32 d.code base.code off.code m.code :: (base.lits ++ off.lits)
  | .lddS16 d base off m => wordA 0x33 d.code base.code off.code m.code :: (base.lits ++ off.lits)
  | .lddB32 d base off m => wordA 0x34 d.code base.code off.code m.code :: (base.lits ++ off.lits)
  | .lddB64 d base off m => wordA 0x35 d.code base.code off.code m.code :: (base.lits ++ off.lits)
  | .lddB128 d base off m => wordA 0x36 d.code base.code off.code m.code :: (base.lits ++ off.lits)
  | .stdB8 x base off m => wordA 0x38 x.code base.code off.code m.code :: (x.lits ++ base.lits ++ off.lits)
  | .stdB16 x base off m => wordA 0x39 x.code base.code off.code m.code :: (x.lits ++ base.lits ++ off.lits)
  | .stdB32 x base off m => wordA 0x3A x.code base.code off.code m.code :: (x.lits ++ base.lits ++ off.lits)
  | .stdB64 x base off m => wordA 0x3B x.code base.code off.code m.code :: (x.lits ++ base.lits ++ off.lits)
  | .stdB128 x base off m => wordA 0x3C x.code base.code off.code m.code :: (x.lits ++ base.lits ++ off.lits)
  | .ldpB8 d base off m => wordA 0x40 d.code base.code off.code m.code :: (base.lits ++ off.lits)
  | .ldpS8 d base off m => wordA 0x41 d.code base.code off.code m.code :: (base.lits ++ off.lits)
  | .ldpB16 d base off m => wordA 0x42 d.code base.code off.code m.code :: (base.lits ++ off.lits)
  | .ldpS16 d base off m => wordA 0x43 d.code base.code off.code m.code :: (base.lits ++ off.lits)
  | .ldpB32 d base off m => wordA 0x44 d.code base.code off.code m.code :: (base.lits ++ off.lits)
  | .ldpB64 d base off m => wordA 0x45 d.code base.code off.code m.code :: (base.lits ++ off.lits)
  | .ldpB128 d base off m => wordA 0x46 d.code base.code off.code m.code :: (base.lits ++ off.lits)
  | .stpB8 x base off m => wordA 0x48 x.code base.code off.code m.code :: (x.lits ++ base.lits ++ off.lits)
  | .stpB16 x base off m => wordA 0x49 x.code base.code off.code m.code :: (x.lits ++ base.lits ++ off.lits)
  | .stpB32 x base off m => wordA 0x4A x.code base.code off.code m.code :: (x.lits ++ base.lits ++ off.lits)
  | .stpB64 x base off m => wordA 0x4B x.code base.code off.code m.code :: (x.lits ++ base.lits ++ off.lits)
  | .stpB128 x base off m => wordA 0x4C x.code base.code off.code m.code :: (x.lits ++ base.lits ++ off.lits)
  | .sldB32 d base off m => wordA 0x50 d.code base.code off.code m.code :: (base.lits ++ off.lits)
  | .sldB64 d base off m => wordA 0x51 d.code base.code off.code m.code :: (base.lits ++ off.lits)
  | .sstB32 x base off m => wordA 0x52 x.code base.code off.code m.code :: (x.lits ++ base.lits ++ off.lits)
  | .sstB64 x base off m => wordA 0x53 x.code base.code off.code m.code :: (x.lits ++ base.lits ++ off.lits)
  | .sldsB64 d base off m => wordA 0x54 d.code base.code off.code m.code :: (base.lits ++ off.lits)
  | .sstsB64 x base off m => wordA 0x55 x.code base.code off.code m.code :: (x.lits ++ base.lits ++ off.lits)
  | .atomAddB32 d base off m => wordA 0x60 d.code base.code off.code m.code :: (base.lits ++ off.lits)
  | .atomAddF32 d base off m => wordA 0x61 d.code base.code off.code m.code :: (base.lits ++ off.lits)
  | .atomMinS32 d base off m => wordA 0x62 d.code base.code off.code m.code :: (base.lits ++ off.lits)
  | .atomMaxS32 d base off m => wordA 0x63 d.code base.code off.code m.code :: (base.lits ++ off.lits)
  | .atomMinZ32 d base off m => wordA 0x64 d.code base.code off.code m.code :: (base.lits ++ off.lits)
  | .atomMaxZ32 d base off m => wordA 0x65 d.code base.code off.code m.code :: (base.lits ++ off.lits)
  | .atomAnd d base off m => wordA 0x66 d.code base.code off.code m.code :: (base.lits ++ off.lits)
  | .atomOr d base off m => wordA 0x67 d.code base.code off.code m.code :: (base.lits ++ off.lits)
  | .atomXor d base off m => wordA 0x68 d.code base.code off.code m.code :: (base.lits ++ off.lits)
  | .atomXchg d base off m => wordA 0x69 d.code base.code off.code m.code :: (base.lits ++ off.lits)
  | .atomCas d base off m => wordA 0x6A d.code base.code off.code m.code :: (base.lits ++ off.lits)
  | .atomAddB64 d base off m => wordA 0x6B d.code base.code off.code m.code :: (base.lits ++ off.lits)
  | .atomCasB64 d base off m => wordA 0x6C d.code base.code off.code m.code :: (base.lits ++ off.lits)
  | .atomsAddB32 d base off m => wordA 0x70 d.code base.code off.code m.code :: (base.lits ++ off.lits)
  | .atomsAddF32 d base off m => wordA 0x71 d.code base.code off.code m.code :: (base.lits ++ off.lits)
  | .atomsMinS32 d base off m => wordA 0x72 d.code base.code off.code m.code :: (base.lits ++ off.lits)
  | .atomsMaxS32 d base off m => wordA 0x73 d.code base.code off.code m.code :: (base.lits ++ off.lits)
  | .atomsMinZ32 d base off m => wordA 0x74 d.code base.code off.code m.code :: (base.lits ++ off.lits)
  | .atomsMaxZ32 d base off m => wordA 0x75 d.code base.code off.code m.code :: (base.lits ++ off.lits)
  | .atomsAnd d base off m => wordA 0x76 d.code base.code off.code m.code :: (base.lits ++ off.lits)
  | .atomsOr d base off m => wordA 0x77 d.code base.code off.code m.code :: (base.lits ++ off.lits)
  | .atomsXor d base off m => wordA 0x78 d.code base.code off.code m.code :: (base.lits ++ off.lits)
  | .atomsXchg d base off m => wordA 0x79 d.code base.code off.code m.code :: (base.lits ++ off.lits)
  | .atomsCas d base off m => wordA 0x7A d.code base.code off.code m.code :: (base.lits ++ off.lits)
  | .atomsAddB64 d base off m => wordA 0x7B d.code base.code off.code m.code :: (base.lits ++ off.lits)
  | .atomsCasB64 d base off m => wordA 0x7C d.code base.code off.code m.code :: (base.lits ++ off.lits)
  | .satomAddB64 d base off m => wordA 0x7D d.code base.code off.code m.code :: (base.lits ++ off.lits)
  | .satomCasB64 d base off m => wordA 0x7E d.code base.code off.code m.code :: (base.lits ++ off.lits)
  | .redAddB32 x base off m => wordA 0x80 x.code base.code off.code m.code :: (x.lits ++ base.lits ++ off.lits)
  | .redAddF32 x base off m => wordA 0x81 x.code base.code off.code m.code :: (x.lits ++ base.lits ++ off.lits)
  | .redMinS32 x base off m => wordA 0x82 x.code base.code off.code m.code :: (x.lits ++ base.lits ++ off.lits)
  | .redMaxS32 x base off m => wordA 0x83 x.code base.code off.code m.code :: (x.lits ++ base.lits ++ off.lits)
  | .redAnd x base off m => wordA 0x84 x.code base.code off.code m.code :: (x.lits ++ base.lits ++ off.lits)
  | .redOr x base off m => wordA 0x85 x.code base.code off.code m.code :: (x.lits ++ base.lits ++ off.lits)
  | .redXor x base off m => wordA 0x86 x.code base.code off.code m.code :: (x.lits ++ base.lits ++ off.lits)
  | .homeAtomic _ => []
  | .nearMemoryReduction _ => []
  | .fence scope order => [wordA 0x90 0 0 0 (scope.val * 8 + order.val * 2)]
  | .pref base off scope nt => wordA 0x91 0 base.code off.code (scope.val * 8 + b2n nt) :: (base.lits ++ off.lits)
  | .cwb base off scope => wordA 0x92 0 base.code off.code (scope.val * 8) :: (base.lits ++ off.lits)
  | .cinv base off => wordA 0x93 0 base.code off.code 0 :: (base.lits ++ off.lits)
  | .dkflush base => wordA 0x94 0 base.code 0 0 :: base.lits
  | .cpy st desc srcsp dstsp vscope => [wordX 0x00 st.val desc.val srcsp.val dstsp.val vscope.val 0]
  | .cpy2 st desc srcsp vscope => [wordX 0x01 st.val desc.val srcsp.val 1 vscope.val 0]
  | .cpyg st desc srcsp dstsp vscope => [wordX 0x02 st.val desc.val srcsp.val dstsp.val vscope.val 0]
  | .cpys st desc srcsp dstsp vscope => [wordX 0x03 st.val desc.val srcsp.val dstsp.val vscope.val 0]
  | .cpym st desc srcsp vscope => [wordX 0x04 st.val desc.val srcsp.val 1 vscope.val 0]
  | .cpyr st desc srcsp dstsp vscope mode => [wordX 0x05 st.val desc.val srcsp.val dstsp.val vscope.val mode.val]
  | .cpyf st desc dstsp vscope => [wordX 0x06 st.val desc.val 0 dstsp.val vscope.val 0]
  | .mred st desc srcsp vscope mode => [wordX 0x07 st.val desc.val srcsp.val 0 vscope.val mode.val]
  | .mma t amap bmap fblk ra rb => [wordT 0x00 t.val amap.val bmap.val fblk.val (b2n ra) (b2n rb)]
  | .mmaz t amap bmap fblk ra rb => [wordT 0x01 t.val amap.val bmap.val fblk.val (b2n ra) (b2n rb)]
  | .mbatch d => [wordA 0x02 d.code 0 0 0]
  | .mwait a => wordA 0x03 0 a.code 0 0 :: a.lits
  | .mdrain d a c => wordA 0x04 d.val a.code 0 c.val :: a.lits
  | .mdrainx d a b c => wordA 0x05 d.val a.code b.code c.val :: (a.lits ++ b.lits)
  | .mfill d a c => wordA 0x06 d.val a.code 0 c.val :: a.lits
  | .mzero d => [wordA 0x07 d.val 0 0 0]
  | .mrdv d a b c => wordA 0x08 d.code a.val b.code c.val :: b.lits
  | .mwrv d a b c => wordA 0x09 d.val a.code b.code c.val :: (a.lits ++ b.lits)
  | .mprog d a => [wordA 0x0A d.code a.val 0 0]
  | .br o => [wordC 0x00 0 o.toNat]
  | .bcc f o => [wordC 0x01 f.val o.toNat]
  | .bmz f o => [wordC 0x02 f.val o.toNat]
  | .bmnz f o => [wordC 0x03 f.val o.toNat]
  | .bxz o => [wordC 0x04 0 o.toNat]
  | .bxnz o => [wordC 0x05 0 o.toNat]
  | .call o => [wordC 0x06 0 o.toNat]
  | .callIndirect k => [wordC 0x06 (0x28 + k.val) 0]
  | .ret => [wordA 0x07 0 0 0 0]
  | .jmpi t => wordC 0x08 t.code 0 :: t.lits
  | .exif f => [wordC 0x09 f.val 0]
  | .exelse => [wordA 0x0A 0 0 0 0]
  | .exend => [wordA 0x0B 0 0 0 0]
  | .tbar f => [wordC 0x0C f.val 0]
  | .tarr f => [wordC 0x0D f.val 0]
  | .twait f => [wordC 0x0E f.val 0]
  | .cbar f => [wordC 0x0F f.val 0]
  | .tethArr f => [wordC 0x10 f.val 0]
  | .tethWait f => [wordC 0x11 f.val 0]
  | .tlaunch k => [wordC 0x12 (0x28 + k.val) 0]
  | .qtail k => [wordC 0x13 (0x28 + k.val) 0]
  | .exit => [wordA 0x14 0 0 0 0]
  | .trap o => [wordC 0x15 0 o.toNat]
  | .brk o => [wordC 0x16 0 o.toNat]
  | .wfa k l => [wordC 0x17 (0x28 + k.val) l.toNat]
  | .rdsys d id => [BitVec.ofNat 32 (0x00 * 2 ^ 24 + d.code * 2 ^ 18 + id.toNat)]
  | .wrsys a id => BitVec.ofNat 32 (0x01 * 2 ^ 24 + a.code * 2 ^ 12 + id.toNat) :: a.lits
  | .topo d c => [wordA 0x02 d.code 0 0 c.val]
  | .tnow d c => [wordA 0x03 d.code 0 0 c.val]
  | .pmrd d c => [wordA 0x04 d.code 0 0 c.val]
  | .fltack a c => wordA 0x05 0 a.code 0 c.val :: a.lits
  | .xlinv a b c => wordA 0x06 0 a.code b.code c.code :: (a.lits ++ b.lits ++ c.lits)
  | .dbgmk a => wordA 0x07 0 a.code 0 0 :: a.lits
  | .millAdd d a b => [wordM 0 d.val a.val (b.val * 2 ^ 11 + 0)]
  | .millSub d a b => [wordM 0 d.val a.val (b.val * 2 ^ 11 + 1)]
  | .millMul d a b => [wordM 0 d.val a.val (b.val * 2 ^ 11 + 2)]
  | .millMulh d a b => [wordM 0 d.val a.val (b.val * 2 ^ 11 + 3)]
  | .millAnd d a b => [wordM 0 d.val a.val (b.val * 2 ^ 11 + 4)]
  | .millOr d a b => [wordM 0 d.val a.val (b.val * 2 ^ 11 + 5)]
  | .millXor d a b => [wordM 0 d.val a.val (b.val * 2 ^ 11 + 6)]
  | .millShl d a b => [wordM 0 d.val a.val (b.val * 2 ^ 11 + 7)]
  | .millShr d a b => [wordM 0 d.val a.val (b.val * 2 ^ 11 + 8)]
  | .millSar d a b => [wordM 0 d.val a.val (b.val * 2 ^ 11 + 9)]
  | .millSlt d a b => [wordM 0 d.val a.val (b.val * 2 ^ 11 + 10)]
  | .millSltz d a b => [wordM 0 d.val a.val (b.val * 2 ^ 11 + 11)]
  | .millMin d a b => [wordM 0 d.val a.val (b.val * 2 ^ 11 + 12)]
  | .millMax d a b => [wordM 0 d.val a.val (b.val * 2 ^ 11 + 13)]
  | .millAddi d a imm => [wordM 0x01 d.val a.val imm.toNat]
  | .millAndi d a imm => [wordM 0x02 d.val a.val imm.toNat]
  | .millOri d a imm => [wordM 0x03 d.val a.val imm.toNat]
  | .millXori d a imm => [wordM 0x04 d.val a.val imm.toNat]
  | .millShfi d a k n => [wordM 0x05 d.val a.val (k.code * 2 ^ 6 + n.val)]
  | .millLui d imm => [wordM 0x06 d.val 0 imm.toNat]
  | .millLd64 d a imm => [wordM 0x08 d.val a.val imm.toNat]
  | .millSt64 d a imm => [wordM 0x09 d.val a.val imm.toNat]
  | .millLd32 d a imm => [wordM 0x0A d.val a.val imm.toNat]
  | .millSt32 d a imm => [wordM 0x0B d.val a.val imm.toNat]
  | .millLdt d a imm => [wordM 0x0C d.val a.val imm.toNat]
  | .millStt d a imm => [wordM 0x0D d.val a.val imm.toNat]
  | .millBeq a b off => [wordM 0x10 a.val b.val off.toNat]
  | .millBne a b off => [wordM 0x11 a.val b.val off.toNat]
  | .millBlt a b off => [wordM 0x12 a.val b.val off.toNat]
  | .millBge a b off => [wordM 0x13 a.val b.val off.toNat]
  | .millJal d imm => [wordM 0x14 d.val 0 imm.toNat]
  | .millJr d a => [wordM 0x15 d.val a.val 0]
  | .millWaddB32 d a b k => [wordW d.val a.val b.val 0 (k.val * 2 ^ 8 + 0)]
  | .millWsubB32 d a b k => [wordW d.val a.val b.val 0 (k.val * 2 ^ 8 + 1)]
  | .millWmulB32 d a b k => [wordW d.val a.val b.val 0 (k.val * 2 ^ 8 + 2)]
  | .millWfadd d a b k => [wordW d.val a.val b.val 0 (k.val * 2 ^ 8 + 3)]
  | .millWfmul d a b k => [wordW d.val a.val b.val 0 (k.val * 2 ^ 8 + 4)]
  | .millWffma d a b c k => [wordW d.val a.val b.val c.val (k.val * 2 ^ 8 + 5)]
  | .millWfmax d a b k => [wordW d.val a.val b.val 0 (k.val * 2 ^ 8 + 6)]
  | .millWfmin d a b k => [wordW d.val a.val b.val 0 (k.val * 2 ^ 8 + 7)]
  | .millWredaddF32 d a k => [wordW d.val a.val 0 0 (k.val * 2 ^ 8 + 8)]
  | .millWcmp kd a b k cond => [wordW kd.val a.val b.val 0 (k.val * 2 ^ 8 + cond.val * 2 ^ 4 + 9)]
  | .millWsel d a b kc k => [wordW d.val a.val b.val kc.val (k.val * 2 ^ 8 + 10)]
  | .millWbcast d a b k => [wordW d.val a.val b.val 0 (k.val * 2 ^ 8 + 11)]
  | .millWld w buf a imm => [wordM 0x19 (w.val * 2 + b2n buf) a.val imm.toNat]
  | .millWst w buf a imm => [wordM 0x1A (w.val * 2 + b2n buf) a.val imm.toNat]
  | .millRowcp m d s => [wordM 0x20 m.val d.val (s.val * 2 ^ 11)]
  | .millRowzero m p => [wordM 0x21 m.val p.val 0]
  | .millRowbuf p i => [wordM 0x22 0 p.val (i.val * 2 ^ 11)]
  | .millBufrow p i => [wordM 0x23 0 p.val (i.val * 2 ^ 11)]
  | .millRowmac o p m => [wordM 0x24 o.val p.val (m.val * 2 ^ 11)]
  | .millBanklk p => [wordM 0x25 0 p.val 0]
  | .millBankul p => [wordM 0x26 0 p.val 0]
  | .millRowinv m p => [wordM 0x27 m.val p.val 0]
  | .millRowwait => [wordM 0x28 0 0 0]
  | .millMsync => [wordM 0x30 0 0 0]
  | .millMhalt => [wordM 0x31 0 0 0]
  | .millMtrap imm => [wordM 0x32 0 0 imm.toNat]
  | .millMrdsr d id => [wordM 0x33 d.val 0 id.toNat]
  | .millMwrsr a id => [wordM 0x34 0 a.val id.toNat]
  | .millMpark a limit => [wordM 0x35 0 a.val limit.toNat]
  | .linkRetrainComplete _ => []
  | .retiredTagRelease _ _ => []
  | .fibreComesBack _ => []
  | .backInvalidateResponse _ => []
  | .millLdtSttAtHome _ => []
  | .clusterWindowAccess _ => []
  | .tnowRequestArrival _ => []

/-- How many words an instruction takes, its literals included (R226). -/
def Instr.words (i : Instr) : Nat := i.encode.length

/-- The context an instruction's own opcode map belongs to; an event has none. -/
def Instr.ctx : Instr → Option Ctx
  | .partReset => none
  | .bootPhase _ => none
  | .bootPhaseLimitExpiry => none
  | .clockStretchChange _ _ => none
  | .freezeRequest => none
  | .debugFreezeRequest => none
  | .sheetFreeze _ => none
  | .thaw => none
  | .frzctlReset => none
  | .readout1687 _ => none
  | .debugGrant _ _ => none
  | .farrierLost _ => none
  | .linkFlitCrcFail _ => none
  | .linkRetrain _ => none
  | .linkRetrainFail _ => none
  | .routerForward _ => none
  | .opticalNak _ => none
  | .fibreRetrain _ _ => none
  | .hashBucketMove _ _ => none
  | .opticalTransit _ _ => none
  | .routeEntryWrite _ _ _ => none
  | .responseArrival _ => none
  | .watermarkNotice _ => none
  | .requestTimeout _ _ => none
  | .xtocfgWrite _ _ => none
  | .pkgnumWrite _ => none
  | .lrbaseWrite _ _ => none
  | .lrgrantWrite _ _ _ => none
  | .grantWithdrawComplete _ => none
  | .poolAccess _ _ _ _ => none
  | .compositionEntryWrite _ _ => none
  | .cxlMemAccess _ _ _ => none
  | .bar4Access _ _ _ => none
  | .registerWrite _ _ => none
  | .queueEnable _ _ => none
  | .queueDisable _ _ => none
  | .qstatClear _ _ => none
  | .tailWrite _ _ _ => none
  | .recordPull _ _ => none
  | .recordReadFail _ => none
  | .headShadowFail _ => none
  | .taskAdmit _ => none
  | .admissionRetry _ => none
  | .successorListRead _ => none
  | .hazardRelease _ => none
  | .taskPlace _ _ _ _ => none
  | .ageingReserve _ _ => none
  | .edgeInvalidate _ _ => none
  | .teamStart _ _ => none
  | .preemptChoose _ _ _ => none
  | .preemptSequence _ _ => none
  | .preemptComplete _ _ => none
  | .taskResume _ _ _ => none
  | .taskDrain _ => none
  | .edgeWriteback _ _ => none
  | .taskDone _ => none
  | .taskFaultEnd _ => none
  | .completionStoreFail _ => none
  | .msixSend _ => none
  | .stablePoolWrite _ _ => none
  | .millAssign _ _ => none
  | .millLoadComplete _ => none
  | .millPreempt _ => none
  | .millRestore _ _ _ => none
  | .ownerTableWrite _ _ _ => none
  | .homeTableWrite _ _ _ => none
  | .towerHomeTableWrite _ _ _ => none
  | .gets _ => none
  | .getx _ => none
  | .upgr _ => none
  | .inv _ => none
  | .fwds _ => none
  | .fwdx _ => none
  | .recallMsg _ => none
  | .drain _ => none
  | .drainack _ => none
  | .data _ => none
  | .datax _ => none
  | .invack _ => none
  | .wbdirty _ => none
  | .wRegistrationTimer _ _ _ => none
  | .lineEviction _ _ _ _ => none
  | .towerCacheEviction _ _ => none
  | .pageWalk _ => none
  | .promreqWrite _ _ => none
  | .promotionComplete _ => none
  | .lostMarkClear _ _ => none
  | .faultRecordPost _ => none
  | .dieFailure _ => none
  | .directoryScanComplete _ _ => none
  | .towerFailure _ => none
  | .sliceRebuildComplete _ => none
  | .dieReset _ => none
  | .towerReset _ => none
  | .loadResponse _ _ => none
  | .matrixKStep _ _ => none
  | .copyStart _ _ => none
  | .copyUnitComplete _ _ _ => none
  | .tethcfgWrite _ _ => none
  | .tethcntWrite _ _ => none
  | .tetherArrival _ _ _ => none
  | .tetherRelease _ => none
  | .exitComplete _ => none
  | .rowStepStart _ _ => none
  | .rowStepComplete _ _ => none
  | .refresh _ _ _ => none
  | .refreshComplete _ _ _ => none
  | .bankLockTaken _ => none
  | .bankLockForcedRelease _ _ => none
  | .wfaWake _ => none
  | .mparkWake _ => none
  | .errorRecordPost => none
  | .attestationGo _ => none
  | .attestationDone => none
  | .clauseHeader _ _ _ _ _ => some .header
  | .nop => some (.clause .alu)
  | .sadd _ _ _ => some (.clause .alu)
  | .ssub _ _ _ => some (.clause .alu)
  | .smul _ _ _ => some (.clause .alu)
  | .smulhS _ _ _ => some (.clause .alu)
  | .smulhZ _ _ _ => some (.clause .alu)
  | .sdivS _ _ _ => some (.clause .alu)
  | .sdivZ _ _ _ => some (.clause .alu)
  | .sremS _ _ _ => some (.clause .alu)
  | .sremZ _ _ _ => some (.clause .alu)
  | .sand _ _ _ => some (.clause .alu)
  | .sor _ _ _ => some (.clause .alu)
  | .sxor _ _ _ => some (.clause .alu)
  | .sshl _ _ _ => some (.clause .alu)
  | .sshr _ _ _ => some (.clause .alu)
  | .ssar _ _ _ => some (.clause .alu)
  | .sminS _ _ _ => some (.clause .alu)
  | .smaxS _ _ _ => some (.clause .alu)
  | .sminZ _ _ _ => some (.clause .alu)
  | .smaxZ _ _ _ => some (.clause .alu)
  | .scmpS _ _ _ => some (.clause .alu)
  | .scmpZ _ _ _ => some (.clause .alu)
  | .ssel _ _ _ _ => some (.clause .alu)
  | .smov _ _ => some (.clause .alu)
  | .smovl _ _ _ => some (.clause .alu)
  | .sclz _ _ => some (.clause .alu)
  | .spopc _ _ => some (.clause .alu)
  | .sbfx _ _ _ _ => some (.clause .alu)
  | .sbfi _ _ _ _ => some (.clause .alu)
  | .sexw _ _ => some (.clause .alu)
  | .szxw _ _ => some (.clause .alu)
  | .smad _ _ _ _ => some (.clause .alu)
  | .vadd _ _ _ => some (.clause .alu)
  | .vsub _ _ _ => some (.clause .alu)
  | .vmul _ _ _ => some (.clause .alu)
  | .vmulhS _ _ _ => some (.clause .alu)
  | .vmulhZ _ _ _ => some (.clause .alu)
  | .vmad _ _ _ _ => some (.clause .alu)
  | .vaddsS _ _ _ => some (.clause .alu)
  | .vsubsS _ _ _ => some (.clause .alu)
  | .vminS _ _ _ => some (.clause .alu)
  | .vmaxS _ _ _ => some (.clause .alu)
  | .vminZ _ _ _ => some (.clause .alu)
  | .vmaxZ _ _ _ => some (.clause .alu)
  | .vabsS _ _ => some (.clause .alu)
  | .vand _ _ _ => some (.clause .alu)
  | .vor _ _ _ => some (.clause .alu)
  | .vxor _ _ _ => some (.clause .alu)
  | .vshl _ _ _ => some (.clause .alu)
  | .vshr _ _ _ => some (.clause .alu)
  | .vsar _ _ _ => some (.clause .alu)
  | .vclz _ _ => some (.clause .alu)
  | .vpopc _ _ => some (.clause .alu)
  | .vbfx _ _ _ _ => some (.clause .alu)
  | .vbfi _ _ _ _ => some (.clause .alu)
  | .vsel _ _ _ _ => some (.clause .alu)
  | .vmov _ _ => some (.clause .alu)
  | .vfadd _ _ _ => some (.clause .alu)
  | .vfsub _ _ _ => some (.clause .alu)
  | .vfmul _ _ _ => some (.clause .alu)
  | .vffma _ _ _ _ => some (.clause .alu)
  | .vfmin _ _ _ => some (.clause .alu)
  | .vfmax _ _ _ => some (.clause .alu)
  | .vfabs _ _ => some (.clause .alu)
  | .vfneg _ _ => some (.clause .alu)
  | .vfdiv _ _ _ => some (.clause .alu)
  | .vfsqrt _ _ => some (.clause .alu)
  | .vfrcp _ _ => some (.clause .alu)
  | .vfrsq _ _ => some (.clause .alu)
  | .vfex2 _ _ => some (.clause .alu)
  | .vflg2 _ _ => some (.clause .alu)
  | .vfsinp _ _ => some (.clause .alu)
  | .vfcosp _ _ => some (.clause .alu)
  | .vfrnd _ _ _ => some (.clause .alu)
  | .vfcls _ _ => some (.clause .alu)
  | .vcmpS _ _ _ _ => some (.clause .alu)
  | .vcmpZ _ _ _ _ => some (.clause .alu)
  | .vfcmp _ _ _ _ => some (.clause .alu)
  | .mand _ _ _ => some (.clause .alu)
  | .mor _ _ _ => some (.clause .alu)
  | .mxor _ _ _ => some (.clause .alu)
  | .mnot _ _ => some (.clause .alu)
  | .mtoex _ => some (.clause .alu)
  | .mfrex _ => some (.clause .alu)
  | .mpopc _ _ => some (.clause .alu)
  | .mfirst _ _ => some (.clause .alu)
  | .mfroms _ _ => some (.clause .alu)
  | .mtos _ _ => some (.clause .alu)
  | .vshfl _ _ _ _ => some (.clause .alu)
  | .vbcast _ _ _ => some (.clause .alu)
  | .vtos _ _ _ => some (.clause .alu)
  | .vredaddF32 _ _ => some (.clause .alu)
  | .vredaddB32 _ _ => some (.clause .alu)
  | .vredminS _ _ => some (.clause .alu)
  | .vredmaxS _ _ => some (.clause .alu)
  | .vredminF32 _ _ => some (.clause .alu)
  | .vredmaxF32 _ _ => some (.clause .alu)
  | .vscanaddF32 _ _ => some (.clause .alu)
  | .vscanaddB32 _ _ => some (.clause .alu)
  | .vcvtF32S32 _ _ _ => some (.clause .alu)
  | .vcvtF32Z32 _ _ _ => some (.clause .alu)
  | .vcvtS32F32 _ _ _ => some (.clause .alu)
  | .vcvtZ32F32 _ _ _ => some (.clause .alu)
  | .vcvtF16F32 _ _ _ => some (.clause .alu)
  | .vcvtBf16F32 _ _ _ => some (.clause .alu)
  | .vcvtF32F16 _ _ _ => some (.clause .alu)
  | .vcvtF32Bf16 _ _ _ => some (.clause .alu)
  | .vcvtE8F32 _ _ _ _ => some (.clause .alu)
  | .vcvtF32E8 _ _ _ _ => some (.clause .alu)
  | .vcvtN4F32 _ _ _ => some (.clause .alu)
  | .vcvtF32N4 _ _ _ _ => some (.clause .alu)
  | .vmxscale _ _ _ => some (.clause .alu)
  | .ldB8 _ _ _ _ => some (.clause .mem)
  | .ldS8 _ _ _ _ => some (.clause .mem)
  | .ldB16 _ _ _ _ => some (.clause .mem)
  | .ldS16 _ _ _ _ => some (.clause .mem)
  | .ldB32 _ _ _ _ => some (.clause .mem)
  | .ldB64 _ _ _ _ => some (.clause .mem)
  | .ldB128 _ _ _ _ => some (.clause .mem)
  | .stB8 _ _ _ _ => some (.clause .mem)
  | .stB16 _ _ _ _ => some (.clause .mem)
  | .stB32 _ _ _ _ => some (.clause .mem)
  | .stB64 _ _ _ _ => some (.clause .mem)
  | .stB128 _ _ _ _ => some (.clause .mem)
  | .stN4 _ _ _ _ => some (.clause .mem)
  | .ldsB8 _ _ _ _ => some (.clause .mem)
  | .ldsS8 _ _ _ _ => some (.clause .mem)
  | .ldsB16 _ _ _ _ => some (.clause .mem)
  | .ldsS16 _ _ _ _ => some (.clause .mem)
  | .ldsB32 _ _ _ _ => some (.clause .mem)
  | .ldsB64 _ _ _ _ => some (.clause .mem)
  | .ldsB128 _ _ _ _ => some (.clause .mem)
  | .stsB8 _ _ _ _ => some (.clause .mem)
  | .stsB16 _ _ _ _ => some (.clause .mem)
  | .stsB32 _ _ _ _ => some (.clause .mem)
  | .stsB64 _ _ _ _ => some (.clause .mem)
  | .stsB128 _ _ _ _ => some (.clause .mem)
  | .stsN4 _ _ _ _ => some (.clause .mem)
  | .ldcB8 _ _ _ _ => some (.clause .mem)
  | .ldcS8 _ _ _ _ => some (.clause .mem)
  | .ldcB16 _ _ _ _ => some (.clause .mem)
  | .ldcS16 _ _ _ _ => some (.clause .mem)
  | .ldcB32 _ _ _ _ => some (.clause .mem)
  | .ldcB64 _ _ _ _ => some (.clause .mem)
  | .ldcB128 _ _ _ _ => some (.clause .mem)
  | .stcB8 _ _ _ _ => some (.clause .mem)
  | .stcB16 _ _ _ _ => some (.clause .mem)
  | .stcB32 _ _ _ _ => some (.clause .mem)
  | .stcB64 _ _ _ _ => some (.clause .mem)
  | .stcB128 _ _ _ _ => some (.clause .mem)
  | .lddB8 _ _ _ _ => some (.clause .mem)
  | .lddS8 _ _ _ _ => some (.clause .mem)
  | .lddB16 _ _ _ _ => some (.clause .mem)
  | .lddS16 _ _ _ _ => some (.clause .mem)
  | .lddB32 _ _ _ _ => some (.clause .mem)
  | .lddB64 _ _ _ _ => some (.clause .mem)
  | .lddB128 _ _ _ _ => some (.clause .mem)
  | .stdB8 _ _ _ _ => some (.clause .mem)
  | .stdB16 _ _ _ _ => some (.clause .mem)
  | .stdB32 _ _ _ _ => some (.clause .mem)
  | .stdB64 _ _ _ _ => some (.clause .mem)
  | .stdB128 _ _ _ _ => some (.clause .mem)
  | .ldpB8 _ _ _ _ => some (.clause .mem)
  | .ldpS8 _ _ _ _ => some (.clause .mem)
  | .ldpB16 _ _ _ _ => some (.clause .mem)
  | .ldpS16 _ _ _ _ => some (.clause .mem)
  | .ldpB32 _ _ _ _ => some (.clause .mem)
  | .ldpB64 _ _ _ _ => some (.clause .mem)
  | .ldpB128 _ _ _ _ => some (.clause .mem)
  | .stpB8 _ _ _ _ => some (.clause .mem)
  | .stpB16 _ _ _ _ => some (.clause .mem)
  | .stpB32 _ _ _ _ => some (.clause .mem)
  | .stpB64 _ _ _ _ => some (.clause .mem)
  | .stpB128 _ _ _ _ => some (.clause .mem)
  | .sldB32 _ _ _ _ => some (.clause .mem)
  | .sldB64 _ _ _ _ => some (.clause .mem)
  | .sstB32 _ _ _ _ => some (.clause .mem)
  | .sstB64 _ _ _ _ => some (.clause .mem)
  | .sldsB64 _ _ _ _ => some (.clause .mem)
  | .sstsB64 _ _ _ _ => some (.clause .mem)
  | .atomAddB32 _ _ _ _ => some (.clause .mem)
  | .atomAddF32 _ _ _ _ => some (.clause .mem)
  | .atomMinS32 _ _ _ _ => some (.clause .mem)
  | .atomMaxS32 _ _ _ _ => some (.clause .mem)
  | .atomMinZ32 _ _ _ _ => some (.clause .mem)
  | .atomMaxZ32 _ _ _ _ => some (.clause .mem)
  | .atomAnd _ _ _ _ => some (.clause .mem)
  | .atomOr _ _ _ _ => some (.clause .mem)
  | .atomXor _ _ _ _ => some (.clause .mem)
  | .atomXchg _ _ _ _ => some (.clause .mem)
  | .atomCas _ _ _ _ => some (.clause .mem)
  | .atomAddB64 _ _ _ _ => some (.clause .mem)
  | .atomCasB64 _ _ _ _ => some (.clause .mem)
  | .atomsAddB32 _ _ _ _ => some (.clause .mem)
  | .atomsAddF32 _ _ _ _ => some (.clause .mem)
  | .atomsMinS32 _ _ _ _ => some (.clause .mem)
  | .atomsMaxS32 _ _ _ _ => some (.clause .mem)
  | .atomsMinZ32 _ _ _ _ => some (.clause .mem)
  | .atomsMaxZ32 _ _ _ _ => some (.clause .mem)
  | .atomsAnd _ _ _ _ => some (.clause .mem)
  | .atomsOr _ _ _ _ => some (.clause .mem)
  | .atomsXor _ _ _ _ => some (.clause .mem)
  | .atomsXchg _ _ _ _ => some (.clause .mem)
  | .atomsCas _ _ _ _ => some (.clause .mem)
  | .atomsAddB64 _ _ _ _ => some (.clause .mem)
  | .atomsCasB64 _ _ _ _ => some (.clause .mem)
  | .satomAddB64 _ _ _ _ => some (.clause .mem)
  | .satomCasB64 _ _ _ _ => some (.clause .mem)
  | .redAddB32 _ _ _ _ => some (.clause .mem)
  | .redAddF32 _ _ _ _ => some (.clause .mem)
  | .redMinS32 _ _ _ _ => some (.clause .mem)
  | .redMaxS32 _ _ _ _ => some (.clause .mem)
  | .redAnd _ _ _ _ => some (.clause .mem)
  | .redOr _ _ _ _ => some (.clause .mem)
  | .redXor _ _ _ _ => some (.clause .mem)
  | .homeAtomic _ => none
  | .nearMemoryReduction _ => none
  | .fence _ _ => some (.clause .mem)
  | .pref _ _ _ _ => some (.clause .mem)
  | .cwb _ _ _ => some (.clause .mem)
  | .cinv _ _ => some (.clause .mem)
  | .dkflush _ => some (.clause .mem)
  | .cpy _ _ _ _ _ => some (.clause .asy)
  | .cpy2 _ _ _ _ => some (.clause .asy)
  | .cpyg _ _ _ _ _ => some (.clause .asy)
  | .cpys _ _ _ _ _ => some (.clause .asy)
  | .cpym _ _ _ _ => some (.clause .asy)
  | .cpyr _ _ _ _ _ _ => some (.clause .asy)
  | .cpyf _ _ _ _ => some (.clause .asy)
  | .mred _ _ _ _ _ => some (.clause .asy)
  | .mma _ _ _ _ _ _ => some (.clause .mtx)
  | .mmaz _ _ _ _ _ _ => some (.clause .mtx)
  | .mbatch _ => some (.clause .mtx)
  | .mwait _ => some (.clause .mtx)
  | .mdrain _ _ _ => some (.clause .mtx)
  | .mdrainx _ _ _ _ => some (.clause .mtx)
  | .mfill _ _ _ => some (.clause .mtx)
  | .mzero _ => some (.clause .mtx)
  | .mrdv _ _ _ _ => some (.clause .mtx)
  | .mwrv _ _ _ _ => some (.clause .mtx)
  | .mprog _ _ => some (.clause .mtx)
  | .br _ => some (.clause .ctl)
  | .bcc _ _ => some (.clause .ctl)
  | .bmz _ _ => some (.clause .ctl)
  | .bmnz _ _ => some (.clause .ctl)
  | .bxz _ => some (.clause .ctl)
  | .bxnz _ => some (.clause .ctl)
  | .call _ => some (.clause .ctl)
  | .callIndirect _ => some (.clause .ctl)
  | .ret => some (.clause .ctl)
  | .jmpi _ => some (.clause .ctl)
  | .exif _ => some (.clause .ctl)
  | .exelse => some (.clause .ctl)
  | .exend => some (.clause .ctl)
  | .tbar _ => some (.clause .ctl)
  | .tarr _ => some (.clause .ctl)
  | .twait _ => some (.clause .ctl)
  | .cbar _ => some (.clause .ctl)
  | .tethArr _ => some (.clause .ctl)
  | .tethWait _ => some (.clause .ctl)
  | .tlaunch _ => some (.clause .ctl)
  | .qtail _ => some (.clause .ctl)
  | .exit => some (.clause .ctl)
  | .trap _ => some (.clause .ctl)
  | .brk _ => some (.clause .ctl)
  | .wfa _ _ => some (.clause .ctl)
  | .rdsys _ _ => some (.clause .sys)
  | .wrsys _ _ => some (.clause .sys)
  | .topo _ _ => some (.clause .sys)
  | .tnow _ _ => some (.clause .sys)
  | .pmrd _ _ => some (.clause .sys)
  | .fltack _ _ => some (.clause .sys)
  | .xlinv _ _ _ => some (.clause .sys)
  | .dbgmk _ => some (.clause .sys)
  | .millAdd _ _ _ => some .mill
  | .millSub _ _ _ => some .mill
  | .millMul _ _ _ => some .mill
  | .millMulh _ _ _ => some .mill
  | .millAnd _ _ _ => some .mill
  | .millOr _ _ _ => some .mill
  | .millXor _ _ _ => some .mill
  | .millShl _ _ _ => some .mill
  | .millShr _ _ _ => some .mill
  | .millSar _ _ _ => some .mill
  | .millSlt _ _ _ => some .mill
  | .millSltz _ _ _ => some .mill
  | .millMin _ _ _ => some .mill
  | .millMax _ _ _ => some .mill
  | .millAddi _ _ _ => some .mill
  | .millAndi _ _ _ => some .mill
  | .millOri _ _ _ => some .mill
  | .millXori _ _ _ => some .mill
  | .millShfi _ _ _ _ => some .mill
  | .millLui _ _ => some .mill
  | .millLd64 _ _ _ => some .mill
  | .millSt64 _ _ _ => some .mill
  | .millLd32 _ _ _ => some .mill
  | .millSt32 _ _ _ => some .mill
  | .millLdt _ _ _ => some .mill
  | .millStt _ _ _ => some .mill
  | .millBeq _ _ _ => some .mill
  | .millBne _ _ _ => some .mill
  | .millBlt _ _ _ => some .mill
  | .millBge _ _ _ => some .mill
  | .millJal _ _ => some .mill
  | .millJr _ _ => some .mill
  | .millWaddB32 _ _ _ _ => some .mill
  | .millWsubB32 _ _ _ _ => some .mill
  | .millWmulB32 _ _ _ _ => some .mill
  | .millWfadd _ _ _ _ => some .mill
  | .millWfmul _ _ _ _ => some .mill
  | .millWffma _ _ _ _ _ => some .mill
  | .millWfmax _ _ _ _ => some .mill
  | .millWfmin _ _ _ _ => some .mill
  | .millWredaddF32 _ _ _ => some .mill
  | .millWcmp _ _ _ _ _ => some .mill
  | .millWsel _ _ _ _ _ => some .mill
  | .millWbcast _ _ _ _ => some .mill
  | .millWld _ _ _ _ => some .mill
  | .millWst _ _ _ _ => some .mill
  | .millRowcp _ _ _ => some .mill
  | .millRowzero _ _ => some .mill
  | .millRowbuf _ _ => some .mill
  | .millBufrow _ _ => some .mill
  | .millRowmac _ _ _ => some .mill
  | .millBanklk _ => some .mill
  | .millBankul _ => some .mill
  | .millRowinv _ _ => some .mill
  | .millRowwait => some .mill
  | .millMsync => some .mill
  | .millMhalt => some .mill
  | .millMtrap _ => some .mill
  | .millMrdsr _ _ => some .mill
  | .millMwrsr _ _ => some .mill
  | .millMpark _ _ => some .mill
  | .linkRetrainComplete _ => none
  | .retiredTagRelease _ _ => none
  | .fibreComesBack _ => none
  | .backInvalidateResponse _ => none
  | .millLdtSttAtHome _ => none
  | .clusterWindowAccess _ => none
  | .tnowRequestArrival _ => none

/-- The contexts in which a table word is tried, in this order (log entry 21). -/
def tableCtxs : List Ctx :=
  [.header, .clause .alu, .clause .mem, .clause .mtx, .clause .asy, .clause .ctl, .clause .sys, .mill]

/-- A table word in a context, its literals zero: the instruction when the word and `j` zero
literals are exactly one instruction. -/
noncomputable def tryWord (ctx : Ctx) (w : W32) (j : Nat) : Option Instr :=
  match decode ctx (w :: List.replicate j 0) with
  | .ok i [] => some i
  | _ => none

/-- A table word in a context, with as many zero literals as it takes. -/
noncomputable def tableInCtx (ctx : Ctx) (w : W32) : Option Instr :=
  match tryWord ctx w 0 with
  | some i => some i
  | none => match tryWord ctx w 1 with
    | some i => some i
    | none => match tryWord ctx w 2 with
      | some i => some i
      | none => tryWord ctx w 3

/-- The context and the instruction a table word is read in: the first context in which it is a
well-formed instruction, otherwise the first in which it decodes at all (log entry 21: the table
gives a word's bits but not the clause class it stands in, and R222 gives one bit pattern different
meanings in different classes). -/
noncomputable def tablePick (w : W32) : Option (Ctx × Instr) :=
  let all := tableCtxs.filterMap fun c => (tableInCtx c w).map fun i => (c, i)
  match all.find? fun p => p.2.wf with
  | some p => some p
  | none => all.head?

/-- The instruction the decoder reads from the bits of an opcode-table row. -/
noncomputable def decodeTableWord (nbits w : Nat) : Option Instr :=
  if nbits = 32 then (tablePick (BitVec.ofNat 32 w)).map (·.2) else none

end Sys2Proof
end

