-- ==== Sys2Proof/Machine/Float.lean ====
section
/-! DEFINITION. Number formats and arithmetic (R242 to R268): every floating-point result is computed
exactly on integers and rounded once. A finite value is a sign, a natural number and a power of two. -/

namespace Sys2Proof.Machine

/-- An interchange format of R242: `p` fraction bits, exponent field of `ew` bits, bias `b`. -/
structure FpFormat where
  p : Nat
  ew : Nat
  b : Nat
  /-- E4M3 has no infinities and one NaN pattern (R243). -/
  noInf : Bool
  deriving DecidableEq, Repr

def fp32 : FpFormat := ⟨23, 8, 127, false⟩
def fp16 : FpFormat := ⟨10, 5, 15, false⟩
def bf16 : FpFormat := ⟨7, 8, 127, false⟩
def fpE4M3 : FpFormat := ⟨3, 4, 7, true⟩
def fpE5M2 : FpFormat := ⟨2, 5, 15, false⟩

/-- The value of a bit pattern (R243): (−1)^neg × m × 2^e, an infinity, or a NaN. -/
inductive Fv
  | nan
  | inf (neg : Bool)
  | fin (neg : Bool) (m : Nat) (e : Int)
  deriving DecidableEq, Repr

/-- The bit at the sign's place. -/
def FpFormat.signBit (f : FpFormat) (neg : Bool) : Nat := b2n neg * 2 ^ (f.p + f.ew)
/-- The all-ones exponent with a zero fraction. -/
def FpFormat.infBits (f : FpFormat) : Nat := (2 ^ f.ew - 1) * 2 ^ f.p
/-- The canonical NaN of R242. -/
def FpFormat.nanBits (f : FpFormat) : Nat := if f.noInf then 0x7F else f.infBits + 2 ^ (f.p - 1)
/-- The largest finite magnitude of R242. -/
def FpFormat.maxBits (f : FpFormat) : Nat := if f.noInf then 0x7E else f.infBits - 1

/-- R243. -/
def fpDecode (f : FpFormat) (x : Nat) : Fv :=
  let frac := x % 2 ^ f.p
  let e := x / 2 ^ f.p % 2 ^ f.ew
  let neg := bit x (f.p + f.ew)
  if e = 0 then .fin neg frac (1 - (f.b : Int) - f.p)
  else if e = 2 ^ f.ew - 1 ∧ (f.noInf = false ∨ frac = 2 ^ f.p - 1) then
    if f.noInf = false ∧ frac = 0 then .inf neg else .nan
  else .fin neg (2 ^ f.p + frac) ((e : Int) - f.b - f.p)

/-- The rounding directions of R248. -/
inductive RDir | rne | rz | ru | rd
  deriving DecidableEq, Repr
/-- A rounding mode: a direction and whether it saturates (R248). -/
structure RMode where
  dir : RDir
  sat : Bool
  deriving DecidableEq, Repr

def rne : RMode := ⟨.rne, false⟩
def rneSat : RMode := ⟨.rne, true⟩

/-- The mode that a rounding code names (R248). -/
def rmodeOf (c : Nat) : RMode :=
  ⟨match c % 4 with | 0 => .rne | 1 => .rz | 2 => .ru | _ => .rd, decide (8 ≤ c)⟩

/-- Divide by 2^k and round: the quotient, for a magnitude m plus, when `sticky`, something strictly
between 0 and 1 (R246). -/
def roundShift (dir : RDir) (neg : Bool) (m k : Nat) (sticky : Bool) : Nat :=
  let q := m / 2 ^ k
  let r := m % 2 ^ k
  let inexact := sticky || r != 0
  let up := match dir with
    | .rne => decide (2 ^ k < 2 * r) || (2 * r == 2 ^ k && k != 0 && (sticky || q % 2 == 1))
    | .rz => false
    | .ru => inexact && !neg
    | .rd => inexact && neg
  if up then q + 1 else q

/-- The overflow rule of R247, for a finite magnitude past the largest or for an infinity. -/
def fpOverflow (f : FpFormat) (md : RMode) (neg isInf : Bool) : Nat :=
  let inf := if f.noInf then f.nanBits else f.signBit neg + f.infBits
  let big := f.signBit neg + f.maxBits
  if md.sat then big
  else match md.dir with
    | .rne => inf
    | .rz => if isInf then inf else big
    | .ru => if neg && !isInf then big else inf
    | .rd => if !neg && !isInf then big else inf

/-- Round (−1)^neg × (m + sticky) × 2^e to a format: R246, R247, R249. -/
def fpRound (f : FpFormat) (md : RMode) (neg : Bool) (m : Nat) (e : Int) (sticky : Bool) : Nat :=
  if m = 0 ∧ sticky = false then f.signBit neg
  else
    let top : Int := (Nat.log2 m : Int) + e
    let q : Int := max (top - f.p) (1 - (f.b : Int) - f.p)
    let r := if q ≤ e then m * 2 ^ (e - q).toNat else roundShift md.dir neg m (q - e).toNat sticky
    let w := (q + f.b + f.p - 1).toNat * 2 ^ f.p + r
    if f.maxBits < w then fpOverflow f md neg false else f.signBit neg + w

/-- Encode a value into a format (R246). -/
def fpEncode (f : FpFormat) (md : RMode) : Fv → Nat
  | .nan => f.nanBits
  | .inf neg => fpOverflow f md neg true
  | .fin neg m e => fpRound f md neg m e false

/-- The value of an FP32 lane. -/
def f32v (x : W32) : Fv := fpDecode fp32 x.toNat
/-- round_rne_f32 of a value (R246). -/
def toF32 (v : Fv) : W32 := BitVec.ofNat 32 (fpEncode fp32 rne v)
/-- The canonical NaN of FP32. -/
def nanF32 : W32 := 0x7FC00000#32

/-- Signed mantissa of a finite value at the exponent `e0 ≤ e`. -/
def atExp (neg : Bool) (m : Nat) (e e0 : Int) : Int :=
  let v : Int := ((m * 2 ^ (e - e0).toNat : Nat) : Int)
  if neg then -v else v

/-- The exact sum, with the zero signs of R249 and the invalid case of R250. -/
def fvAdd : Fv → Fv → Fv
  | .nan, _ => .nan
  | _, .nan => .nan
  | .inf s, .inf t => if s = t then .inf s else .nan
  | .inf s, .fin _ _ _ => .inf s
  | .fin _ _ _, .inf t => .inf t
  | .fin s m e, .fin t n g =>
    let e0 := min e g
    let v := atExp s m e e0 + atExp t n g e0
    if v = 0 then .fin (m == 0 && n == 0 && s && t) 0 e0
    else .fin (decide (v < 0)) v.natAbs e0

/-- The exact product (R249, R250). -/
def fvMul : Fv → Fv → Fv
  | .nan, _ => .nan
  | _, .nan => .nan
  | .inf s, .inf t => .inf (s != t)
  | .inf s, .fin t n _ => if n = 0 then .nan else .inf (s != t)
  | .fin s m _, .inf t => if m = 0 then .nan else .inf (s != t)
  | .fin s m e, .fin t n g => .fin (s != t) (m * n) (e + g)

def fvNeg : Fv → Fv
  | .nan => .nan | .inf s => .inf (!s) | .fin s m e => .fin (!s) m e

/-- x × 2^k, exactly (R254, R265, R301). -/
def fvScale (v : Fv) (k : Int) : Fv :=
  match v with | .fin s m e => .fin s m (e + k) | v => v

/-- Whether a value is a NaN. -/
def fvIsNan : Fv → Bool | .nan => true | _ => false

/-- x < y by value, for values that are not NaNs; zeros are equal (R291). -/
def fvLt : Fv → Fv → Bool
  | .nan, _ => false
  | _, .nan => false
  | .inf s, .inf t => s && !t
  | .inf s, .fin _ _ _ => s
  | .fin _ _ _, .inf t => !t
  | .fin s m e, .fin t n g => decide (atExp s m e (min e g) < atExp t n g (min e g))

/-- x = y by value, for values that are not NaNs. -/
def fvEq (x y : Fv) : Bool := !fvIsNan x && !fvIsNan y && !fvLt x y && !fvLt y x

/-- The sign of a value that is no NaN. -/
def fvSign : Fv → Bool | .nan => false | .inf s => s | .fin s _ _ => s

/-! The FP32 words of R250 and R251. -/

def f32Add (x y : W32) : W32 := toF32 (fvAdd (f32v x) (f32v y))
def f32Sub (x y : W32) : W32 := toF32 (fvAdd (f32v x) (fvNeg (f32v y)))
def f32Mul (x y : W32) : W32 := toF32 (fvMul (f32v x) (f32v y))
/-- One rounding; 0 × infinity is a NaN even when the addend is a NaN (R250). -/
def f32Fma (x y z : W32) : W32 := toF32 (fvAdd (fvMul (f32v x) (f32v y)) (f32v z))
def f32Abs (x : W32) : W32 := x &&& 0x7FFFFFFF#32
def f32Neg (x : W32) : W32 := x ^^^ 0x80000000#32

/-- x ÷ y (R250). -/
def f32Div (x y : W32) : W32 :=
  match f32v x, f32v y with
  | .nan, _ => nanF32
  | _, .nan => nanF32
  | .inf _, .inf _ => nanF32
  | .inf s, .fin t _ _ => toF32 (.inf (s != t))
  | .fin s _ _, .inf t => toF32 (.fin (s != t) 0 0)
  | .fin s m e, .fin t n g =>
    if n = 0 then (if m = 0 then nanF32 else toF32 (.inf (s != t)))
    else BitVec.ofNat 32 (fpRound fp32 rne (s != t) (m * 2 ^ 60 / n) (e - 60 - g) (m * 2 ^ 60 % n != 0))

/-- The integer square root, bit by bit from bit `k − 1` of the root. -/
def isqrtGo (n : Nat) : Nat → Nat → Nat
  | 0, r => r
  | k + 1, r => if (r + 2 ^ k) * (r + 2 ^ k) ≤ n then isqrtGo n k (r + 2 ^ k) else isqrtGo n k r
/-- ⌊√n⌋. -/
def isqrt (n : Nat) : Nat := isqrtGo n (Nat.log2 n / 2 + 1) 0

/-- √x (R250). -/
def f32Sqrt (x : W32) : W32 :=
  match f32v x with
  | .nan => nanF32
  | .inf s => if s then nanF32 else toF32 (.inf false)
  | .fin s m e =>
    if m = 0 then toF32 (.fin s 0 0)
    else if s then nanF32
    else
      let n := if e % 2 = 0 then m * 2 ^ 64 else m * 2 ^ 65
      let g : Int := if e % 2 = 0 then (e - 64) / 2 else (e - 65) / 2
      BitVec.ofNat 32 (fpRound fp32 rne false (isqrt n) g (isqrt n * isqrt n != n))

/-- minimumNumber (R251). -/
def f32Min (x y : W32) : W32 :=
  match f32v x, f32v y with
  | .nan, .nan => nanF32
  | .nan, _ => y
  | _, .nan => x
  | u, v => if fvLt u v then x else if fvLt v u then y else if fvSign u then x else y
/-- maximumNumber (R251). -/
def f32Max (x y : W32) : W32 :=
  match f32v x, f32v y with
  | .nan, .nan => nanF32
  | .nan, _ => y
  | _, .nan => x
  | u, v => if fvLt u v then y else if fvLt v u then x else if fvSign u then y else x

/-! Conversions (R252, R253, R288, R289). -/

/-- Widening to FP32, exact (R252). -/
def widen (f : FpFormat) (x : Nat) : W32 := toF32 (fpDecode f x)
/-- Narrowing from FP32 (R252). -/
def narrow (f : FpFormat) (md : RMode) (x : W32) : Nat := fpEncode f md (f32v x)
/-- round(n, FP32, mode) of an integer (R253). -/
def f32OfInt (md : RMode) (n : Int) : W32 := BitVec.ofNat 32 (fpRound fp32 md (decide (n < 0)) n.natAbs 0 false)
/-- A finite value rounded to an integer (R253). -/
def roundInt (dir : RDir) (neg : Bool) (m : Nat) (e : Int) : Int :=
  let q : Nat := if 0 ≤ e then m * 2 ^ e.toNat else roundShift dir neg m (-e).toNat false
  if neg then -(q : Int) else q
/-- Clamp to a range. -/
def clampInt (lo hi v : Int) : Int := if v < lo then lo else if hi < v then hi else v
/-- FP32 to an integer clamped to [lo, hi]; a NaN gives 0 (R253). -/
def f32ToInt (dir : RDir) (lo hi : Int) (x : W32) : W32 :=
  match f32v x with
  | .nan => 0
  | .inf s => BitVec.ofInt 32 (if s then lo else hi)
  | .fin s m e => BitVec.ofInt 32 (clampInt lo hi (roundInt dir s m e))
/-- vfrnd (R288). -/
def f32Rnd (dir : RDir) (x : W32) : W32 :=
  match f32v x with
  | .nan => nanF32
  | .inf _ => x
  | .fin s m e => if 0 ≤ e ∨ m = 0 then x else toF32 (.fin s (roundInt dir s m e).natAbs 0)
/-- vfcls (R289). -/
def f32Class (x : W32) : W32 :=
  match f32v x with
  | .nan => 1
  | .inf s => if s then 2 else 0x100
  | .fin s m _ =>
    if m = 0 then (if s then 0x10 else 0x20)
    else if m < 2 ^ 23 then (if s then 8 else 0x40)
    else if s then 4 else 0x80

/-! Block scales and 4-bit elements (R254 to R257). -/

/-- The 4-bit sets of R255, named by the scale byte's type. -/
inductive Mx4Set | int | e2m1 | pow2 | hyb
  deriving DecidableEq, Repr
def mx4SetOf : Nat → Mx4Set | 0 => .int | 1 => .e2m1 | 2 => .pow2 | _ => .hyb

/-- Eight times the element a code names (R255); every element of every set is a multiple of 1/8. -/
def mx4Eighths (t : Mx4Set) (code : Nat) : Int :=
  let mag : Nat → Int := fun i => match t with
    | .int => 8 * (i : Int)
    | .e2m1 => [0, 4, 8, 12, 16, 24, 32, 48].getD i 0
    | .pow2 => [1, 2, 4, 8, 16, 32, 64, 128].getD i 0
    | .hyb => [0, 8, 16, 24, 32, 48, 64, 96].getD i 0
  if code < 8 then mag code
  else match t with
    | .int => 8 * ((code : Int) - 16)
    | .pow2 => if code = 8 then 0 else -(mag (code - 8))
    | _ => -(mag (code - 8))

/-- The exact value of a 4-bit element; zero carries no sign (R255). -/
def mx4Value (t : Mx4Set) (code : Nat) : Fv :=
  let v := mx4Eighths t code
  .fin (decide (v < 0)) v.natAbs (-3)

/-- The exponent of a scale byte, E − 32 (R254). -/
def scaleExp (sb : Nat) : Int := ((sb % 64 : Nat) : Int) - 32
/-- The type of a scale byte (R254). -/
def scaleType (sb : Nat) : Nat := sb / 64 % 4

/-- The format of an mx8 element; types 10 and 11 are reserved (R256). -/
def mx8Format (t : Nat) : Option FpFormat :=
  match t with | 0 => some fpE4M3 | 1 => some fpE5M2 | _ => none

/-- The target sets of R264, by the set codes of R302. -/
inductive MxSet | e4m3 | e5m2 | four (t : Mx4Set)
  deriving DecidableEq, Repr
def mxSetOf (c : Nat) : MxSet :=
  match c with
  | 0x10 => .e4m3 | 0x11 => .e5m2 | 0x20 => .four .int | 0x21 => .four .e2m1 | 0x22 => .four .pow2 | _ => .four .hyb
/-- The type field of R264. -/
def MxSet.type : MxSet → Nat
  | .e4m3 => 0 | .e5m2 => 1 | .four .int => 0 | .four .e2m1 => 1 | .four .pow2 => 2 | .four .hyb => 3
/-- emax of R264. -/
def MxSet.emax : MxSet → Int
  | .e4m3 => 8 | .e5m2 => 15 | .four .int => 2 | .four .e2m1 => 2 | .four .pow2 => 4 | .four .hyb => 3

/-- The larger magnitude of two finite values, as a mantissa and exponent. -/
def magMax (a b : Nat × Int) : Nat × Int :=
  let e0 := min a.2 b.2
  if a.1 * 2 ^ (a.2 - e0).toNat < b.1 * 2 ^ (b.2 - e0).toNat then b else a
/-- The largest |v| over the finite v of a block, 0 when none is finite (R264). -/
def blockMax (vs : List W32) : Nat × Int :=
  vs.foldl (fun acc x => match f32v x with | .fin _ m e => magMax acc (m, e) | _ => acc) (0, 0)
/-- mx_scale (R264). -/
def mxScale (set : MxSet) (vs : List W32) : Nat :=
  let mx := blockMax vs
  let e : Int := if mx.1 = 0 then 0 else clampInt 0 63 ((Nat.log2 mx.1 : Int) + mx.2 - set.emax + 32)
  set.type * 64 + e.toNat

/-- The tie rule of R266: whether a code takes a halfway value from the lower code before it; in the
power-of-two set zero, code 0x8, wins over −0.25, code 0x9. -/
def mx4TieOk (t : Mx4Set) (code : Nat) : Bool :=
  match t with
  | .int => (mx4Eighths .int code / 8) % 2 == 0
  | .pow2 => code == 8 || (code % 2 == 1 && code != 9)
  | _ => code % 2 == 0

/-- The codes of a set that name distinct values; zero is 0x0, or 0x8 in the power-of-two set (R266). -/
def mx4Codes (t : Mx4Set) : List Nat :=
  match t with
  | .int => [0, 1, 2, 3, 4, 5, 6, 7, 8, 9, 10, 11, 12, 13, 14, 15]
  | .pow2 => [0, 1, 2, 3, 4, 5, 6, 7, 8, 9, 10, 11, 12, 13, 14, 15]
  | _ => [0, 1, 2, 3, 4, 5, 6, 7, 9, 10, 11, 12, 13, 14, 15]

/-- The nearest element of a 4-bit set to a finite value, ties by R266. -/
def mx4Nearest (t : Mx4Set) (neg : Bool) (m : Nat) (e : Int) : Nat :=
  let e0 : Int := min e (-3)
  let x := atExp neg m e e0
  let dist : Nat → Nat := fun c => (x - mx4Eighths t c * (2 ^ (-3 - e0).toNat : Nat)).natAbs
  let best : Nat → Nat → Nat := fun a c =>
    if dist c < dist a then c else if dist a < dist c then a else if mx4TieOk t c then c else a
  match mx4Codes t with
  | [] => 0
  | c :: cs => cs.foldl best c

/-- q of R265 and R266 for a 4-bit set. -/
def mx4Quant (t : Mx4Set) (v : Fv) : Nat :=
  match v with
  | .nan => if t = .pow2 then 8 else 0
  | .inf false => 7
  | .inf true => if t = .int then 8 else 15
  | .fin s m e => mx4Nearest t s m e

/-- q of R265: an element of the target set from a scaled value. -/
def mxQuant (set : MxSet) (v : Fv) : Nat :=
  match set with
  | .e4m3 => match v with
    | .nan => 0x7F
    | .inf s => fpE4M3.signBit s + fpE4M3.maxBits
    | .fin s m e => fpRound fpE4M3 rneSat s m e false
  | .e5m2 => match v with
    | .nan => 0x7E
    | .inf s => fpE5M2.signBit s + fpE5M2.infBits
    | .fin s m e => fpRound fpE5M2 rneSat s m e false
  | .four t => mx4Quant t v

/-- An element of a block from an FP32 value and the block's scale byte (R265). -/
def mxElement (set : MxSet) (sb : Nat) (x : W32) : Nat := mxQuant set (fvScale (f32v x) (-(scaleExp sb)))

/-! Reduction and scan trees (R261, R262). -/

/-- One level of the tree: adjacent pairs combined. -/
def pairUp (op : W32 → W32 → W32) : Lanes → Lanes
  | a :: b :: l => op a b :: pairUp op l
  | l => l
/-- The fixed tree over 2^k lanes. -/
def treeRed (op : W32 → W32 → W32) : Nat → Lanes → W32
  | 0, l => lane l 0
  | k + 1, l => treeRed op k (pairUp op l)
/-- log2 of a lane count: 16, 32 or 64. -/
def lanesLog (n : Nat) : Nat := if n = 64 then 6 else if n = 16 then 4 else 5
/-- One step of the inclusive scan at distance d. -/
def scanStep (op : W32 → W32 → W32) (d : Nat) (l : Lanes) : Lanes :=
  (List.range l.length).map fun i => if d ≤ i then op (lane l (i - d)) (lane l i) else lane l i
/-- The inclusive scan: distances 1, 2, 4 … (R262). -/
def scanRed (op : W32 → W32 → W32) (l : Lanes) : Lanes :=
  (List.range (lanesLog l.length)).foldl (fun acc k => scanStep op (2 ^ k) acc) l

/-! Transcendental functions (R263), in fixed point with 320 fraction bits. No FP32 input that is not
one of the exact cases has a value within 2^−200 of a rounding boundary (PRESUMED, log entry 14). -/

/-- Fraction bits of the fixed point. -/
def fxBits : Nat := 320
/-- ⌊π × 2^320⌋. -/
def fxPi : Nat := 0x3243f6a8885a308d313198a2e03707344a4093822299f31d0082efa98ec4e6c89452821e638d01377
/-- ⌊ln 2 × 2^320⌋. -/
def fxLn2 : Nat := 0xb17217f7d1cf79abc9e3b39803f2f6af40f343267298b62d8a0d175b8baafa2be7b876206debac98
def fxMul (a b : Nat) : Nat := a * b / 2 ^ fxBits
/-- Σ t^k / k!, k from `k0` upward, `n` terms; `term` is the current term. -/
def fxExpGo (t : Nat) : Nat → Nat → Nat → Nat
  | 0, _, _ => 0
  | n + 1, k, term => term + fxExpGo t n (k + 1) (fxMul term t / (k + 1))
/-- e^t in fixed point, 0 ≤ t < 1. -/
def fxExp (t : Nat) : Nat := fxExpGo t 80 0 (2 ^ fxBits)
/-- Σ z^(2k+1) / (2k+1), `n` terms. -/
def fxAtanhGo (z2 : Nat) : Nat → Nat → Nat → Nat
  | 0, _, _ => 0
  | n + 1, k, pow => pow / (2 * k + 1) + fxAtanhGo z2 n (k + 1) (fxMul pow z2)
/-- log2 of y in [1, 2), both in fixed point. -/
def fxLog2 (y : Nat) : Nat :=
  let z := (y - 2 ^ fxBits) * 2 ^ fxBits / (y + 2 ^ fxBits)
  2 * fxAtanhGo (fxMul z z) 110 0 z * 2 ^ fxBits / fxLn2
/-- Σ (−1)^k a^(2k+j) / (2k+j)! by pairs, for j = 0 (cosine) or 1 (sine). -/
def fxTrigGo (a2 : Nat) : Nat → Nat → Nat → Int → Int
  | 0, _, _, _ => 0
  | n + 1, j, term, sg => sg * (term : Int) + fxTrigGo a2 n (j + 2) (fxMul term a2 / ((j + 1) * (j + 2))) (-sg)
def fxSin (a : Nat) : Nat := (fxTrigGo (fxMul a a) 45 1 a 1).toNat
def fxCos (a : Nat) : Nat := (fxTrigGo (fxMul a a) 45 0 (2 ^ fxBits) 1).toNat

/-- Round a positive irrational magnitude given in fixed point times 2^k. -/
def fxRound (neg : Bool) (m : Nat) (k : Int) : W32 := BitVec.ofNat 32 (fpRound fp32 rne neg m (k - fxBits) true)

/-- 1/x (R263): rational, rounded exactly. -/
def f32Rcp (x : W32) : W32 := f32Div 0x3F800000#32 x

/-- 1/√x (R263): the floor of the root of 2^(2k) / m with a sticky bit. -/
def f32Rsq (x : W32) : W32 :=
  match f32v x with
  | .nan => nanF32
  | .inf s => if s then nanF32 else 0
  | .fin s m e =>
    if m = 0 then toF32 (.inf s)
    else if s then nanF32
    else
      let m' := if e % 2 = 0 then m else 2 * m
      let e' : Int := if e % 2 = 0 then e else e - 1
      let n := 2 ^ 120 / m'
      let r := isqrt n
      BitVec.ofNat 32 (fpRound fp32 rne false r (-60 - e' / 2) (r * r * m' != 2 ^ 120))

/-- 2^x (R263). -/
def f32Ex2 (x : W32) : W32 :=
  match f32v x with
  | .nan => nanF32
  | .inf s => if s then 0 else toF32 (.inf false)
  | .fin s m e =>
    if fvLt (f32v x) (.fin true 150 0) || fvEq (f32v x) (.fin true 150 0) then 0
    else if fvLt (.fin false 1 7) (f32v x) || fvEq (f32v x) (.fin false 1 7) then toF32 (.inf false)
    else
      -- x in fixed point with 320 fraction bits; every FP32 below 2^7 is exact there
      let v := atExp s m e (-(fxBits : Int))
      let n := v / (2 ^ fxBits : Nat)
      let f := (v - n * (2 ^ fxBits : Nat)).toNat
      if f = 0 then toF32 (.fin false 1 n) else fxRound false (fxExp (fxMul f fxLn2)) n

/-- log2 x (R263). -/
def f32Lg2 (x : W32) : W32 :=
  match f32v x with
  | .nan => nanF32
  | .inf s => if s then nanF32 else toF32 (.inf false)
  | .fin s m e =>
    if m = 0 then toF32 (.inf true)
    else if s then nanF32
    else
      let k := Nat.log2 m
      let ex : Int := e + k
      if m = 2 ^ k then toF32 (.fin (decide (ex < 0)) ex.natAbs 0)
      else
        let v : Int := ex * (2 ^ fxBits : Nat) + (fxLog2 (m * 2 ^ (fxBits - k)) : Nat)
        fxRound (decide (v < 0)) v.natAbs 0

/-- For sin(π(qd/2 + θ)) or the cosine of the same angle: whether it is a cosine of πθ, and whether it
is negated. -/
def trigQuad (wantCos : Bool) (qd : Nat) : Bool × Bool :=
  let q := if wantCos then qd + 1 else qd
  (q % 2 == 1, q / 2 % 2 == 1)

/-- sin(πx) and cos(πx) (R263): x is reduced exactly modulo 2, then to a quarter turn. -/
def f32Trig (wantCos : Bool) (x : W32) : W32 :=
  match f32v x with
  | .nan => nanF32
  | .inf _ => nanF32
  | .fin s m e =>
    if 1 ≤ e ∨ m = 0 then
      -- an even integer: sin is a zero with x's sign, cos is +1
      if wantCos then 0x3F800000#32 else toF32 (.fin s 0 0)
    else
      -- one quadrant (1/2) is `half` units of 2^(e−1)
      let k := (-e).toNat
      let half := 2 ^ k
      let v := 2 * m % (4 * half)
      let qd := v / half
      let rem := v % half
      let uc := trigQuad wantCos qd
      -- the sine is odd in x, the cosine even
      let neg := uc.2 != (s && !wantCos)
      if rem = 0 then
        if uc.1 then (if neg then 0xBF800000#32 else 0x3F800000#32)
        else if wantCos then 0 else toF32 (.fin s 0 0)
      else
        -- the angle within the quadrant, in quarter turns rem/half; fold the upper half over
        let fold := decide (half < 2 * rem)
        let w := if fold then half - rem else rem
        let ang := fxPi * w / (2 * half)
        let useCos := uc.1 != fold
        fxRound neg (if useCos then fxCos ang else fxSin ang) 0

def f32SinP (x : W32) : W32 := f32Trig false x
def f32CosP (x : W32) : W32 := f32Trig true x

end Sys2Proof.Machine
end

