-- ==== Sys2Proof/Config.lean ====
section
/-! DEFINITION. What an implementation fixes and the spec leaves open: the free values. None has a
body, so no proof can lean on a value of one. -/

namespace Sys2Proof

/-- Nanoseconds that pass on a sheet's counter in the step a number names (R5, R16; log entry 10). -/
opaque Config.elapsed : Nat → Nat → Nat

/-- The byte that a scratchpad or lane-private address holds at team start, which R159 leaves
undefined: by team epoch and address (log entry 2). -/
opaque Config.undefByte : Nat → Nat → BitVec 8

/-- Which of the lines of a drain that write one scratchpad byte stands: R328 allows lines to overlap and R333
states no order among them; by step and 4-byte word (log entry 22). -/
opaque Config.drainPick : Nat → Nat → Nat

/-- The transmit-fibre hash of R41, by class, destination package and 256-byte line (log entry 15). -/
opaque Config.fibreHash : Nat → Nat → Nat → Nat

/-- Bytes of the attestation report and certificate that the spec derives from fused secrets: the
versions, digests and the signature (R208, R209; log entry 16). -/
opaque Config.attestByte : Nat → Nat → BitVec 8

/-- ATTCLEN, for which R209 gives no value (log entry 16). -/
opaque Config.attestLen : Nat

end Sys2Proof
end

