-- ==== Sys2Proof/Machine/State.lean ====
section
/-! DEFINITION. The state of a W1 as plain data: groups and teams, cores, mills, the five address
spaces, the caches and directories, messages in flight, the scheduler, the queues and the management
window, the links and fibres, boot, freeze and the error log. -/

namespace Sys2Proof.Machine

/-- A sparse memory: address and byte, addresses strictly rising. -/
abbrev Mem := List Host.Cell

/-! ### Groups, teams and cores (R157 to R173) -/

/-- FLAGS (R163). -/
structure Flags where
  z : Bool
  n : Bool
  c : Bool
  v : Bool
  deriving DecidableEq, Repr

/-- The trap registers of R177; TRCODE is held by its fields. -/
structure TrapRegs where
  active : Bool
  word : Nat
  code : Nat
  pc : W64
  next : W64
  va : W64
  lanes : W64
  exm : W64
  deriving DecidableEq, Repr

/-- What an atomic, a reduction or a plain home access does to a word of memory (R309, R312, R324). -/
inductive AtomOp
  | addB32 | addF32 | minS32 | maxS32 | minZ32 | maxZ32 | and | or | xor | xchg | cas | addB64 | casB64
  deriving DecidableEq, Repr

/-- One lane's operation inside a request that a bank, a hub or a home performs whole. -/
structure LaneOp where
  lane : Nat
  addr : Nat
  bytes : Nat
  /-- Nibble enables of the bytes, low nibble first; used by writes. -/
  nibs : Nat
  /-- `none` reads, `some none` writes x, `some (some op)` is an atomic or a reduction. -/
  op : Option (Option AtomOp)
  x : Nat
  y : Nat
  deriving DecidableEq, Repr

/-- Where a release or an acquire stands (R112, R138, R139). -/
inductive FencePhase
  /-- A release waits for its DrainAck; the word that asked for it has not performed. -/
  | release
  /-- The release has completed; the word may perform. -/
  | released
  /-- An acquire waits for its DrainAck; the word has committed and the next one may not issue. -/
  | acquire
  deriving DecidableEq, Repr

/-- A release or acquire in progress for a group (R112, R138, R139). -/
structure FenceSt where
  phase : FencePhase
  scope : Nat
  deriving DecidableEq, Repr

/-- The address spaces of R96. -/
inductive Space | glob | sp | cw | ds | priv
  deriving DecidableEq, Repr

/-- A load whose data has been asked for: the word's operands, which do not change while it waits. -/
structure LoadWord where
  space : Space
  bytes : Nat
  sext : Bool
  d : Dst
  base : Src
  off : Src
  m : MemMods
  /-- A scalar load (R308). -/
  scalar : Bool
  deriving DecidableEq, Repr

/-- The fault a line's fill came back with. -/
structure LineFault where
  line : Nat
  va : Nat
  code : Nat
  /-- The page is deckled, so that an access without rights to it meets DECKLE first (R84, R176). -/
  dk : Bool := false
  deriving DecidableEq, Repr

/-- What a memory word that waits has gathered so far. -/
structure MemStall where
  /-- The lines whose fills have been asked for and not yet answered. -/
  asked : List Nat
  /-- Fills that failed. -/
  faults : List LineFault
  /-- What the home, the hub or a remote sheet answered for a request it performs whole. -/
  result : Option (List Nat)
  /-- Set while such a request is outstanding. -/
  sent : Bool
  /-- The load that waits for its data, if the word is one. -/
  load : Option LoadWord
  /-- An atomic at .sh whose lanes have passed their checks: deckled lanes are at the home (R145, R311), and the lines of
  the others are held until those have answered. -/
  homing : Bool
  pinned : List Nat
  deriving DecidableEq, Repr

/-- A 256-byte line by address space and VA (R108). -/
structure LineId where
  asid : Nat
  line : Nat
  deriving DecidableEq, Repr

/-- Why a group stands at a word (R164, R165, R182). -/
inductive Wait
  | mem
  | tbar (b : Nat)
  /-- The arrival part of a tbar, or a tarr: an earlier arrival of the group is in a generation that has not ended. -/
  | tarr (b : Nat)
  | twait (b : Nat)
  | cbar (c : Nat)
  | tethArr (t : Nat)
  | tethWait (t : Nat)
  | dkflush
  | exit
  /-- wfa: the line, its value when the wait began, and the limit on the sheet counter. -/
  | wfa (line : LineId) (val : BitVec 2048) (deadline : Nat)
  /-- A word that pre-emption lets complete: tlaunch in its write-back, xlinv (R340, R352). -/
  | whole
  /-- A read of a tile waits for the operations on it (R337). -/
  | tile (t : Nat)
  /-- A tnow waits for another sheet's answer; pre-emption saves the word unissued (R352). -/
  | tnow
  | other
  deriving DecidableEq, Repr

/-- Where a group stands in its life (R128, R179, R182). -/
inductive GStat
  /-- May issue. -/
  | ready
  /-- Parked on a translation fault under a FID. -/
  | parked (fid : Nat)
  /-- Has executed exit and waits in the exit stall. -/
  | exiting
  | exited
  /-- Stopped by step 1 of R92. -/
  | stopped
  deriving DecidableEq, Repr

/-- A hardware slot's architectural state (R161), for a pair of slots under width 64 (R157). -/
structure Group where
  id : GroupRef
  pc : W64
  widx : Nat
  /-- The result queue by age, q0 first (R162). -/
  q : Vector Lanes 16
  v : Vector Lanes 24
  s : Vector W64 16
  exm : W64
  m : Vector W64 8
  mstack : Vector W64 16
  msdepth : Nat
  flags : Flags
  /-- Next matrix batch number (R167). -/
  batch : Nat
  trap : TrapRegs
  stat : GStat
  wait : Option Wait
  fence : Option FenceSt
  stall : MemStall
  /-- The address the parked fault named. -/
  faultVa : W64
  /-- The lanes that raised it. -/
  faultLanes : W64
  /-- dkflush cursor (R95, R318). -/
  cursor : Nat
  /-- Tethers at which teth.arr was executed in the current generation (R182, 0x1530). -/
  tethArr : W64
  /-- Tethers whose counted generation ended and is latched for this group (R182, 0x1548). -/
  tethLatched : W64
  /-- Cluster barriers arrived at in the current generation (R182, 0x1554). -/
  cbarArr : Nat
  /-- An uncorrectable operand word met after issue: LOSTLINE at the next clause (R330). -/
  lateFault : Option W64
  /-- The clause at PC as it was fetched, header first; empty until it has been (R220). -/
  clause : List W32
  /-- Since when it has been ready to start the clause, on the model's own counter, and how many clause starts by other groups
  of its core it has seen since (R164). -/
  ready : Option (Nat × Nat)
  clauseStarts : Nat
  wordsIssued : Nat
  dbgmks : Nat
  deriving DecidableEq, Repr

/-- One team barrier (R171): arrived groups, one bit each, and the generation. -/
structure Barrier where
  arrived : Nat
  gen : Bool
  deriving DecidableEq, Repr

/-- Where a team's stable block lies (R93, R181): nowhere, at a VA under STABLE, or in the pool. -/
inductive BlockLoc
  | none
  | va (a : Nat)
  | pool (tower pa size : Nat)
  deriving DecidableEq, Repr

/-- A resident team (R157 to R160, R171). -/
structure Team where
  tid : Nat
  team : Nat
  set : Nat
  core : CoreId
  spbase : Nat
  cwbase : Nat
  /-- Die and cluster of the hub that holds the set's window (R99). -/
  cwDie : Nat
  cwCluster : Nat
  started : Bool
  /-- Names the undefined contents of the scratchpad and lane-private memory at team start (R159). -/
  epoch : Nat
  /-- Scratchpad bytes written since team start, by absolute address. -/
  sp : Mem
  /-- Scratchpad words (4-byte) with an uncorrectable error (R198). -/
  spBad : List Nat
  /-- Lane-private bytes written since team start, by the offset of R98. -/
  priv : Mem
  /-- Accumulator tiles, row-major (R166). -/
  tiles : List (List W32)
  barriers : Vector Barrier 16
  /-- Tethers at which the team's arrival is counted, and those whose counted generation ended (R182). -/
  tethCounted : W64
  tethLatched : W64
  /-- Tethers whose counted generation ended at the root, and whose release is on its way (R173). -/
  tethEnded : W64
  block : BlockLoc
  deriving DecidableEq, Repr

/-- The kinds of operation in a matrix queue (R182). -/
inductive MatKind | mma | mmaz | mfill | mzero | mwrv
  deriving DecidableEq, Repr

/-- A matrix queue entry with all it captured at issue (R166, R168, R182, R330). -/
structure MatOp where
  g : GroupRef
  kind : MatKind
  tile : Nat
  batch : Nat
  progress : Nat
  ra : Bool
  rb : Bool
  zeroed : Bool
  amap : W64
  bmap : W64
  fmt : List (BitVec 8)
  ascale : List (BitVec 8)
  bscale : List (BitVec 8)
  exm : W64
  src : Lanes
  /-- mfill: field c of the word. mwrv: index n and direction. -/
  c : Nat
  n : Nat
  dir : Bool
  deriving DecidableEq, Repr

/-- The states of a copy (R170). -/
inductive CopySt
  | queued | active
  | parked (fid : Nat)
  | done | err
  deriving DecidableEq, Repr

/-- The copy words (R322). -/
inductive CopyOp | cpy | cpy2 | cpyg | cpys | cpym | cpyr | cpyf | mred
  deriving DecidableEq, Repr

/-- A copy in a core's copy queue (R169, R170, R320). -/
structure Copy where
  g : GroupRef
  op : CopyOp
  st : SReg
  srcsp : Nat
  dstsp : Nat
  vscope : Nat
  mode : Nat
  /-- The X-format word, for the copy record (R182). -/
  xword : Nat
  /-- The descriptor as read at issue (R320). -/
  desc : List (BitVec 8)
  /-- cpys: the index list read at issue. -/
  index : List Nat
  state : CopySt
  units : Nat
  code : Nat
  /-- The address recorded with its error, or with the fault it is parked on. -/
  errVa : W64
  /-- It is in ERR after a cancel: its fault is delivered at the group's next clause, whatever the header's CPW
  (R129, R170). -/
  cancelRec : Bool
  deriving DecidableEq, Repr

/-- The attributes a line keeps from the entry that translated it (R103), and where its home holds it. -/
structure Attr where
  w : Bool
  x : Bool
  p : Bool
  dk : Bool
  tier : Nat
  /-- Home tower, and the physical address of the line there. -/
  home : Nat
  pa : Nat
  deriving DecidableEq, Repr

/-- A 64-byte line of an instruction cache, or of a mill's fetch buffer, with the attributes it was filled with (R102, R103,
R234, R355). -/
structure ILine where
  asid : Nat
  line : Nat
  val : BitVec 512
  attr : Attr
  deriving DecidableEq, Repr

/-- What a core holds beside its groups (R160, R166, R169, R180, R348). -/
structure Core where
  id : CoreId
  mq : List MatOp
  cq : List Copy
  fenced : Bool
  icache : List ILine
  /-- The 64-byte lines of the L1 data cache, as ASID and VA / 64, most recently used first (R102). -/
  l1 : List (Nat × Nat)
  macs : Nat
  copies : Nat
  l1miss : Nat
  residue : Nat
  deriving DecidableEq, Repr

/-! ### Mills (R187 to R196, R353, R354) -/

/-- The mill states of R189, IDLE being absence. -/
inductive MillSt
  | load | run
  | park (fid : Nat)
  /-- Being saved; with the FID it is parked under, or 0. -/
  | save (fid : Nat)
  | halt
  | trapped (code : Nat)
  deriving DecidableEq, Repr

/-- Why a mill stands at a word. -/
inductive MillWait
  | mem | row | msync | banklk (pair : Nat)
  /-- mpark: the line at its home, its value when the wait began, and the limit on the tower's counter. -/
  | mpark (tier tower pa : Nat) (val : BitVec 2048) (deadline : Nat)
  deriving DecidableEq, Repr

/-- A step of a row operation in flight (R191): its slice, and where the rows it reads and writes lie, as tower
and address of the slice's first byte. -/
structure RowStep where
  slice : Nat
  src : Option (Nat × Nat)
  dst : Option (Nat × Nat)
  /-- The pages are deckled. -/
  srcDk : Bool
  dstDk : Bool
  deriving DecidableEq, Repr

/-- An assigned mill (R189, R353, R354). -/
structure Mill where
  id : MillRef
  tid : Nat
  /-- The mill's index within the task on its tower. -/
  m : Nat
  st : MillSt
  pc : W64
  g : Vector W64 32
  w : Vector Lanes 16
  k : Vector (BitVec 16) 4
  /-- Local memory and the row buffer (R187), unlisted bytes zero. -/
  loc : Mem
  buf : Mem
  /-- 4-byte words with an uncorrectable error (R198): local addresses, and 2^16 + buffer offsets. -/
  bad : List Nat
  rowprog : W32
  rowop : W32
  rowa : W64
  rowb : W64
  rowd : W64
  rowpc : W64
  /-- Slices of the outstanding row operation whose step has started and not completed. -/
  rowBusy : List RowStep
  /-- Local output range of an outstanding rowmac. -/
  rowOut : Option (Nat × Nat)
  /-- A code that a slice raised, delivered before the next word (R366), with the address it named. -/
  rowFault : Option (Nat × W64)
  /-- Bank pairs to take again after a restore, before issue continues (R189, R195). -/
  relock : List Nat
  fetchBuf : List ILine
  wait : Option MillWait
  stall : MemStall
  faultVa : W64
  /-- Since when it runs, on its tower's sheet counter (R91). -/
  since : Nat
  block : BlockLoc
  deriving DecidableEq, Repr

/-- A mill saved in its stable block (R189, R190). -/
structure SavedMill where
  tid : Nat
  tower : Nat
  m : Nat
  block : BlockLoc
  /-- The FID it is parked under and waits for an fltack, or 0; and the address that the fault named. -/
  fid : Nat
  faultVa : W64
  bad : List Nat
  deriving DecidableEq, Repr

/-- A bank pair held locked (R195). -/
structure BankLock where
  tower : Nat
  pair : Nat
  holder : MillRef
  since : Nat
  limit : Nat
  deriving DecidableEq, Repr

/-! ### Caches, directories and messages (R102 to R133) -/

/-- The line states of R109, I being absence. -/
inductive LState | m | o | e | s | w
  deriving DecidableEq, Repr

/-- A child that a level records as holding a line, with its recorded state; at the home the child
holds it under its own (ASID, VA) (R108). -/
structure Kid where
  node : Node
  a : LineId
  st : LState
  deriving DecidableEq, Repr

/-- A level's entry for a line (R108 to R110). -/
structure Line where
  node : Node
  a : LineId
  st : LState
  kids : List Kid
  val : BitVec 2048
  /-- Dirty nibbles, as a mask over the bits of `val` (R104). -/
  dirty : BitVec 2048
  attr : Attr
  /-- When the line entered W, on the level's sheet counter (R111). -/
  wSince : Nat
  deriving DecidableEq, Repr

/-- A tower-cache line (R102, R186), most recently used first in its list. -/
structure TLine where
  tower : Nat
  line : Nat
  val : BitVec 2048
  dirty : BitVec 2048
  deriving DecidableEq, Repr

/-- A translation a tower holds (R116, R122): a base page, a run or a block. -/
structure TlbEntry where
  tower : Nat
  asid : Nat
  /-- First 64 KiB page and number of pages. -/
  page : Nat
  pages : Nat
  /-- The leaf entry; for a run, the entry of its first page. -/
  pte : W64
  /-- Pages whose A and whose D are recorded as set. -/
  aSet : List Nat
  dSet : List Nat
  deriving DecidableEq, Repr

/-- A lost-line table entry (R132): by physical line, or by VA when the line had no translation. -/
structure LostLine where
  tower : Nat
  phys : Option Nat
  a : LineId
  deriving DecidableEq, Repr

/-- The kinds of access a fill or a walk is for. -/
inductive Acc | read | write | atomic | red | fetch | pref | copySrc | copyDst | writeback
  deriving DecidableEq, Repr

/-- On whose behalf a line request runs. -/
structure Req where
  /-- The level the fill ends at. -/
  node : Node
  acc : Acc
  priv : Bool
  va : Nat
  who : Option GroupRef
  deriving DecidableEq, Repr

/-- Who waits for a write-back to be performed. -/
inductive WbOwner
  | none
  | group (g : GroupRef)
  | task (tid : Nat)
  deriving DecidableEq, Repr

/-- The bodies of messages (R27, R110 to R112, R145, R362). -/
inductive Body
  | getS (a : LineId) (kid : Node) (r : Req)
  | getX (a : LineId) (kid : Node) (r : Req)
  | upgr (a : LineId) (kid : Node) (r : Req)
  | inv (a : LineId) (kid par : Node)
  | fwdS (a : LineId) (kid : Node) (r : Req)
  | fwdX (a : LineId) (kid : Node) (r : Req)
  | recall (a : LineId) (kid par : Node)
  | data (a : LineId) (frm dest : Node) (r : Req) (val : BitVec 2048) (attr : Attr)
  | dataX (a : LineId) (frm dest : Node) (r : Req) (val mask dirty : BitVec 2048) (attr : Attr)
  | refuse (a : LineId) (dest : Node) (r : Req) (code : Nat) (dk : Bool)
  | invAck (a : LineId) (kid par : Node) (val mask : BitVec 2048)
  /-- `late`: other copies may be recorded, and the home removes them (R110, R142, R414). -/
  | wbDirty (a : LineId) (node : Node) (val mask : BitVec 2048) (late : Bool) (owner : WbOwner)
  /-- A release or acquire on its way up; with a line, the registration of that line alone that a cwb
  asked for (R112, R316). -/
  | drain (g : GroupRef) (node : Node) (acq : Bool) (scope : Nat) (only : Option LineId)
  | drainAck (g : GroupRef)
  | homeAtomic (g : GroupRef) (asid : Nat) (priv : Bool) (ops : List LaneOp)
  | nearRed (g : GroupRef) (asid : Nat) (priv : Bool) (ops : List LaneOp)
  | homeRsp (g : GroupRef) (vals : List Nat) (faults : List LineFault)
  | millAcc (m : MillRef) (asid : Nat) (priv : Bool) (va : Nat) (wr : Option Nat)
  | millRsp (m : MillRef) (val : Nat) (code : Nat) (wr : Bool)
  | window (g : GroupRef) (ops : List LaneOp)
  | windowRsp (g : GroupRef) (vals : List Nat)
  /-- Copy-engine data: a unit of the copy that owns a status scalar, between its core's die and a home (R27). -/
  | copyUnit (g : GroupRef) (st unit : Nat)
  /-- Mill row traffic: a slice on its way to another tower (R27, R191). -/
  | rowData (m : MillRef) (slice : Nat)
  /-- Couch data: a line that a producer writes home, for the consumers on a die (R27, R80, R81). -/
  | couchData (a : LineId) (tids : List Nat) (val mask : BitVec 2048) (attr : Attr)
  /-- The pull of record HEAD of a queue (R27, R57). -/
  | recordRead (q : Nat)
  | tnow (g : GroupRef) (sheet : Nat)
  | tnowRsp (g : GroupRef) (ns : Nat)
  | tailWrite (src : TailSource) (q : Nat) (t : W32)
  | watermark (site : Site) (value : Nat)
  deriving DecidableEq, Repr

/-- The message classes of R27. -/
inductive MClass | req | fwd | rsp | wb | bulk | ctl
  deriving DecidableEq, Repr

/-- A message in flight: it stands at a site and moves toward its destination (R26, R28). -/
structure Msg where
  cls : MClass
  src : Site
  dst : Site
  at' : Site
  /-- Tag of a cross-die request or response, and the watermarks it carries (R31, R35). -/
  tag : Nat
  reqWm : Nat
  respWm : Nat
  body : Body
  deriving DecidableEq, Repr

/-- An outstanding cross-die request at its requester (R33 to R35). -/
structure OutReq where
  site : Site
  tag : Nat
  responder : Site
  respWm : Nat
  /-- When it left the requester's router, on the requester's sheet counter (R34); none while it has not left. -/
  sentAt : Option Nat
  limit : Nat
  body : Body
  deriving DecidableEq, Repr

/-- A tag retired after a time-out (R35). -/
structure Retired where
  site : Site
  tag : Nat
  since : Nat
  xto : Nat
  deriving DecidableEq, Repr

/-- A level's transaction that waits for acknowledgements before it answers (R110 to R112). -/
structure Txn where
  node : Node
  a : LineId
  /-- The children whose acknowledgement or data is awaited, each with the line it holds. -/
  waitFor : List (Node × LineId)
  /-- The level has asked its own parent, and waits for the answer. -/
  up : Bool
  /-- The level has answered its child, whose fill has not yet landed. -/
  landing : Bool
  /-- What the children gave: nibbles, which of them are given, which are dirty, and which of these come from copies in W
  (R111, R414). -/
  val : BitVec 2048
  mask : BitVec 2048
  dirty : BitVec 2048
  loose : BitVec 2048
  /-- The attributes of the line, once a translation or an answer has given them. -/
  attr : Option Attr
  /-- The message the transaction serves. -/
  msg : Msg
  deriving DecidableEq, Repr

/-- A page that faulted, waiting for its fault record (R128, R130). -/
structure FaultRec where
  fid : Nat
  tid : Nat
  va : Nat
  asid : Nat
  code : Nat
  kind : Nat
  npage : Nat
  idx : Nat
  site : Nat
  deriving DecidableEq, Repr

/-- A promotion in progress (R127). -/
structure Promotion where
  tower : Nat
  asid : Nat
  va : Nat
  target : Nat
  /-- Tower and physical address of the first of the 32 entries, and the entries as read in step 1. -/
  tabTower : Nat
  tabPa : Nat
  entries : List W64
  deriving DecidableEq, Repr

/-- A cache whose ways can be disabled (R102, R201). -/
inductive CacheId | l1 (c : CoreId) | icache (c : CoreId) | l2 (die slice : Nat) | tower (t : Nat)
  deriving DecidableEq, Repr

/-- A line of a lent region that a grantee's access has registered at the home (R44, R108). -/
structure Borrow where
  who : Grantee
  tower : Nat
  line : Nat
  deriving DecidableEq, Repr

/-- The memories and what lies between the cores and them. -/
structure MemState where
  /-- DRAM of every tower, at tower × 2^36 + physical address. -/
  dram : Mem
  /-- Cluster windows, at (die × 32 + cluster) × 2^21 + address (R99). -/
  window : Mem
  /-- Die scratchpads, at die × 2^24 + address (R100). -/
  dieSp : Mem
  /-- Tower copies of the home region table, at tower × 2^16 + offset (R188). -/
  towerTab : Mem
  /-- Host memory behind the ports, at port × 2^64 + address (R50). -/
  host : Mem
  /-- Lent memory of other packages, at handle × 2^16 + byte (R45). -/
  pool : Mem
  /-- 4-byte words of windows and die scratchpads with an uncorrectable error (R198). -/
  winBad : List Nat
  dspBad : List Nat
  lines : List Line
  tcache : List TLine
  tlb : List TlbEntry
  lost : List LostLine
  /-- Frames marked lost, as (tower, frame) (R132). -/
  marks : List (Nat × Nat)
  net : List Msg
  reqs : List OutReq
  retired : List Retired
  txns : List Txn
  promos : List Promotion
  /-- Slice scans for failed dies, as (tower, die) (R131). -/
  scans : List (Nat × Nat)
  /-- Towers whose directory slice is being rebuilt (R133). -/
  rebuilds : List Nat
  failedDies : List Nat
  failedTowers : List Nat
  /-- Bank refreshes in progress, as (tower, channel, bank) (R194). -/
  refreshing : List (Nat × Nat × Nat)
  locks : List BankLock
  /-- Ports with a Back-Invalidate pending at the host (R112). -/
  backInv : List Nat
  /-- Lines registered for borrowers of lent regions (R44, R108). -/
  borrowed : List Borrow
  /-- Disabled cache ways, one entry each (R201). -/
  deadWays : List CacheId
  /-- Lines of a home that an mpark waits on and that have not been written since, as (mill, (tier, tower, line)) (R371). -/
  watched : List (MillRef × Nat × Nat × Nat)
  nextTag : Nat
  deriving DecidableEq, Repr

/-- An error record (R203). -/
structure LogRec where
  kind : Nat
  sheet : Nat
  site : Nat
  tid : Nat
  time : Nat
  addr : Nat
  aux : Nat
  unit : Nat
  deriving DecidableEq, Repr

/-! ### The scheduler (R71 to R95) and the queues (R53 to R68) -/

/-- A deckle (R61). -/
structure Deckle where
  base : Nat
  extent : Nat
  r : Bool
  w : Bool
  couch : Bool
  deriving DecidableEq, Repr

/-- A launch record (R62, R63). -/
structure Launch where
  code : Nat
  entry : Nat
  width : Nat
  gx : Nat
  gy : Nat
  gz : Nat
  ngrp : Nat
  nlead : Nat
  nwheel : Nat
  lbud : Nat
  wbud : Nat
  nacc : Nat
  tssize : Nat
  coloc : Nat
  spbytes : Nat
  privbytes : Nat
  cwbytes : Nat
  placemap : Nat
  traph : W64
  argp : W64
  towmask : Nat
  nmill : Nat
  locbytes : Nat
  deriving DecidableEq, Repr

inductive TaskType | core | mill | marker
  deriving DecidableEq, Repr

/-- The task states of R72; ADMIT is a record in `admitting`. -/
inductive TaskSt
  | waitdep | waithaz | ready | placed | running | preempt | stabled | drain | done
  deriving DecidableEq, Repr

/-- Where a team set stands (R72, R88, R92). -/
inductive SetSt
  | unplaced
  /-- Placement or resumption invalidations in progress on these dies. -/
  | placed (dies : List Nat) (resume : Bool)
  | running
  /-- Next step of the sequence of R92, 1 to 6. -/
  | preempt (step : Nat)
  | stabled
  | exited
  deriving DecidableEq, Repr

/-- What is reserved for a set that has aged (R86): a place for each of its teams, and a window at the hub of the first. -/
structure Reserve where
  spots : List TeamSpot
  cwbase : Nat
  deriving DecidableEq, Repr

structure TeamSet where
  k : Nat
  st : SetSt
  since : Nat
  reserved : Option Reserve
  deriving DecidableEq, Repr

/-- What the dispatcher keeps of a group saved parked, for a cancel (R92, R177): the fault's address and lanes, and the
clause it met. -/
structure ParkedGroup where
  grp : Nat
  va : W64
  lanes : W64
  clause : List W32
  deriving DecidableEq, Repr

/-- A team saved in its stable block (R92, R94, R182). -/
structure SavedTeam where
  tid : Nat
  team : Nat
  set : Nat
  spbase : Nat
  cwbase : Nat
  block : BlockLoc
  /-- FIDs of groups and copies parked in the block that wait for an fltack. -/
  fids : List Nat
  /-- Groups parked on a fault of their own. -/
  parked : List ParkedGroup
  /-- Groups that wait to arrive at the team barrier of their slot record (log entry 118). -/
  arriving : List Nat
  /-- Groups that owe a LOSTLINE at their next clause (R330), with its address. -/
  late : List (Nat × W64)
  /-- Matrix operations and copies in the block, and scratchpad words with an uncorrectable error. -/
  nops : Nat
  ncopies : Nat
  spBad : List Nat
  epoch : Nat
  /-- The team's counted arrivals, and those whose generation ended while it was stabled (R92, R173). -/
  tethCounted : W64
  tethEnded : W64
  deriving DecidableEq, Repr

/-- A completion (R66). -/
inductive TStatus | ok | resource | badrec | fault | abandoned | lost
  deriving DecidableEq, Repr

/-- An admitted task (R60, R71, R72). -/
structure Task where
  tid : Nat
  q : Nat
  index : Nat
  type : TaskType
  prio : Nat
  domain : Nat
  depcnt : Nat
  doomed : Bool
  /-- A task that it follows by a dependence or a hazard completes at .sy (R148). -/
  sysEdge : Bool
  succAddr : Nat
  succN : Nat
  irq : Bool
  ivec : Nat
  cscope : Nat
  cwaddr : Nat
  stable : Nat
  asid : Nat
  port : Nat
  /-- The queue's LOC and, for LOC 2, the package that owns the ring (R55, R67). -/
  loc : Nat
  ringPkg : Nat
  deckles : List Deckle
  launch : Launch
  /-- Placement map entries, in set order (R89). -/
  pmap : List Nat
  st : TaskSt
  status : TStatus
  fcode : Nat
  /-- Time waited in READY or STABLED, and since when it waits now (R86). -/
  waited : Nat
  since : Nat
  sets : List TeamSet
  /-- Dies on which it ran, and write-backs still to do in DRAIN (R80). -/
  dies : List Nat
  drainDies : List Nat
  /-- Couch targets of this producer, and the producer that made this task one (R81). -/
  couchTo : List Nat
  couchOf : Option Nat
  /-- Lines that dies have received by couch for this consumer, and lines that this producer sends by couch, as
  (die, line) (R80, R81). -/
  couched : List (Nat × Nat)
  couchPlan : List (Nat × Nat)
  /-- Mills assigned so far per tower rank, and mills that have halted (R189, R90). -/
  millsLeft : List (Nat × Nat)
  halted : Nat
  /-- An unresolved fault: code, and the record's fields (R73, R175). -/
  faulted : Bool
  completed : Bool
  succDone : Bool
  deriving DecidableEq, Repr

/-- A record being admitted, or rejected and completing (R57, R64). -/
structure Admission where
  q : Nat
  index : Nat
  bytes : List (BitVec 8)
  /-- The queue's ASID, PORT and LOC when the record was pulled, and for LOC 2 the package that owns the ring. -/
  asid : Nat
  port : Nat
  loc : Nat
  ringPkg : Nat
  /-- Waiting for room in the hazard table (R72). -/
  paused : Bool
  deriving DecidableEq, Repr

/-- A pending decrement or doom mark (R74, R75). -/
structure PendingDec where
  q : Nat
  index : Nat
  tid : Nat
  doom : Bool
  /-- The task that sent it completes at .sy (R148). -/
  sys : Bool
  deriving DecidableEq, Repr

/-- A record of a queue that the arbiter still remembers (R74). -/
structure Admitted where
  q : Nat
  index : Nat
  /-- The TASKID, or none for a rejected record. -/
  tid : Option Nat
  deriving DecidableEq, Repr

/-- An MSI-X message owed after a completion store, with the record of a store that failed, which is posted first (R66,
R67). -/
structure Irq where
  tid : Nat
  port : Nat
  vec : Nat
  after : Option LogRec
  deriving DecidableEq, Repr

structure SchedState where
  tasks : List Task
  /-- Stabled teams and mills. -/
  saved : List SavedTeam
  savedMills : List SavedMill
  admitting : List Admission
  known : List Admitted
  pending : List PendingDec
  nextTid : Nat
  /-- A write of EN from 0 to 1 held until the record being admitted is done (R54). -/
  heldEnable : List (Nat × W32)
  /-- MSI-X messages owed (R67). -/
  irqs : List Irq
  deriving DecidableEq, Repr

/-! ### Links, fibres, boot, freeze and log -/

/-- The retry state of a panel link (R199). -/
inductive LinkSt | up (replays : Nat) | retraining | down
  deriving DecidableEq, Repr

/-- A 256-byte flit of a transmit fibre that has not been acknowledged: its sequence number, the packet it carries, and how
often it has been replayed since a time (R38, R39; log entry 127). -/
structure Flit where
  seq : Nat
  pkt : Packet
  replays : Nat
  since : Nat
  deriving DecidableEq, Repr

/-- An optical transmit or receive fibre (R38, R39). -/
structure Fibre where
  id : Nat
  up : Bool
  waves : Nat
  /-- The next flit's sequence number, and the flits not yet acknowledged, oldest first: the first 512 have been sent. -/
  next : Nat
  flits : List Flit
  deriving DecidableEq, Repr

/-- A storage or transport unit under error correction (R198, R201). -/
inductive EccUnit
  /-- A 4-byte word of a core scratchpad by team, of a cluster window, of a die scratchpad, or of a mill's local memory
  or, from 2^16 on, row buffer. -/
  | spWord (tid team addr : Nat)
  | cwWord (die cluster addr : Nat)
  | dsWord (die addr : Nat)
  | millWord (m : MillRef) (addr : Nat)
  /-- A line of an L1 or an L2, and the directory entry of a level. -/
  | line (n : Node) (a : LineId)
  | entry (n : Node) (a : LineId)
  | text (c : CoreId) (asid line : Nat)
  | cached (tower line : Nat)
  /-- A 64-byte DRAM sector, by its address. -/
  | sector (tower pa : Nat)
  | link (l : LinkId)
  deriving DecidableEq, Repr

/-- What another package answers for one of its loan regions: whether it answers at all, the frames it serves to this package,
to those of this package's host ports that hold a grant, and whether the region is deckled (R43 to R48). -/
structure Lender where
  pkg : Nat
  region : Nat
  answers : Bool
  frames : Nat
  granted : Bool
  ports : List Nat
  deckled : Bool
  deriving DecidableEq, Repr

structure LinkState where
  /-- Links whose state is not `up 0`. -/
  links : List (LinkId × LinkSt)
  fibres : List Fibre
  /-- Times of corrected errors of a unit, in ns on its sheet's counter (R201). -/
  fixes : List (EccUnit × Nat)
  /-- The fibre that each hash bucket in use is on, as (bucket, fibre) (R41). -/
  buckets : List (Nat × Nat)
  /-- What other packages lend. -/
  lenders : List Lender
  /-- MSI-X vectors that are not masked, and vectors held pending, as (port, vector) (R49, R67). -/
  msixOpen : List (Nat × Nat)
  msixPending : List (Nat × Nat)
  /-- Watermarks that are not zero (R31). -/
  wms : List (Site × Nat)
  deriving DecidableEq, Repr

/-- Boot, clocks and freeze (R16 to R24, R205 to R209). -/
structure BootState where
  ready : Bool
  fail : Bool
  phase : Nat
  sheetsUp : Nat
  failCode : Nat
  /-- The primary farrier's boot timer in ns. -/
  timer : Nat
  /-- Grade: true is A (R13). -/
  gradeA : Bool
  /-- The exposed physical clusters, one bit each, once chosen. -/
  exposed : Nat
  cxl : List Bool
  /-- A queue has been enabled since reset, so PKGNUM is read-only (R52). -/
  pkgLocked : Bool
  /-- Each sheet: whether its counter runs, its counter in ns, its stretch n, and whether it is stopped. -/
  started : Bool
  time : Vector Nat 4
  /-- Main clocks of each sheet's cores (R348). -/
  clocks : Vector Nat 4
  stretch : Vector Nat 4
  stopped : Vector Bool 4
  freezing : Bool
  /-- Fused minimum security version, and the versions and digests of the four farriers' images (R208, R209). -/
  minVersion : Nat
  versions : List Nat
  digests : List (List (BitVec 8))
  /-- A debug grant is in force, and the marker it arms (R206, R351). -/
  granted : Bool
  marker : Option W64
  attBusy : Bool
  attDone : Bool
  attNonce : List (BitVec 8)
  attReport : List (BitVec 8)
  deriving DecidableEq, Repr

/-- What leaves the package or is answered to the outside world. -/
inductive Output
  | msix (port vec : Nat)
  | readData (port : Nat) (bytes : List (BitVec 8))
  | poolData (who : Grantee) (bytes : List (BitVec 8))
  | unsupported (port : Nat)
  | abort (port : Nat)
  | aer (port : Nat)
  /-- A completion word for a task whose ring lies in another package (R67). -/
  | remoteStore (pkg addr val : Nat)
  | remoteTail (pkg q t : Nat)
  | packet (fibre seq : Nat) (p : Packet)
  | readout (val : Nat)
  | backInvalidate (port : Nat)
  /-- A lender's refusal, with the code that the requester meets (R45, R132). -/
  | refused (who : Grantee) (code : Nat)
  /-- A borrower is told to give up a line of a lent region (R44, R108). -/
  | recall (who : Grantee) (tower line : Nat)
  deriving DecidableEq, Repr

/-- Who takes the next turn. -/
inductive Agent | group (g : GroupRef) | mill (m : MillRef)
  deriving DecidableEq, Repr

/-- What happens to the machine from outside that is no row of the opcode table. -/
inductive Outside
  /-- A host writes its own memory, behind a port (R50, R58). -/
  | host (port addr : Nat) (bytes : List (BitVec 8))
  /-- Another package writes memory that it lends, at handle × 2^16 + byte (R43, R45). -/
  | pool (addr : Nat) (bytes : List (BitVec 8))
  /-- What another package answers for one of its regions from now on (R43 to R48). -/
  | lender (x : Lender)
  /-- The receiver of a fibre acknowledges its flits up to a sequence number (R39). -/
  | flitAck (f seq : Nat)
  /-- A host masks or unmasks an MSI-X vector (R49, R67). -/
  | vectorMask (port vec : Nat) (masked : Bool)
  /-- How the residue check of the next word that reads its operands goes (R180). -/
  | residue (r : Residue)
  /-- A unit corrects an error, or meets one that it cannot correct (R198, R201). -/
  | corrected (u : EccUnit)
  | broken (u : EccUnit)
  deriving DecidableEq, Repr
/-- What comes from outside: an event of the opcode table, or an act. -/
inductive Input | event (i : Instr) | act (o : Outside)
  deriving DecidableEq, Repr

/-- The whole machine. -/
structure State where
  groups : List Group
  teams : List Team
  /-- Cores that are not blank. -/
  cores : List Core
  mills : List Mill
  mem : MemState
  sched : SchedState
  link : LinkState
  boot : BootState
  /-- Management-window registers that are not at reset, as (offset, value), offsets rising (R52). -/
  mgmt : List (Nat × Nat)
  /-- Error records not yet posted (R202), and fault records not yet posted (R130). -/
  log : List LogRec
  faults : List FaultRec
  nextFid : Nat
  out : List Output
  /-- The agent whose word issues next, and how its residue check goes. -/
  focus : Option Agent
  residue : Residue
  /-- What comes from outside next, in order, and the events that a freeze holds. -/
  agenda : List Input
  held : List Instr
  /-- The model's own counter that names free values. -/
  fresh : Nat
  deriving DecidableEq, Repr

/-! ### Reset -/

/-- A stall that has gathered nothing. -/
def MemStall.none : MemStall := ⟨[], [], Option.none, false, Option.none, false, []⟩

def TrapRegs.zero : TrapRegs := ⟨false, 0, 0, 0, 0, 0, 0, 0⟩

def MemState.reset : MemState where
  dram := []
  window := []
  dieSp := []
  towerTab := []
  host := []
  pool := []
  winBad := []
  dspBad := []
  lines := []
  tcache := []
  tlb := []
  lost := []
  marks := []
  net := []
  reqs := []
  retired := []
  txns := []
  promos := []
  scans := []
  rebuilds := []
  failedDies := []
  failedTowers := []
  refreshing := []
  locks := []
  backInv := []
  borrowed := []
  deadWays := []
  watched := []
  nextTag := 1

def SchedState.reset : SchedState where
  tasks := []
  saved := []
  savedMills := []
  admitting := []
  known := []
  pending := []
  nextTid := 1
  heldEnable := []
  irqs := []

def LinkState.reset : LinkState := ⟨[], [], [], [], [], [], [], []⟩

/-- BOOTST is all zero, no sheet counter runs, the boot timer is at zero (R19, R20). The grade is the
model's choice (log entry 4). -/
def BootState.reset : BootState where
  ready := false
  fail := false
  phase := 0
  sheetsUp := 0
  failCode := 0
  timer := 0
  gradeA := true
  exposed := 0
  cxl := []
  pkgLocked := false
  started := false
  time := Vector.replicate 4 0
  clocks := Vector.replicate 4 0
  stretch := Vector.replicate 4 0
  stopped := Vector.replicate 4 false
  freezing := false
  minVersion := 0
  versions := []
  digests := []
  granted := false
  marker := Option.none
  attBusy := false
  attDone := false
  attNonce := []
  attReport := []

/-- The machine as a part reset is released: nothing runs, no queue is enabled, no page table is
named, and boot has not begun (R19, R20, R59). -/
def State.reset : State where
  groups := []
  teams := []
  cores := []
  mills := []
  mem := MemState.reset
  sched := SchedState.reset
  link := LinkState.reset
  boot := BootState.reset
  mgmt := []
  log := []
  faults := []
  nextFid := 1
  out := []
  focus := Option.none
  residue := .clean
  agenda := []
  held := []
  fresh := 0

/-! ### How a step can stop -/

/-- Why the machine stops with a fault. No word of a group or of a mill raises one: the spec gives every access
an outcome inside the machine (a trap, a parked agent, a dropped access). -/
inductive Fault
  /-- An event names a core, tower, queue or slot that the part does not have. Raised by events only. Safe: the machine stops
  where the hardware has nothing that could happen. -/
  | noSuchUnit
  deriving DecidableEq, Repr

/-- Why the machine does not take a step it was asked for. -/
inductive Refusal
  /-- Not modelled yet; raised only by an arm of exec. Safe. -/
  | notModelled (mnemonic : String)
  /-- A core word or a mill word was asked for with no group or mill able to issue it. Raised by words
  only. Safe. -/
  | noIssuer
  deriving DecidableEq, Repr

/-- What a step of this machine answers. -/
abbrev Out := Host.Outcome State Fault Refusal

/-- An event whose condition the state does not meet does not take place: what waits goes on waiting, and nothing
changes (log entry 111). -/
abbrev State.stays (s : State) : Out := .next s
/-- What an event leaves: the state it leads to, or, while its condition does not hold (`none`), the state as it is. -/
def State.happens (s : State) (r : Option State) : Out := .next (r.getD s)

end Sys2Proof.Machine
end

