-- ==== Sys2Proof/Machine/Flags.lean ====
section
/-! DEFINITION. Every flag computation and every scalar and lane operation on plain values: the scalar
words (R271 to R275), the integer vector words (R285, R286), the compares (R290, R291) and the mill's
integer words (R359, R360, R364). -/

namespace Sys2Proof.Machine

/-- Whether a signed sum, difference or product leaves the 64-bit range (flag V, R271). -/
def sgOverflow (v : Int) : Bool := decide (v < -(2 ^ 63)) || decide (2 ^ 63 - 1 < v)

/-- Z and N of a result, with given C and V (R271). -/
def flagsOf (res : W64) (c v : Bool) : Flags := ⟨res == 0, res.msb, c, v⟩
/-- flags_add (R271). -/
def flagsAdd (x y : W64) : Flags :=
  flagsOf (x + y) (decide (2 ^ 64 ≤ x.toNat + y.toNat)) (sgOverflow (x.toInt + y.toInt))
/-- flags_sub (R271). -/
def flagsSub (x y : W64) : Flags :=
  flagsOf (x - y) (decide (y.toNat ≤ x.toNat)) (sgOverflow (x.toInt - y.toInt))
/-- flags_mul (R271). -/
def flagsMul (x y : W64) : Flags :=
  flagsOf (x * y) (decide (2 ^ 64 ≤ x.toNat * y.toNat)) (sgOverflow (x.toInt * y.toInt))
/-- flags_logic (R271). -/
def flagsLogic (res : W64) : Flags := flagsOf res false false

/-- A scalar result with the flags it leaves; `none` leaves FLAGS unchanged. -/
abbrev ScalarOut := W64 × Option Flags

/-- The condition codes of R275. -/
def condHolds (f : Flags) (c : Nat) : Bool :=
  match c with
  | 0 => f.z
  | 1 => !f.z
  | 2 => f.n != f.v
  | 3 => f.z || f.n != f.v
  | 4 => !f.z && f.n == f.v
  | 5 => f.n == f.v
  | 6 => !f.c
  | 7 => !f.c || f.z
  | 8 => f.c && !f.z
  | _ => f.c

/-- Bits [127:64] of the signed product (R272). -/
def mulhS (x y : W64) : W64 := BitVec.ofInt 64 (x.toInt * y.toInt / 2 ^ 64)
/-- Bits [127:64] of the unsigned product (R272). -/
def mulhZ (x y : W64) : W64 := BitVec.ofNat 64 (x.toNat * y.toNat / 2 ^ 64)
def minS (x y : W64) : W64 := if y.toInt < x.toInt then y else x
def maxS (x y : W64) : W64 := if x.toInt < y.toInt then y else x
def minZ (x y : W64) : W64 := if y.toNat < x.toNat then y else x
def maxZ (x y : W64) : W64 := if x.toNat < y.toNat then y else x

/-- Division and remainder (R273): the quotient or remainder written, and V. -/
def divS (x y : W64) : W64 × Bool :=
  if y = 0 then (BitVec.ofInt 64 (-1), true)
  else if x.toInt = -(2 ^ 63) ∧ y.toInt = -1 then (x, true)
  else (BitVec.ofInt 64 (Int.tdiv x.toInt y.toInt), false)
def divZ (x y : W64) : W64 × Bool :=
  if y = 0 then (BitVec.ofInt 64 (-1), true) else (BitVec.ofNat 64 (x.toNat / y.toNat), false)
def remS (x y : W64) : W64 × Bool :=
  if y = 0 then (x, true)
  else if x.toInt = -(2 ^ 63) ∧ y.toInt = -1 then (0, true)
  else (BitVec.ofInt 64 (Int.tmod x.toInt y.toInt), false)
def remZ (x y : W64) : W64 × Bool :=
  if y = 0 then (x, true) else (BitVec.ofNat 64 (x.toNat % y.toNat), false)
/-- The flags of a division: Z and N of the value written, C 0, V as R273 gives. -/
def divOut (r : W64 × Bool) : ScalarOut := (r.1, some (flagsOf r.1 false r.2))

/-- Shifts by an unsigned count (R274). -/
def shl64 (x : W64) (n : Nat) : W64 := if n < 64 then BitVec.ofNat 64 (x.toNat * 2 ^ n) else 0
def shr64 (x : W64) (n : Nat) : W64 := if n < 64 then BitVec.ofNat 64 (x.toNat / 2 ^ n) else 0
def sar64 (x : W64) (n : Nat) : W64 :=
  if n < 64 then BitVec.ofInt 64 (x.toInt / 2 ^ n) else if x.msb then BitVec.ofInt 64 (-1) else 0
/-- A width field whose value 0 means the full width (R274, R286). -/
def fieldWidth (full w : Nat) : Nat := if w = 0 then full else w
/-- sbfx (R274). -/
def bfx64 (x : W64) (n w : Nat) : W64 := if n < 64 then BitVec.ofNat 64 (x.toNat / 2 ^ n % 2 ^ w) else 0
/-- sbfi (R274). -/
def bfi64 (old x : W64) (n w : Nat) : W64 :=
  if n < 64 then
    let mask := BitVec.ofNat 64 (ones w * 2 ^ n)
    (old &&& ~~~mask) ||| (BitVec.ofNat 64 (x.toNat * 2 ^ n) &&& mask)
  else old

/-- Number of one bits of a number below 2^k. -/
def popcount : Nat → Nat → Nat
  | 0, _ => 0
  | k + 1, x => x % 2 + popcount k (x / 2)
/-- Number of leading zero bits in a width of `w`. -/
def leadZeros (w x : Nat) : Nat := if x = 0 then w else w - 1 - Nat.log2 x
/-- Index of the lowest one bit below `k`, counted from `i`; `i + k` when there is none. -/
def lowestBit : Nat → Nat → Nat → Nat
  | 0, i, _ => i
  | k + 1, i, x => if x % 2 = 1 then i else lowestBit k (i + 1) (x / 2)

/-- −1, 0 or +1 (scmp.s, scmp.z; R272). -/
def sign3 (lt eq : Bool) : W64 := if lt then BitVec.ofInt 64 (-1) else if eq then 0 else 1

/-! Lane operations (R285, R286). -/

def vmulhS (x y : W32) : W32 := BitVec.ofInt 32 (x.toInt * y.toInt / 2 ^ 32)
def vmulhZ (x y : W32) : W32 := BitVec.ofNat 32 (x.toNat * y.toNat / 2 ^ 32)
def clamp32 (v : Int) : W32 := BitVec.ofInt 32 (if v < -(2 ^ 31) then -(2 ^ 31) else if 2 ^ 31 - 1 < v then 2 ^ 31 - 1 else v)
def vaddsS (x y : W32) : W32 := clamp32 (x.toInt + y.toInt)
def vsubsS (x y : W32) : W32 := clamp32 (x.toInt - y.toInt)
def vminS (x y : W32) : W32 := if y.toInt < x.toInt then y else x
def vmaxS (x y : W32) : W32 := if x.toInt < y.toInt then y else x
def vminZ (x y : W32) : W32 := if y.toNat < x.toNat then y else x
def vmaxZ (x y : W32) : W32 := if x.toNat < y.toNat then y else x
def vabsS (x : W32) : W32 := BitVec.ofInt 32 x.toInt.natAbs
def shl32 (x y : W32) : W32 := if y.toNat < 32 then BitVec.ofNat 32 (x.toNat * 2 ^ y.toNat) else 0
def shr32 (x y : W32) : W32 := if y.toNat < 32 then BitVec.ofNat 32 (x.toNat / 2 ^ y.toNat) else 0
def sar32 (x y : W32) : W32 :=
  if y.toNat < 32 then BitVec.ofInt 32 (x.toInt / 2 ^ y.toNat) else if x.msb then BitVec.ofInt 32 (-1) else 0
def bfx32 (w : Nat) (x y : W32) : W32 :=
  if y.toNat < 32 then BitVec.ofNat 32 (x.toNat / 2 ^ y.toNat % 2 ^ w) else 0
def bfi32 (w : Nat) (old x y : W32) : W32 :=
  if y.toNat < 32 then
    let mask := BitVec.ofNat 32 (ones w * 2 ^ y.toNat)
    (old &&& ~~~mask) ||| (BitVec.ofNat 32 (x.toNat * 2 ^ y.toNat) &&& mask)
  else old

/-- The signed comparisons of vcmp.s (R290). -/
def cmpS (c : Nat) (x y : W32) : Bool :=
  match c with
  | 0 => x == y | 1 => x != y | 2 => decide (x.toInt < y.toInt) | 3 => decide (x.toInt ≤ y.toInt)
  | 4 => decide (y.toInt < x.toInt) | _ => decide (y.toInt ≤ x.toInt)
/-- The unsigned comparisons of vcmp.z (R290). -/
def cmpZ (c : Nat) (x y : W32) : Bool :=
  match c with
  | 0 => x == y | 1 => x != y | 6 => decide (x.toNat < y.toNat) | 7 => decide (x.toNat ≤ y.toNat)
  | 8 => decide (y.toNat < x.toNat) | _ => decide (y.toNat ≤ x.toNat)
/-- vfcmp (R290, R291). -/
def cmpF (c : Nat) (x y : W32) : Bool :=
  let u := f32v x
  let v := f32v y
  let un := fvIsNan u || fvIsNan v
  match c with
  | 0 => !un && fvEq u v
  | 1 => un || !fvEq u v
  | 2 => !un && fvLt u v
  | 3 => !un && (fvLt u v || fvEq u v)
  | 4 => !un && fvLt v u
  | 5 => !un && (fvLt v u || fvEq u v)
  | 6 => un
  | _ => !un
/-- The conditions of wcmp (R364). -/
def wcmpHolds (c : Nat) (x y : W32) : Bool :=
  match c with
  | 0 => x == y | 1 => x != y | 2 => decide (x.toInt < y.toInt) | 3 => decide (x.toInt ≤ y.toInt)
  | 4 => decide (x.toNat < y.toNat) | 5 => decide (x.toNat ≤ y.toNat)
  | 6 => cmpF 0 x y | 7 => cmpF 1 x y | 8 => cmpF 2 x y | 9 => cmpF 3 x y | _ => cmpF 6 x y

/-! The operations of the atomics and reductions (R309, R312). -/

/-- The bytes an operation works on. -/
def AtomOp.bytes : AtomOp → Nat | .addB64 => 8 | .casB64 => 8 | _ => 4

/-- The value an atomic writes, from the old value m and the operands x and y; `none` when it writes
nothing (a cas whose comparison fails; R309). -/
def atomNew (op : AtomOp) (m x y : Nat) : Option Nat :=
  let m4 := BitVec.ofNat 32 m
  let x4 := BitVec.ofNat 32 x
  match op with
  | .addB32 => some (m4 + x4).toNat
  | .addF32 => some (f32Add m4 x4).toNat
  | .minS32 => some (vminS m4 x4).toNat
  | .maxS32 => some (vmaxS m4 x4).toNat
  | .minZ32 => some (vminZ m4 x4).toNat
  | .maxZ32 => some (vmaxZ m4 x4).toNat
  | .and => some (m4 &&& x4).toNat
  | .or => some (m4 ||| x4).toNat
  | .xor => some (m4 ^^^ x4).toNat
  | .xchg => some x4.toNat
  | .cas => if m4 = x4 then some (BitVec.ofNat 32 y).toNat else none
  | .addB64 => some ((m + x) % 2 ^ 64)
  | .casB64 => if m % 2 ^ 64 = x % 2 ^ 64 then some (y % 2 ^ 64) else none

/-- The combining operations of cpyr and mred (R324). -/
def copyOp (mode : Nat) (t x : W32) : W32 :=
  match mode with
  | 0 => f32Add t x | 1 => t + x | 2 => vminS t x | 3 => vmaxS t x | 4 => f32Min t x | _ => f32Max t x

end Sys2Proof.Machine
end

