-- ==== Sys2Proof/Machine/Operands.lean ====
section
/-! DEFINITION. Reading operands and writing results of a group's words: scalar sources (R269, R270),
lane sources (R283), destinations and the result queue (R162, R225, R284), and the width of a group. -/

namespace Sys2Proof.Machine

/-- Number of lanes of a launch's groups: 32, or 64 (R157). -/
def Launch.lanes (l : Launch) : Nat := if l.width = 64 then 64 else 32

/-- A uniform source as a 64-bit value: a literal is sign-extended (R226, R270). -/
def Group.scalar (g : Group) : Src → W64
  | .s n => g.s[n]
  | .lit x => x.signExtend 64
  | _ => 0

/-- The value a source gives lane `i` (R283). -/
def Group.laneSrc (g : Group) (a : Src) (i : Nat) : W32 :=
  match a with
  | .q n => lane g.q[n] i
  | .v n => lane g.v[n] i
  | .s n => g.s[n].setWidth 32
  | .zero => 0
  | .lid => BitVec.ofNat 32 i
  | .lit x => x
  | .rsv _ => 0

/-- All lanes of a source. -/
def Group.lanesSrc (g : Group) (w : Nat) (a : Src) : Lanes := (List.range w).map fun i => g.laneSrc a i

/-- Whether lane `i` is enabled. -/
def Group.enabled (g : Group) (i : Nat) : Bool := g.exm.getLsbD i

/-- The integer a base or offset field contributes for lane `i` (R303). -/
def Group.addrPart (g : Group) (a : Src) (i : Nat) : Int :=
  match a with
  | .s n => g.s[n].toInt
  | a => (g.laneSrc a i).toInt

/-- Write a scalar destination (R270); other destination kinds are refused before this. -/
def Group.setS (g : Group) (d : Dst) (x : W64) : Group :=
  match d with
  | .s n => { g with s := g.s.set n x }
  | _ => g

/-- Push a value: it becomes q0 and every older entry moves one name on (R162). -/
def pushQ (q : Vector Lanes 16) (x : Lanes) : Vector Lanes 16 :=
  Vector.ofFn fun i => if h : i.val = 0 then x else q[i.val - 1]

/-- The old value of a destination's lane: the named register, or zero for a push only (R284). -/
def Group.oldLane (g : Group) (d : Dst) (i : Nat) : W32 :=
  match d with
  | .v n => lane g.v[n] i
  | _ => 0

/-- Write a named vector register. -/
def Group.setV (g : Group) (n : Nat) (x : Lanes) : Group := { g with v := g.v.setIfInBounds n x }

/-- Push lanes and write the named register, if any; a lane that is not enabled keeps the old value of
the named register, or is zero (R284). -/
def Group.writeVec (g : Group) (w : Nat) (d : Dst) (r : Nat → W32) : Group :=
  let out := (List.range w).map fun i => if g.enabled i then r i else g.oldLane d i
  let g := { g with q := pushQ g.q out }
  match d with
  | .v n => { g with v := g.v.set n out }
  | _ => g

/-- A mask of `w` ones (R292). -/
def maskOnes (w : Nat) : W64 := BitVec.ofNat 64 (ones w)

/-- Read a mask by number (R282). -/
def Group.mask (g : Group) (k : Nat) : W64 := g.m.getD k 0
/-- Write a mask by number. -/
def Group.setMask (g : Group) (k : Nat) (x : W64) : Group := { g with m := g.m.setIfInBounds k x }

/-- The mask whose bit i is `f i`, for i below `w` (R290). -/
def maskOf (w : Nat) (f : Nat → Bool) : W64 :=
  BitVec.ofNat 64 ((List.range w).foldr (fun i acc => acc + b2n (f i) * 2 ^ i) 0)

/-- FLAGS as the system register of R163. -/
def Flags.toNat (f : Flags) : Nat := b2n f.z + 2 * b2n f.n + 4 * b2n f.c + 8 * b2n f.v
/-- FLAGS from the low bits of a written value. -/
def Flags.ofNat (x : Nat) : Flags := ⟨bit x 0, bit x 1, bit x 2, bit x 3⟩
/-- TRCODE as the system register of R177. -/
def TrapRegs.trcode (t : TrapRegs) : Nat := b2n t.active * 2 ^ 31 + t.word * 2 ^ 8 + t.code

end Sys2Proof.Machine

namespace Sys2Proof

/-- How many literal words a source takes (R226). -/
def Src.nlit : Src → Nat | .lit _ => 1 | _ => 0
/-- One more than the highest named register a source names, counting `k` registers from it; 0 when it
names none (R158, R304). -/
def Src.vtop (a : Src) (k : Nat) : Nat := match a with | .v n => n.val + k | _ => 0
def Dst.vtop (d : Dst) (k : Nat) : Nat := match d with | .v n => n.val + k | _ => 0

end Sys2Proof
end

