-- ==== Sys2Proof/Machine/Ops.lean ====
section
/-! DEFINITION. The named operations every meaning is built from: the places of the panel, finding and
replacing the parts of the state, the error log, who issues a word, the checks made before a word
executes, taking a fault and entering a handler (R175 to R178), and what follows a word. -/

namespace Sys2Proof.Machine

/-! ### The panel (R9 to R12) -/

/-- Grid column and row of a compute die, by index (R9, R10). -/
def dieXY (i : Nat) : Nat × Nat := (2 * (i % 6) + i / 6 % 2, i / 6)
/-- Grid column and row of a tower, by index. -/
def towerXY (j : Nat) : Nat × Nat := (2 * (j % 6) + (1 - j / 6 % 2), j / 6)
/-- The sheet of a grid place (R11). -/
def sheetOfXY (p : Nat × Nat) : Nat := p.1 / 6 + 2 * (p.2 / 6)
def dieSheet (i : Nat) : Nat := sheetOfXY (dieXY i)
def towerSheet (j : Nat) : Nat := sheetOfXY (towerXY j)
/-- The farrier's tower of a sheet: (2, 3), (9, 2), (2, 9) and (9, 8) (R12). -/
def farrierTower (sheet : Nat) : Nat :=
  match sheet with | 0 => 19 | 1 => 16 | 2 => 55 | _ => 52
/-- The tower of port tower `p`, in the order of R12 (R42). -/
def portTower (p : Nat) : Nat := ([0, 2, 6, 30, 3, 5, 17, 29, 42, 54, 66, 68, 69, 71, 41, 65] : List Nat).getD p 0
/-- The SITE field of a tower in an error record (R203). -/
def towerSite (j : Nat) : Nat := j + 2 ^ 15

/-! ### Lists in order -/

/-- A list with one more element, before the first that must not come before it. -/
def insertBy {α : Type} (le : α → α → Bool) (x : α) : List α → List α
  | [] => [x]
  | y :: ys => if le x y then x :: y :: ys else y :: insertBy le x ys
/-- A list in an order; equal elements keep their places. -/
def sortBy {α : Type} (le : α → α → Bool) (l : List α) : List α := l.foldr (insertBy le) []

/-! ### Finding and replacing parts of the state -/

def State.group? (s : State) (r : GroupRef) : Option Group := s.groups.find? fun g => g.id == r
def State.setGroup (s : State) (g : Group) : State :=
  { s with groups := s.groups.map fun h => if h.id = g.id then g else h }
def State.team? (s : State) (tid team : Nat) : Option Team :=
  s.teams.find? fun t => t.tid == tid && t.team == team
def State.setTeam (s : State) (t : Team) : State :=
  { s with teams := s.teams.map fun u => if u.tid = t.tid ∧ u.team = t.team then t else u }
def State.task? (s : State) (tid : Nat) : Option Task := s.sched.tasks.find? fun k => k.tid == tid
def SchedState.setTask (x : SchedState) (k : Task) : SchedState :=
  { x with tasks := x.tasks.map fun h => if h.tid = k.tid then k else h }
def State.setTask (s : State) (k : Task) : State := { s with sched := s.sched.setTask k }
def State.mill? (s : State) (r : MillRef) : Option Mill := s.mills.find? fun m => m.id == r
def State.setMill (s : State) (m : Mill) : State :=
  { s with mills := s.mills.map fun h => if h.id = m.id then m else h }

/-- A core that holds nothing. -/
def Core.blank (c : CoreId) : Core := ⟨c, [], [], false, [], [], 0, 0, 0, 0⟩
/-- A core; cores that are not listed are blank. -/
def State.core (s : State) (c : CoreId) : Core :=
  match s.cores.find? fun k => k.id == c with
  | some k => k
  | none => Core.blank c
def State.setCore (s : State) (k : Core) : State :=
  if s.cores.any fun h => h.id == k.id then
    { s with cores := s.cores.map fun h => if h.id = k.id then k else h }
  else { s with cores := s.cores ++ [k] }
/-- The groups of a team, and those of a task. -/
def State.teamGroups (s : State) (tid team : Nat) : List Group :=
  s.groups.filter fun g => g.id.tid == tid && g.id.team == team
def State.taskTeams (s : State) (tid : Nat) : List Team := s.teams.filter fun t => t.tid == tid

/-! ### The error log (R202, R203) -/

/-- Queue a record for the farrier, stamped with its sheet's counter. -/
def State.logAdd (s : State) (kind sheet site tid addr aux unit : Nat) : State :=
  { s with log := s.log ++ [⟨kind, sheet, site, tid, s.boot.time.getD sheet 0, addr, aux, unit⟩] }
/-- No task concerned (R203). -/
def noTask : Nat := 0xFFFFFFFF
/-- A record written by the arbiter: SITE 19 with bit 15 set, SHEET 0 (R417). -/
def State.logArbiter (s : State) (kind tid addr aux : Nat) : State :=
  s.logAdd kind 0 (towerSite 19) tid addr aux 0
/-- A record written for a compute die. -/
def State.logDie (s : State) (kind die tid addr aux unit : Nat) : State :=
  s.logAdd kind (dieSheet die) die tid addr aux unit
/-- A record written for a tower. -/
def State.logTower (s : State) (kind tower tid addr aux unit : Nat) : State :=
  s.logAdd kind (towerSheet tower) (towerSite tower) tid addr aux unit

/-! ### Fault codes (R175) -/

def cILLOP : Nat := 0x01
def cILLOPND : Nat := 0x02
def cBADCLAUSE : Nat := 0x03
def cPRIV : Nat := 0x04
def cALIGN : Nat := 0x05
def cSPACE : Nat := 0x06
def cPROT : Nat := 0x07
def cTRANSL : Nat := 0x08
def cNOHOME : Nat := 0x09
def cDECKLE : Nat := 0x0A
def cLOSTLINE : Nat := 0x0B
def cTIMEOUT : Nat := 0x0C
def cCPYBND : Nat := 0x0D
def cFORMAT : Nat := 0x0E
def cSTACK : Nat := 0x0F
def cTRAP : Nat := 0x10
def cBRK : Nat := 0x11
def cRESIDUE : Nat := 0x12
def cNESTED : Nat := 0x13

/-! ### Instruction text in a core's instruction cache (R220, R234) -/

/-- A 4-byte word of a cached line. -/
def ILine.word (l : ILine) (va : Nat) : W32 := l.val.extractLsb' (8 * (va % 64)) 32
/-- The word at a VA, if the line that holds it is cached. -/
def cachedWord (ls : List ILine) (asid va : Nat) : Option W32 :=
  (ls.find? fun l => l.asid == asid && l.line == va / 64).map fun l => l.word va
/-- Whether a word has the form of a clause header (R220, R233). -/
def isHeader (w : W32) : Bool :=
  bits w.toNat 7 0 == 0xA5 && bits w.toNat 31 28 != 0 && decide (bits w.toNat 27 25 < 6) && bits w.toNat 18 8 == 0

/-! ### Who issues -/

/-- A group about to issue, with its team and its task. -/
structure Issuer where
  g : Group
  t : Team
  k : Task
  deriving DecidableEq, Repr

/-- A group runs at privileged level when its task's ASID is 0 (R344). -/
def Issuer.priv (u : Issuer) : Bool := u.k.asid == 0
/-- Size of the team's scratchpad allocation and of the set's window, in whole 4 KiB granules (R99, R160). -/
def Launch.spSize (l : Launch) : Nat := alignUp l.spbytes 4096
def Launch.cwSize (l : Launch) : Nat := alignUp l.cwbytes 4096
/-- Number of lanes of the group (R157). -/
def Issuer.w (u : Issuer) : Nat := u.k.launch.lanes
/-- Named registers of the group's role (R158). -/
def Issuer.budget (u : Issuer) : Nat :=
  if u.g.id.grp < u.k.launch.nlead then u.k.launch.lbud else u.k.launch.wbud
/-- The die, and the sheet, the group runs on. -/
def Issuer.die (u : Issuer) : Nat := u.t.core.die
def Issuer.sheet (u : Issuer) : Nat := dieSheet u.t.core.die

/-- A release or an acquire in progress holds the group's next word (R138, R139). -/
def Group.fenceHolds (g : Group) : Bool :=
  match g.fence with
  | some f => f.phase != .released
  | none => false

/-- A word of the group has begun, and the request it made or the release it waited for stands outside the group: it
completes before pre-emption stops the group (R92, R183). -/
def Group.midWord (g : Group) : Bool :=
  g.wait == some .whole || g.fence.isSome || (g.wait != some .dkflush && g.wait != some .tnow && (g.stall.sent || g.stall.result.isSome || !g.stall.faults.isEmpty))
/-- Clause issue of the team's set has been stopped, for pre-emption or because the task has faulted (R73, R92). -/
def Task.stopping (k : Task) (t : Team) : Bool :=
  k.faulted || k.sets.any fun x => x.k == t.set && (match x.st with | .preempt _ => true | _ => false)
/-- A group can issue: it is ready, no fence holds it, its team has started and issue is not stopped, its core is not
fenced, and its sheet runs (R22, R92, R138, R139, R164, R180). -/
def State.issuerOf (s : State) (r : GroupRef) : Option Issuer :=
  match s.group? r, s.team? r.tid r.team, s.task? r.tid with
  | some g, some t, some k =>
    if g.stat = .ready ∧ g.fenceHolds = false ∧ t.started = true ∧ (k.stopping t = false ∨ g.midWord = true) ∧
        (s.core t.core).fenced = false ∧ s.boot.stopped.getD (dieSheet t.core.die) false = false then some ⟨g, t, k⟩
    else none
  | _, _, _ => none

/-- The group whose word issues now. -/
def State.issuer (s : State) : Option Issuer :=
  match s.focus with
  | some (.group r) => s.issuerOf r
  | _ => none

/-- N of the clause that the group has fetched: 0 when no header stands at its PC (R219, R220). -/
def Group.clauseN (g : Group) : Nat :=
  match g.clause with
  | h :: _ => if isHeader h then bits h.toNat 31 28 else 0
  | [] => 0
/-- The address just past that clause (R177, R220). -/
def Group.clauseEnd (g : Group) : W64 := g.pc + BitVec.ofNat 64 (4 * (g.clauseN + 1))

/-! ### Faults (R73, R175 to R178) -/

/-- A fault that nothing resolves ends the task (R73): the first one sets the code and is logged, with
the group's place (R175, R203). The rest of R73 follows in TASK_FAULT_END. -/
def State.faultEnd (s : State) (u : Issuer) (code : Nat) : State :=
  let s := s.setGroup { u.g with stat := .stopped, wait := none, fence := none, stall := MemStall.none }
  if u.k.faulted then s
  else
    (s.logDie 0x06 u.die u.k.tid u.g.pc.toNat (code + u.g.widx * 2 ^ 8 + u.g.id.grp * 2 ^ 12) u.t.team).setTask
      { u.k with faulted := true, fcode := code }

/-- A task ends by a fault met outside its groups' words (R73, R93): the first one sets its code and is logged, with no clause
and no group (R203; log entry 126). -/
def State.taskFault (s : State) (sheet site tid code unit : Nat) : State :=
  match s.task? tid with
  | some k =>
    if k.faulted then s else (s.logAdd 0x06 sheet site tid 0 code unit).setTask { k with faulted := true, fcode := code }
  | none => s

/-- Entry to the user trap handler (R177): the trap registers are written, EXM becomes all ones, and the
group continues at the TRAPH clause with its other state unchanged. -/
def State.trapEntry (s : State) (u : Issuer) (code : Nat) (va lanes : W64) : State :=
  s.setGroup { u.g with
    trap := ⟨true, u.g.widx, code, u.g.pc, u.g.clauseEnd, va, lanes, u.g.exm⟩
    exm := maskOnes u.w
    pc := u.k.launch.traph
    clause := []
    widx := 0
    wait := none
    fence := none
    stall := MemStall.none }

/-- TAKING A FAULT (R175, R177, R178), for every code that does not park: NESTED when a handler is
running, the user trap handler when there is one and the code is of delivery T, and otherwise the end
of the task. -/
def State.takeFault (s : State) (u : Issuer) (code : Nat) (va lanes : W64) : State :=
  if code = cRESIDUE then s.faultEnd u code
  else if u.g.trap.active then s.faultEnd u cNESTED
  else if u.k.launch.traph = 0 then s.faultEnd u code
  else s.trapEntry u code va lanes

/-! ### What a word's body answers, and what follows it -/

inductive WordOut
  /-- The word commits: the group it leaves, and the rest of the state. -/
  | done (g : Group) (s : State)
  /-- A control transfer is taken to a target (R220). -/
  | goto (g : Group) (target : W64) (s : State)
  /-- The word commits and then acquires: the drain of the acquire is already on its way (R139). -/
  | acquire (g : Group) (scope : Nat) (s : State)
  /-- The word waits where it stands; nothing of it has committed. -/
  | wait (g : Group) (s : State)
  /-- The word raises a code: TRVA and TRLANES (R177). -/
  | fault (code : Nat) (va lanes : W64)
  /-- The group leaves the word in a way the state holds already (it parked, or it began to exit). -/
  | stop (s : State)
  deriving DecidableEq, Repr

/-- The word has committed: its wait ends, and it is counted (R348). -/
def Group.retire (g : Group) : Group :=
  { g with wait := none, fence := none, stall := MemStall.none
           wordsIssued := g.wordsIssued + 1 }
/-- The PC after a word of `len` words with its literals: the next word of the clause, or the header of
the next clause (R183, R220). -/
def Group.advance (u : Group) (len : Nat) (g : Group) : Group :=
  if u.clauseN < u.widx + len then { g.retire with pc := u.clauseEnd, widx := 0, clause := [] }
  else { g.retire with widx := u.widx + len }
/-- A transfer that was taken. -/
def Group.transfer (g : Group) (target : W64) : Group := { g.retire with pc := target, widx := 0, clause := [] }

/-- A copy that is not DONE or ERR owns its status scalar (R165, R169). -/
def Copy.pending (c : Copy) : Bool :=
  match c.state with
  | .done => false
  | .err => false
  | _ => true
/-- A word that would write a status scalar waits until the copy that owns it is DONE or ERR (R165). -/
def State.ownedStatus (s : State) (u : Issuer) (d : Dst) : Bool :=
  match d with
  | .s n => (s.core u.t.core).cq.any fun c => c.g == u.g.id && c.pending && c.st == n
  | _ => false

/-- Carry out what a word's body answered. -/
def State.settle (s : State) (u : Issuer) (len : Nat) : WordOut → State
  | .done g s' => s'.setGroup (u.g.advance len g)
  | .acquire g scope s' => s'.setGroup { u.g.advance len g with fence := some ⟨.acquire, scope⟩ }
  | .goto g target s' => s'.setGroup (g.transfer target)
  | .wait g s' => s'.setGroup g
  | .fault code va lanes => s.takeFault u code va lanes
  | .stop s' => s'

/-! ### The life of a task (R72, R86) -/

/-- The state that its team sets give a core task (R72). -/
def Task.stOf (k : Task) : TaskSt :=
  if k.sets.any fun x => match x.st with | .preempt _ => true | _ => false then .preempt
  else if k.sets.any fun x => x.st == .running then .running
  else if k.sets.any fun x => match x.st with | .placed _ _ => true | _ => false then .placed
  else if k.sets.any fun x => x.st == .stabled then .stabled
  else if k.sets.any fun x => x.st == .unplaced then .ready
  else k.st
/-- READY and STABLED are waited in (R86). -/
def TaskSt.waits : TaskSt → Bool | .ready => true | .stabled => true | _ => false
/-- The waiting of a task that goes from one state to another at a time. -/
def Task.clocked (k : Task) (old : TaskSt) (now : Nat) : Task :=
  if old.waits && !k.st.waits then { k with waited := k.waited + (now - k.since) }
  else if !old.waits && k.st.waits then { k with since := now }
  else k
/-- Put a task back whose sets or whose state changed: a core task between READY and DRAIN takes the state its sets
give it, and its waiting is measured on the arbiter's sheet counter (R72, R86). -/
def State.putTask (s : State) (k : Task) : State :=
  let k' : Task := match k.st with
    | .waitdep => k | .waithaz => k | .drain => k | .done => k
    | _ => { k with st := k.stOf }
  match s.task? k.tid with
  | some old => s.setTask (k'.clocked old.st (s.boot.time.getD 0 0))
  | none => s

/-! ### Whether a strict placement entry can be met (R89) -/

/-- Logical clusters of a die of this grade (R13). -/
def BootState.clusters (b : BootState) : Nat := if b.gradeA then 22 else 21
/-- Hardware slots, and named registers, of a team (R157, R158). -/
def Launch.slots (l : Launch) : Nat := l.ngrp * (l.lanes / 32)
def Launch.regs (l : Launch) : Nat := (l.nlead * l.lbud + l.nwheel * l.wbud) * (l.lanes / 32)
/-- Teams of the launch that an empty core holds. -/
def Launch.perCore (l : Launch) : Nat :=
  let by' (have' need : Nat) : Nat := if need = 0 then have' else have' / need
  min (by' 16 l.slots) (min (by' 384 l.regs) (min (by' 262144 l.spSize) (by' 16 l.nacc)))
/-- Teams of the launch, team sets, and teams of set `k` (R88). -/
def Launch.teams (l : Launch) : Nat := l.gx * l.gy * l.gz
def Launch.nsets (l : Launch) : Nat := (l.teams + l.tssize - 1) / l.tssize
def Launch.setTeams (l : Launch) (k : Nat) : List Nat :=
  (List.range (min l.tssize (l.teams - k * l.tssize))).map fun i => k * l.tssize + i

/-- A placement-map entry (R89). -/
structure PlaceHint where
  strict : Bool
  sheet : Option Nat
  cluster : Option Nat
  die : Option Nat
  deriving DecidableEq, Repr
def PlaceHint.ofNat (e : Nat) : PlaceHint :=
  let f (hi lo : Nat) : Option Nat := if bits e hi lo = 0xFF then none else some (bits e hi lo)
  ⟨bit e 24, f 23 16, f 15 8, f 7 0⟩
/-- The entry of a set; without a map, one that names nothing. -/
def Task.hint (k : Task) (set : Nat) : PlaceHint := PlaceHint.ofNat (k.pmap.getD set 0xFFFFFF)
/-- An entry allows a cluster of a die. -/
def PlaceHint.allows (h : PlaceHint) (die cluster : Nat) : Bool :=
  (match h.sheet with | some x => dieSheet die == x | none => true) &&
  (match h.cluster with | some x => cluster == x | none => true) &&
  (match h.die with | some x => die == x | none => true)

/-- Dies of a sheet, in index order. -/
def sheetDies (q : Nat) : List Nat := (List.range 72).filter fun d => dieSheet d == q
/-- The places a team set may go to: each the clusters of one cluster, die or sheet as COLOC gives (R88), in the order
of sheet, die and cluster. -/
def State.units (s : State) (coloc : Nat) : List (List (Nat × Nat)) :=
  let die (d : Nat) : List (Nat × Nat) := (List.range s.boot.clusters).map fun c => (d, c)
  match coloc with
  | 1 => (List.range 4).flatMap fun q => (sheetDies q).flatMap fun d => (die d).map fun c => [c]
  | 2 => (List.range 4).flatMap fun q => (sheetDies q).map die
  | _ => (List.range 4).map fun q => (sheetDies q).flatMap die
/-- The places with the clusters that an entry leaves in them. -/
def State.namedUnits (s : State) (coloc : Nat) (h : PlaceHint) : List (List (Nat × Nat)) :=
  ((s.units coloc).map fun u => u.filter fun c => h.allows c.1 c.2).filter fun u => !u.isEmpty
/-- The places to try for a set, in order: those its entry names, and for one that only hints every other place after them
(R89). -/
def State.hintUnits (s : State) (coloc : Nat) (h : PlaceHint) : List (List (Nat × Nat)) :=
  if h.strict then s.namedUnits coloc h else s.namedUnits coloc h ++ s.units coloc
/-- Cores of a cluster that are not fenced. -/
def State.goodCores (s : State) (c : Nat × Nat) : List CoreId :=
  ((List.range 16).map fun i => (⟨c.1, c.2, i⟩ : CoreId)).filter fun i => !(s.core i).fenced
/-- A strict entry of a set that waits for placement can no longer be met, cores being fenced. -/
def State.strictLost (s : State) (k : Task) (set : Nat) : Bool :=
  let h := k.hint set
  let need := (k.launch.setTeams set).length
  h.strict && (s.namedUnits k.launch.coloc h).all fun u =>
    decide (k.launch.perCore * (u.flatMap s.goodCores).length < need)
/-- A set that is not on cores. -/
def SetSt.off : SetSt → Bool | .unplaced => true | .stabled => true | _ => false
/-- What is saved of a task is given up: its blocks are free (R416). -/
def SchedState.unsave (x : SchedState) (tid : Nat) : SchedState :=
  { x with saved := x.saved.filter fun t => t.tid != tid, savedMills := x.savedMills.filter fun m => m.tid != tid }
/-- A task that ends with RESOURCE because cores have been fenced (R89): at once when none of its sets is on cores,
otherwise as a task that has faulted ends. -/
def State.fenceTasks (s : State) : State :=
  s.sched.tasks.foldl (fun s k =>
    let lost := k.type == .core && k.st != .done && k.st != .drain && !k.faulted &&
      (k.sets.any fun x => x.st.off && s.strictLost k x.k)
    if lost then
      (if k.sets.all fun x => x.st.off then
        { s with sched := (s.sched.unsave k.tid).setTask { k with st := .done, status := .resource } }
       else s.setTask { k with faulted := true, status := .resource })
    else s) s

/-- A team whose set is being pre-empted: what fails for another team of its core does not end it (R183). -/
def State.departing (s : State) (t : Team) : Bool :=
  match s.task? t.tid with
  | some k => k.sets.any fun x => x.k == t.set && (match x.st with | .preempt _ => true | _ => false)
  | none => false
/-- A team on a fenced core ends its task with RESIDUE, whether or not it has started (R180; log entry 128). -/
def State.residueEnd (s : State) (t : Team) : State :=
  match s.teamGroups t.tid t.team, s.task? t.tid with
  | g :: _, some k => if k.faulted then s else s.faultEnd ⟨g, t, k⟩ cRESIDUE
  | [], _ => s.taskFault (dieSheet t.core.die) t.core.die t.tid cRESIDUE t.team
  | _, none => s
/-- A lasting residue failure (R180): the core is fenced and every team resident on it ends its task with
RESIDUE. -/
def State.fenceCore (s : State) (u : Issuer) : State :=
  let k := s.core u.t.core
  let s := s.setCore { k with fenced := true, residue := k.residue + 1 }
  let s := s.logDie 0x04 u.die u.k.tid 0 1 0
  let s := s.faultEnd u cRESIDUE
  ((s.teams.filter fun t => t.core == u.t.core && !s.departing t).foldl State.residueEnd s).fenceTasks

/-- A residue failure whose replay checks clean leaves a transient record and a count (R180, R348). -/
def State.transientResidue (s : State) (c : CoreId) (tid : Nat) : State :=
  let k := s.core c
  (s.setCore { k with residue := k.residue + 1 }).logDie 0x04 c.die tid 0 0 0
/-- That of a word. -/
def State.residueReplay (s : State) (u : Issuer) : State := { s with residue := .clean }.transientResidue u.t.core u.k.tid

/-- ONE WORD OF A GROUP. `ok` says that every operand is one the word's page allows, `top` is one more
than the highest named register the word names, `d` is a scalar it writes, if any, `len` counts the word and its
literals. The checks are those of R232 and R233 in the order of R176; the scoreboard holds a word that writes a status
scalar (R165); a word that reads its operands goes through the residue check of R180; then the body's answer is
carried out. -/
def runWordTo (d : Dst) (ok : Bool) (top len : Nat) (body : Issuer → State → WordOut) (s : State) : Out :=
  match s.issuer with
  | none => .refused .noIssuer
  | some u =>
    if ok = false ∨ u.budget < top then .next (s.takeFault u cILLOPND 0 0)
    else if s.ownedStatus u d then .next (s.setGroup { u.g with wait := some .other })
    else match s.residue with
      | .clean => .next (s.settle u len (body u s))
      | .transient =>
        let s' := s.residueReplay u
        .next (s'.settle u len (body u s'))
      | .lasting => .next ({ s with residue := .clean }.fenceCore u)

/-- A word that writes no scalar. -/
def runWord (ok : Bool) (top len : Nat) (body : Issuer → State → WordOut) : State → Out :=
  runWordTo .push ok top len body

/-- A word whose effect is on the group alone and that raises nothing. -/
def runPure (ok : Bool) (top len : Nat) (f : Issuer → Group) : State → Out :=
  runWord ok top len fun u s => .done (f u) s
/-- Such a word with a scalar destination. -/
def runPureTo (d : Dst) (ok : Bool) (top len : Nat) (f : Issuer → Group) : State → Out :=
  runWordTo d ok top len fun u s => .done (f u) s

end Sys2Proof.Machine
end

