-- ==== Sys2Proof/Machine/Mem.lean ====
section
/-! DEFINITION. Memory: sparse bytes in canonical form, 256-byte lines with nibble masks (R104), the
tower cache (R186), the DRAM address map (R184), the SRAM spaces (R96 to R100), and the home's view of a
line under its page's tier (R120). -/

namespace Sys2Proof.Machine

/-! ### Sparse bytes -/

/-- The byte that is read at an address nothing has written (log entry 1). -/
def memUnlisted : BitVec 8 := 0

/-- Addresses strictly rising from above `lo`, and no entry equal to what an unlisted address reads as. -/
def Mem.wfFrom : Option Nat → Mem → Bool
  | _, [] => true
  | lo, (a, b) :: m =>
    (match lo with | some l => decide (l < a) | none => true) && decide (b ≠ memUnlisted) && Mem.wfFrom (some a) m
/-- The canonical form of a memory. -/
def Mem.wf (m : Mem) : Bool := Mem.wfFrom none m

/-- Read one byte. -/
def Mem.byte : Mem → Nat → BitVec 8
  | [], _ => memUnlisted
  | (a, b) :: m, x => if a = x then b else if x < a then memUnlisted else Mem.byte m x

/-- Write one byte; writing what an unlisted address reads as removes the entry. -/
def Mem.put : Mem → Nat → BitVec 8 → Mem
  | [], x, v => if v = memUnlisted then [] else [(x, v)]
  | (a, b) :: m, x, v =>
    if x < a then (if v = memUnlisted then (a, b) :: m else (x, v) :: (a, b) :: m)
    else if x = a then (if v = memUnlisted then m else (a, v) :: m)
    else (a, b) :: Mem.put m x v

/-- `n` bytes from an address, lowest first. -/
def Mem.read (m : Mem) (a n : Nat) : List (BitVec 8) := (List.range n).map fun i => m.byte (a + i)
/-- Write bytes from an address, lowest first. -/
def Mem.write (m : Mem) (a : Nat) : List (BitVec 8) → Mem
  | [] => m
  | b :: bs => Mem.write (m.put a b) (a + 1) bs

/-- A little-endian number of `n` bytes. -/
def Mem.nat (m : Mem) (a n : Nat) : Nat := leNat (m.read a n)
/-- Write a little-endian number of `n` bytes. -/
def Mem.putNat (m : Mem) (a n x : Nat) : Mem := m.write a (leBytes n x)

/-- The bytes of a scratchpad or lane-private memory: a byte not written since the team's start is the
undefined byte of R159 (log entry 2). These memories list every byte written. -/
def undefRead (m : Mem) (epoch a : Nat) : BitVec 8 :=
  match m.find? fun c => c.1 == a with
  | some c => c.2
  | none => Config.undefByte epoch a
/-- Write a byte of such a memory. -/
def undefPut : Mem → Nat → BitVec 8 → Mem
  | [], x, v => [(x, v)]
  | (a, b) :: m, x, v =>
    if x < a then (x, v) :: (a, b) :: m
    else if x = a then (a, v) :: m
    else (a, b) :: undefPut m x v
def undefWrite (m : Mem) (a : Nat) : List (BitVec 8) → Mem
  | [] => m
  | b :: bs => undefWrite (undefPut m a b) (a + 1) bs

/-- Put one nibble of a byte: nibble 0 is bits [3:0] (R307). -/
def nibbleIn (old : BitVec 8) (nib : Nat) (x : Nat) : BitVec 8 :=
  if nib = 0 then BitVec.ofNat 8 (old.toNat / 16 * 16 + x % 16)
  else BitVec.ofNat 8 (old.toNat % 16 + 16 * (x % 16))

/-! ### Lines -/

/-- The 256-byte line of a memory at a line-aligned address. -/
def Mem.line (m : Mem) (base : Nat) : BitVec 2048 :=
  BitVec.ofNat 2048 ((m.filter fun c => decide (base ≤ c.1) && decide (c.1 < base + 256)).foldr
    (fun c acc => acc + c.2.toNat * 2 ^ (8 * (c.1 - base))) 0)

/-- Byte `i` of a line. -/
def lineByte (v : BitVec 2048) (i : Nat) : BitVec 8 := v.extractLsb' (8 * i) 8
/-- `n` bytes of a line from byte `i`, as a number. -/
def lineNat (v : BitVec 2048) (i n : Nat) : Nat := v.toNat / 2 ^ (8 * i) % 2 ^ (8 * n)
/-- A mask over the bits of a line that covers `n` bytes from byte `i`. -/
def lineMask (i n : Nat) : BitVec 2048 := BitVec.ofNat 2048 (ones (8 * n) * 2 ^ (8 * i))
/-- A value placed at byte `i`. -/
def linePlace (i x : Nat) : BitVec 2048 := BitVec.ofNat 2048 (x * 2 ^ (8 * i))
/-- Take the bits of `new` where the mask is set (R104). -/
def lineMerge (old new mask : BitVec 2048) : BitVec 2048 := (old &&& ~~~mask) ||| (new &&& mask)
/-- Every bit of a line. -/
def lineFull : BitVec 2048 := BitVec.allOnes 2048

/-- Write the bytes of a line that a nibble mask enables. -/
def Mem.putLine (m : Mem) (base : Nat) (val mask : BitVec 2048) : Mem :=
  (List.range 256).foldl (fun m i =>
    let k := lineByte mask i
    if k = 0 then m else m.put (base + i) ((m.byte (base + i) &&& ~~~k) ||| (lineByte val i &&& k))) m

/-! ### Towers (R184 to R186) -/

/-- Bytes of physical address space of one tower. -/
def towerSpan : Nat := 2 ^ 36
/-- First byte past the DRAM: ROW must be below 9,216 (R184). -/
def dramTop : Nat := 9216 * 2 ^ 22
/-- Frames of a tower (R120). -/
def towerFrames : Nat := 589824
/-- Channel, bank and row of a tower physical address (R184). -/
def chanOf (pa : Nat) : Nat := 32 * (pa / 2 ^ 16 % 2) + pa / 2 ^ 8 % 32
def bankOf (pa : Nat) : Nat := pa / 2 ^ 17 % 32
def rowOf (pa : Nat) : Nat := pa / 2 ^ 22

/-- A line as its tower holds it: from the tower cache, otherwise from DRAM. -/
def MemState.towerLine (x : MemState) (tower line : Nat) : BitVec 2048 :=
  match x.tcache.find? fun t => t.tower == tower && t.line == line with
  | some t => t.val
  | none => x.dram.line (tower * towerSpan + line * 256)

/-- Write a tower-cache line back to DRAM (R186). -/
def MemState.tcWriteback (x : MemState) (t : TLine) : MemState :=
  if t.dirty = 0 then x else { x with dram := x.dram.putLine (t.tower * towerSpan + t.line * 256) t.val t.dirty }
/-- Drop a line from the tower cache, writing it back first. -/
def MemState.tcDrop (x : MemState) (tower line : Nat) : MemState :=
  match x.tcache.find? fun t => t.tower == tower && t.line == line with
  | some t =>
    { x.tcWriteback t with tcache := x.tcache.filter fun u => !(u.tower == tower && u.line == line) }
  | none => x
/-- The lines of the set that a line falls in, most recently used first: 16,384 sets by PA[21:8]. -/
def MemState.tcSet (x : MemState) (tower line : Nat) : List TLine :=
  x.tcache.filter fun u => u.tower == tower && u.line % 16384 == line % 16384
/-- The ways of a cache that are not disabled; one stays, whatever is disabled (R201; log entry 125). -/
def MemState.ways (x : MemState) (c : CacheId) (full : Nat) : Nat := max 1 (full - (x.deadWays.filter fun w => w == c).length)
/-- Make a line the most recently used of its set, taking the place of the least recently used when all of the 16 ways
that are not disabled are in use (R186, R201). -/
def MemState.tcPut (x : MemState) (t : TLine) : MemState :=
  let rest := x.tcache.filter fun u => !(u.tower == t.tower && u.line == t.line)
  let y := { x with tcache := t :: rest }
  ((y.tcSet t.tower t.line).drop (x.ways (.tower t.tower) 16)).foldl (fun y v => y.tcDrop v.tower v.line) y
/-- An access by a die fill, a mill, an atomic or a reduction brings the line in (R186). -/
def MemState.tcFetch (x : MemState) (tower line : Nat) : MemState :=
  match x.tcache.find? fun t => t.tower == tower && t.line == line with
  | some t => x.tcPut t
  | none => x.tcPut ⟨tower, line, x.towerLine tower line, 0⟩
/-- A write with nibble enables into the tower cache, atomic with respect to every other access (R104). -/
def MemState.tcWrite (x : MemState) (tower line : Nat) (val mask : BitVec 2048) : MemState :=
  let d := match x.tcache.find? fun t => t.tower == tower && t.line == line with
    | some t => t.dirty
    | none => 0
  x.tcPut ⟨tower, line, lineMerge (x.towerLine tower line) val mask, d ||| mask⟩

/-- Where a line lives: its tier, the tower that is its home, and the address there. For tier 10 the
address is port × 2^64 + host address; for pool memory of another package it is handle × 2^16 + byte. -/
structure Place where
  tier : Nat
  tower : Nat
  pa : Nat
  deriving DecidableEq, Repr

def Attr.place (a : Attr) : Place := ⟨a.tier, a.home, a.pa⟩
/-- The line's key in its home's directory (R108). -/
def Place.key (p : Place) : LineId := ⟨p.tier, p.pa / 256⟩

/-- The line that the home holds, whatever copies exist elsewhere. -/
def MemState.placeLine (x : MemState) (p : Place) : BitVec 2048 :=
  match p.tier with
  | 0 => x.towerLine p.tower (p.pa / 256)
  | 1 => x.pool.line (p.pa / 256 * 256)
  | _ => x.host.line (p.pa / 256 * 256)
/-- What names a home's line to an mpark (R371). -/
def Place.watch (p : Place) : Nat × Nat × Nat := (p.tier, p.tower, p.pa / 256)
/-- An mpark of a mill begins to wait on a line, and on no other. -/
def MemState.watch (x : MemState) (m : MillRef) (p : Place) : MemState :=
  { x with watched := (x.watched.filter fun w => w.1 != m) ++ [(m, p.watch)] }
/-- The home's line is written: whoever waits on it waits no longer (R371). -/
def MemState.unwatch (x : MemState) (p : Place) : MemState := { x with watched := x.watched.filter fun w => w.2 != p.watch }
/-- Write the home's line with nibble enables. -/
def MemState.placeWrite (y : MemState) (p : Place) (val mask : BitVec 2048) : MemState :=
  let x := y.unwatch p
  match p.tier with
  | 0 => x.tcWrite p.tower (p.pa / 256) val mask
  | 1 => { x with pool := x.pool.putLine (p.pa / 256 * 256) val mask }
  | _ => { x with host := x.host.putLine (p.pa / 256 * 256) val mask }
/-- The home's side of a die fill: tier 00 lines enter the tower cache (R186). -/
def MemState.placeTouch (x : MemState) (p : Place) : MemState :=
  if p.tier = 0 then x.tcFetch p.tower (p.pa / 256) else x

/-- A bank that is being refreshed (R194). -/
def State.bankRefreshing (s : State) (tower pa : Nat) : Bool :=
  s.mem.refreshing.any fun r => r == (tower, chanOf pa, bankOf pa)
/-- A pair (half, bank) as the number 32 × half + bank (R185, R195). -/
def pairOf (pa : Nat) : Nat := 32 * (pa / 2 ^ 16 % 2) + bankOf pa
/-- A row or its absence lies in the bank of an address. -/
def inBank (r : Option (Nat × Nat)) (tower pa : Nat) : Bool :=
  match r with
  | some (t, x) => t == tower && chanOf x == chanOf pa && bankOf x == bankOf pa
  | none => false
/-- A bank of a tower that no ordinary access may use now: it is being refreshed (R194), a mill holds the pair
locked (R195), or a row step is in flight there (R192, R193). -/
def State.bankHeld (s : State) (tower pa : Nat) : Bool :=
  s.bankRefreshing tower pa ||
  (s.mem.locks.any fun l => l.tower == tower && l.pair == pairOf pa) ||
  (s.mills.any fun m => m.rowBusy.any fun r => inBank r.src tower pa || inBank r.dst tower pa)

/-! ### The lost-line table (R132) -/

/-- Whether a line of a tower is lost: it is in the table, or its frame is marked. -/
def MemState.isLost (x : MemState) (p : Place) : Bool :=
  p.tier == 0 && ((x.lost.any fun l => l.tower == p.tower && l.phys == some (p.pa / 256)) ||
    (x.marks.any fun m => m == (p.tower, p.pa / 2 ^ 16)))
/-- Whether a line was lost before it had a translation. -/
def MemState.isLostVa (x : MemState) (tower : Nat) (a : LineId) : Bool :=
  x.lost.any fun l => l.tower == tower && l.phys == none && l.a == a
/-- Enter a line: into the table while it has fewer than 32,768 entries, otherwise by marking the frame. A line without a
translation has no frame, and when the table is full nothing records it (DESIGN CHOICE, log entry 131): R132 names no other
place for it. -/
def MemState.lose (x : MemState) (tower : Nat) (phys : Option Nat) (a : LineId) : MemState :=
  if x.lost.any fun l => l.tower == tower && l.phys == phys && l.a == a then x
  else if (x.lost.filter fun l => l.tower == tower).length < 32768 then
    { x with lost := x.lost ++ [⟨tower, phys, a⟩] }
  else match phys with
    | some l => if x.marks.contains (tower, l / 256) then x else { x with marks := x.marks ++ [(tower, l / 256)] }
    | none => x

end Sys2Proof.Machine
end

