-- ==== Sys2Proof/Machine/Regs.lean ====
section
/-! DEFINITION. The management window's registers as offset and value (R52), their reset values, and
the offsets of the blocks. A register is held at its own offset, whole. -/

namespace Sys2Proof.Machine

def offPKGNUM : Nat := 0x8
def offLink (site : Site) : Nat :=
  match site with
  | .die i => 0x00100000 + 0x100 * i
  | .tower j => 0x00110000 + 0x100 * j
def offQueue (q : Nat) : Nat := 0x00200000 + 0x40 * q
def offQBASE (q : Nat) : Nat := offQueue q
def offQCFG (q : Nat) : Nat := offQueue q + 0x08
def offQHEAD (q : Nat) : Nat := offQueue q + 0x10
def offQTAIL (q : Nat) : Nat := offQueue q + 0x14
def offQHSH (q : Nat) : Nat := offQueue q + 0x18
def offQSTAT (q : Nat) : Nat := offQueue q + 0x20
def offQRMT (q : Nat) : Nat := offQueue q + 0x28
def offSlot (n : Nat) : Nat := 0x00300000 + 0x10 * n
def offROOTBASE : Nat := 0x00400000
def offFQBASE : Nat := 0x00400008
def offFQCFG : Nat := 0x00400010
def offFQHEAD : Nat := 0x00400018
def offFQTAIL : Nat := 0x0040001C
def offSTPBASE : Nat := 0x00400020
def offSTPSIZE : Nat := 0x00400028
def offProm (j : Nat) : Nat := 0x00410000 + 0x100 * j
def offOwner (i n : Nat) : Nat := 0x00500000 + 0x400 * i + 4 * n
def offTeth (t : Nat) : Nat := 0x00600000 + 0x10 * t
def offComp (n : Nat) : Nat := 0x00700000 + 8 * n
def offRoute (p k : Nat) : Nat := 0x00740000 + 0x1000 * p + 4 * k
def offLoan (r : Nat) : Nat := 0x00750000 + 0x100 * r
def offLGrant (r g : Nat) : Nat := offLoan r + 0x08 + 8 * g
def offLRSTAT (r : Nat) : Nat := offLoan r + 0x88
def offELBASE : Nat := 0x00800000
def offELCFG : Nat := 0x00800008
def offELHEAD : Nat := 0x00800010
def offELTAIL : Nat := 0x00800014
def offELDROP : Nat := 0x00800018
def offATT : Nat := 0x00900000
def offFRZCTL : Nat := 0x00A00000
def offTowerTab (j : Nat) : Nat := 0x01000000 + 0x10000 * j
def offDieTab (i : Nat) : Nat := 0x01500000 + 0x10000 * i

/-- Whether an offset is at `step` strides from `base`, below `count` of them: the index. -/
def blockIndex (off base step count : Nat) : Option Nat :=
  if base ≤ off ∧ off < base + step * count then some ((off - base) / step) else none

/-- Reset value of the register at an offset (R36, R53, R130, R202): zero for every other register. -/
def regReset (off : Nat) : Nat :=
  if ((blockIndex off 0x00100000 0x100 72).isSome || (blockIndex off 0x00110000 0x100 72).isSome) && off % 0x100 == 0
  then 0x3E8
  else if (blockIndex off 0x00200000 0x40 256).isSome && off % 0x40 == 0x08 then 4 * 2 ^ 16
  else if off = offFQCFG then 4 * 2 ^ 16
  else if off = offELCFG then 6 * 2 ^ 16
  else 0

/-- Look a register up. -/
def regFind : List (Nat × Nat) → Nat → Option Nat
  | [], _ => none
  | (o, v) :: l, off => if o = off then some v else if off < o then none else regFind l off
/-- Insert a value in offset order, or remove the entry when it holds the reset value. -/
def regInsert : List (Nat × Nat) → Nat → Nat → List (Nat × Nat)
  | [], off, v => if v = regReset off then [] else [(off, v)]
  | (o, w) :: l, off, v =>
    if off < o then (if v = regReset off then (o, w) :: l else (off, v) :: (o, w) :: l)
    else if off = o then (if v = regReset off then l else (off, v) :: l)
    else (o, w) :: regInsert l off v

/-- Read a management register. -/
def State.reg (s : State) (off : Nat) : Nat := (regFind s.mgmt off).getD (regReset off)
/-- Set a management register. -/
def State.setReg (s : State) (off v : Nat) : State := { s with mgmt := regInsert s.mgmt off v }
/-- Write the bits of a register that a mask makes writable (R4). -/
def State.regWrite (s : State) (off v mask : Nat) : State :=
  s.setReg off ((s.reg off &&& (ones 64 ^^^ (mask % 2 ^ 64))) ||| (v &&& mask))
/-- Add one to a 32-bit counter that saturates. -/
def State.regCount (s : State) (off : Nat) : State :=
  s.setReg off (min (2 ^ 32 - 1) (s.reg off + 1))

/-- A field of a value: bits `hi` down to `lo` replaced. -/
def setBits (v hi lo x : Nat) : Nat := v - bits v hi lo * 2 ^ lo + x % 2 ^ (hi + 1 - lo) * 2 ^ lo

/-- The package's own number (R40, R52). -/
def State.pkgNum (s : State) : Nat := bits (s.reg offPKGNUM) 9 0
/-- The cross-die time-out of a site, in ns (R36). -/
def State.xtoNs (s : State) (site : Site) : Nat := bits (s.reg (offLink site)) 23 0 * 1000

end Sys2Proof.Machine
end

