-- ==== Sys2Proof/Machine/Net.lean ====
section
/-! DEFINITION. Messages between sites: routes and links (R26, R28, R199), watermarks (R31 to R33),
tags and time-outs (R34, R35), and taking a message that has arrived. -/

namespace Sys2Proof.Machine

/-! ### Sites -/

def siteXY : Site → Nat × Nat
  | .die i => dieXY i
  | .tower j => towerXY j
/-- The site at a grid place (R9, R10). -/
def siteAt (p : Nat × Nat) : Site :=
  if (p.1 + p.2) % 2 = 0 then .die ((12 * p.2 + p.1) / 2) else .tower ((12 * p.2 + p.1) / 2)
def siteSheet (x : Site) : Nat := sheetOfXY (siteXY x)
/-- The number a site bears in an error record (R203). -/
def siteField : Site → Nat
  | .die i => i
  | .tower j => towerSite j
def siteInPanel : Site → Bool
  | .die i => decide (i < 72)
  | .tower j => decide (j < 72)

/-- Where a level of the directory hierarchy stands (R108). -/
def nodeSite : Node → Site
  | .l1 c => .die c.die
  | .hub d _ => .die d
  | .l2 d => .die d
  | .slice t => .tower t
  | .home t => .tower t

/-- One step of the fixed route: along x first, then along y (R26). -/
def nextHop (a d : Nat × Nat) : Nat × Nat :=
  if a.1 < d.1 then (a.1 + 1, a.2)
  else if d.1 < a.1 then (a.1 - 1, a.2)
  else if a.2 < d.2 then (a.1, a.2 + 1)
  else (a.1, a.2 - 1)

/-- The link between two neighbouring sites (R9). -/
def linkBetween : Site → Site → Option LinkId
  | .die i, .tower j => some ⟨i, j⟩
  | .tower j, .die i => some ⟨i, j⟩
  | _, _ => none
/-- Whether two sites are joined by one of the 264 links. -/
def linkInPanel (l : LinkId) : Bool :=
  decide (l.die < 72) && decide (l.tower < 72) &&
    let a := dieXY l.die
    let b := towerXY l.tower
    decide ((if a.1 < b.1 then b.1 - a.1 else a.1 - b.1) + (if a.2 < b.2 then b.2 - a.2 else a.2 - b.2) = 1)
/-- The state of a panel link. -/
def State.linkSt (s : State) (l : LinkId) : LinkSt :=
  match s.link.links.find? fun x => x.1 == l with
  | some x => x.2
  | none => .up 0
def State.setLinkSt (s : State) (l : LinkId) (x : LinkSt) : State :=
  let rest := s.link.links.filter fun y => y.1 != l
  { s with link := { s.link with links := if x = .up 0 then rest else rest ++ [(l, x)] } }

/-! ### Watermarks and time -/

def State.wm (s : State) (x : Site) : Nat :=
  match s.link.wms.find? fun p => p.1 == x with
  | some p => p.2
  | none => 0
def State.setWm (s : State) (x : Site) (v : Nat) : State :=
  let rest := s.link.wms.filter fun p => p.1 != x
  { s with link := { s.link with wms := if v = 0 then rest else rest ++ [(x, v)] } }
/-- A sheet's counter, and the counter of a site's sheet, in ns (R16). -/
def State.sheetNow (s : State) (sheet : Nat) : Nat := s.boot.time.getD sheet 0
def State.now (s : State) (x : Site) : Nat := s.sheetNow (siteSheet x)
/-- Whether a sheet runs (R22), and a site with it; a failed die does nothing more (R131). -/
def State.sheetRuns (s : State) (sheet : Nat) : Bool := !(s.boot.stopped.getD sheet false)
def State.siteRuns (s : State) (x : Site) : Bool :=
  s.sheetRuns (siteSheet x) && (match x with | .die i => !s.mem.failedDies.contains i | .tower _ => true)
/-- All four sheets have stopped (R205). -/
def State.frozen (s : State) : Bool := s.boot.stopped.toList.all (· == true)

/-! ### Fibres and routes (R38, R42) -/

/-- Fibre `f` of the package: port tower f / 4 in the order of R12, its first two fibres being transmit fibres. A
fibre with fewer than four working wavelengths is down (R39). -/
def State.fibreUp (s : State) (f : Nat) : Bool := s.link.fibres.any fun x => x.id == f && x.up && decide (4 ≤ x.waves)
/-- The transmit fibres that a packet toward a package may use (R42). -/
def State.fibresTo (s : State) (k : Nat) : List Nat :=
  if k = s.pkgNum then []
  else (List.range 16).flatMap fun p =>
    let e := s.reg (offRoute p k)
    if bit e 31 then (List.range 2).filterMap fun b => if bit e b && s.fibreUp (4 * p + b) then some (4 * p + b) else none
    else []

/-! ### Corrections (R198, R201) -/

/-- A unit corrects an error: the record, and whether it is the third correction within 1 s on the sheet's counter, which makes the
error lasting. Those that follow within the second are lasting too (DEDUCED, log entry 125). -/
def State.correct (s : State) (u : EccUnit) (site : Site) (tid addr : Nat) : Bool × State :=
  let now := s.now site
  let recent := s.link.fixes.filter fun f => f.1 == u && decide (now < f.2 + 1000000000)
  let lasting : Bool := decide (2 ≤ recent.length)
  let s := { s with link := { s.link with fixes := (s.link.fixes.filter fun (f : EccUnit × Nat) => f.1 != u) ++ recent ++ [(u, now)] } }
  (lasting, s.logAdd (if lasting then 0x02 else 0x01) (siteSheet site) (siteField site) tid addr 0 0)

/-! ### Packets (R38 to R42) -/

def State.fibre? (s : State) (f : Nat) : Option Fibre := s.link.fibres.find? fun x => x.id == f
def State.setFibre (s : State) (x : Fibre) : State :=
  { s with link := { s.link with fibres := s.link.fibres.map fun y => if y.id = x.id then x else y } }
/-- The hash bucket of a packet (R41): the hash, and the destination it is taken of. -/
def bucketOf (p : Packet) : Nat := Config.fibreHash p.cls p.dst (p.addr / 256) * 1024 + p.dst
/-- A fibre holds a flit of a bucket that has not been acknowledged. -/
def Fibre.holds (x : Fibre) (b : Nat) : Bool := x.flits.any fun y => bucketOf y.pkt == b
/-- The fibre a bucket is on is still owed an acknowledgement for it. -/
def State.bucketHeld (s : State) (b f : Nat) : Bool := s.link.fibres.any fun x => x.id == f && x.holds b
/-- The transmit fibre a packet leaves on (R41, R42): its bucket's, while the packet may use it or flits of the bucket on it have not
been acknowledged; otherwise the one that the hash chooses among those it may use. -/
def State.fibreFor (s : State) (p : Packet) : Option Nat :=
  let may := s.fibresTo p.dst
  let b := bucketOf p
  if may = [] then none
  else match s.link.buckets.find? fun x => x.1 == b with
  | some x => if may.contains x.2 || s.bucketHeld b x.2 then some x.2 else may[(b / 1024) % may.length]?
  | none => may[(b / 1024) % may.length]?
/-- Flits that a sender keeps for replay (R39). -/
def flitWindow : Nat := 512
/-- A packet is given to its fibre as one flit, which is sent while fewer than 512 wait to be acknowledged; `none` where no fibre leads
to its destination (R38, R39, R41, R42; log entry 127). -/
def State.sendPacket (s : State) (p : Packet) : Option State :=
  (s.fibreFor p).bind fun f => (s.fibre? f).map fun x =>
    let b := bucketOf p
    let s : State := { s with
      link := { s.link with buckets := (s.link.buckets.filter fun (y : Nat × Nat) => y.1 != b) ++ [(b, f)] }
      out := s.out ++ (if x.flits.length < flitWindow then [Output.packet f x.next p] else []) }
    s.setFibre { x with next := x.next + 1, flits := x.flits ++ [⟨x.next, p, 0, 0⟩] }
/-- The class of a message as a number, which the hash of R41 takes. -/
def MClass.number : MClass → Nat | .req => 0 | .fwd => 1 | .rsp => 2 | .wb => 3 | .bulk => 4 | .ctl => 5
/-- A packet of this package's own, on its first hop (R40). -/
def State.ownPacket (s : State) (cls : MClass) (dst addr : Nat) : Packet := ⟨cls.number, s.pkgNum, dst, addr, 1⟩

/-- Pool memory of another package is reached by packets to its lender (R40 to R43). -/
def State.toLender (s : State) (p : Place) (cls : MClass) : State :=
  if p.tier = 1 then (s.sendPacket (s.ownPacket cls (p.pa / 2 ^ 42) (p.pa % 2 ^ 42))).getD s else s
/-- The home's side of an access to a line: it enters the tower cache, or its lender is asked (R43, R186). -/
def State.touch (s : State) (p : Place) : State := ({ s with mem := s.mem.placeTouch p }).toLender p .req
/-- What another package that lends answers a request for a frame of one of its regions, by this package itself or by a host on one of
its ports: nothing, or a code. Where no route leads there or the lender does not answer, the request times out; a frame beyond the region
and a requester without a grant are refused, and so is a host on a deckled region (R42, R45 to R48; log entry 60). -/
def State.farCode (s : State) (pkg region frame : Nat) (port : Option Nat) : Option Nat :=
  if (s.fibresTo pkg).isEmpty then some cTIMEOUT
  else match s.link.lenders.find? fun x => x.pkg == pkg && x.region == region with
  | none => some cPROT
  | some x =>
    if x.answers = false then some cTIMEOUT
    else if frame < x.frames ∧ (match port with | none => x.granted | some p => x.ports.contains p && !x.deckled) = true then none
    else some cPROT

/-! ### MSI-X (R49, R67) -/

/-- Send an MSI-X message; a vector that is masked at its port is held pending (log entry 129). -/
def State.sendMsix (s : State) (port vec : Nat) : State :=
  if s.link.msixOpen.contains (port, vec) then { s with out := s.out ++ [.msix port vec] }
  else if s.link.msixPending.contains (port, vec) then s
  else { s with link := { s.link with msixPending := s.link.msixPending ++ [(port, vec)] } }
/-- A host masks or unmasks a vector; one that is pending is sent when it is unmasked. -/
def State.maskVector (s : State) (port vec : Nat) (masked : Bool) : State :=
  let l := s.link
  if masked then { s with link := { l with msixOpen := l.msixOpen.filter fun v => v != (port, vec) } }
  else
    let s : State := { s with link := { l with
      msixOpen := if l.msixOpen.contains (port, vec) then l.msixOpen else l.msixOpen ++ [(port, vec)]
      msixPending := l.msixPending.filter fun v => v != (port, vec) } }
    if l.msixPending.contains (port, vec) then { s with out := s.out ++ [.msix port vec] } else s

/-! ### Sending -/

def State.mapMem (s : State) (f : MemState → MemState) : State := { s with mem := f s.mem }

/-- A failed die (R131). -/
def State.dieFailed (s : State) (x : Site) : Bool := match x with | .die i => s.mem.failedDies.contains i | .tower _ => false
/-- Put a message on its way; a message within one site has arrived at once. -/
def State.sendMsg (s : State) (m : Msg) : State := s.mapMem fun x => { x with net := x.net ++ [m] }
/-- A message that no response answers. -/
def State.send (s : State) (cls : MClass) (src dst : Site) (body : Body) : State :=
  s.sendMsg ⟨cls, src, dst, src, 0, s.wm src, s.wm dst, body⟩
/-- A request: between two sites it bears a tag and is timed from when it leaves (R31, R33 to R35). -/
def State.request (s : State) (cls : MClass) (src dst : Site) (body : Body) : State :=
  if src = dst then s.send cls src dst body
  else
    let tag := s.mem.nextTag
    (s.sendMsg ⟨cls, src, dst, src, tag, s.wm src, s.wm dst, body⟩).mapMem fun x =>
      { x with nextTag := tag + 1, reqs := x.reqs ++ [⟨src, tag, dst, s.wm dst, none, s.xtoNs src, body⟩] }
/-- The response to a request or to a message of a parent: it echoes the tag and the sender's watermark (R31). -/
def State.respond (s : State) (m : Msg) (cls : MClass) (body : Body) : State :=
  s.sendMsg ⟨cls, m.dst, m.src, m.dst, m.tag, m.reqWm, s.wm m.dst, body⟩

/-- An owner's data goes to the requester of a read itself, with the watermark of its site (R31, R110, R382); where that die has
failed, to the level that asked for it. -/
def State.sendOwned (s : State) (m : Msg) (site : Site) (body : Body) : State :=
  let site := if s.dieFailed site then m.src else site
  s.sendMsg ⟨.rsp, m.dst, site, m.dst, 0, s.wm site, s.wm m.dst, body⟩
/-- A message goes on to another level with what it bears of its sender, whom the last level answers. -/
def State.passOn (s : State) (m : Msg) (dst : Site) (body : Body) : State :=
  s.sendMsg { m with at' := m.dst, dst := dst, body := body }
/-- A message leaves its sender's router: the request it bears is timed from now on (R34). -/
def MemState.departed (x : MemState) (m : Msg) (now : Nat) : MemState :=
  { x with reqs := x.reqs.map fun r =>
      if r.tag = m.tag ∧ r.site = m.src ∧ r.sentAt = none then { r with sentAt := some now } else r }

/-! ### Bulk data (R27, R34) -/

/-- Copy data, row data and record pulls whose request is no longer outstanding is dropped. -/
def MemState.sweep (x : MemState) : MemState :=
  let dead (m : Msg) : Bool := !(x.reqs.any fun r => r.site == m.src && r.tag == m.tag)
  { x with net := x.net.filter fun m => match m.body with
      | .copyUnit _ _ _ => !dead m
      | .rowData _ _ => !dead m
      | .recordRead _ => !dead m
      | _ => true }
/-- How data that crosses the fabric stands. -/
inductive Wire
  | arrived (s : State)
  | away
  | sent (s : State)
/-- Bulk data between two sites: it is sent, is on its way, or has arrived, which ends its request. -/
def State.bulk (s : State) (src dst : Site) (body : Body) : Wire :=
  let s := s.mapMem fun x => x.sweep
  match s.mem.net.find? fun m => m.body == body with
  | none => .sent (s.request .bulk src dst body)
  | some m =>
    if m.at' ≠ m.dst ∨ s.siteRuns m.dst = false then .away
    else .arrived (s.mapMem fun x => { x with
      net := x.net.erase m, reqs := x.reqs.filter fun r => !(r.site == m.src && r.tag == m.tag) })

/-! ### Taking a message -/

/-- The levels that data moves between, and its line. -/
def Body.hop : Body → Option (Node × Node × LineId)
  | .data a f n _ _ _ => some (f, n, a)
  | .dataX a f n _ _ _ _ _ => some (f, n, a)
  | _ => none
/-- One message follows another: both are of one class and go from one site to another (R28), or both are data of a line that goes
from one level to another, within a site too. -/
def Msg.follows (m e : Msg) : Bool :=
  (e.cls == m.cls && e.src == m.src && e.dst == m.dst && m.src != m.dst) || (m.body.hop.isSome && e.body.hop == m.body.hop)
/-- Message `k` has arrived, none that it follows is ahead of it, and its site runs: the message, and the state without it. -/
def State.takeMsg (s : State) (k : Nat) : Option (Msg × State) :=
  match s.mem.net[k]? with
  | some m =>
    if m.at' = m.dst ∧ s.siteRuns m.dst = true ∧
        ((s.mem.net.take k).all fun e => !m.follows e) = true then
      some (m, s.mapMem fun x => { x with net := x.net.eraseIdx k })
    else none
  | none => none

/-- An event that takes message `k`: while the message is not there to take, or `f` does not take it yet, it stays where
it is. -/
def onMsg (k : Nat) (s : State) (f : Msg → State → Option State) : Out :=
  s.happens ((s.takeMsg k).bind fun p => f p.1 p.2)

/-- An operation that a message asks for has begun and goes on later: the message stands where it stood. -/
def State.putBack (s : State) (k : Nat) (m : Msg) : State := s.mapMem fun x => { x with net := x.net.insertIdx k m }

/-- The response's check at its requester (R32, R35): stale and late responses are dropped and counted;
an accepted one ends its request. -/
def State.accept (s : State) (m : Msg) : Bool × State :=
  if s.wm m.dst ≠ m.reqWm then (false, s.regCount (offLink m.dst + 4))
  else if m.tag = 0 then (true, s)
  else if s.mem.reqs.any fun r => r.site == m.dst && r.tag == m.tag then
    (true, s.mapMem fun x => { x with reqs := x.reqs.filter fun r => !(r.site == m.dst && r.tag == m.tag) })
  else (false, s.regCount (offLink m.dst + 8))

end Sys2Proof.Machine
end

