-- ==== Sys2Proof/Machine/Cache.lean ====
section
/-! DEFINITION. The cache levels: which level is whose parent (R108), entries for lines, what a home
would read on a line with every registered write in it (R151), and removing copies. -/

namespace Sys2Proof.Machine

/-! ### The hierarchy -/

/-- Towers of a sheet in index order; the slice of a line is one of them (R108). -/
def sheetTowers (sheet : Nat) : List Nat := (List.range 72).filter fun j => towerSheet j == sheet
def sliceOf (sheet line : Nat) : Nat := (sheetTowers sheet).getD (line % 18) 0

/-- The compute die a level stands on, for the levels that stand on one. -/
def nodeDie : Node → Option Nat
  | .l1 c => some c.die
  | .hub d _ => some d
  | .l2 d => some d
  | _ => none
/-- The parent of a level for a line, within the sheet; the parent of a slice is the line's home. -/
def nodeParent (n : Node) (a : LineId) (home : Nat) : Node :=
  match n with
  | .l1 c => .hub c.die c.cluster
  | .hub d _ => .l2 d
  | .l2 d => .slice (sliceOf (dieSheet d) a.line)
  | .slice _ => .home home
  | .home t => .home t
/-- How far up a level stands: 0 for an L1, 4 for a home. -/
def nodeDepth : Node → Nat
  | .l1 _ => 0 | .hub _ _ => 1 | .l2 _ => 2 | .slice _ => 3 | .home _ => 4

/-- Find the home of a VA in a copy of the home region table (R113, R114): the lowest-numbered entry that
matches. Entries whose V is 0 have a zero byte 3, or one below 0x80, and never match. -/
def homeLookup (m : Mem) (base asid va : Nat) : Option Nat :=
  (m.filter fun c => decide (base ≤ c.1) && decide (c.1 < base + 0x10000) && (c.1 - base) % 16 == 3).findSome?
    fun c =>
      let e := m.nat (c.1 - 3) 16
      let g := bits va 56 26
      if bit e 31 && bits e 79 64 == asid && decide (bits e 30 0 ≤ g) && decide (g ≤ bits e 62 32) &&
          decide (bits e 91 88 ≤ 6) && decide (bits e 87 80 ≤ 71) then
        some ((bits e 87 80 + bits e 103 96 * ((g - bits e 30 0) % 2 ^ bits e 91 88)) % 72)
      else none
/-- A die's copy of the table lies in its scratchpad (R100); a tower's copy in its base (R188). -/
def MemState.dieHome (x : MemState) (die asid va : Nat) : Option Nat :=
  homeLookup x.dieSp (die * 2 ^ 24 + 0xF00000) asid va
def MemState.towerHome (x : MemState) (tower asid va : Nat) : Option Nat :=
  homeLookup x.towerTab (tower * 2 ^ 16) asid va

/-! ### Entries -/

def MemState.line? (x : MemState) (n : Node) (a : LineId) : Option Line :=
  x.lines.find? fun l => l.node == n && l.a == a
def MemState.dropLine (x : MemState) (n : Node) (a : LineId) : MemState :=
  { x with lines := x.lines.filter fun l => !(l.node == n && l.a == a) }
def MemState.setLine (x : MemState) (l : Line) : MemState :=
  if (x.line? l.node l.a).isSome then
    { x with lines := x.lines.map fun h => if h.node = l.node ∧ h.a = l.a then l else h }
  else { x with lines := x.lines ++ [l] }
def LState.owner : LState → Bool | .m => true | .o => true | _ => false
/-- A level's children that hold a line as owner, and the others. -/
def Line.owners (l : Line) : List Kid := l.kids.filter fun k => k.st.owner
def Line.sharers (l : Line) : List Kid := l.kids.filter fun k => !k.st.owner
def Line.setKid (l : Line) (n : Node) (a : LineId) (st : LState) : Line :=
  { l with kids := (l.kids.filter fun k => !(k.node == n && k.a == a)) ++ [⟨n, a, st⟩] }
def Line.dropKid (l : Line) (n : Node) : Line := { l with kids := l.kids.filter fun k => k.node != n }

/-- A home's directory entry for a line, if it has one. -/
def MemState.homeEntry (x : MemState) (p : Place) : Option Line := x.line? (.home p.tower) p.key

/-! ### What a home reads (R151, R192, R414) -/

/-- The dirty nibbles that a subtree holds as registered owner: a level's own, and over them those of
the child it records as owner. -/
def MemState.gather (x : MemState) : Nat → Node → LineId → BitVec 2048 × BitVec 2048
  | 0, _, _ => (0, 0)
  | fuel + 1, n, a =>
    match x.line? n a with
    | none => (0, 0)
    | some l => l.owners.foldl (fun acc k =>
        let r := x.gather fuel k.node k.a
        (lineMerge acc.1 r.1 r.2, acc.2 ||| r.2)) (l.val, l.dirty)
/-- Nibbles that a message carries toward the home. -/
def Body.nibbles : Body → Option (LineId × BitVec 2048 × BitVec 2048)
  | .dataX a _ _ _ val _ dirty _ => some (a, val, dirty)
  | .invAck a _ _ val mask => some (a, val, mask)
  | .wbDirty a _ val mask _ _ => some (a, val, mask)
  | _ => none
/-- The newest registered value of a line: the home's copy with every registered dirty nibble in it, those that
are moving between levels or toward the home among them. -/
def MemState.newest (x : MemState) (p : Place) : BitVec 2048 :=
  let base := x.placeLine p
  match x.homeEntry p with
  | none => base
  | some l =>
    let v := l.owners.foldl (fun acc k =>
      let r := x.gather 4 k.node k.a
      lineMerge acc r.1 r.2) base
    let named (a : LineId) : Bool := l.kids.any fun k => k.a == a
    let v := x.txns.foldl (fun acc t => if named t.a then lineMerge acc t.val t.dirty else acc) v
    x.net.foldl (fun acc m => match m.body.nibbles with
      | some (a, w, k) => if named a then lineMerge acc w k else acc
      | none => acc) v

/-- The 64-byte line of a 256-byte one that holds an address (R102). -/
def sectorOf (val : BitVec 2048) (va : Nat) : BitVec 512 := val.extractLsb' (512 * (va / 64 % 4)) 512

/-! ### Removing copies -/

/-- An L2 includes the instruction lines of its die's L1s: with a line of the L2 they go (R103). -/
def State.dropText (s : State) (die : Nat) (a : LineId) : State :=
  { s with cores := s.cores.map fun k => if k.id.die = die then
      { k with icache := k.icache.filter fun l => !(l.asid == a.asid && l.line / 4 == a.line) } else k }
/-- A level gives a line up. -/
def State.dropNode (s : State) (n : Node) (a : LineId) : State :=
  let s := s.mapMem fun x => x.dropLine n a
  match n with
  | .l2 d => s.dropText d a
  | _ => s
/-- The wait of a wfa on a core's copy of a line ends: the copy was written, or filled anew (R343). -/
def State.endWfa (s : State) (mine : CoreId → LineId → Bool) : State :=
  { s with groups := s.groups.map fun g => match g.wait, s.team? g.id.tid g.id.team with
      | some (.wfa a v _), some t => if mine t.core a then { g with wait := some (.wfa a v 0) } else g
      | _, _ => g }

/-- Send Inv to a child (R110). -/
def State.sendInv (s : State) (par : Node) (k : Kid) : State :=
  s.send .fwd (nodeSite par) (nodeSite k.node) (.inv k.a k.node par)

/-- The nibbles of a line that a level's transactions hold while they wait for its parent, with those among them that are dirty, and
those that come from copies in W: the level gave them up for a child, and they are its own until it is answered. -/
def MemState.heldUp (x : MemState) (n : Node) (a : LineId) : BitVec 2048 × BitVec 2048 × BitVec 2048 × BitVec 2048 :=
  x.txns.foldl (fun acc t => if t.node = n ∧ t.a = a ∧ t.up = true then
    (lineMerge acc.1 t.val t.mask, acc.2.1 ||| t.mask, acc.2.2.1 ||| t.dirty, acc.2.2.2 ||| t.loose) else acc) (0, 0, 0, 0)
/-- Those transactions hold nothing any more. -/
def MemState.emptyUp (x : MemState) (n : Node) (a : LineId) : MemState :=
  { x with txns := x.txns.map fun t =>
      if t.node = n ∧ t.a = a ∧ t.up = true then { t with val := 0, mask := 0, dirty := 0, loose := 0 } else t }

/-- A child that gives a line up when it is taken out of its parent: an owner, or one among `also`. -/
def Kid.yields (also : Node → Bool) (k : Kid) : Bool := k.st.owner || also k.node
/-- Take a line out of a subtree that owns it: every owner's entry is removed and its dirty nibbles are
gathered, and every other child is sent Inv (Recall; R110, R414). A child among `also` is taken too. -/
def State.pull (also : Node → Bool) : Nat → Node → LineId → State → BitVec 2048 × BitVec 2048 × State
  | 0, _, _, s => (0, 0, s)
  | fuel + 1, n, a, s =>
    match s.mem.line? n a with
    | none => (0, 0, s)
    | some l =>
      let up := s.mem.heldUp n a
      let s := (s.dropNode n a).mapMem fun x => x.emptyUp n a
      let r := (l.owners ++ l.sharers).foldl (fun acc k =>
        if k.yields also then
          let r := State.pull also fuel k.node k.a acc.2.2
          (lineMerge acc.1 r.1 r.2.1, acc.2.1 ||| r.2.1, r.2.2)
        else (acc.1, acc.2.1, acc.2.2.sendInv n k)) (l.val, l.dirty, s)
      (lineMerge r.1 up.1 up.2.2.1, r.2.1 ||| up.2.2.1, r.2.2)

/-- Tell some borrowers to give up the lines they have registered: another package, or a host of one, by a message; a host on a port of this
package by a Back-Invalidate, which it answers (R44, R108, R112). -/
def State.callBack (s : State) (p : Borrow → Bool) : State :=
  let gone := s.mem.borrowed.filter p
  let s := s.mapMem fun x => { x with borrowed := x.borrowed.filter fun b => !p b }
  gone.foldl (fun s b => match b.who with
    | .host k port =>
      if k = s.pkgNum then
        { s with out := s.out ++ [Output.backInvalidate port]
                 mem := { s.mem with backInv := if s.mem.backInv.contains port then s.mem.backInv else s.mem.backInv ++ [port] } }
      else { s with out := s.out ++ [Output.recall b.who b.tower b.line] }
    | w => { s with out := s.out ++ [Output.recall w b.tower b.line] }) s
/-- Every borrower of a line of a tower. -/
def State.callBorrowers (s : State) (p : Place) : State :=
  if p.tier = 0 then s.callBack fun b => b.tower == p.tower && b.line == p.pa / 256 else s

/-- Before the home writes a line: it recalls every owner, writing the returned nibbles first, and sends
Inv to every other recorded holder, borrowers among them, for which it does not wait (R108, R414). -/
def State.homeTake (s : State) (p : Place) (also : Node → Bool) : State :=
  let s := s.callBorrowers p
  match s.mem.homeEntry p with
  | none => s
  | some l =>
    let s := s.mapMem fun x => x.dropLine l.node l.a
    (l.owners ++ l.sharers).foldl (fun s k =>
      if k.yields also then
        let r := State.pull also 4 k.node k.a s
        r.2.2.mapMem fun x => x.placeWrite p r.1 r.2.1
      else s.sendInv l.node k) s
/-- The same, taking nothing from a copy that is not registered. -/
def State.homeClear (s : State) (p : Place) : State := s.homeTake p fun _ => false
/-- A write-back of a line is on its way home. -/
def MemState.wbPending (x : MemState) (a : LineId) : Bool :=
  x.net.any fun m => match m.body with | .wbDirty b _ _ _ _ _ => b == a | _ => false
/-- Nothing moves between levels for a line but requests, which wait for their answers, and write-backs. -/
def State.lineStill (s : State) (a : LineId) : Bool :=
  !(s.mem.txns.any fun t => t.a == a && !t.up) &&
  !(s.mem.net.any fun m => match m.body with
    | .inv b _ _ => b == a
    | .fwdS b _ _ => b == a | .fwdX b _ _ => b == a | .recall b _ _ => b == a | .data b _ _ _ _ _ => b == a
    | .dataX b _ _ _ _ _ _ _ => b == a | .invAck b _ _ _ _ => b == a | _ => false)

/-- No write-back of a line is in flight either. -/
def State.lineQuiet (s : State) (a : LineId) : Bool := !s.mem.wbPending a && s.lineStill a
/-- A home has no transaction open on a physical line. -/
def State.homeFree (s : State) (p : Place) : Bool :=
  !(s.mem.txns.any fun t => match t.node, t.attr with | .home _, some v => v.place == p | _, _ => false)
/-- Nothing is in flight for a physical line: its home has no transaction open, and no message moves for a line
under which a copy is recorded. -/
def State.homeQuiet (s : State) (p : Place) : Bool :=
  s.homeFree p && (match s.mem.homeEntry p with | some l => l.kids.all fun k => s.lineQuiet k.a | none => true)

/-- A write by the home while requests for the line are in flight: it stands at once in the home and in every copy,
so that none is older than it. Nibbles that a copy holds in W, not registered, stand later (R414). -/
def State.homeSpread (s : State) (p : Place) (val mask : BitVec 2048) : State :=
  let names : List LineId := match s.mem.homeEntry p with | some l => l.kids.map fun k => k.a | none => []
  let mine : Attr → Bool := fun v => v.place == p && !v.dk
  let s := (s.callBorrowers p).endWfa fun c a => match s.mem.line? (.l1 c) a with | some l => mine l.attr | none => false
  s.mapMem fun x =>
    let x := x.placeWrite p val mask
    { x with
      lines := x.lines.map fun l =>
        if mine l.attr then { l with val := lineMerge l.val val (if l.st = .w then mask &&& ~~~l.dirty else mask) } else l
      txns := x.txns.map fun t =>
        if (match t.attr with | some v => mine v | none => names.contains t.a) then { t with val := lineMerge t.val val (mask &&& ~~~t.loose) } else t
      net := x.net.map fun m => match m.body with
        | .data a f n r v at' => if mine at' then { m with body := .data a f n r (lineMerge v val mask) at' } else m
        | .dataX a f n r v k d at' => if mine at' then { m with body := .dataX a f n r (lineMerge v val mask) k d at' } else m
        | .wbDirty a n v k false o => if names.contains a then { m with body := .wbDirty a n (lineMerge v val mask) k false o } else m
        | _ => m }

/-- A write with nibble enables by the home itself (R414, R104). -/
def State.homeWrite (s : State) (p : Place) (val mask : BitVec 2048) : State :=
  if s.homeQuiet p then (s.homeClear p).mapMem fun x => x.placeWrite p val mask
  else s.homeSpread p val mask

/-! ### What is in flight for a line -/

/-- The line, the level that asks and the request of a message from a child to its parent. -/
def Body.child : Body → Option (LineId × Node × Req)
  | .getS a k r => some (a, k, r)
  | .getX a k r => some (a, k, r)
  | .upgr a k r => some (a, k, r)
  | _ => none
/-- A level has a request for a line in flight. -/
def MemState.asking (x : MemState) (n : Node) (a : LineId) : Bool :=
  let f : Body → Bool := fun b => match b.child with | some (a', k, _) => a' == a && k == n | none => false
  (x.net.any fun m => f m.body) || (x.txns.any fun t => f t.msg.body)
/-- A message from a parent to a level about a line is in flight. -/
def MemState.fwdPending (x : MemState) (n : Node) (a : LineId) : Bool :=
  x.net.any fun m => match m.body with
    | .inv b k _ => b == a && k == n
    | .fwdS b k _ => b == a && k == n
    | .fwdX b k _ => b == a && k == n
    | .recall b k _ => b == a && k == n
    | .data b _ k _ _ _ => b == a && k == n
    | .dataX b _ k _ _ _ _ _ => b == a && k == n
    | _ => false
/-- The transactions of a level on a line. -/
def MemState.txnsAt (x : MemState) (n : Node) (a : LineId) : List Txn :=
  x.txns.filter fun t => t.node == n && t.a == a
def MemState.dropTxn (x : MemState) (t : Txn) : MemState := { x with txns := x.txns.erase t }
def MemState.setTxn (x : MemState) (t t' : Txn) : MemState :=
  { x with txns := x.txns.map fun u => if u = t then t' else u }

/-! ### Attributes (R103) -/

/-- The code an access meets against the attributes of a line; `none` when it is allowed (R121). -/
def Attr.refuses (at' : Attr) (acc : Acc) (priv : Bool) : Option Nat :=
  let store := match acc with | .write => true | .atomic => true | .red => true | .copyDst => true | _ => false
  if at'.p && !priv then some cPROT
  else if store && !at'.w then some cPROT
  else if acc = .fetch ∧ at'.x = false then some cPROT
  else none

/-! ### Codes (R84, R176) -/

/-- Place of a lane code in the order of R176. -/
def codeRank (c : Nat) : Nat :=
  if c = cALIGN then 0 else if c = cSPACE then 1 else if c = cNOHOME then 2 else if c = cPROT then 3
  else if c = cDECKLE then 4 else if c = cLOSTLINE then 5 else if c = cTRANSL then 6 else 7

/-- The rights an access to a deckled page needs (R84): read, write. -/
def Acc.rights : Acc → Bool × Bool
  | .read => (true, false) | .copySrc => (true, false) | .write => (false, true) | .copyDst => (false, true)
  | .red => (false, true) | .atomic => (true, true) | _ => (false, false)

/-- Some deckle of the task covers every byte touched and gives the rights the access needs. -/
def Task.declares (k : Task) (va bytes : Nat) (r w : Bool) : Bool :=
  k.deckles.any fun d => decide (d.base ≤ va) && decide (va + bytes ≤ d.base + d.extent) && (!r || d.r) && (!w || d.w)

end Sys2Proof.Machine
end

