-- ==== Sys2Proof/Machine/CopyRows.lean ====
section
/-! DEFINITION. The rows and units of a copy, from its descriptor (R320, R322, R323), its status word (R169),
and the destination lines that it holds (R149). -/

namespace Sys2Proof.Machine

/-- A copy descriptor (R320). -/
structure Desc where
  saddr : Nat
  daddr : Nat
  rowb : Nat
  rows : Nat
  sstr : Nat
  dstr : Nat
  deriving DecidableEq, Repr

def Desc.ofBytes (b : List (BitVec 8)) : Desc :=
  let f (o n : Nat) : Nat := leNat ((b.drop o).take n)
  ⟨f 0 8, f 8 8, f 0x10 4, f 0x14 4, f 0x18 4, f 0x1C 4⟩

/-- sg of a 32-bit and of a 64-bit value. -/
def sg32 (x : Nat) : Int := (BitVec.ofNat 32 x).toInt
def sg64 (x : Nat) : Int := (BitVec.ofNat 64 x).toInt

/-- Units of a row, and of the copy (R320). -/
def Desc.perRow (d : Desc) : Nat := (d.rowb + 255) / 256
def Desc.units (d : Desc) : Nat := d.rows * d.perRow

def Copy.descr (c : Copy) : Desc := Desc.ofBytes c.desc
/-- Start of row `r` in the source; a gather's index is the one read when the row began (R322). -/
def Copy.srcRow (c : Copy) (r : Nat) : Int :=
  let d := c.descr
  match c.op with
  | .cpyg => sg64 d.saddr + sg32 (c.index.headD 0)
  | _ => sg64 d.saddr + r * sg32 d.sstr
/-- Start of row `r` in the destination; a multicast's is relative to each receiver's SPBASE (R322, R323). -/
def Copy.dstRow (c : Copy) (r : Nat) : Int :=
  let d := c.descr
  match c.op with
  | .cpys => sg64 d.daddr + sg32 (c.index.getD r 0)
  | .cpym => sg64 d.daddr + r * (d.rowb : Int)
  | _ => sg64 d.daddr + r * sg32 d.dstr
/-- Row, offset in the row, and length of unit `n`. -/
def Copy.unit (c : Copy) (n : Nat) : Nat × Nat × Nat :=
  let d := c.descr
  let off := n % d.perRow * 256
  (n / d.perRow, off, min 256 (d.rowb - off))
/-- Every row with the units from `n` on: its number, and the bytes of it still to be moved. -/
def Copy.rowsFrom (c : Copy) (n : Nat) : List (Nat × Nat × Nat) :=
  let d := c.descr
  ((List.range d.rows).drop (n / d.perRow)).map fun r =>
    let off := if r = n / d.perRow then n % d.perRow * 256 else 0
    (r, off, d.rowb - off)

/-- The status word (R169). -/
def Copy.status (c : Copy) : W64 :=
  let base := match c.state with
    | .done => 2 ^ 31
    | .err => 2 ^ 30 + c.code * 2 ^ 24
    | _ => 0
  BitVec.ofNat 64 (base + c.units)

/-- A copy that is not DONE or ERR owns its status scalar (R165, R169), and a row of its coherent destination
that it has not written is not accessed by anyone else (R149); the words of an mred are reductions at the home,
which others may interleave with (R324). -/
def Copy.holds (c : Copy) (line : Nat) : Bool :=
  c.pending && c.dstsp == 0 && c.op != .mred &&
    ((c.rowsFrom c.units).any fun r =>
      let a := c.dstRow r.1 + r.2.1
      decide (a < ((line + 1) * 256 : Nat)) && decide (((line * 256 : Nat) : Int) < a + r.2.2))
/-- The lines of its global destination that a copy has still to write (R149). -/
def Copy.linesLeft (c : Copy) : List Nat :=
  if c.pending && c.dstsp == 0 && c.op != .mred then
    (c.rowsFrom c.units).flatMap fun r =>
      let a := (BitVec.ofInt 64 (c.dstRow r.1 + r.2.1)).toNat
      if r.2.2 = 0 then [] else (List.range ((a + r.2.2 - 1) / 256 + 1 - a / 256)).map fun i => a / 256 + i
  else []

end Sys2Proof.Machine
end

