-- ==== Sys2Proof/Machine/Translate.lean ====
section
/-! DEFINITION. Translation at a home tower: page tables and the walk (R117 to R122), the A and D bits
(R123), pool handles (R44, R45), and the tower's TLB (R116). -/

namespace Sys2Proof.Machine

/-! ### Page-table entries (R119, R120) -/

def pteV (e : Nat) : Bool := bit e 0
def pteW (e : Nat) : Bool := bit e 1
def pteX (e : Nat) : Bool := bit e 2
def pteA (e : Nat) : Bool := bit e 3
def pteD (e : Nat) : Bool := bit e 4
def pteDK (e : Nat) : Bool := bit e 5
def pteRun (e : Nat) : Bool := bit e 6
def pteTier (e : Nat) : Nat := bits e 8 7
def pteP (e : Nat) : Bool := bit e 9
def pteLeaf (e : Nat) : Bool := bit e 10
def ptePort (e : Nat) : Nat := bits e 12 11
def pteNode (e : Nat) : Nat := bits e 15 13
def pteFrame (e : Nat) : Nat := bits e 51 16

/-- A VA is canonical: bits [63:57] equal bit 56 (R118). -/
def canonical (va : Nat) : Bool := bits va 63 56 == 0 || bits va 63 56 == 0xFF

/-- A tier-00 frame field names a frame that exists (R120). -/
def frameOk (f : Nat) : Bool := decide (bits f 19 0 < towerFrames) && decide (bits f 26 20 < 72) && bits f 35 27 == 0
/-- The tower, and the physical address, of a tier-00 frame field. -/
def frameTower (f : Nat) : Nat := bits f 26 20
def framePa (f : Nat) : Nat := bits f 19 0 * 65536

/-- What a walk finds: a leaf with its level and where the entry lies, or a translation fault. -/
inductive Walk
  | leaf (pte level tower pa : Nat)
  | bad
  deriving DecidableEq, Repr

/-- Read 8 bytes of tower memory as a walker reads them: the newest registered value (R116). -/
def MemState.readTower (x : MemState) (tower pa n : Nat) : Nat :=
  lineNat (x.newest ⟨0, tower, pa / 256 * 256⟩) (pa % 256) n

/-- A table entry: the bits other than V, LEAF, NODE and the frame are zero, and the frame exists. -/
def tableOk (e : Nat) : Bool :=
  bits e 63 52 == 0 && bits e 12 11 == 0 && bits e 9 1 == 0 && frameOk (pteFrame e)
/-- A leaf's own rules (R120, R121). -/
def leafOk (e level : Nat) : Bool :=
  bits e 63 52 == 0 && pteNode e == 0 && (pteTier e == 2 || ptePort e == 0) && pteTier e != 3 &&
  !(pteTier e == 2 && pteDK e) && (level == 1 || !pteRun e) &&
  (pteTier e != 0 || frameOk (pteFrame e)) &&
  (level == 1 ||
    (pteTier e != 1 &&
      (level != 2 || (pteFrame e % 1024 == 0 && (pteTier e != 0 || decide (bits (pteFrame e) 19 0 + 1024 ≤ towerFrames)))) &&
      (level != 3 || (pteFrame e % 2 ^ 20 == 0 && pteTier e == 2))))

/-- Walk one level down from a node at (tower, pa). -/
def walkLevel (x : MemState) (va : Nat) : Nat → Nat → Nat → Walk
  | 0, _, _ => .bad
  | 1, tower, pa =>
    let at1 := pa + 8 * bits va 25 16
    let e := x.readTower tower at1 8
    if pteV e && leafOk e 1 then .leaf e 1 tower at1 else .bad
  | level + 1, tower, pa =>
    let idx := match level + 1 with | 4 => bits va 56 46 | 3 => bits va 45 36 | _ => bits va 35 26
    let atE := pa + 8 * idx
    let e := x.readTower tower atE 8
    if !pteV e then .bad
    else if pteLeaf e then (if level + 1 < 4 && leafOk e (level + 1) then .leaf e (level + 1) tower atE else .bad)
    else if tableOk e then walkLevel x va level (frameTower (pteFrame e)) (framePa (pteFrame e) + 8192 * pteNode e)
    else .bad

/-- The walk from the root-table entry of the ASID (R116 to R118, R121). -/
def State.walk (s : State) (asid va : Nat) : Walk :=
  if !canonical va then .bad
  else
    let root := s.reg offROOTBASE
    let e := s.mem.readTower (bits root 46 40) (bits root 35 19 * 2 ^ 19 + 8 * asid) 8
    let f := bits e 42 16
    if bit e 0 && bits e 13 1 == 0 && bits e 63 43 == 0 && frameOk f then
      walkLevel s.mem va 4 (frameTower f) (framePa f + 16384 * bits e 15 14)
    else .bad

/-! ### Where a leaf maps a page -/

/-- A loan region's grant to a package (R44). -/
def State.granted (s : State) (r : Nat) (host : Bool) (pkg port : Nat) : Bool :=
  (List.range 16).any fun g =>
    let v := s.reg (offLGrant r g)
    bit v 63 && bit v 62 == host && bits v 49 40 == pkg && bits v 1 0 == (if host then port else 0)
/-- A lent byte of this package: its place, when the region is lent, holds the byte, and is granted
(R43 to R45). -/
def State.loanPlace (s : State) (r off : Nat) (host : Bool) (pkg port : Nat) : Option Place :=
  let v := s.reg (offLoan r)
  if r < 1024 ∧ bit v 63 = true ∧ off < (bits v 5 0 + 1) * 2 ^ 26 ∧ s.granted r host pkg port = true then
    some ⟨0, bits v 54 48, bits v 35 26 * 2 ^ 26 + off⟩
  else none

/-- The place of a VA under a frame field of a tier; `none` when the lender refuses it (R45). -/
def State.leafPlace (s : State) (e frame va : Nat) : Option Place :=
  match pteTier e with
  | 0 => some ⟨0, frameTower frame, framePa frame + va % 65536⟩
  | 1 =>
    if bits frame 35 26 = s.pkgNum then s.loanPlace (bits frame 25 16) (bits frame 15 0 * 65536 + va % 65536) false s.pkgNum 0
    else some ⟨1, 0, frame * 65536 + va % 65536⟩
  | _ => some ⟨2, 0, ptePort e * 2 ^ 64 + frame * 65536 + va % 65536⟩

/-- Where the page tables now map a VA, and whether the page is deckled. -/
def State.placeAt (s : State) (asid va : Nat) : Option (Place × Bool) :=
  match s.walk asid va with
  | .leaf e level _ _ =>
    let page := bits va 56 16
    let inner := match level with | 2 => page % 1024 | 3 => page % 2 ^ 20 | _ => 0
    (s.leafPlace e (pteFrame e + inner) va).map fun p => (p, pteDK e)
  | .bad => none
/-- Where they map it, when the page is coherent. -/
def State.coherentAt (s : State) (asid va : Nat) : Option Place :=
  match s.placeAt asid va with
  | some (p, false) => some p
  | _ => none
/-- A copy has taken a coherent line exclusive, and has not written it yet: whatever VA names the line, an access to it
waits (R149). -/
def State.copyHolds (s : State) (p : Place) : Bool :=
  s.cores.any fun k => k.cq.any fun c => match s.task? c.g.tid with
    | some t => c.linesLeft.any fun l => (match s.coherentAt t.asid (l * 256) with
        | some q => q.tier == p.tier && q.pa == p.pa && (p.tier != 0 || q.tower == p.tower)
        | none => false)
    | none => false

/-! ### The TLB (R116, R122) -/

def TlbEntry.covers (t : TlbEntry) (tower asid page : Nat) : Bool :=
  t.tower == tower && t.asid == asid && decide (t.page ≤ page) && decide (page < t.page + t.pages)
def MemState.tlb? (x : MemState) (tower asid page : Nat) : Option TlbEntry :=
  x.tlb.find? fun t => t.covers tower asid page
/-- Whether an access writes. -/
def Acc.writes : Acc → Bool
  | .write => true | .atomic => true | .red => true | .copyDst => true | .writeback => true | _ => false
/-- The entry records A, and for a write D, for the page, so the access needs no walk (R123, R124): a run keeps them page by page, a
block's one leaf for all of its pages (R122). -/
def TlbEntry.serves (t : TlbEntry) (page : Nat) (acc : Acc) : Bool :=
  let has (l : List Nat) : Bool := if t.pages ≤ 32 then l.contains page else !l.isEmpty
  has t.aSet && (!acc.writes || has t.dSet)

/-- The answer of a translation. -/
inductive Trans
  | ok (a : Attr)
  | fault (code : Nat)
  /-- The TLB does not hold what the access needs. -/
  | walk
  deriving DecidableEq, Repr

/-- The code a leaf's permissions give an access (R121). A write-back carries no privilege, and is
refused like a store where W is 0. -/
def permits (e : Nat) (acc : Acc) (priv : Bool) : Option Nat :=
  if pteP e && !priv && acc != .writeback then some cPROT
  else if acc.writes && !pteW e then some cPROT
  else if acc = .fetch ∧ pteX e = false then some cPROT
  else none

/-- The attributes of a page under a leaf: what a line keeps (R103), at the line that holds the VA. -/
def State.leafAttr (s : State) (home e frame va : Nat) : Option Attr :=
  (s.leafPlace e frame va).map fun p =>
    ⟨pteW e, pteX e, pteP e, pteDK e, p.tier, if p.tier = 0 then p.tower else home, p.pa / 256 * 256⟩

/-- The code that an access under a frame field of a tier meets at its lender, if it meets one (R42, R45). -/
def State.lenderCode (s : State) (e frame : Nat) : Option Nat :=
  if pteTier e = 1 ∧ bits frame 35 26 ≠ s.pkgNum then s.farCode (bits frame 35 26) (bits frame 25 16) (bits frame 15 0) none else none

/-- Decide an access by the TLB of a tower (R116, R121). -/
def State.translate (s : State) (tower asid va : Nat) (acc : Acc) (priv : Bool) : Trans :=
  if !canonical va then .fault cTRANSL
  else
    let page := bits va 56 16
    match s.mem.tlb? tower asid page with
    | none => .walk
    | some t =>
      let e := t.pte.toNat
      match permits e acc priv with
      | some c => .fault c
      | none =>
        if t.serves page acc then
          match s.lenderCode e (pteFrame e + (page - t.page)), s.leafAttr tower e (pteFrame e + (page - t.page)) va with
          | some c, _ => .fault c
          | none, some a => .ok a
          | none, none => .fault cPROT
        else .walk

/-! ### The walker's step (R121 to R123) -/

/-- The 32 entries of a run are consistent (R122). -/
def runOk (es : List Nat) : Bool :=
  match es with
  | [] => false
  | e0 :: _ =>
    pteFrame e0 % 32 == 0 && (List.range 32).all fun i =>
      let e := es.getD i 0
      pteV e && pteRun e && leafOk e 1 && pteW e == pteW e0 && pteX e == pteX e0 && pteP e == pteP e0 &&
        pteDK e == pteDK e0 && pteTier e == pteTier e0 && pteFrame e == pteFrame e0 + i

/-- Write an 8-byte entry of tower memory as a compare-and-swap at .pk that succeeds (R123). -/
def State.putTower (s : State) (tower pa n x : Nat) : State :=
  s.homeWrite ⟨0, tower, pa / 256 * 256⟩ (linePlace (pa % 256) x) (lineMask (pa % 256) n)

/-- A and D of a run's pages that are recorded as set, from its entries. -/
def runBits (es : List Nat) (page0 : Nat) (f : Nat → Bool) : List Nat :=
  (List.range 32).filterMap fun i => if f (es.getD i 0) then some (page0 + i) else none

/-- Put an entry into a tower's TLB in place of what it held for those pages; the oldest entry makes room when 4,096 are held (R116
names no replacement: DESIGN CHOICE, log entry 132). -/
def MemState.tlbPut (x : MemState) (t : TlbEntry) : MemState :=
  let rest := x.tlb.filter fun u => !(u.tower == t.tower && u.asid == t.asid &&
    decide (u.page < t.page + t.pages) && decide (t.page < u.page + u.pages))
  let mine := (rest.filter fun u => u.tower == t.tower).length
  let rest := if mine < 4096 then rest
    else match rest.find? fun u => u.tower == t.tower with
      | some u => rest.erase u
      | none => rest
  { x with tlb := rest ++ [t] }

/-- A VA from its low 57 bits (R118). -/
def canonVa (va : Nat) : Nat := if bit va 56 then va % 2 ^ 57 + ones 7 * 2 ^ 57 else va % 2 ^ 57
/-- One walk for an access: what it decides, and the state with A and D set and the TLB filled. A run of tier-10 entries whose PORT
fields differ, of which R122 asks nothing, goes to the port of its first entry (DESIGN CHOICE, log entry 133). -/
def State.walkFor (s : State) (tower asid va : Nat) (acc : Acc) (priv : Bool) : Option Nat × State :=
  match s.walk asid va with
  | .bad => (some cTRANSL, s)
  | .leaf e level et epa =>
    match permits e acc priv with
    | some c => (some c, s)
    | none =>
      let page := bits va 56 16
      let e' := if acc.writes then e ||| 0x18 else e ||| 0x08
      let s := if e' = e then s else s.putTower et epa 8 e'
      let a := [page]
      let d := if pteD e' then [page] else []
      match level with
      | 2 => (none, s.mapMem fun x =>
          let old := x.tlb? tower asid page
          x.tlbPut ⟨tower, asid, page / 1024 * 1024, 1024, BitVec.ofNat 64 e',
            a ++ (match old with | some t => t.aSet | none => []), d ++ (match old with | some t => t.dSet | none => [])⟩)
      | 3 => (none, s.mapMem fun x =>
          let old := x.tlb? tower asid page
          x.tlbPut ⟨tower, asid, page / 2 ^ 20 * 2 ^ 20, 2 ^ 20, BitVec.ofNat 64 e',
            a ++ (match old with | some t => t.aSet | none => []), d ++ (match old with | some t => t.dSet | none => [])⟩)
      | _ =>
        if pteRun e then
          let base := epa - 8 * (page % 32)
          let es := (List.range 32).map fun i => s.mem.readTower et (base + 8 * i) 8
          let page0 := page / 32 * 32
          if runOk es then
            (none, s.mapMem fun x =>
              let old := x.tlb? tower asid page
              x.tlbPut ⟨tower, asid, page0, 32, BitVec.ofNat 64 (es.getD 0 0),
                runBits es page0 pteA ++ (match old with | some t => t.aSet | none => []),
                runBits es page0 pteD ++ (match old with | some t => t.dSet | none => [])⟩)
          else
            (none, (s.mapMem fun x => x.tlbPut ⟨tower, asid, page, 1, BitVec.ofNat 64 e', a, d⟩).logTower
              0x0A tower noTask (canonVa (page0 * 65536)) asid 0)
        else (none, s.mapMem fun x => x.tlbPut ⟨tower, asid, page, 1, BitVec.ofNat 64 e', a, d⟩)

/-- The entries that a walk reads below a node, as tower and address. -/
def walkPath (x : MemState) (va : Nat) : Nat → Nat → Nat → List (Nat × Nat)
  | 0, _, _ => []
  | level + 1, tower, pa =>
    let atE := pa + 8 * (match level + 1 with | 4 => bits va 56 46 | 3 => bits va 45 36 | 2 => bits va 35 26 | _ => bits va 25 16)
    let e := x.readTower tower atE 8
    (tower, atE) :: (if level ≠ 0 ∧ pteV e = true ∧ pteLeaf e = false ∧ tableOk e = true then
      walkPath x va level (frameTower (pteFrame e)) (framePa (pteFrame e) + 8192 * pteNode e) else [])
/-- A walk for a page that the TLB does not hold whole, or the write of its A and D, needs a bank that is held: it waits
there like every access to DRAM (R123, R195). -/
def State.walkHeld (s : State) (tower asid va : Nat) : Bool :=
  !(s.mem.locks.isEmpty && s.mem.refreshing.isEmpty && s.mills.isEmpty) &&
  !(match s.mem.tlb? tower asid (bits va 56 16) with
    | some t => t.serves (bits va 56 16) .write
    | none => false) &&
  (let root := s.reg offROOTBASE
   let rt := bits root 46 40
   let ra := bits root 35 19 * 2 ^ 19 + 8 * asid
   let e := s.mem.readTower rt ra 8
   let f := bits e 42 16
   ((rt, ra) :: (if bit e 0 && frameOk f then walkPath s.mem va 4 (frameTower f) (framePa f + 16384 * bits e 15 14) else [])).any
     fun p => s.bankHeld p.1 p.2)
/-- New translations of a range wait at its home while the range is being promoted (R127), or while a bank that their walk
needs is held. -/
def State.promoHeld (s : State) (tower asid va : Nat) : Bool :=
  (s.mem.promos.any fun p => p.tower == tower && p.asid == asid && bits va 56 21 == p.va / 2 ^ 21) || s.walkHeld tower asid va
/-- A home that takes no request for a VA now: its tower has failed, or the range is being promoted (R127, R133). -/
def State.homeStalls (s : State) (tower asid va : Nat) : Bool := s.mem.failedTowers.contains tower || s.promoHeld tower asid va
/-- Translate, walking when the TLB does not serve the access. A failed tower answers nothing, so the request fails as a
time-out would fail it (R34, R133). -/
def State.translateNow (s : State) (tower asid va : Nat) (acc : Acc) (priv : Bool) : (Except Nat Attr) × State :=
  if s.mem.failedTowers.contains tower then (.error cTIMEOUT, s)
  else match s.translate tower asid va acc priv with
  | .ok a => (.ok a, s)
  | .fault c => (.error c, s)
  | .walk =>
    match s.walkFor tower asid va acc priv with
    | (some c, s) => (.error c, s)
    | (none, s) =>
      match s.translate tower asid va acc priv with
      | .ok a => (.ok a, s)
      | .fault c => (.error c, s)
      | .walk => (.error cTRANSL, s)

/-- The tier of the leaf by which a tower's TLB maps a page, which is not that of the place where the leaf is this
package's own loan region (R43, R188). -/
def State.leafTier (s : State) (tower asid va : Nat) : Option Nat :=
  (s.mem.tlb? tower asid (bits va 56 16)).map fun t => pteTier t.pte.toNat

/-! ### Lost lines and deckles (R84, R132, R176) -/

/-- A line is lost, under its VA or under its place. -/
def MemState.lostLine (x : MemState) (h : Nat) (a : LineId) (p : Place) : Bool := x.isLostVa h a || x.isLost p
/-- The code an access meets whose translation ended in a code: that the line was lost under its VA comes before the codes
that R176 puts after LOSTLINE. -/
def MemState.lostFirst (x : MemState) (h : Nat) (a : LineId) (code : Nat) : Nat :=
  if x.isLostVa h a && decide (codeRank cLOSTLINE < codeRank code) then cLOSTLINE else code
/-- An access to bytes of one line at its home, in the order of R176: what the walk answers, the deckles of the task on
whose behalf it is made, and whether the line is lost. -/
def State.meet (s : State) (h asid va n : Nat) (acc : Acc) (priv : Bool) (k : Option Task) : (Except Nat Attr) × State :=
  let a : LineId := ⟨asid, va / 256⟩
  match s.translateNow h asid va acc priv with
  | (.error c, s) => (.error (s.mem.lostFirst h a c), s)
  | (.ok v, s) =>
    if v.dk && (match k with | some k => !k.declares va n acc.rights.1 acc.rights.2 | none => false) then (.error cDECKLE, s)
    else if s.mem.lostLine h a v.place then (.error cLOSTLINE, s)
    else (.ok v, s)

end Sys2Proof.Machine
end

