-- ==== Sys2Proof/Machine/Dir.lean ====
section
/-! DEFINITION. The directory protocol (R108 to R111, R414): requests that go up, forwards and
invalidations that go down, answers, write-backs, registration, evictions and page walks. A level that
must wait for its children or its parent keeps a transaction. -/

namespace Sys2Proof.Machine

/-! ### Levels -/

/-- The level that a request from a child reaches: the home, for a slice, is the tower it was sent to. -/
def parentNode (k : Node) (a : LineId) (dst : Site) : Node :=
  match k, dst with
  | .slice _, .tower j => .home j
  | k, _ => nodeParent k a 0
/-- A level's entry: the home's is kept under the physical line (R108). -/
def MemState.entry (x : MemState) (n : Node) (a : LineId) (at' : Option Attr) : Option Line :=
  match n, at' with
  | .home _, some v => x.homeEntry v.place
  | .home _, none => none
  | n, _ => x.line? n a
/-- An entry that records nothing yet. -/
def freshEntry (n : Node) (a : LineId) (at' : Attr) (now : Nat) : Line :=
  match n with
  | .home _ => ⟨.home at'.home, at'.place.key, .m, [], 0, 0, at', now⟩
  | n => ⟨n, a, .s, [], 0, 0, at', now⟩
/-- A home's entry that registers a child under its own (ASID, VA) (R108). -/
def MemState.registered (x : MemState) (k : Node) (a : LineId) : Option Line :=
  x.lines.find? fun l => (match l.node with | .home _ => true | _ => false) &&
    l.kids.any fun q => q.node == k && q.a == a
/-- A level holds line values: the L1 and the L2 do, the directories do not. -/
def holdsData : Node → Bool | .l1 _ => true | .l2 _ => true | _ => false
/-- The attributes of an answer that grants nothing: the directory no longer knows the copy. -/
def mootAttr : Attr := ⟨false, false, false, false, 0, 0, 0⟩

/-- Where a slice's request goes: the home that the requesting die's table names, or the one the line was
filled from (R114, R115). -/
def State.homeDest (s : State) (r : Req) (a : LineId) (at' : Option Attr) : Option Nat :=
  match at' with
  | some v => some v.home
  | none =>
    match nodeDie r.node with
    | some d => s.mem.dieHome d a.asid (a.line * 256)
    | none => none

/-- A level sends a request to its parent. -/
def State.askUp (s : State) (n : Node) (a : LineId) (at' : Option Attr) (r : Req) (mk : LineId → Node → Req → Body) : State :=
  match n with
  | .slice _ =>
    match s.homeDest r a at' with
    | some h => s.request .req (nodeSite n) (.tower h) (mk a n r)
    | none => s
  | n => s.request .req (nodeSite n) (nodeSite (nodeParent n a 0)) (mk a n r)

/-! ### Transactions -/

def State.putTxn (s : State) (t : Txn) : State := s.mapMem fun x => { x with txns := x.txns ++ [t] }
def freshTxn (n : Node) (a : LineId) (at' : Option Attr) (m : Msg) : Txn := ⟨n, a, [], false, false, 0, 0, 0, 0, at', m⟩
/-- A level begins to answer its parent: what its waiting transactions hold of the line is part of the answer. -/
def State.downTxn (s : State) (n : Node) (a : LineId) (at' : Option Attr) (m : Msg) : Txn :=
  let up := s.mem.heldUp n a
  { freshTxn n a at' m with val := up.1, mask := up.2.1, dirty := up.2.2.1, loose := up.2.2.2 }
/-- Lay nibbles over what a transaction has. -/
def Txn.take (t : Txn) (val mask dirty : BitVec 2048) : Txn :=
  { t with val := lineMerge t.val val mask, mask := t.mask ||| mask, dirty := t.dirty ||| dirty }
/-- Lay over them what a copy in W has written, which stands later than every registered nibble (R414). -/
def Txn.takeLoose (t : Txn) (val mask : BitVec 2048) : Txn := { t.take val mask mask with loose := t.loose ||| mask }
/-- Lay an owner's nibbles, or a parent's, under the written ones that a transaction has. -/
def Txn.under (t : Txn) (val mask dirty : BitVec 2048) : Txn := t.take val (mask &&& ~~~t.dirty) dirty
/-- The nibbles of another level that come over a copy: those it has not written itself, and with `newer` all that are dirty. A level
in O asks its parent to collect the nibbles that copies in W have written, and those stand later than what is registered below it;
a level in W is given what an owner had registered, and that stands earlier than what has been written below it (R111, R414). -/
def laidOver (newer : Bool) (own mask dirty : BitVec 2048) : BitVec 2048 := (mask &&& ~~~own) ||| (if newer then mask &&& dirty else 0)
/-- Lay over or under a transaction's nibbles what its parent answers. -/
def Txn.answered (t : Txn) (newer : Bool) (val mask dirty : BitVec 2048) : Txn := t.take val (laidOver newer t.dirty mask dirty) dirty
/-- A transaction that serves a read: the holders it asks keep their copies. -/
def Txn.reads (t : Txn) : Bool := match t.msg.body with | .getS _ _ _ => true | .fwdS _ _ _ => true | _ => false
/-- A request made on nobody's behalf but that of a level above the L2s. -/
def Req.ofLevel (r : Req) : Bool := match r.node with | .slice _ => true | .home _ => true | _ => false
/-- A transaction that takes a line from its owner for an operation of the home, beside which other copies may stay. -/
def Txn.recalls (t : Txn) : Bool := match t.msg.body with | .recall _ _ _ => true | .fwdX _ _ r => r.ofLevel | _ => false
/-- What a level can answer with: its own value under what its children gave. -/
def State.baseVal (s : State) (t : Txn) : Option (BitVec 2048) :=
  match t.node with
  | .home _ => t.attr.map fun v => lineMerge (s.mem.placeLine v.place) t.val t.mask
  | .hub _ _ => if t.mask = lineFull then some t.val else none
  | .slice _ => if t.mask = lineFull then some t.val else none
  | n => (s.mem.line? n t.a).map fun l => lineMerge l.val t.val t.mask
/-- Nibbles a child gave become the level's own: written by the home, dirty in an L2 (R111). -/
def State.absorb (s : State) (t : Txn) : State :=
  match t.node, t.attr with
  | .home _, some v => if t.dirty = 0 then s else s.mapMem fun x => x.placeWrite v.place t.val t.dirty
  | .l2 _, _ => s.mapMem fun x =>
    match x.line? t.node t.a with
    | some l => x.setLine { l with val := lineMerge l.val t.val t.mask, dirty := l.dirty ||| t.dirty }
    | none => x
  | _, _ => s

/-- The state a level is in once a child may write: S becomes W without a message, E becomes M (R110). -/
def Line.written (l : Line) (now : Nat) : Line :=
  match l.st with
  | .s => { l with st := .w, wSince := now }
  | .e => { l with st := .m }
  | _ => l
/-- An owner that has answered FwdS: M becomes O, E becomes S (R110). -/
def LState.shared : LState → LState | .m => .o | .e => .s | x => x

/-- A write-back that finds no home or no translation: its line is lost, and the loss is logged (R121). -/
def State.loseWriteback (s : State) (tower : Nat) (a : LineId) (n : Node) (owner : WbOwner) : State :=
  let tid := match owner with | .group g => g.tid | .task t => t | _ => noTask
  (s.mapMem fun x => x.lose tower none a).logAdd 0x0B (siteSheet (nodeSite n)) (siteField (nodeSite n)) tid (a.line * 256) a.asid 0

/-- The home a level sends a line's write-back to: the one its die's table names; a level that stands on no die sends it to the last
one (R114). -/
def State.wbHome (s : State) (n : Node) (a : LineId) (last : Nat) : Option Nat :=
  match nodeDie n with
  | some d => s.mem.dieHome d a.asid (a.line * 256)
  | none => some last
/-- A write-back of level `n` leaves the site of a level; one for which the table has no entry enters the lost-line table of the line's
last home (R114). -/
def State.writeBack (s : State) (src n : Node) (a : LineId) (last : Nat) (val mask : BitVec 2048) (late : Bool) (owner : WbOwner) : State :=
  match s.wbHome n a last with
  | some h => s.send .wb (nodeSite src) (.tower h) (.wbDirty a n val mask late owner)
  | none => s.loseWriteback last a n owner
/-- A level, and those above it below the home. -/
def nodePath (n : Node) (line : Nat) : List Node :=
  match n with
  | .l1 c => [n, .hub c.die c.cluster, .l2 c.die, .slice (sliceOf (dieSheet c.die) line)]
  | .hub d _ => [n, .l2 d, .slice (sliceOf (dieSheet d) line)]
  | .l2 d => [n, .slice (sliceOf (dieSheet d) line)]
  | n => [n]
/-- Send nibbles that level `frm` had written home, from a level that has them, as a write-back that other copies may
outlive (R414). Newer ones of a level below it that are on their way already stand over them. -/
def State.lateHome (s : State) (n frm : Node) (a : LineId) (val mask : BitVec 2048) (last : Nat) : State :=
  let mask := s.mem.net.foldl (fun k m => match m.body with
    | .wbDirty b n' _ newer true _ => if b = a ∧ n' ≠ frm ∧ (nodePath n' a.line).contains frm = true then k &&& ~~~newer else k
    | _ => k) mask
  if mask = 0 then s else s.writeBack n frm a last val mask true .none

/-- Answer a read: the child is recorded in S, and owners become O. The transaction stays until the
child's fill has landed. A child on a failed die is answered nothing. -/
def State.grantS (s : State) (t : Txn) (k : Node) (r : Req) (val : BitVec 2048) (v : Attr) : State :=
  let s := s.mapMem fun x => x.dropTxn t
  if s.dieFailed (nodeSite k) then s
  else
  let s := if v.dk then s
    else
      let e : Line := (s.mem.entry t.node t.a (some v)).getD (freshEntry t.node t.a v (s.now (nodeSite t.node)))
      let e : Line := { e with kids := e.kids.map fun (q : Kid) => { q with st := q.st.shared } }
      let e : Line := if holdsData t.node then { e with val := val } else e
      s.mapMem fun x => x.setLine (e.setKid k t.a .s)
  (s.putTxn { t with landing := true, waitFor := [], up := false }).respond t.msg .rsp (.data t.a t.node k r val v)

/-- Answer a write or a registration: the child is the one recorded holder, in M. -/
def State.grantX (s : State) (t : Txn) (k : Node) (r : Req) (val mask dirty : BitVec 2048) (v : Attr) : State :=
  let s := s.mapMem fun x => x.dropTxn t
  if s.dieFailed (nodeSite k) then s.lateHome t.node t.node t.a val dirty v.home
  else
  let s := match t.node with | .home _ => (s.callBorrowers v.place).mapMem fun x => x.unwatch v.place | _ => s
  let now := s.now (nodeSite t.node)
  let e := (s.mem.entry t.node t.a (some v)).getD (freshEntry t.node t.a v now)
  let s := s.mapMem fun x => x.setLine { e.written now with kids := [⟨k, t.a, .m⟩] }
  (s.putTxn { t with landing := true, waitFor := [], up := false }).respond t.msg .rsp (.dataX t.a t.node k r val mask dirty v)

/-- Ask the parent, and wait. -/
def State.goUp (s : State) (t : Txn) (r : Req) (mk : LineId → Node → Req → Body) : State :=
  (s.mapMem fun x => (x.dropTxn t)).putTxn { t with up := true } |>.askUp t.node t.a (if (s.mem.line? t.node t.a).isSome then t.attr else none) r mk

/-- A request made by a level on nobody's behalf. -/
def ownReq (n : Node) (a : LineId) : Req := ⟨n, .write, true, a.line * 256, none⟩
/-- What stands in the place of a request in nibbles that a level passes to a child which has not asked for them; `priv` tells whether
they stand over registered ones. -/
def pushReq (n : Node) (a : LineId) (newer : Bool) : Req := ⟨n, .writeback, newer, a.line * 256, none⟩
/-- Whether the nibbles that an answer brings to a level stand over what is registered below it. -/
def Req.newer (r : Req) (st : LState) : Bool := if r.acc = .writeback then r.priv else st == .o
/-- A holder that was asked for the line by FwdX or Recall answers its parent with DataX and holds it no more; a copy in E
sends no data (R110). To a Recall it gives what is registered; nibbles of copies in W that it holds follow as a write-back, since other
copies may stay (R414). -/
def State.yieldUp (s : State) (t : Txn) (e : Option Line) (n : Node) (r : Req) : State :=
  let val := (s.baseVal t).getD t.val
  let clean : Bool := match e with | some l => l.st == .e | none => true
  let own := match e with | some l => if holdsData n then l.dirty else 0 | none => 0
  let mask := if clean then t.mask else if (s.baseVal t).isSome then lineFull else t.mask
  let v := (e.map fun l => l.attr).getD mootAttr
  let apart := if t.recalls then t.loose else 0
  (((s.mapMem fun x => x.dropTxn t).dropNode n t.a).respond t.msg .rsp
    (.dataX t.a n (parentNode n t.a t.msg.src) r val (mask &&& ~~~apart) ((t.dirty ||| own) &&& ~~~apart) v)).lateHome n n t.a t.val apart v.home

/-- A transaction that waits for nothing any more answers, or asks its parent. -/
def State.finishTxn (s : State) (t : Txn) : State :=
  let e := s.mem.entry t.node t.a t.attr
  let v := match t.attr with | some v => some v | none => e.map fun l => l.attr
  match t.msg.body with
  | .getS _ k r =>
    let s := match t.node with | .home _ => s.absorb t | _ => s
    match s.baseVal t, v with
    | some val, some v => s.grantS t k r val v
    | _, _ => s.goUp t r .getS
  | .getX _ k r =>
    match s.baseVal t, v, e.map fun l => l.st with
    | some _, some _, some .o => (s.mapMem fun x => x.setTxn t { t with attr := v }).goUp { t with attr := v } r .upgr
    | some val, some v, _ => (s.absorb t).grantX t k r val lineFull (if holdsData t.node then 0 else match t.node with | .home _ => 0 | _ => t.dirty) v
    | _, _, _ => s.goUp t r .getX
  | .upgr _ k r =>
    match e, v with
    | some l, some v =>
      if !(l.kids.any fun q => q.node == k && q.a == t.a) then
        (s.mapMem fun x => x.dropTxn t).respond t.msg .rsp (.dataX t.a t.node k r 0 0 0 mootAttr)
      else if l.st = .o then s.goUp t r .upgr
      else
        let own := if holdsData t.node then l.dirty else 0
        s.grantX t k r (lineMerge l.val t.val t.dirty) (own ||| t.dirty) t.dirty v
    | _, _ => (s.mapMem fun x => x.dropTxn t).respond t.msg .rsp (.dataX t.a t.node k r 0 0 0 mootAttr)
  | .fwdS _ n r =>
    let par := parentNode n t.a t.msg.src
    let s := s.mapMem fun x => x.dropTxn t
    match e, s.baseVal t with
    | some l, some val =>
      let l := { l with st := l.st.shared, kids := l.kids.map fun q => { q with st := q.st.shared }
                        val := if holdsData t.node then val else l.val }
      (s.mapMem fun x => x.setLine l).sendOwned t.msg (nodeSite r.node) (.data t.a n par r val l.attr)
    | some l, none => (s.mapMem fun x => x.setLine { l with st := if l.st = .w then .w else .s }).respond t.msg .rsp (.dataX t.a n par r 0 0 0 l.attr)
    | none, _ => s.respond t.msg .rsp (.dataX t.a n par r 0 0 0 mootAttr)
  | .fwdX _ n r => s.yieldUp t e n r
  | .recall _ (.home _) _ => (s.absorb t).mapMem fun x => x.dropTxn t
  | .recall _ n _ => s.yieldUp t e n (ownReq n t.a)
  | .inv _ n par =>
    let val := match e with | some l => lineMerge l.val t.val t.dirty | none => t.val
    let own := match e with | some l => if holdsData n then l.dirty else 0 | none => 0
    ((s.mapMem fun x => x.dropTxn t).dropNode n t.a).respond t.msg .rsp (.invAck t.a n par val (t.dirty ||| own))
  | _ => s.mapMem fun x => x.dropTxn t

/-- A transaction moves on when nothing is awaited. -/
def State.settleTxn (s : State) (t : Txn) : State :=
  if t.waitFor = [] ∧ t.up = false ∧ t.landing = false then s.finishTxn t else s

/-- Open a transaction that asks some children first: owners by FwdS or FwdX, others by Inv. -/
def State.openTxn (s : State) (t : Txn) (r : Req) (owners sharers : List Kid) (excl : Bool) : State :=
  let t := { t with waitFor := (owners ++ (if excl then sharers else [])).map fun k => (k.node, k.a) }
  let s := s.putTxn t
  let s := owners.foldl (fun s k =>
    s.send .fwd (nodeSite t.node) (nodeSite k.node) (if excl then .fwdX k.a k.node r else .fwdS k.a k.node r)) s
  let s := if excl then sharers.foldl (fun s k => s.sendInv t.node k) s else s
  s.settleTxn t

/-! ### Recall by the home (R110, R151, R192, R197) -/

/-- A child holds a line of a home as owner. -/
def State.homeOwned (s : State) (p : Place) : Bool :=
  match s.mem.homeEntry p with
  | some l => !l.owners.isEmpty
  | none => false
/-- The home asks some holders of a line for it, owners by Recall and others by Inv, and waits for what they give. -/
def State.recall (s : State) (v : Attr) (n : Node) (kids : List Kid) : State :=
  match kids with
  | [] => s
  | o :: _ =>
    let site : Site := .tower v.home
    let m : Msg := ⟨.fwd, site, site, site, 0, s.wm site, s.wm site, .recall o.a n n⟩
    let s := s.putTxn { freshTxn n o.a (some v) m with waitFor := kids.map fun k => (k.node, k.a) }
    kids.foldl (fun s k => if k.st.owner then s.send .fwd site (nodeSite k.node) (.recall k.a k.node n) else s.sendInv n k) s
/-- The home sends Recall to the owners of a line before it performs an operation of its own on it. -/
def State.recallOwners (s : State) (v : Attr) : State :=
  match s.mem.homeEntry v.place with
  | none => s
  | some l => s.recall v l.node l.owners
/-- The home takes a line from every holder (R149). -/
def State.recallAll (s : State) (v : Attr) : State :=
  match s.mem.homeEntry v.place with
  | none => s
  | some l => s.recall v l.node l.kids
/-- No copy of a line is recorded at its home. -/
def State.homeAlone (s : State) (p : Place) : Bool :=
  match s.mem.homeEntry p with
  | some l => l.kids.isEmpty
  | none => true

/-! ### Requests -/

/-- A level is to lose a line, or one above it is, or it has just acknowledged that it has. -/
def State.losing (s : State) (n : Node) (a : LineId) : Bool :=
  s.mem.net.any fun m => match m.body with
    | .inv b k _ => b == a && (nodePath n a.line).contains k
    | .fwdX b k _ => b == a && (nodePath n a.line).contains k
    | .recall b k _ => b == a && (nodePath n a.line).contains k
    | .invAck b k _ _ _ => b == a && k == n
    | _ => false
/-- Written nibbles of a line are on their way to a level or to the home. -/
def MemState.rising (x : MemState) (a : LineId) : Bool :=
  x.wbPending a || x.net.any fun m => match m.body with | .invAck b _ _ _ mask => b == a && mask != 0 | _ => false
/-- Data that a level has been given is on its way there. -/
def MemState.filling (x : MemState) (n : Node) (a : LineId) : Bool :=
  x.net.any fun m => match m.body with
    | .data b _ k _ _ _ => b == a && k == n
    | .dataX b _ k _ _ _ _ _ => b == a && k == n
    | _ => false
/-- A level is busy with a line that a child asks for: a transaction is open on it or it asks for the line itself, written nibbles of
the line are still on their way up, the child is to lose it, so that no core misses its own write (R136, R137, R414), or is still to be
given it, or the level's directory is being scanned or rebuilt (R131, R133). -/
def State.lineBusy (s : State) (n k : Node) (a : LineId) (place : Option Place) : Bool :=
  (s.mem.txns.any fun t => (t.node == n && t.a == a) ||
    (match n, t.node, place, t.attr with
      | .home _, .home _, some p, some v => v.place == p
      | _, _, _, _ => false)) ||
  s.mem.rising a || s.losing k a || s.mem.filling k a || s.mem.asking n a || (match n with
    | .slice j => s.mem.rebuilds.contains j ||
        (s.mem.scans.any fun c => c.1 == j && (match s.mem.line? n a with
          | some l => l.kids.any fun k => nodeDie k.node == some c.2
          | none => false))
    | .home h => s.mem.net.any fun m => match m.body with
      | .wbDirty b _ _ _ _ _ => (match s.translate h b.asid (b.line * 256) .writeback true with
        | .ok v => some v.place == place
        | _ => false)
      | _ => false
    | _ => false)

/-- Refuse a request with a code (R121). -/
def State.refuse (s : State) (m : Msg) (a : LineId) (k : Node) (r : Req) (code : Nat) (dk : Bool := false) : State :=
  s.respond m .rsp (.refuse a k r code dk)

/-- A read or write request at its home (R116, R121, R132, R186, R194, R195): the walk must have been made,
no bank it needs may be held and no copy have taken the line (R149), and a deckled line is answered with the bytes the
home holds (R107). -/
def State.serveHome (s : State) (m : Msg) (h : Nat) (a : LineId) (k : Node) (r : Req) (excl : Bool) : Option State :=
  if s.mem.failedTowers.contains h then none
  else match s.translate h a.asid (a.line * 256) r.acc r.priv with
  | .walk => none
  | .fault c => some (s.refuse m a k r (s.mem.lostFirst h a c))
  | .ok v =>
    let p := v.place
    if s.mem.lostLine h a p then some (s.refuse m a k r cLOSTLINE v.dk)
    else if s.lineBusy (.home h) k a (some p) || (!v.dk && s.copyHolds p) || (p.tier == 0 && s.bankHeld p.tower p.pa) then none
    else
      let s := s.touch p
      let t := freshTxn (.home h) a (some v) m
      if v.dk then some (s.respond m .rsp (.data a (.home h) k r (s.mem.placeLine p) v))
      else match s.mem.homeEntry p with
      | none => some (s.openTxn t r [] [] excl)
      | some e =>
        let other : Kid → Bool := fun q => !(q.node == k && q.a == a)
        some (s.openTxn t r (e.owners.filter other) (e.sharers.filter other) excl)

/-- A read or write request at a level below the home. -/
def State.serveMid (s : State) (m : Msg) (n : Node) (a : LineId) (k : Node) (r : Req) (excl : Bool) : Option State :=
  if s.lineBusy n k a none then none
  else match s.mem.line? n a with
  | some e =>
    match e.attr.refuses r.acc r.priv with
    | some c => some (s.refuse m a k r c)
    | none =>
      if e.attr.dk then some (s.respond m .rsp (.data a n k r e.val e.attr))
      else
        let other : Kid → Bool := fun q => q.node != k
        some (s.openTxn (freshTxn n a (some e.attr) m) r (e.owners.filter other) (e.sharers.filter other) excl)
  | none =>
    let noHome := match n with | .l2 d => (s.mem.dieHome d a.asid (a.line * 256)).isNone | _ => false
    if noHome then some (s.refuse m a k r cNOHOME)
    else some (s.openTxn (freshTxn n a none m) r [] [] excl)

/-- A request from a child, at its parent (GetS and GetX of R110). -/
def State.serve (s : State) (m : Msg) (a : LineId) (k : Node) (r : Req) (excl : Bool) : Option State :=
  match parentNode k a m.dst with
  | .home h => s.serveHome m h a k r excl
  | n => s.serveMid m n a k r excl

/-- GETS (R110): a read request reaches a parent, which asks the owner, answers from its own copy, or asks
its own parent. -/
def execGets (k : Nat) (s : State) : Out :=
  onMsg k s fun m s => match m.body with
    | .getS a kid r => s.serve m a kid r false
    | _ => none

/-- GETX (R110): a write request reaches a parent; Inv or FwdX goes to the other holders. -/
def execGetx (k : Nat) (s : State) : Out :=
  onMsg k s fun m s => match m.body with
    | .getX a kid r => s.serve m a kid r true
    | _ => none

/-- UPGR (R110, R111): a registration reaches a parent; Inv goes to the other holders, and the nibbles they
give are merged into the answer. A registration that the directory no longer knows is moot: an Inv has
taken the copy with its nibbles. -/
def execUpgr (k : Nat) (s : State) : Out :=
  onMsg k s fun m s => match m.body with
    | .upgr a kid r =>
      let n := parentNode kid a m.dst
      let e := match n with | .home _ => s.mem.registered kid a | n => s.mem.line? n a
      let v := e.map fun l => l.attr
      if s.lineBusy n kid a (v.map fun x => x.place) then none
      else
        let known := match e with | some l => l.kids.any fun q => q.node == kid && q.a == a | none => false
        let t := freshTxn n a v m
        match e with
        | some l =>
          let other : Kid → Bool := fun q => !(q.node == kid && q.a == a)
          if known then some (s.openTxn t r (l.owners.filter other) (l.sharers.filter other) true)
          else some (s.openTxn t r [] [] true)
        | none => some (s.openTxn t r [] [] true)
    | _ => none

/-! ### Forwards and invalidations -/

/-- An atomic at .sh holds a line on its core's path, from the L1 to the sheet's slice, until it has performed (R145). -/
def State.pins (s : State) (n : Node) (a : LineId) : Bool :=
  s.groups.any fun g => g.stall.pinned.contains a.line && (match s.team? g.id.tid g.id.team, s.task? g.id.tid with
    | some t, some k => k.asid == a.asid && (match n with
      | .l1 c => c == t.core
      | .hub d q => d == t.core.die && q == t.core.cluster
      | .l2 d => d == t.core.die
      | .slice j => towerSheet j == dieSheet t.core.die
      | .home _ => false)
    | _, _ => false)
/-- A level may take a message from its parent unless it is itself waiting for children, data it was given or
its child's fill has not landed, or an atomic holds the line. -/
def State.mayForward (s : State) (n : Node) (a : LineId) : Bool :=
  (s.mem.txnsAt n a).all (fun t => t.waitFor.isEmpty && !t.landing) && !s.mem.filling n a && !s.pins n a

/-- FWDS (R110): an owner becomes O (an E copy becomes S) and its data goes to the parent that asked. -/
def execFwds (k : Nat) (s : State) : Out :=
  onMsg k s fun m s => match m.body with
    | .fwdS a n r =>
      if s.mayForward n a then
        let e := s.mem.line? n a
        some (s.openTxn (s.downTxn n a (e.map fun l => l.attr) m) r ((e.map fun l => l.owners).getD []) [] false)
      else none
    | _ => none

/-- What FwdX and Recall do at a level: its owners give the line up, its other children are sent Inv, and
the level answers with its nibbles once its owners have given theirs. -/
def State.giveUp (s : State) (m : Msg) (n : Node) (a : LineId) (r : Req) : Option State :=
  if s.mayForward n a then
    let e := s.mem.line? n a
    let t := s.downTxn n a (e.map fun l => l.attr) m
    let s := ((e.map fun l => l.sharers).getD []).foldl (fun s k => s.sendInv n k) (s.mapMem fun x => x.emptyUp n a)
    some (s.openTxn t r ((e.map fun l => l.owners).getD []) [] true)
  else none

/-- FWDX (R110): the holder gives the line up; a copy in E sends no data. -/
def execFwdx (k : Nat) (s : State) : Out :=
  onMsg k s fun m s => match m.body with
    | .fwdX a n r => s.giveUp m n a r
    | _ => none

/-- RECALL (R110): the holder gives the line up to its parent. -/
def execRecallMsg (k : Nat) (s : State) : Out :=
  onMsg k s fun m s => match m.body with
    | .recall a n _ => s.giveUp m n a (ownReq n a)
    | _ => none

/-- INV (R110, R414): a level that holds the line in W acknowledges with its written nibbles, which it takes
from its children first; any other level acknowledges at once and sends Inv to its children. -/
def execInv (k : Nat) (s : State) : Out :=
  onMsg k s fun m s => match m.body with
    | .inv a n par =>
      if !s.mayForward n a then none
      else match s.mem.line? n a with
      | none => some (s.respond m .rsp (.invAck a n par 0 0))
      | some l =>
        let t := s.downTxn n a (some l.attr) m
        let s := l.sharers.foldl (fun s q => s.sendInv n q) (s.mapMem fun x => x.emptyUp n a)
        if l.st = .s ∨ l.st = .e then
          some ((s.dropNode n a).respond m .rsp (.invAck a n par t.val t.dirty))
        else some (s.openTxn t (ownReq n a) l.owners [] true)
    | _ => none

/-- A child has no message of its parent to take or to answer, and none of its acknowledgements is on its way, so that an answer finds the state it is meant for. -/
def State.childClear (s : State) (k : Node) (a : LineId) : Bool :=
  !(s.mem.net.any fun m => match m.body with
    | .inv b n _ => b == a && n == k | .fwdX b n _ => b == a && n == k | .recall b n _ => b == a && n == k
    | .invAck b n _ _ _ => b == a && n == k
    | _ => false) && (s.mem.txnsAt k a).all fun t => t.up
/-- A transaction's child may be answered. -/
def State.mayAnswer (s : State) (t : Txn) : Bool :=
  match t.msg.body.child with | some (_, k, _) => s.childClear k t.a | none => true

/-! ### Evictions (R102, R103) -/

/-- Merge a line's dirty nibbles into the L2 of its die, which includes it (R103): S becomes W, E becomes M. -/
def State.mergeL2 (s : State) (die : Nat) (a : LineId) (val mask : BitVec 2048) (home : Nat) : State :=
  if mask = 0 then s
  else match s.mem.line? (.l2 die) a with
  | some e =>
    let e := { e.written (s.now (.die die)) with val := lineMerge e.val val mask, dirty := e.dirty ||| mask }
    s.mapMem fun x => x.setLine e
  | none => s.lateHome (.l2 die) (.l2 die) a val mask home

/-- A copy in an L1 that its die has not registered, at its hub or at its L2, beside another holder that has: its nibbles go home, for
the L2 would lay that holder's line over them (R414; log entry 33). -/
def State.unshared (s : State) (c : CoreId) (l : Line) : Bool :=
  let hub : Node := .hub c.die c.cluster
  let owned (n : Node) : Bool := match s.mem.line? n l.a with
    | some e => e.owners.any fun q => q.node != hub && q.node != l.node
    | none => false
  (l.st == .w || (match s.mem.line? hub l.a with | some e => e.st == .w | none => false)) && (owned hub || owned (.l2 c.die))
/-- Evict an L1's line: its dirty nibbles reach the L2; a copy in W is registered by that, so the other
copies inside the die are sent Inv (R103, R110). -/
def State.evictL1 (s : State) (c : CoreId) (l : Line) : State :=
  let hub : Node := .hub c.die c.cluster
  let s : State := s.mapMem fun x => x.dropLine l.node l.a
  let s : State := if l.attr.dk then s
    else if s.unshared c l then s.lateHome hub l.node l.a l.val l.dirty l.attr.home
    else s.mergeL2 c.die l.a l.val l.dirty l.attr.home
  if l.st = .s ∨ l.st = .e ∨ l.attr.dk = true then s
  else
    let hubW : Bool := match s.mem.line? hub l.a with | some e => e.st == LState.w | none => false
    let s : State := match s.mem.line? hub l.a with
      | some e =>
        let e : Line := e.dropKid l.node
        let s : State := if l.st = LState.w then e.sharers.foldl (fun s q => s.sendInv hub q) s else s
        let st := if e.owners = [] then LState.s else e.st
        s.mapMem fun x => if e.kids = [] then x.dropLine hub l.a else x.setLine { e with st := st }
      | none => s
    match s.mem.line? (.l2 c.die) l.a with
    | some e =>
      let s : State := if l.st = LState.w ∨ hubW = true then (e.sharers.filter fun q => q.node != hub).foldl (fun s q => s.sendInv (.l2 c.die) q) s else s
      match s.mem.line? hub l.a with
      | none => s.mapMem fun x => x.setLine (e.dropKid hub)
      | some h => if h.owners = [] then s.mapMem fun x => x.setLine (e.setKid hub l.a .s) else s
    | none => s

/-- Whether a level's entry lies at or below another level. -/
def below (n : Node) (top : Line) (l : Line) : Bool :=
  match top.node with
  | .l1 _ => n == top.node && l.a == top.a
  | .hub d c => l.a == top.a && (n == top.node || match n with | .l1 k => k.die == d && k.cluster == c | _ => false)
  | .l2 d => l.a == top.a && nodeDie n == some d
  | .slice j => l.a == top.a && (n == top.node || match nodeDie n with | some d => dieSheet d == towerSheet j | none => false)
  | .home _ => l.attr.place == top.attr.place && !l.attr.dk

/-- Remove a line from the L1s and hubs of a die, gathering the dirty nibbles over those of its L2: owners'
first, then those of copies in W. The value, the mask, which of these the die's L2 has not registered, and the state. -/
def State.gatherDie (s : State) (die : Nat) (a : LineId) : BitVec 2048 × BitVec 2048 × BitVec 2048 × State :=
  let mine : Line → Bool := fun l => l.a == a && nodeDie l.node == some die
  let ls := s.mem.lines.filter mine
  let order := (ls.filter fun l => nodeDepth l.node == 2) ++ (ls.filter fun l => nodeDepth l.node == 0 && l.st != .w) ++
    (ls.filter fun l => nodeDepth l.node == 0 && l.st == .w)
  let r := order.foldl (fun acc l => (lineMerge acc.1 l.val l.dirty, acc.2 ||| l.dirty)) ((0 : BitVec 2048), (0 : BitVec 2048))
  let free (l : Line) : Bool := !l.attr.dk && ls.any fun h => h.st == .w && (h.node == .l2 die || below l.node h l)
  let w := ls.foldl (fun w l => if free l then w ||| l.dirty else w) 0
  (r.1, r.2, w, (s.mapMem fun x => { x with lines := x.lines.filter fun l => !mine l }).dropText die a)

/-- Write a die's dirty nibbles of a line home and drop its copies: first those that its L2 has registered, then the others (R103, R110,
R414). -/
def State.flushDie (s : State) (die : Nat) (a : LineId) (home : Nat) (owner : WbOwner) : State :=
  let (val, mask, w, s) := s.gatherDie die a
  let put (mask : BitVec 2048) (late : Bool) (s : State) : State :=
    if mask = 0 then s else s.writeBack (.l2 die) (.l2 die) a home val mask late owner
  put w true (put (mask &&& ~~~w) false s)

/-! ### Capacity (R102) -/

/-- Nothing asks the levels above an L2 for a line at this moment: its slice and the line's home have no transaction open on it and
no forward to the slice is in flight, which could overtake the write-back; nor are written nibbles on their way up, which the write-back
could overtake (log entry 140). -/
def State.calmAbove (s : State) (d : Nat) (a : LineId) : Bool :=
  let sl := Node.slice (sliceOf (dieSheet d) a.line)
  let p := (s.mem.line? (.l2 d) a).map fun l => l.attr.place
  (s.mem.txnsAt sl a).isEmpty && !s.mem.fwdPending sl a && !s.mem.rising a &&
    !(s.mem.net.any fun m => match m.body.hop with | some (_, n, b) => b == a && nodeDie n == some d | none => false) &&
    !(s.mem.txns.any fun t => match t.node, t.attr with | .home _, some v => some v.place == p | _, _ => false)
/-- A level can give a line up now: nothing is in flight for it there, and no atomic holds it. -/
def State.canEvict (s : State) (n : Node) (a : LineId) : Bool :=
  let free (n : Node) : Bool := !s.mem.fwdPending n a && (s.mem.txnsAt n a).isEmpty && !s.mem.asking n a && !s.pins n a
  s.siteRuns (nodeSite n) && free n && (match n with
    | .l1 _ => (match s.mem.line? n a with
      | some l => l.st == .s || l.st == .e || l.attr.dk || (nodePath n a.line).all fun k => (s.mem.txnsAt k a).isEmpty && !s.mem.fwdPending k a
      | none => true)
    | .l2 d => s.calmAbove d a && s.mem.lines.all fun h => !(h.a == a && nodeDie h.node == some d) || free h.node
    | _ => true)
/-- The 64-byte lines of an L1 beyond the ways of their sets, of which there are 128. -/
def overfull (ways : Nat) (l : List (Nat × Nat)) : List (Nat × Nat) :=
  (List.range l.length).filterMap fun i => match l[i]? with
    | some e => if ways ≤ ((l.take i).filter fun x => x.2 % 128 == e.2 % 128).length then some e else none
    | none => none
/-- An L1 gives up what its ways do not hold, least recently used first; a 64-byte line takes the other sectors of its
256-byte line with it (R102, R108; log entry 116). -/
def State.trimL1 (s : State) (c : CoreId) : State :=
  let here (s : State) (e : Nat × Nat) : Bool := (s.mem.line? (.l1 c) ⟨e.1, e.2 / 4⟩).isSome
  let k := s.core c
  let live := k.l1.filter (here s)
  let s := if live = k.l1 then s else s.setCore { k with l1 := live }
  (overfull (s.mem.ways (.l1 c) 8) live).reverse.foldl (fun s e =>
    let a : LineId := ⟨e.1, e.2 / 4⟩
    match s.mem.line? (.l1 c) a with
    | some l =>
      if s.canEvict l.node a then
        let s := s.evictL1 c l
        let k := s.core c
        s.setCore { k with l1 := k.l1.filter fun x => !(x.1 == a.asid && x.2 / 4 == a.line) }
      else s
    | none => s) s
/-- Room for a line in an L2, of 16 slices of 512 sets of 16 ways: the oldest lines of the set that can go make it; `none`
while too few can (R102, R201; log entry 116). -/
def State.makeRoom (s : State) (n : Node) (a : LineId) : Option State :=
  match n with
  | .l2 d =>
    let set := s.mem.lines.filter fun l => l.node == n && l.a.line % 8192 == a.line % 8192
    let need := set.length + 1 - s.mem.ways (.l2 d (a.line % 16)) 16
    let go := (set.filter fun l => s.canEvict n l.a).take need
    if (s.mem.line? n a).isSome then some s
    else if go.length < need then none
    else some (go.foldl (fun s l => s.flushDie d l.a l.attr.home .none) s)
  | _ => some s

/-! ### Answers -/

/-- The child's fill has landed: the parent may take up the line's next request. -/
def MemState.landed (x : MemState) (frm dest : Node) (a : LineId) : MemState :=
  { x with txns := x.txns.filter fun t => !(t.node == frm && t.a == a && t.landing &&
      (match t.msg.body.child with | some (_, k, _) => k == dest | none => false)) }

/-- The groups of a core that wait for a line no longer do; one of them may have met a code. -/
def State.wake (s : State) (c : CoreId) (a : LineId) (f : Group → MemStall → MemStall) : State :=
  { s with groups := s.groups.map fun g =>
      match s.team? g.id.tid g.id.team, s.task? g.id.tid with
      | some t, some k =>
        if t.core = c ∧ k.asid = a.asid ∧ g.stall.asked.contains a.line = true then
          { g with stall := f g { g.stall with asked := g.stall.asked.filter fun l => l != a.line } }
        else g
      | _, _ => g }

/-- Put the 64-byte line that was fetched into the core's instruction cache: 128 sets of 4 ways, the oldest making room
(R102, R201; log entry 116). -/
def State.putICache (s : State) (c : CoreId) (asid va : Nat) (val : BitVec 2048) (v : Attr) : State :=
  let k := s.core c
  let rest := k.icache.filter fun l => !(l.asid == asid && l.line == va / 64)
  let set := rest.filter fun l => l.line % 128 == va / 64 % 128
  let rest := (set.take (set.length + 1 - s.mem.ways (.icache c) 4)).foldl (fun r old => r.erase old) rest
  s.setCore { k with icache := rest ++ [⟨asid, va / 64, sectorOf val va, v⟩] }

/-- The 64-byte line that a fill was for is the most recently used one of its L1; of a line that was not there before, the
only one of its sectors (R102, R108). -/
def State.addSector (s : State) (c : CoreId) (asid va : Nat) (fresh : Bool) : State :=
  let k := s.core c
  s.setCore { k with l1 := (asid, va / 64) :: k.l1.filter fun e => !(e.1 == asid && (e.2 == va / 64 || (fresh && e.2 / 4 == va / 256))) }
/-- A prefetch of a deckled line that its task does not declare is dropped (R84, R314). -/
def State.dropPref (s : State) (a : LineId) (r : Req) (v : Attr) : Bool :=
  r.acc == .pref && v.dk && (match r.who.bind fun g => s.task? g.tid with
    | some k => !k.declares (a.line * 256) 256 false false
    | none => true)

/-- A fill ends at a level: an L1 or its instruction cache, or an L2. -/
def State.install (s : State) (n : Node) (a : LineId) (r : Req) (val : BitVec 2048) (v : Attr) (st : LState) (dirty : BitVec 2048) : State :=
  let fresh := (s.mem.line? n a).isNone
  let put (s : State) : State :=
    let e := match s.mem.line? n a with
      | some l => { l with st := if st = .m then .m else l.st, val := lineMerge val l.val l.dirty, dirty := l.dirty ||| dirty }
      | none => ⟨n, a, st, [], val, dirty, v, s.now (nodeSite n)⟩
    if s.dropPref a r v then s else s.mapMem fun x => x.setLine e
  match n with
  | .l1 c =>
    let s := if r.acc = .fetch then s.putICache c a.asid r.va val v else (put s).addSector c a.asid r.va fresh
    let s := if r.acc = .pref then s.trimL1 c else s
    (s.endWfa fun d b => d == c && b == a).wake c a fun _ m => m
  | .l2 _ => put s
  | _ => s

/-- The data of a read at a level: the one that asked for it passes it on to its own child, or is where the fill ends; the
one that sent FwdS answers its child with what the owner gave. -/
def State.dataAt (s : State) (m : Msg) : Option State :=
  match m.body with
    | .data a frm dest r val v => (s.makeRoom dest a).bind fun s =>
      let (ok, s) := s.accept m
      match s.mem.txns.find? fun t => t.node == dest && t.waitFor.contains (frm, a) with
      | some t =>
        if !ok then some s
        else
          let t' := { t.under val lineFull 0 with waitFor := t.waitFor.filter fun w => w != (frm, a) }
          some ((s.mapMem fun x => x.setTxn t t').settleTxn t')
      | none =>
        let s := s.mapMem fun x => x.landed frm dest a
        if !ok || decide (nodeDepth frm < nodeDepth dest) then some s
        else match s.mem.txns.find? fun t => t.node == dest && t.a == a && t.up && r.node != dest with
        | none => some (s.install dest a r val v .s 0)
        | some t =>
          if !s.mayAnswer t then none else
          let s := match dest with | .l2 _ => s.install dest a r val v .s 0 | _ => s
          match t.msg.body.child with
          | some (_, kid, r') =>
            if v.dk then some ((s.mapMem fun x => x.dropTxn t).respond t.msg .rsp (.data a dest kid r' val v))
            else
              let t' := { t.under val lineFull 0 with up := false, attr := some v }
              let s := s.mapMem fun x => x.setTxn t t'
              let s := if (s.mem.line? dest a).isSome then s
                else s.mapMem fun x => x.setLine (freshEntry dest a v (s.now (nodeSite dest)))
              some (s.settleTxn t')
          | none => some (s.mapMem fun x => x.dropTxn t)
    | _ => none

/-- An owner's data has come to the requester: the levels between the owner and the one that sent FwdS learn that it has
been given, and those between that one and the requester are filled on the way (R110, R382 to R384). -/
def State.fillPath : Nat → Msg → State → Option State
  | 0, _, s => some s
  | fuel + 1, m, s =>
    match m.body with
    | .data _ _ dest r _ _ =>
      if s.sheetRuns (siteSheet (nodeSite dest)) = false then none
      else (s.dataAt m).bind fun t =>
        match t.mem.net.getLast? with
        | some n =>
          let follows : Bool := match n.body with | .data _ _ _ q _ _ => q == r | _ => false
          if decide (s.mem.net.length < t.mem.net.length) && follows then
            State.fillPath fuel n (t.mapMem fun x => { x with net := x.net.dropLast })
          else some t
        | none => some t
    | _ => some s
/-- DATA (R110, R382): the data of a read reaches the level that asked for it; an owner's data, which FwdS has asked for, reaches
the requester and fills the levels of its path. -/
def execData (k : Nat) (s : State) : Out :=
  onMsg k s fun m s => match m.body with
    | .data _ frm dest _ _ _ => if nodeDepth frm < nodeDepth dest then s.fillPath 10 m else s.dataAt m
    | _ => none

/-- A copy of a line in its new state, with the nibbles that other copies had written (R111, R414). -/
def Line.lay (l : Line) (newer : Bool) (val mask dirty : BitVec 2048) (st : LState) : Line :=
  let take := laidOver newer l.dirty mask dirty
  { l with st := st, val := lineMerge l.val val take, dirty := l.dirty ||| (dirty &&& take) }
/-- A registration has been granted to a level (R110, R111): it is registered in M, and the nibbles that
other copies had written are laid under its own; a directory passes them to its owning child, and its
other children's copies, which lack them, are sent Inv. Nibbles that a parent passes on unasked (`pushReq`) register nothing; a hub or
an L1 that has given the line up meanwhile needs them no more. -/
def State.regrant (s : State) (n : Node) (a : LineId) (r : Req) (val mask dirty : BitVec 2048) (v : Attr) : State :=
  let kept : Bool := r.acc == .writeback && decide (nodeDepth n < 2)
  match s.mem.line? n a with
  | none => if kept then s else s.lateHome n n a val dirty v.home
  | some l =>
    if v = mootAttr then s else
    let st := if r.acc = .writeback then l.st else .m
    let newer := r.newer l.st
    if holdsData n then
      let take := laidOver newer l.dirty mask dirty
      let s := s.mapMem fun x => x.setLine { l.lay newer val mask dirty st with kids := if take = 0 then l.kids else l.owners }
      if take = 0 then s
      else
        let s := l.sharers.foldl (fun s q => s.sendInv n q) s
        l.owners.foldl (fun s q => s.send .rsp (nodeSite n) (nodeSite q.node)
          (.dataX q.a n q.node (pushReq q.node q.a newer) val take (dirty &&& take) v)) s
    else
      let s := s.mapMem fun x => x.setLine { l with st := st, kids := if mask = 0 then l.kids else l.owners }
      if mask = 0 then s
      else
        let s := l.sharers.foldl (fun s q => s.sendInv n q) s
        match l.owners with
        | [] => if kept then s else s.lateHome n n a val dirty v.home
        | os => os.foldl (fun s q => s.send .rsp (nodeSite n) (nodeSite q.node)
            (.dataX q.a n q.node (pushReq q.node q.a newer) val mask dirty v)) s

/-- DATAX (R110, R111): the answer to a write or to a registration, a holder's answer to FwdX, or that of a level to FwdS which
has no owner below it any more and no data of its own. A stale or
late answer is dropped (R32, R35); dirty nibbles in it go home. Nibbles that come unasked wait while the level moves its line from one
child to another. -/
def execDatax (k : Nat) (s : State) : Out :=
  onMsg k s fun m s => match m.body with
    | .dataX a frm dest r val mask dirty v => (if r.acc = .writeback ∧ (s.mem.txnsAt dest a).any (fun t => !t.waitFor.isEmpty) = true then none
        else s.makeRoom dest a).bind fun s =>
      let (ok, s) := s.accept m
      match s.mem.txns.find? fun t => t.node == dest && t.waitFor.contains (frm, a) with
      | some t =>
        if !ok then some (s.lateHome dest frm a val dirty v.home)
        else
          let t' := { t.under val mask dirty with waitFor := t.waitFor.filter fun w => w != (frm, a) }
          let s := s.mapMem fun x =>
            match x.entry dest t.a t.attr with
            | some e => x.setLine (if t.reads then e.setKid frm a .s else { e with kids := e.kids.filter fun q => !(q.node == frm && q.a == a) })
            | none => x
          some ((s.mapMem fun x => x.setTxn t t').settleTxn t')
      | none =>
        let s := if r.acc = .writeback then s else s.mapMem fun x => x.landed frm dest a
        if !ok then some (s.lateHome dest dest a val dirty v.home)
        else match s.mem.txns.find? fun t => t.node == dest && t.a == a && t.up && r.node != dest with
        | none =>
          if nodeDepth dest = 4 then some (s.lateHome dest frm a val dirty (match dest with | .home h => h | _ => v.home))
          else if mask = lineFull ∧ holdsData dest = true ∧ r.acc ≠ .writeback then some (s.install dest a r val v .m dirty)
          else
            let s := match s.mem.txns.find? fun t => t.node == dest && t.a == a && t.up && !t.reads with
              | some t => s.mapMem fun x => x.setTxn t (t.answered (r.newer (((s.mem.line? dest a).map fun l => l.st).getD .s)) val mask mask)
              | none => s.regrant dest a r val mask dirty v
            match dest with
            | .l1 c => some ((s.endWfa fun d b => d == c && b == a).wake c a fun _ m => m)
            | _ => some s
        | some t =>
          if !s.mayAnswer t then none else
          let newer := r.newer (((s.mem.line? dest a).map fun l => l.st).getD .s)
          let s := match dest, s.mem.line? dest a with
            | .l2 _, some l => if mask = lineFull then s.install dest a r val v .m dirty
              else if v = mootAttr then s else s.mapMem fun x => x.setLine (l.lay newer val mask dirty .m)
            | .l2 _, none => if mask = lineFull then s.install dest a r val v .m dirty else s.lateHome dest dest a val dirty v.home
            | _, _ =>
              let e := if mask = lineFull then some ((s.mem.line? dest a).getD (freshEntry dest a v 0)) else s.mem.line? dest a
              match e with
              | some l => if v = mootAttr then s else s.mapMem fun x => x.setLine { l with st := .m }
              | none => s
          let t' := { t.answered newer val mask dirty with up := false, attr := if mask = 0 then t.attr else some v }
          some ((s.mapMem fun x => x.setTxn t t').settleTxn t')
    | _ => none

/-- The lowest level at or above `n` on its die that has not acknowledged its own parent yet takes nibbles that come late into what it
will answer (R414). -/
def State.joinDown (s : State) (n : Node) (a : LineId) (kid : Node) (val mask : BitVec 2048) : Option State :=
  let path : List Node := match n, nodeDie n with
    | .hub _ _, some d => [n, .l2 d]
    | n, _ => [n]
  (path.findSome? fun b => s.mem.txns.find? fun t =>
    t.node == b && t.a == a && !t.reads && !t.recalls && t.waitFor != [] && nodeDepth kid < nodeDepth t.node).map fun t =>
    s.mapMem fun x => x.setTxn t (t.takeLoose val mask)
/-- An answer about a line from a level to its parent is in flight, from `n` or from above it: nibbles that come late stay behind it. -/
def State.answering (s : State) (n : Node) (a : LineId) : Bool :=
  s.mem.net.any fun m => match m.body with
    | .invAck b k _ _ _ => b == a && (nodePath n a.line).contains k
    | .dataX b k dest _ _ _ _ _ => b == a && (nodePath n a.line).contains k && decide (nodeDepth k < nodeDepth dest)
    | _ => false
/-- INVACK (R110, R414): an acknowledgement reaches the level that sent Inv. Nibbles that come after the level
has gone on go home as a write-back. -/
def execInvack (k : Nat) (s : State) : Out :=
  onMsg k s fun m s => match m.body with
    | .invAck a kid par val mask =>
      let (ok, s) := s.accept m
      let last := match par with | .home h => h | n => ((s.mem.line? n a).map fun l => l.attr.home).getD (sliceOf (siteSheet m.dst) a.line)
      let late := s.lateHome par kid a val mask last
      match s.mem.txns.find? fun t => t.node == par && t.waitFor.contains (kid, a) with
      | some t =>
        if !ok then some late
        else
          let t' := { t.takeLoose val mask with waitFor := t.waitFor.filter fun w => w != (kid, a) }
          let s := s.mapMem fun x =>
            match x.entry par t.a t.attr with
            | some e => x.setLine { e with kids := e.kids.filter fun q => !(q.node == kid && q.a == a) }
            | none => x
          some ((s.mapMem fun x => x.setTxn t t').settleTxn t')
      | none => if mask = 0 then some s else if s.answering par a then none else some ((s.joinDown par a kid val mask).getD late)
    | _ => none

/-! ### Write-backs (R104, R121, R414) -/

/-- The records that a write-back's sender leaves behind at its slice and its home. -/
def MemState.forget (x : MemState) (n : Node) (a : LineId) : MemState :=
  match n with
  | .l2 d =>
    let sl := Node.slice (sliceOf (dieSheet d) a.line)
    let x := match x.line? sl a with
      | some e =>
        let e := e.dropKid n
        if e.kids = [] then x.dropLine sl a else x.setLine { e with st := if e.owners = [] then .s else e.st }
      | none => x
    match x.registered sl a with
    | some h =>
      match x.line? sl a with
      | none => let h' := { h with kids := h.kids.filter fun q => !(q.node == sl && q.a == a) }
        if h'.kids = [] then x.dropLine h.node h.a else x.setLine h'
      | some e => if e.owners = [] then x.setLine (h.setKid sl a .s) else x
    | none => x
  | _ => x

/-- The slice of a level's sheet holds a line in W. -/
def State.sliceW (s : State) (a : LineId) (n : Node) : Bool :=
  match nodeDie n with
  | some d => (match s.mem.line? (.slice (sliceOf (dieSheet d) a.line)) a with | some l => l.st == .w | none => false)
  | none => false
/-- The levels of a level's path at or below which, on that path, nibbles of a line are held that are not registered. -/
def State.heldAbove (s : State) (n : Node) (a : LineId) (k : Node) : Bool :=
  (nodePath n a.line).contains k && (nodePath n a.line).any fun b => decide (nodeDepth b ≤ nodeDepth k) &&
    ((s.mem.heldUp b a).2.2.2 != 0 || (match s.mem.line? b a with | some l => l.st == .w | none => false))
/-- Perform a write-back at the home: it merges atomically (R104); when it comes late, or from a copy in W,
every copy the home has recorded is removed first, and with it what the levels above that copy hold in W, which is older
(R110, R142, R414; log entry 141). -/
def State.mergeHome (s : State) (p : Place) (a : LineId) (n : Node) (val mask : BitVec 2048) (late : Bool) : State :=
  let lasts := late || s.sliceW a n
  let s := s.toLender p .wb
  if lasts then (s.homeTake p (s.heldAbove n a)).mapMem fun x => x.placeWrite p val mask
  else (s.mapMem fun x => x.forget n a).mapMem fun x => x.placeWrite p val mask

/-- A write-back of a line is on its way. -/
def MemState.wbOnWay (x : MemState) (a : LineId) : Bool :=
  x.net.any fun m => match m.body with | .wbDirty b _ _ _ _ _ => b == a | _ => false
/-- Couch data reaches a target's die (R80, R81): the line enters the L2 clean, over what its home holds and what the die
itself has dirty, for the consumers that still wait for it. -/
def State.couchIn (s : State) (die : Nat) (a : LineId) (tids : List Nat) (val mask : BitVec 2048) (attr : Attr) : State :=
  let live := tids.filter fun t => (s.task? t).any fun k => k.st == .placed
  if live = [] then s
  else
    let (own, ownMask, _, s) := s.gatherDie die a
    let s := if ownMask = 0 then s
      else s.writeBack (.l2 die) (.l2 die) a attr.home own ownMask false .none
    let line := lineMerge (lineMerge (s.mem.placeLine attr.place) own ownMask) val mask
    let s := s.mapMem fun x => x.setLine ⟨.l2 die, a, .s, [], line, 0, attr, s.now (.die die)⟩
    (live.foldl (fun s t =>
      match s.task? t with
      | some k => s.setTask { k with couched := if k.couched.contains (die, a.line) then k.couched else k.couched ++ [(die, a.line)] }
      | none => s) s)

/-- A write-back of nibbles that a copy in W had written stands later than what the home has performed (R414); it is taken once nothing
older of its line is on its way: no data or acknowledgement that moves between levels, no write-back of registered nibbles, and none of a
level above it that another site sends (DEDUCED, log entry 141). -/
def State.wbFirst (s : State) (p : Place) (src : Site) (a : LineId) (n : Node) (late : Bool) : Bool :=
  let names : List LineId := a :: (match s.mem.homeEntry p with | some l => l.kids.map fun k => k.a | none => [])
  (names.all fun b => s.lineStill b) && s.homeFree p &&
    !(late && s.mem.net.any fun m => match m.body with
      | .wbDirty b n' _ _ l _ => names.contains b && !(m.src == src && m.src != m.dst) && (!l || (n' != n && (nodePath n a.line).contains n'))
      | _ => false)
/-- WBDIRTY (R104, R121): a write-back with nibble enables reaches the home; and couch data, of the same class, reaches its
die, once the write-backs of its line have been performed (R27, R81). -/
def execWbdirty (k : Nat) (s : State) : Out :=
  onMsg k s fun m s => match m.body, m.dst with
    | .couchData a tids val mask attr, .die d =>
      if s.mem.wbOnWay a || !s.canEvict (.l2 d) a then none
      else (s.makeRoom (.l2 d) a).map fun s => s.couchIn d a tids val mask attr
    | .wbDirty a n val mask late owner, .tower h =>
      if s.homeStalls h a.asid (a.line * 256) then none
      else match s.translateNow h a.asid (a.line * 256) .writeback true with
      | (.error _, s) => some (s.loseWriteback h a n owner)
      | (.ok v, s) =>
        if v.tier = 0 ∧ s.bankHeld v.home v.pa = true then none
        else if (late || s.sliceW a n) = true ∧ s.wbFirst v.place m.src a n late = false then none
        else some (s.mergeHome v.place a n val mask late)
    | _, _ => none

/-! ### Registration by time, and evictions -/

/-- A level registers one of its W lines with its parent. -/
def State.register (s : State) (n : Node) (a : LineId) : State :=
  s.askUp n a ((s.mem.line? n a).map fun l => l.attr) (ownReq n a) .upgr
/-- A W line of a level whose registration has not been asked for. -/
def State.canRegister (s : State) (n : Node) (a : LineId) : Bool :=
  match s.mem.line? n a with
  | some l => l.st == .w && !s.mem.asking n a && !s.mem.fwdPending n a && (s.mem.txnsAt n a).isEmpty
  | none => false

/-- W_REGISTRATION_TIMER (R111): a level registers a W line of its own accord. -/
def execWRegistrationTimer (node : Node) (asid line : Nat) (s : State) : Out :=
  if s.canRegister node ⟨asid, line⟩ ∧ s.siteRuns (nodeSite node) = true then .next (s.register node ⟨asid, line⟩)
  else s.stays

/-- TOWER_CACHE_EVICTION (R186): the least recently used line of its set leaves, written back when dirty. -/
def execTowerCacheEviction (tower line : Nat) (s : State) : Out :=
  match (s.mem.tcSet tower line).getLast? with
  | some t =>
    if t.line = line ∧ s.bankHeld tower (line * 256) = false ∧ s.siteRuns (.tower tower) = true then
      .next (s.mapMem fun x => x.tcDrop tower line)
    else s.stays
  | none => s.stays

/-! ### Page walks -/

/-- The translation a message needs at the home it is sent to. -/
def Body.needs : Body → Option (LineId × Acc × Bool × Nat)
  | .getS a _ r => some (a, r.acc, r.priv, a.line * 256)
  | .getX a _ r => some (a, r.acc, r.priv, a.line * 256)
  | .wbDirty a _ _ _ _ _ => some (a, .writeback, true, a.line * 256)
  | .homeAtomic _ asid p (o :: _) => some (⟨asid, o.addr / 256⟩, .atomic, p, o.addr)
  | .nearRed _ asid p (o :: _) => some (⟨asid, o.addr / 256⟩, .red, p, o.addr)
  | .millAcc _ asid p va wr => some (⟨asid, va / 256⟩, if wr.isSome then .write else .read, p, va)
  | _ => none

/-- PAGE_WALK (R116, R121 to R123): the walker of the tower that a message waits at walks for it. A walk that
ends in a code refuses a line request; a write-back's line is lost; the other accesses meet the code when
they are performed. -/
def execPageWalk (k : Nat) (s : State) : Out := s.happens <|
  match s.mem.net[k]? with
  | none => none
  | some m =>
    match m.body.needs, m.dst with
    | some (a, acc, priv, va), .tower h =>
      if m.at' ≠ m.dst ∨ s.siteRuns m.dst = false ∨ s.homeStalls h a.asid va = true ∨ s.translate h a.asid va acc priv ≠ .walk ∨
          (match m.body.child with | some (_, .slice _, _) => false | some _ => true | none => false) = true then none
      else
        match s.walkFor h a.asid va acc priv with
        | (none, s) => some s
        | (some c, s) =>
          match m.body with
          | .getS a k r => some ((s.mapMem fun x => { x with net := x.net.erase m }).refuse m a k r (s.mem.lostFirst h a c))
          | .getX a k r => some ((s.mapMem fun x => { x with net := x.net.erase m }).refuse m a k r (s.mem.lostFirst h a c))
          | .wbDirty a n _ _ _ owner => some ((s.mapMem fun x => { x with net := x.net.erase m }).loseWriteback h a n owner)
          | _ => some s
    | _, _ => none

end Sys2Proof.Machine
end

