-- ==== Sys2Proof/Machine/Ecc.lean ====
section
/-! DEFINITION. Errors in protected storage (R198, R201, R203): what a corrected error and one that cannot be corrected do to the
unit that meets them. -/

namespace Sys2Proof.Machine

/-- Insert into an ascending list without repeats. -/
def insertAsc (l : List Nat) (x : Nat) : List Nat :=
  match l with
  | [] => [x]
  | y :: ys => if x < y then x :: y :: ys else if x = y then y :: ys else y :: insertAsc ys x

/-- The site that holds a unit; none when the machine holds no such unit, and for a link, whose errors are LINK_FLIT_CRC_FAIL. -/
def State.unitSite (s : State) : EccUnit → Option Site
  | .spWord tid team a => if a < 262144 then (s.team? tid team).map fun t => .die t.core.die else none
  | .cwWord d c a => if d < 72 ∧ c < 22 ∧ a < 2 ^ 21 then some (.die d) else none
  | .dsWord d a => if d < 72 ∧ a < 2 ^ 24 then some (.die d) else none
  | .millWord m a => if a < 2 ^ 16 + 2048 then (s.mill? m).map fun _ => .tower m.tower else none
  | .line n a => if holdsData n then (s.mem.line? n a).map fun _ => nodeSite n else none
  | .entry n a => if nodeDepth n = 0 then none else (s.mem.line? n a).map fun _ => nodeSite n
  | .text c asid line => if (s.core c).icache.any fun x => x.asid == asid && x.line == line then some (.die c.die) else none
  | .cached t line => if s.mem.tcache.any fun x => x.tower == t && x.line == line then some (.tower t) else none
  | .sector t pa => if t < 72 ∧ pa < dramTop then some (.tower t) else none
  | .link _ => none
/-- What a record about a unit names in ADDR: the word, the line or the sector (R203). -/
def EccUnit.addr : EccUnit → Nat
  | .spWord _ _ a => a / 4 * 4
  | .cwWord _ _ a => a / 4 * 4
  | .dsWord _ a => a / 4 * 4
  | .millWord _ a => a / 4 * 4
  | .line _ a => a.line * 256
  | .entry _ a => a.line * 256
  | .text _ _ l => l * 64
  | .cached _ l => l * 256
  | .sector _ pa => pa / 64 * 64
  | .link x => x.tower
/-- The task that a record about a unit concerns. -/
def State.unitTask (s : State) : EccUnit → Nat
  | .spWord tid _ _ => tid
  | .millWord m _ => match s.mill? m with | some x => x.tid | none => noTask
  | _ => noTask
/-- Nothing is in flight for a line at its level or below it. -/
def State.lineIdle (s : State) (l : Line) : Bool := s.mem.lines.all fun h => !below h.node l h || s.canEvict h.node h.a
/-- A unit can be read: its site runs, and what it holds can leave where it must. -/
def State.unitIdle (s : State) (u : EccUnit) (x : Site) : Bool :=
  s.siteRuns x && (match u with
    | .line n a => (match s.mem.line? n a with | some l => s.lineIdle l | none => false)
    | .entry n a => (match s.mem.line? n a with | some l => s.lineIdle l | none => false)
    | .cached t line => !s.bankHeld t (line * 256)
    | .sector t pa => !s.bankHeld t pa && !(s.mem.tcache.any fun x => x.tower == t && x.line == pa / 256)
    | _ => true)

/-- Disable a way. -/
def State.loseWay (s : State) (c : CacheId) : State := s.mapMem fun x => { x with deadWays := x.deadWays ++ [c] }
/-- A core's instruction cache gives a 64-byte line up. -/
def State.dropTextLine (s : State) (c : CoreId) (asid line : Nat) : State :=
  s.setCore { s.core c with icache := (s.core c).icache.filter fun x => !(x.asid == asid && x.line == line) }
/-- The way that holds a unit is disabled, and gives its line up (R201). -/
def State.disableWay (s : State) : EccUnit → State
  | .line (.l1 c) a =>
    let s := s.loseWay (.l1 c)
    match s.mem.line? (.l1 c) a with | some l => s.evictL1 c l | none => s
  | .line (.l2 d) a =>
    let s := s.loseWay (.l2 d (a.line % 16))
    match s.mem.line? (.l2 d) a with | some l => s.flushDie d a l.attr.home .none | none => s
  | .text c asid line => (s.loseWay (.icache c)).dropTextLine c asid line
  | .cached t line => (s.loseWay (.tower t)).mapMem fun x => x.tcDrop t line
  | _ => s
/-- A unit corrects an error; the third within 1 s is lasting (R201). -/
def State.corrected (s : State) (u : EccUnit) : State :=
  match s.unitSite u with
  | none => s
  | some x =>
    if s.unitIdle u x then
      let (lasting, s) := s.correct u x (s.unitTask u) u.addr
      if lasting then s.disableWay u else s
    else s

/-- The physical line of a line of DRAM. -/
def Attr.phys (v : Attr) : Option Nat := if v.tier = 0 then some (v.pa / 256) else none
/-- Every copy of a line at and below a level goes, and nothing of it is written home. -/
def State.dropBelow (s : State) (l : Line) : State :=
  (s.mem.lines.filter fun h => below h.node l h).foldl (fun s h => s.dropNode h.node h.a) s
/-- The levels above one that has lost a line learn that it holds the line no more. -/
def State.disown (s : State) (l : Line) : State :=
  match l.node with
  | .l2 _ => s.writeBack l.node l.node l.a l.attr.home 0 0 false .none
  | .hub d _ => (match s.mem.line? (.l2 d) l.a with
    | some e => s.mapMem fun x => x.setLine (e.dropKid l.node)
    | none => s)
  | _ => s
/-- A line enters its home's lost-line table (R132). -/
def State.loseLine (s : State) (l : Line) : State := s.mapMem fun x => x.lose l.attr.home l.attr.phys l.a
/-- What a copy of a line in an L1 or an L2 becomes when it cannot be corrected (R198): a clean one is dropped, and what the L1s above it
have written goes home; a dirty one is lost. The answer says whether data was lost. -/
def State.breakLine (s : State) (l : Line) : Bool × State :=
  if l.dirty = 0 then
    (false, match l.node with
      | .l1 c => s.evictL1 c l
      | .l2 d => s.flushDie d l.a l.attr.home .none
      | _ => s)
  else
    (true, match l.node with
      | .l1 c => (s.evictL1 c { l with dirty := 0 }).loseLine l
      | _ => ((s.dropBelow l).loseLine l).disown l)
/-- A directory entry that cannot be corrected (R131, R198): a line that it names in M, O or W, or that a level below it holds so, is lost;
one in E or S is removed. -/
def State.breakEntry (s : State) (l : Line) : Bool × State :=
  let held (x : LState) : Bool := x.owner || x == .w
  if (l.kids.any fun k => held k.st) || (s.mem.lines.any fun h => below h.node l h && nodeDepth h.node != 4 && held h.st) then (true, ((s.dropBelow l).loseLine l).disown l)
  else (false, s.dropBelow l)
/-- What an error that cannot be corrected does to a unit, and whether data is lost by it (R198). -/
def State.breakUnit (s : State) : EccUnit → Bool × State
  | .spWord tid team a => (true, match s.team? tid team with
    | some t => s.setTeam { t with spBad := insertAsc t.spBad (a / 4 * 4) }
    | none => s)
  | .cwWord d c a => (true, s.mapMem fun x => { x with winBad := insertAsc x.winBad ((d * 32 + c) * 2 ^ 21 + a / 4 * 4) })
  | .dsWord d a => (true, s.mapMem fun x => { x with dspBad := insertAsc x.dspBad (d * 2 ^ 24 + a / 4 * 4) })
  | .millWord m a => (true, match s.mill? m with
    | some x => s.setMill { x with bad := insertAsc x.bad (a / 4 * 4) }
    | none => s)
  | .line n a => (match s.mem.line? n a with | some l => s.breakLine l | none => (false, s))
  | .entry n a => (match s.mem.line? n a with | some l => s.breakEntry l | none => (false, s))
  | .text c asid line => (false, s.dropTextLine c asid line)
  | .cached t line =>
    let dirty := s.mem.tcache.any fun x => x.tower == t && x.line == line && x.dirty != 0
    let s := s.mapMem fun x => { x with tcache := x.tcache.filter fun y => !(y.tower == t && y.line == line) }
    (dirty, if dirty then s.mapMem fun x => x.lose t (some line) ⟨0, line⟩ else s)
  | .sector t pa => (true, s.mapMem fun x => x.lose t (some (pa / 256)) ⟨0, pa / 256⟩)
  | .link _ => (false, s)
/-- A unit meets an error that it cannot correct; where no data is lost the record is that of a transient error (R198). -/
def State.broken (s : State) (u : EccUnit) : State :=
  match s.unitSite u with
  | none => s
  | some x =>
    if s.unitIdle u x then
      let tid := s.unitTask u
      let (lost, s) := s.breakUnit u
      s.logAdd (if lost then 0x03 else 0x01) (siteSheet x) (siteField x) tid u.addr 0 0
    else s

/-- What a step finds in the unit that it reads (R198). -/
def State.found (s : State) (e : Ecc) (u : Option EccUnit) : State :=
  match e, u with
  | .corrected, some u => s.corrected u
  | .broken, some u => s.broken u
  | _, _ => s

end Sys2Proof.Machine
end

