-- ==== Sys2Proof/Machine/Fence.lean ====
section
/-! DEFINITION. Releases, acquires and fences (R112, R138, R139, R313): the Drain that climbs the levels of
the issuing core's path, and the DrainAck that completes it. -/

namespace Sys2Proof.Machine

/-! ### What a release waits for -/

/-- A write-back that a group's cwb, cinv or dkflush asked for, or a registration of its cwb, is not yet done
(R147, R316, R317). -/
def State.owesWrites (s : State) (g : GroupRef) : Bool :=
  s.mem.net.any fun m => match m.body with
    | .wbDirty _ _ _ _ _ (.group h) => h == g
    | .drain h _ _ _ (some _) => h == g
    | _ => false

/-- Nibbles that a die had written in W, and that have left its caches, are on their way home, so that no level above
the die has them registered yet (R112, R138, R414). -/
def State.nibblesOut (s : State) (die : Nat) (want : LineId → Bool) : Bool :=
  (s.mem.net.any fun m => match m.body with
    | .wbDirty a n _ mask late _ => late && mask != 0 && nodeDie n == some die && want a
    | .invAck a n _ _ mask => mask != 0 && nodeDie n == some die && want a
    | _ => false) ||
  (s.mem.txns.any fun t => t.dirty != 0 && nodeDie t.node == some die && want t.a)
/-- What a release of a group at a scope waits for beside its DrainAck (R138): at .sh and wider, the stores of its die
that have left the die's caches in W. -/
def State.owesPath (s : State) (g : GroupRef) (scope : Nat) : Bool :=
  s.owesWrites g || (decide (3 ≤ scope) && match s.team? g.tid g.team, s.task? g.tid with
    | some t, some k => s.nibblesOut t.core.die fun a => a.asid == k.asid
    | _, _ => false)

/-- The W lines that a level must register for a release of a core's path (R112): a slice's are those the
path's die holds. With a line, only that line, on whatever core of the die it is held. -/
def State.toRegister (s : State) (n : Node) (die : Nat) (only : Option LineId) : List Line :=
  s.mem.lines.filter fun l => l.st == .w && !l.attr.dk &&
    (match only with
      | none => l.node == n && (match n with | .slice _ => l.kids.any (fun k => k.node == .l2 die) | _ => true)
      | some a => l.a == a && nodeDepth l.node == nodeDepth n &&
          (nodeDie l.node == some die || match l.node with | .slice _ => l.kids.any (fun k => k.node == .l2 die) | _ => false))

/-! ### Invs on their way (R112) -/

/-- A level's children that lead to a core. -/
def towards (c : CoreId) : Node → Node → Bool
  | .hub _ _, kid => kid == .l1 c
  | .l2 _, kid => kid == .hub c.die c.cluster
  | .slice _, kid => kid == .l2 c.die
  | .home _, .slice j => towerSheet j == dieSheet c.die
  | _, _ => false
/-- A level has sent Inv toward a core, and has not been answered: the Inv is on its way, the child is giving up what it
holds, or its InvAck is on its way. -/
def State.invOut (s : State) (c : CoreId) (n : Node) : Bool :=
  (s.mem.net.any fun m => match m.body with
    | .inv _ kid par => par == n && towards c n kid
    | .invAck _ kid par _ _ => par == n && towards c n kid
    | _ => false) ||
  (s.mem.txns.any fun t => match t.msg.body with
    | .inv _ kid par => par == n && towards c n kid
    | _ => false)

/-! ### The Drain's way (R112) -/

/-- Whether a request of a level is not yet answered at its parent. -/
def State.unanswered (s : State) (par : Node) (mine : Node → Req → Bool) : Bool :=
  let ask (b : Body) (dst : Site) : Bool := match b.child with
    | some (a, k, r) => mine k r && parentNode k a dst == par
    | none => false
  (s.mem.net.any fun m => ask m.body m.dst) || (s.mem.txns.any fun t => t.node == par && ask t.msg.body t.msg.dst)
/-- A slice or a home is in the drain set of a die's path: it holds a request or a registration of the path not yet
answered, or an Inv toward the path not yet acknowledged; for a release, a slice also while it has lines of the path to
register. -/
def State.drains (s : State) (c : CoreId) (acq : Bool) (only : Option LineId) (n : Node) : Bool :=
  match n with
  | .slice _ => (!acq && !(s.toRegister n c.die only).isEmpty) ||
      (only.isNone && (s.unanswered n (fun k _ => k == .l2 c.die) || s.invOut c n))
  | .home _ => only.isNone && (s.unanswered n (fun _ r => nodeDie r.node == some c.die) || s.invOut c n)
  | _ => false
/-- The next level of a Drain: within the die the core's path, as far as the scope reaches; beyond it the slices, and
then the homes, of the drain set. -/
def State.nextDrain (s : State) (n : Node) (c : CoreId) (acq : Bool) (scope : Nat) (only : Option LineId) : Option Node :=
  let far : List Node :=
    (if 3 ≤ scope then (sheetTowers (dieSheet c.die)).map Node.slice else []) ++
    (if 4 ≤ scope then (List.range 72).map Node.home else [])
  match n with
  | .l1 k => if 1 ≤ scope then some (.hub k.die k.cluster) else none
  | .hub d _ => if 2 ≤ scope then some (.l2 d) else none
  | .l2 _ => far.find? (s.drains c acq only)
  | n => ((far.dropWhile fun x => x != n).drop 1).find? (s.drains c acq only)

/-- Ports through which a host may hold lines of a coherent region that this package lends it (R44, R46). -/
def State.sharedPorts (s : State) : List Nat :=
  (List.range 4).filter fun p => s.boot.cxl.getD p false && s.mgmt.any fun e =>
    match blockIndex e.1 0x00750000 0x100 1024 with
    | some r => e.1 % 0x100 == 0 && bit e.2 63 && !bit e.2 62 && s.granted r true s.pkgNum p
    | none => false

/-- A Back-Invalidate goes to every host that shares regions of this package (R112). -/
def State.sendBackInv (s : State) : State :=
  let ports := s.sharedPorts.filter fun p => !s.mem.backInv.contains p
  { s with mem := { s.mem with backInv := s.mem.backInv ++ ports }, out := s.out ++ ports.map Output.backInvalidate }

/-- At .sy, lines of host memory that the die holds dirty are flushed to the host port, and a Back-Invalidate
goes to every host that shares regions of this package (R112). -/
def State.flushHost (s : State) (die : Nat) : State :=
  let mine : Line → Bool := fun l => nodeDie l.node == some die && l.attr.tier == 2 && l.dirty != 0 && l.st != .w
  let s' := (s.mem.lines.filter mine).foldl (fun x l =>
    let x := x.placeWrite l.attr.place l.val l.dirty
    { x with lines := x.lines.map fun h => if h.a == l.a && h.node == .l2 die && h.node != l.node then
        { h with val := lineMerge h.val l.val (l.dirty &&& ~~~h.dirty) } else h }) s.mem
  { s with mem := { s' with lines := s'.lines.map fun l => if mine l then { l with dirty := 0 } else l } }.sendBackInv

/-- The group a fence belongs to, with its core. -/
def State.coreOf (s : State) (g : GroupRef) : Option CoreId := (s.team? g.tid g.team).map fun t => t.core

/-- Send a release or an acquire on its way from the core's L1. -/
def State.sendDrain (s : State) (g : GroupRef) (c : CoreId) (acq : Bool) (scope : Nat) : State :=
  s.send .fwd (.die c.die) (.die c.die) (.drain g (.l1 c) acq scope none)

/-! ### What an acquire waits for and does -/

/-- An Inv toward a core's path that has not been acknowledged, sent by a level its scope names (R112). -/
def State.invToward (s : State) (c : CoreId) (scope : Nat) : Bool :=
  let near : List Node := [.hub c.die c.cluster, .l2 c.die]
  near.any (fun n => decide (nodeDepth n ≤ scope) && s.invOut c n) ||
  (decide (3 ≤ scope) && (sheetTowers (dieSheet c.die)).any fun j => s.invOut c (.slice j)) ||
  (decide (4 ≤ scope) && (List.range 72).any fun h => s.invOut c (.home h))

/-- An acquire at .di or wider removes the core's deckled L1 lines (R106, R112). -/
def State.dropDeckled (s : State) (c : CoreId) : State :=
  s.mapMem fun x => { x with lines := x.lines.filter fun l => !(l.node == .l1 c && l.attr.dk) }
/-- An acquire at .sy removes the clean copies of host memory that the die holds, so that what the host has written is
read from then on (R50, R152). -/
def State.dropHost (s : State) (die : Nat) : State :=
  let stays (l : Line) : Bool := s.mem.lines.any fun h => h.a == l.a && nodeDie h.node == some die &&
    (h.dirty != 0 || h.st == .w || !(s.mem.txnsAt h.node h.a).isEmpty || s.mem.asking h.node h.a || s.mem.fwdPending h.node h.a)
  let gone (l : Line) : Bool := nodeDie l.node == some die && l.attr.tier == 2 && !stays l
  let s := (s.mem.lines.filter gone).foldl (fun s l => s.dropText die l.a) s
  s.mapMem fun x => { x with lines := x.lines.filter fun l => !gone l }
/-- What an acquire at a scope removes from its core and its die. -/
def State.acquired (s : State) (c : CoreId) (scope : Nat) : State :=
  let s := if 2 ≤ scope then s.dropDeckled c else s
  if scope = 5 then s.dropHost c.die else s

/-! ### Events -/

/-- DRAIN (R112): a release registers the lines of the level it has reached that are held in W, as far as its scope
reaches; an acquire waits there until every Inv that the level has sent toward the core's path is acknowledged. Then the
Drain goes on to the next level, and the last one answers with DrainAck. -/
def execDrain (k : Nat) (s : State) : Out :=
  onMsg k s fun m s => match m.body with
    | .drain g n acq scope only =>
      match s.coreOf g with
      | none => some s
      | some c =>
        let todo := if acq = true ∨ scope ≤ nodeDepth n then [] else s.toRegister n c.die only
        let can := todo.filter fun l => s.canRegister l.node l.a
        if can ≠ [] then some ((can.foldl (fun s l => s.register l.node l.a) s).putBack k m)
        else if todo ≠ [] ∨ (acq = true ∧ s.invOut c n = true) then none
        else match s.nextDrain n c acq scope only with
          | some n' =>
            let body : Body := .drain g n' acq scope only
            some (if m.dst = nodeSite n' then s.passOn m m.dst body
              else match n, only with
                | .l2 _, none => s.request .fwd m.dst (nodeSite n') body
                | _, _ => s.passOn m (nodeSite n') body)
          | none =>
            let s := if scope = 5 ∧ acq = false then s.flushHost c.die else s
            some (if only.isSome then s else s.respond m .rsp (.drainAck g))
    | _ => none

/-- DRAINACK (R112, R138, R139, R147): a release completes when the write-backs it waits for have been
performed, at .sy every Back-Invalidate too; an acquire completes when every Inv toward the core's path has been
acknowledged, and then removes what its scope asks for. -/
def execDrainack (k : Nat) (s : State) : Out :=
  onMsg k s fun m s => match m.body with
    | .drainAck r =>
      let (ok, t) := s.accept m
      match s.group? r, s.coreOf r with
      | some g, some c =>
        if !ok then some t
        else match g.fence with
        | some ⟨.release, scope⟩ =>
          if s.owesPath r scope || (scope == 5 && !s.mem.backInv.isEmpty) then none
          else some (t.setGroup { g with fence := some ⟨.released, scope⟩ })
        | some ⟨.acquire, scope⟩ =>
          if s.invToward c scope || (scope == 5 && !s.mem.backInv.isEmpty) then none
          else some ((t.setGroup { g with fence := none }).acquired c scope)
        | _ => some t
      | _, _ => some t
    | _ => none

/-- BACK_INVALIDATE_RESPONSE (R112): a host has answered a Back-Invalidate on its port. -/
def execBackInvalidateResponse (port : Nat) (s : State) : Out :=
  if s.mem.backInv.contains port then .next (s.mapMem fun x => { x with backInv := x.backInv.erase port })
  else s.stays

/-! ### Inside a word -/

/-- The release half of a word: `none` when the word may go on, otherwise what it answers now. A release at
.cr has nothing to wait for (R112). -/
def Issuer.release (u : Issuer) (s : State) (scope : Nat) : Option WordOut :=
  match u.g.fence with
  | some _ => none
  | none =>
    if scope = 0 ∧ s.owesWrites u.g.id = false then none
    else some (.wait { u.g with fence := some ⟨.release, scope⟩, wait := some .mem } (s.sendDrain u.g.id u.t.core false scope))

/-- The acquire half: the word commits, and the group issues nothing until the acquire completes. -/
def Issuer.acquire (u : Issuer) (s : State) (g : Group) (scope : Nat) : WordOut :=
  if scope = 0 then .done g s else .acquire g scope (s.sendDrain u.g.id u.t.core true scope)

/-- fence (R313): the release, the acquire, or both, at the scope. -/
def execFence (scope : Fin 8) (order : Fin 4) (s : State) : Out :=
  runWord (okFence scope order) 0 1 (fun u s =>
    if order.val = 1 then u.acquire s u.g scope.val
    else match u.release s scope.val with
      | some o => o
      | none => if order.val = 3 then u.acquire s u.g scope.val else .done u.g s) s

end Sys2Proof.Machine
end

