-- ==== Sys2Proof/Machine/Access.lean ====
section
/-! DEFINITION. What every memory word of a group shares: addresses (R303), codes and their order (R176),
parking (R128), the SRAM spaces (R96 to R101), the lines of global memory a word needs in its core's L1,
and performing loads and stores there. -/

namespace Sys2Proof.Machine

/-! ### Addresses -/

/-- A lane and the address it forms, computed exactly (R303). -/
abbrev LaneAddr := Nat × Int

/-- The lanes of a word: the enabled ones, or lane 0 alone for a scalar word (R308). -/
def Issuer.lanes (u : Issuer) (scalar : Bool) : List Nat :=
  if scalar then [0] else (List.range u.w).filter u.g.enabled
/-- The addresses of a word (R303). -/
def Issuer.addrs (u : Issuer) (scalar : Bool) (base off : Src) : List LaneAddr :=
  (u.lanes scalar).map fun i => (i, u.g.addrPart base i + u.g.addrPart off i)
/-- The byte addresses of a nibble store (R307). -/
def Issuer.nibAddrs (u : Issuer) (base off : Src) : List LaneAddr :=
  (u.lanes false).map fun i => (i, u.g.addrPart base i + u.g.addrPart off i / 2)

/-- The 64-bit address of an exact one. -/
def vaOf (a : Int) : Nat := (BitVec.ofInt 64 a).toNat
/-- A global address lies in the canonical range (R303). -/
def inGlobal (a : Int) : Bool := decide (-(2 ^ 56 : Int) ≤ a) && decide (a < 2 ^ 56)

/-! ### Codes (R176) -/

/-- A lane, a code it raises, and the address of it. -/
structure LaneCode where
  lane : Nat
  code : Nat
  va : Nat
  deriving DecidableEq, Repr

/-- The mask of some lanes. -/
def lanesMask (l : List Nat) : W64 := BitVec.ofNat 64 (l.foldl (fun acc i => acc ||| 2 ^ i) 0)
/-- The code a word delivers, with TRVA and TRLANES: the earliest in the order of R176, the address of the
lowest lane that raised it, and the lanes that raised it (R176, R177). -/
def pickCode (cs : List LaneCode) : Option (Nat × W64 × W64) :=
  match cs with
  | [] => none
  | c :: rest =>
    let best := rest.foldl (fun b x => if codeRank x.code < codeRank b then x.code else b) c.code
    let mine := cs.filter fun x => x.code == best
    let low := mine.foldl (fun (b : LaneCode) x => if x.lane < b.lane then x else b) (mine.headD c)
    some (best, BitVec.ofNat 64 low.va, lanesMask (mine.map fun x => x.lane))

/-- ALIGN of the lanes whose address is no multiple of the width (R97). -/
def alignCodes (addrs : List LaneAddr) (bytes : Nat) : List LaneCode :=
  (addrs.filter fun a => a.2 % (bytes : Int) != 0).map fun a => ⟨a.1, cALIGN, vaOf a.2⟩

/-! ### Parking (R128) -/

/-- The lowest faulting address in each faulting 64 KiB page, ascending by page (R128, R130). -/
def faultPages (vas : List Nat) : List Nat :=
  let pages := vas.foldl (fun l v => insertAsc l (v / 65536)) []
  pages.map fun p => (vas.filter fun v => v / 65536 == p).foldl min ((p + 1) * 65536)
/-- The next fault ID; 0 is never one (R128). -/
def State.takeFid (s : State) : Nat × State :=
  (s.nextFid, { s with nextFid := if s.nextFid + 1 < 2 ^ 32 then s.nextFid + 1 else 1 })
/-- Queue the fault records of one FID: one for each page, the 255 lowest when there are more (R128, R130).
Each address comes with the KIND of its access; the bits of one page combine. -/
def State.faultRecords (s : State) (fid tid asid site : Nat) (vas : List (Nat × Nat)) : State :=
  let ps := (faultPages (vas.map fun v => v.1)).take 255
  let kind (va : Nat) : Nat := (vas.filter fun v => v.1 / 65536 == va / 65536).foldl (fun k v => k ||| v.2) 0
  { s with faults := s.faults ++ ps.mapIdx fun i va => ⟨fid, tid, va, asid, cTRANSL, kind va, ps.length, i, site⟩ }

/-- KIND of a fault record for an access (R130). -/
def Acc.kind : Acc → Nat
  | .write => 1 | .atomic => 5 | .red => 5 | .fetch => 2 | .copySrc => 8 | .copyDst => 9 | _ => 0

/-- A translation fault of a group's word: the group parks under a new FID (R128). -/
def Issuer.transl (u : Issuer) (s : State) (vas : List (Nat × Nat)) (va lanes : W64) : WordOut :=
  let (fid, s) := s.takeFid
  let s := s.faultRecords fid u.k.tid u.k.asid u.die vas
  .stop (s.setGroup { u.g with stat := .parked fid, wait := none, fence := none, stall := MemStall.none
                               faultVa := va, faultLanes := lanes })

/-- Deliver the code a word's lanes raised, or park. -/
def Issuer.deliver (u : Issuer) (s : State) (acc : Acc) (cs : List LaneCode) : Option WordOut :=
  match pickCode cs with
  | none => none
  | some (code, va, lanes) =>
    if code = cTRANSL then
      some (u.transl s ((cs.filter fun c => c.code == cTRANSL).map fun c => (c.va, acc.kind)) va lanes)
    else some (.fault code va lanes)

/-! ### Global memory: the lines a word needs -/

/-- The core's L1 entry for a line. -/
def Issuer.l1 (u : Issuer) (s : State) (line : Nat) : Option Line :=
  s.mem.line? (.l1 u.t.core) ⟨u.k.asid, line⟩
/-- A line's copy can serve an access: a deckled line must also be in the L2, which it is written through to. -/
def Issuer.ready (u : Issuer) (s : State) (line : Nat) : Bool :=
  match u.l1 s line with
  | some l => !l.attr.dk || (s.mem.line? (.l2 u.die) l.a).isSome
  | none => false

/-- Ask for a line from the core's L1, unless it is being asked for (R110); the miss is counted (R348). -/
def Issuer.ask (u : Issuer) (s : State) (va : Nat) (acc : Acc) (mk : LineId → Node → Req → Body) : State :=
  let a : LineId := ⟨u.k.asid, va / 256⟩
  let n : Node := .l1 u.t.core
  if s.mem.asking n a then s
  else
    let k := s.core u.t.core
    (if acc = .fetch then s else s.setCore { k with l1miss := k.l1miss + 1 }).askUp n a none ⟨n, acc, u.priv, va, some u.g.id⟩ mk

/-- Ask for the lines of some addresses, and wait for them. -/
def Issuer.askAll (u : Issuer) (s : State) (vas : List Nat) (acc : Acc) (mk : LineId → Node → Req → Body) : WordOut :=
  let s := vas.foldl (fun s va => u.ask s va acc mk) s
  let lines := vas.foldl (fun l va => insertAsc l (va / 256)) u.g.stall.asked
  .wait { u.g with wait := some .mem, stall := { u.g.stall with asked := lines } } s

/-- The codes of one lane of a global access, once its line is here or its fill has failed. -/
def Issuer.laneCode (u : Issuer) (s : State) (bytes : Nat) (acc : Acc) (a : LaneAddr) : Option LaneCode :=
  let va := vaOf a.2
  if !inGlobal a.2 then some ⟨a.1, cTRANSL, va⟩
  else match u.g.stall.faults.find? fun f => f.line == va / 256 with
  | some f =>
    some ⟨a.1, if f.dk && !u.k.declares va bytes acc.rights.1 acc.rights.2 then cDECKLE else f.code, va⟩
  | none =>
    match u.l1 s (va / 256) with
    | none => none
    | some l =>
      match l.attr.refuses acc u.priv with
      | some c => some ⟨a.1, c, va⟩
      | none =>
        if l.attr.dk && !u.k.declares va bytes acc.rights.1 acc.rights.2 then some ⟨a.1, cDECKLE, va⟩ else none

/-- What stands between a word and its global access: `none` when every line is here and no lane raises a
code. Misalignment is known at once; the other codes once every line has been answered (R176). -/
def Issuer.gate (u : Issuer) (s : State) (addrs : List LaneAddr) (bytes : Nat) (acc : Acc) (excl : Bool) : Option WordOut :=
  match u.deliver s acc (alignCodes addrs bytes) with
  | some o => some o
  | none =>
    let need := addrs.filter fun a => inGlobal a.2 &&
      !(u.g.stall.faults.any fun f => f.line == vaOf a.2 / 256) && !u.ready s (vaOf a.2 / 256)
    match need with
    | _ :: _ =>
      let fresh := need.filter fun a => !u.g.stall.asked.contains (vaOf a.2 / 256)
      some (u.askAll s (fresh.map fun a => vaOf a.2) acc (if excl then .getX else .getS))
    | [] =>
      match u.deliver s acc (addrs.filterMap (u.laneCode s bytes acc)) with
      | some o => some o
      | none =>
        let shared := addrs.filter fun a => excl && (match u.l1 s (vaOf a.2 / 256) with | some l => l.st == .o | none => false)
        match shared with
        | [] => none
        | _ :: _ => some (u.askAll s (shared.map fun a => vaOf a.2) acc .upgr)

/-- The levels of a core's path for a line, below its home. -/
def Issuer.path (u : Issuer) (line : Nat) : List Node :=
  [.l1 u.t.core, .hub u.die u.t.core.cluster, .l2 u.die, .slice (sliceOf u.sheet line)]
/-- The first level of a line's path that has not registered it as far as a scope asks: the level whose
registration is missing (R112, R145). -/
def Issuer.unregistered (u : Issuer) (s : State) (line scope : Nat) : Option Node :=
  let a : LineId := ⟨u.k.asid, line⟩
  let held (n : Node) : Bool := match s.mem.line? n a with | some l => l.st == .m || l.st == .e || l.attr.dk | none => false
  match u.l1 s line with
  | none => none
  | some l => if l.attr.dk then none else ((u.path line).take scope).find? fun n => !held n

/-- Register the lines of a write up to a scope; `none` when they are. -/
def Issuer.registerUp (u : Issuer) (s : State) (vas : List Nat) (scope : Nat) : Option WordOut :=
  let todo := vas.filterMap fun va => (u.unregistered s (va / 256) scope).map fun n => (n, va)
  match todo with
  | [] => none
  | _ :: _ =>
    let s' := todo.foldl (fun s p =>
      let a : LineId := ⟨u.k.asid, p.2 / 256⟩
      if s.mem.asking p.1 a || s.mem.fwdPending p.1 a then s
      else match s.mem.line? p.1 a with
        | some _ => s.register p.1 a
        | none => s) s
    some (.wait { u.g with wait := some .mem } s')

/-- What stands between a group and an operation that a home performs for it on some addresses (R136, R137, R145, R197,
R311): copies of the path that are held in W are registered first; of a deckled line the die's copies are written back and
removed; and what is on its way home from the die must have been performed there. The state with that begun; `none` when
nothing stands. -/
def Issuer.ownStart (u : Issuer) (s : State) (vas : List Nat) : Option State :=
  let ids : List LineId := vas.map fun va => ⟨u.k.asid, va / 256⟩
  let dk := ids.filter fun a => s.mem.lines.any fun l => l.a == a && nodeDie l.node == some u.die && l.attr.dk
  let ws := ids.filterMap fun a => ((u.path a.line).find? fun n => match s.mem.line? n a with
    | some l => l.st == .w && !l.attr.dk
    | none => false).map fun n => (n, a)
  let out := ids.any fun a => s.nibblesOut u.die (fun b => b == a) ||
    (s.mem.net.any fun m => match m.body with | .wbDirty b n _ _ _ _ => b == a && nodeDie n == some u.die | _ => false)
  if dk = [] ∧ ws = [] ∧ out = false then none
  else
    let s := dk.foldl (fun s a => match s.mem.line? (.l2 u.die) a with
      | some l => s.flushDie u.die a l.attr.home (.group u.g.id)
      | none => (s.gatherDie u.die a).2.2.2) s
    some (ws.foldl (fun s p => if s.canRegister p.1 p.2 then s.register p.1 p.2 else s) s)
/-- The same for a word: it waits meanwhile. -/
def Issuer.ownFirst (u : Issuer) (s : State) (vas : List Nat) : Option WordOut :=
  (u.ownStart s vas).map fun s => .wait { u.g with wait := some .mem } s
/-- A home performs, or has performed without its Invs having all arrived, an operation that an agent of the sheet asked
for on a line: an atomic performed below the home on that line waits (R145). -/
def Issuer.homeWorks (u : Issuer) (s : State) (a : LineId) : Bool :=
  (s.mem.net.any fun m => match m.body with
    | .homeAtomic _ asid _ ops => asid == a.asid && siteSheet m.src == u.sheet && ops.any fun o => o.addr / 256 == a.line
    | .nearRed _ asid _ ops => asid == a.asid && siteSheet m.src == u.sheet && ops.any fun o => o.addr / 256 == a.line
    | .inv b kid _ => b == a && (u.path a.line).contains kid
    | .fwdX b kid _ => b == a && (u.path a.line).contains kid
    | .recall b kid _ => b == a && (u.path a.line).contains kid
    | _ => false)

/-! ### Global memory: reading and writing the L1 -/

/-- An access takes the 64-byte line it lies in as the most recently used one of its L1; when the L1 does not hold it under
its 256-byte line, it comes from the L2, which counts as a miss (R102, R108, R348). -/
def Issuer.touchL1 (u : Issuer) (s : State) (va : Nat) : State :=
  match u.l1 s (va / 256) with
  | none => s
  | some l =>
    let k := s.core u.t.core
    let e := (u.k.asid, va / 64)
    if k.l1.contains e then s.setCore { k with l1 := e :: k.l1.erase e }
    else
      let s := s.setCore { k with l1 := e :: k.l1, l1miss := k.l1miss + 1 }
      match s.mem.line? (.l2 u.die) l.a with
      | some h => s.mapMem fun x => x.setLine
          { l with val := lineMerge l.val h.val (lineMask (va / 64 % 4 * 64) 64 &&& ~~~l.dirty) }
      | none => s
/-- The accesses of a word take their lines. -/
def Issuer.touchAll (u : Issuer) (s : State) (vas : List Nat) : State := vas.foldl (fun s va => u.touchL1 s va) s
/-- Perform what a word does in its L1: its lines are taken, and what the ways do not hold goes afterwards. -/
def Issuer.inL1 (u : Issuer) (s : State) (vas : List Nat) (f : State → State) : State := (f (u.touchAll s vas)).trimL1 u.t.core

/-- Read bytes from the core's L1; a line that is not there reads as zero, and no word gets that far. -/
def Issuer.readL1 (u : Issuer) (s : State) (va bytes : Nat) : Nat :=
  match u.l1 s (va / 256) with
  | some l => lineNat l.val (va % 256) bytes
  | none => 0

/-- Write bits into the core's L1 line (R102, R110): a coherent line becomes dirty there, S becoming W and E
becoming M; a deckled line is written through to the L2. -/
def Issuer.writeL1 (u : Issuer) (s : State) (va : Nat) (val mask : BitVec 2048) : State :=
  match u.l1 s (va / 256) with
  | none => s
  | some l =>
    let s := s.endWfa fun c a => c == u.t.core && a == l.a
    let v := lineMerge l.val val mask
    if l.attr.dk then
      let s := s.mapMem fun x => x.setLine { l with val := v }
      match s.mem.line? (.l2 u.die) l.a with
      | some e => s.mapMem fun x => x.setLine { e with val := lineMerge e.val val mask, dirty := e.dirty ||| mask }
      | none => s
    else s.mapMem fun x => x.setLine { l.written (s.now (.die u.die)) with val := v, dirty := l.dirty ||| mask }

/-- One lane's store: its bytes or its nibble, as a value and a bit mask. -/
structure LaneStore where
  lane : Nat
  addr : Int
  bytes : Nat
  val : Nat
  /-- Enabled bits of the value. -/
  mask : Nat
  deriving DecidableEq, Repr

/-- Perform a lane's store in the L1. -/
def Issuer.storeL1 (u : Issuer) (s : State) (x : LaneStore) : State :=
  let va := vaOf x.addr
  u.writeL1 s va (linePlace (va % 256) x.val) (linePlace (va % 256) x.mask)

/-! ### SRAM spaces (R96 to R101) -/

/-- The range of a space: first address and end, for the spaces with one (R96). -/
def Issuer.range (u : Issuer) : Space → Nat × Nat
  | .glob => (0, 0)
  | .sp => (u.t.spbase, u.t.spbase + u.k.launch.spSize)
  | .cw => (u.t.cwbase, u.t.cwbase + u.k.launch.cwSize)
  | .ds => (0, 2 ^ 24)
  | .priv => (0, u.k.launch.privbytes)

/-- Whether an unprivileged access to the die scratchpad is allowed (R100, R101): program granules go by the
owner table, and the system area is read only. -/
def Issuer.dieAllowed (u : Issuer) (s : State) (a : Nat) (write : Bool) : Bool :=
  if a / 65536 < 240 then
    u.priv || (let e := s.reg (offOwner u.die (a / 65536)); bit e 16 && bits e 15 0 == u.k.asid)
  else !write || (u.priv && !(decide (0xF10000 ≤ a) && decide (a < 0xF11000)))

/-- The 4-byte words of a space with an uncorrectable error that an access reads (R198). -/
def Issuer.badWord (u : Issuer) (s : State) (space : Space) (a bytes : Nat) : Option Nat :=
  let hit (l : List Nat) (base : Nat) : Option Nat :=
    (l.find? fun w => decide (base ≤ w) && decide (w + 4 > a + base) && decide (w < a + base + bytes)).map fun w => w - base
  match space with
  | .sp => hit u.t.spBad 0
  | .cw => hit s.mem.winBad ((u.t.cwDie * 32 + u.t.cwCluster) * 2 ^ 21)
  | .ds => hit s.mem.dspBad (u.die * 2 ^ 24)
  | _ => none

/-- The codes of an SRAM access (R97, R100, R198). -/
def Issuer.sramCodes (u : Issuer) (s : State) (space : Space) (addrs : List LaneAddr) (bytes : Nat) (reads writes : Bool) : List LaneCode :=
  let r := u.range space
  alignCodes addrs bytes ++ addrs.filterMap fun a =>
    if a.2 < (r.1 : Int) ∨ (r.2 : Int) < a.2 + bytes then some ⟨a.1, cSPACE, vaOf a.2⟩
    else if space = .ds ∧ u.dieAllowed s a.2.toNat writes = false then some ⟨a.1, cPROT, vaOf a.2⟩
    else if reads then (u.badWord s space a.2.toNat bytes).map fun w => ⟨a.1, cLOSTLINE, w⟩
    else none

/-- Where byte `p` of a lane's private memory lies in the team's backing (R98). -/
def Issuer.privOff (u : Issuer) (lane p : Nat) : Nat :=
  u.g.id.grp * u.k.launch.privbytes * u.w + p / 4 * 4 * u.w + 4 * lane + p % 4

/-- The window's own hub is the one of the core's cluster (R99). -/
def Issuer.windowLocal (u : Issuer) : Bool := u.t.cwDie == u.die && u.t.cwCluster == u.t.core.cluster
def Issuer.windowBase (u : Issuer) : Nat := (u.t.cwDie * 32 + u.t.cwCluster) * 2 ^ 21

/-- Read a lane's bytes from an SRAM space. The reserved part of the die scratchpad reads as zero (R100). -/
def Issuer.readSram (u : Issuer) (s : State) (space : Space) (lane a bytes : Nat) : Nat :=
  match space with
  | .glob => 0
  | .sp => leNat ((List.range bytes).map fun j => undefRead u.t.sp u.t.epoch (a + j))
  | .cw => s.mem.window.nat (u.windowBase + a) bytes
  | .ds => if 0xF11000 ≤ a then 0 else s.mem.dieSp.nat (u.die * 2 ^ 24 + a) bytes
  | .priv => leNat ((List.range bytes).map fun j =>
      match u.t.priv.find? fun c => c.1 == u.privOff lane (a + j) with
      | some c => c.2
      | none => Config.undefByte u.t.epoch (2 ^ 18 + u.privOff lane (a + j)))

/-- A full write of a 4-byte word clears its error (R198). -/
def clearBad (l : List Nat) (a bytes : Nat) : List Nat :=
  l.filter fun w => !(decide (a ≤ w) && decide (w + 4 ≤ a + bytes))

/-- The bits of a home region table entry that are not reserved (R113), and those of byte `a` of the die scratchpad that
hold what is stored (R100, R113). -/
def maskHome : Nat := ones 8 * 2 ^ 96 + ones 28 * 2 ^ 64 + ones 63
def dieSpKeep (a : Nat) : BitVec 8 :=
  if 0xF00000 ≤ a ∧ a < 0xF10000 then BitVec.ofNat 8 (maskHome / 2 ^ (8 * (a % 16))) else BitVec.allOnes 8
/-- Merge the enabled bits of a store into the bytes it finds. -/
def mergeBytes (old val mask bytes : Nat) : List (BitVec 8) :=
  leBytes bytes ((old &&& (ones (8 * bytes) ^^^ mask % 2 ^ (8 * bytes))) ||| (val &&& mask))

/-- Write a lane's bytes into an SRAM space; the team is the one the state now holds, so that the lanes of one
word follow each other. A store to the reserved part of the die scratchpad is ignored (R100). -/
def Issuer.writeSram (u : Issuer) (s : State) (space : Space) (x : LaneStore) : State :=
  let a := x.addr.toNat
  match space with
  | .glob => s
  | .sp =>
    match s.team? u.t.tid u.t.team with
    | none => s
    | some t =>
      let old := leNat ((List.range x.bytes).map fun j => undefRead t.sp t.epoch (a + j))
      s.setTeam { t with sp := undefWrite t.sp a (mergeBytes old x.val x.mask x.bytes), spBad := clearBad t.spBad a x.bytes }
  | .cw =>
    let b := u.windowBase + a
    s.mapMem fun m => { m with
      window := m.window.write b (mergeBytes (m.window.nat b x.bytes) x.val x.mask x.bytes)
      winBad := clearBad m.winBad b x.bytes }
  | .ds =>
    if 0xF11000 ≤ a then s
    else
      let b := u.die * 2 ^ 24 + a
      s.mapMem fun m => { m with
        dieSp := m.dieSp.write b ((mergeBytes (m.dieSp.nat b x.bytes) x.val x.mask x.bytes).mapIdx fun j y => y &&& dieSpKeep (a + j))
        dspBad := clearBad m.dspBad b x.bytes }
  | .priv =>
    match s.team? u.t.tid u.t.team with
    | none => s
    | some t =>
      let cells := (leBytes x.bytes x.val).mapIdx fun j b => (u.privOff x.lane (a + j), b)
      s.setTeam { t with priv := cells.foldl (fun p c => undefPut p c.1 c.2) t.priv }

/-! ### Requests that a home, a hub or another sheet performs whole -/

/-- The home tower that the issuing die's table names for an address (R114). -/
def Issuer.home (u : Issuer) (s : State) (va : Nat) : Option Nat := s.mem.dieHome u.die u.k.asid va

/-- Send such a request and wait for its answer. -/
def Issuer.sendOut (u : Issuer) (s : State) (cls : MClass) (dst : Site) (body : Body) : WordOut :=
  .wait { u.g with wait := some .mem, stall := { u.g.stall with sent := true } } (s.request cls (.die u.die) dst body)

end Sys2Proof.Machine
end

