-- ==== Sys2Proof/Machine/Vector.lean ====
section
/-! DEFINITION. The integer and floating-point vector words (R282 to R289). -/

namespace Sys2Proof.Machine

/-- One more than the highest named register that a vector word names (R158). -/
def vtop3 (d : Dst) (a b : Src) : Nat := max (d.vtop 1) (max (a.vtop 1) (b.vtop 1))

/-- A vector-result word of two sources (R282 to R284). -/
def vector3 (d : Dst) (a b : Src) (f : W32 → W32 → W32) : State → Out :=
  runPure (okV3 d a b) (vtop3 d a b) (1 + a.nlit + b.nlit) fun u =>
    u.g.writeVec u.w d fun i => f (u.g.laneSrc a i) (u.g.laneSrc b i)

/-- A vector-result word of one source. -/
def vector2 (d : Dst) (a : Src) (f : W32 → W32) : State → Out :=
  runPure (okV2 d a) (max (d.vtop 1) (a.vtop 1)) (1 + a.nlit) fun u =>
    u.g.writeVec u.w d fun i => f (u.g.laneSrc a i)

/-- A vector-result word of three sources. -/
def vector4 (d : Dst) (a b c : Src) (f : W32 → W32 → W32 → W32) : State → Out :=
  runPure (okV4 d a b c) (max (vtop3 d a b) (c.vtop 1)) (1 + a.nlit + b.nlit + c.nlit) fun u =>
    u.g.writeVec u.w d fun i => f (u.g.laneSrc a i) (u.g.laneSrc b i) (u.g.laneSrc c i)

/-- vadd (R285). -/
def execVadd (d : Dst) (a b : Src) (s : State) : Out :=
  vector3 d a b (fun x y => x + y) s

/-- vsub (R285). -/
def execVsub (d : Dst) (a b : Src) (s : State) : Out :=
  vector3 d a b (fun x y => x - y) s

/-- vmul (R285). -/
def execVmul (d : Dst) (a b : Src) (s : State) : Out :=
  vector3 d a b (fun x y => x * y) s

/-- vmulh.s (R285). -/
def execVmulhS (d : Dst) (a b : Src) (s : State) : Out :=
  vector3 d a b vmulhS s

/-- vmulh.z (R285). -/
def execVmulhZ (d : Dst) (a b : Src) (s : State) : Out :=
  vector3 d a b vmulhZ s

/-- vmad (R285): one wrap. -/
def execVmad (d : Dst) (a b c : Src) (s : State) : Out :=
  vector4 d a b c (fun x y z => x * y + z) s

/-- vadds.s (R285). -/
def execVaddsS (d : Dst) (a b : Src) (s : State) : Out :=
  vector3 d a b vaddsS s

/-- vsubs.s (R285). -/
def execVsubsS (d : Dst) (a b : Src) (s : State) : Out :=
  vector3 d a b vsubsS s

/-- vmin.s (R285). -/
def execVminS (d : Dst) (a b : Src) (s : State) : Out :=
  vector3 d a b vminS s

/-- vmax.s (R285). -/
def execVmaxS (d : Dst) (a b : Src) (s : State) : Out :=
  vector3 d a b vmaxS s

/-- vmin.z (R285). -/
def execVminZ (d : Dst) (a b : Src) (s : State) : Out :=
  vector3 d a b vminZ s

/-- vmax.z (R285). -/
def execVmaxZ (d : Dst) (a b : Src) (s : State) : Out :=
  vector3 d a b vmaxZ s

/-- vabs.s (R285). -/
def execVabsS (d : Dst) (a : Src) (s : State) : Out :=
  vector2 d a vabsS s

/-- vand (R285). -/
def execVand (d : Dst) (a b : Src) (s : State) : Out :=
  vector3 d a b (fun x y => x &&& y) s

/-- vor (R285). -/
def execVor (d : Dst) (a b : Src) (s : State) : Out :=
  vector3 d a b (fun x y => x ||| y) s

/-- vxor (R285). -/
def execVxor (d : Dst) (a b : Src) (s : State) : Out :=
  vector3 d a b (fun x y => x ^^^ y) s

/-- vshl (R286). -/
def execVshl (d : Dst) (a b : Src) (s : State) : Out :=
  vector3 d a b shl32 s

/-- vshr (R286). -/
def execVshr (d : Dst) (a b : Src) (s : State) : Out :=
  vector3 d a b shr32 s

/-- vsar (R286). -/
def execVsar (d : Dst) (a b : Src) (s : State) : Out :=
  vector3 d a b sar32 s

/-- vclz (R285). -/
def execVclz (d : Dst) (a : Src) (s : State) : Out :=
  vector2 d a (fun x => BitVec.ofNat 32 (leadZeros 32 x.toNat)) s

/-- vpopc (R285). -/
def execVpopc (d : Dst) (a : Src) (s : State) : Out :=
  vector2 d a (fun x => BitVec.ofNat 32 (popcount 32 x.toNat)) s

/-- vbfx (R286): a field of c bits (0 means 32) at position u(y). -/
def execVbfx (d : Dst) (a b : Src) (c : Code) (s : State) : Out :=
  runPure (okVbf d a b c) (vtop3 d a b) (1 + a.nlit + b.nlit) (fun u =>
    u.g.writeVec u.w d fun i => bfx32 (fieldWidth 32 c.val) (u.g.laneSrc a i) (u.g.laneSrc b i)) s

/-- vbfi (R286): a field of c bits (0 means 32) put into the old lane at position u(y). -/
def execVbfi (d : Dst) (a b : Src) (c : Code) (s : State) : Out :=
  runPure (okVbf d a b c) (vtop3 d a b) (1 + a.nlit + b.nlit) (fun u =>
    u.g.writeVec u.w d fun i =>
      bfi32 (fieldWidth 32 c.val) (u.g.oldLane d i) (u.g.laneSrc a i) (u.g.laneSrc b i)) s

/-- vsel (R285): x where the mask holds a one, otherwise y. -/
def execVsel (d : Dst) (a b : Src) (c : Code) (s : State) : Out :=
  runPure (okVk8 d a b c) (vtop3 d a b) (1 + a.nlit + b.nlit) (fun u =>
    u.g.writeVec u.w d fun i =>
      if (u.g.mask c.val).getLsbD i then u.g.laneSrc a i else u.g.laneSrc b i) s

/-- vmov (R285). -/
def execVmov (d : Dst) (a : Src) (s : State) : Out :=
  vector2 d a (fun x => x) s

/-- vfadd (R287, R250). -/
def execVfadd (d : Dst) (a b : Src) (s : State) : Out :=
  vector3 d a b f32Add s

/-- vfsub (R287, R250). -/
def execVfsub (d : Dst) (a b : Src) (s : State) : Out :=
  vector3 d a b f32Sub s

/-- vfmul (R287, R250). -/
def execVfmul (d : Dst) (a b : Src) (s : State) : Out :=
  vector3 d a b f32Mul s

/-- vffma (R287, R250): one rounding. -/
def execVffma (d : Dst) (a b c : Src) (s : State) : Out :=
  vector4 d a b c f32Fma s

/-- vfmin (R287, R251). -/
def execVfmin (d : Dst) (a b : Src) (s : State) : Out :=
  vector3 d a b f32Min s

/-- vfmax (R287, R251). -/
def execVfmax (d : Dst) (a b : Src) (s : State) : Out :=
  vector3 d a b f32Max s

/-- vfabs (R287, R250). -/
def execVfabs (d : Dst) (a : Src) (s : State) : Out :=
  vector2 d a f32Abs s

/-- vfneg (R287, R250). -/
def execVfneg (d : Dst) (a : Src) (s : State) : Out :=
  vector2 d a f32Neg s

/-- vfdiv (R287, R250). -/
def execVfdiv (d : Dst) (a b : Src) (s : State) : Out :=
  vector3 d a b f32Div s

/-- vfsqrt (R287, R250). -/
def execVfsqrt (d : Dst) (a : Src) (s : State) : Out :=
  vector2 d a f32Sqrt s

/-- vfrcp (R287, R263). -/
def execVfrcp (d : Dst) (a : Src) (s : State) : Out :=
  vector2 d a f32Rcp s

/-- vfrsq (R287, R263). -/
def execVfrsq (d : Dst) (a : Src) (s : State) : Out :=
  vector2 d a f32Rsq s

/-- vfex2 (R287, R263). -/
def execVfex2 (d : Dst) (a : Src) (s : State) : Out :=
  vector2 d a f32Ex2 s

/-- vflg2 (R287, R263). -/
def execVflg2 (d : Dst) (a : Src) (s : State) : Out :=
  vector2 d a f32Lg2 s

/-- vfsinp (R287, R263). -/
def execVfsinp (d : Dst) (a : Src) (s : State) : Out :=
  vector2 d a f32SinP s

/-- vfcosp (R287, R263). -/
def execVfcosp (d : Dst) (a : Src) (s : State) : Out :=
  vector2 d a f32CosP s

/-- vfrnd (R288): the integral value under the mode in c. -/
def execVfrnd (d : Dst) (a : Src) (c : Code) (s : State) : Out :=
  runPure (okVrnd d a c) (max (d.vtop 1) (a.vtop 1)) (1 + a.nlit) (fun u =>
    u.g.writeVec u.w d fun i => f32Rnd (rmodeOf c.val).dir (u.g.laneSrc a i)) s

/-- vfcls (R289). -/
def execVfcls (d : Dst) (a : Src) (s : State) : Out :=
  vector2 d a f32Class s

end Sys2Proof.Machine
end

