-- ==== Sys2Proof/Machine/MemInstr.lean ====
section
/-! DEFINITION. The memory words of a group (R303 to R318) and the events that answer them: loads, stores,
atomics, reductions, prefetch, cache maintenance, home atomics and reductions, and the cluster window. -/

namespace Sys2Proof.Machine

/-! ### Loads (R305, R308) -/

/-- ext of R305: words below 32 bits are zero- or sign-extended to 32 bits. -/
def extend (bytes : Nat) (sext : Bool) (x : Nat) : Nat :=
  if bytes = 1 then (if sext then (BitVec.ofInt 32 (BitVec.ofNat 8 x).toInt).toNat else x % 2 ^ 8)
  else if bytes = 2 then (if sext then (BitVec.ofInt 32 (BitVec.ofNat 16 x).toInt).toNat else x % 2 ^ 16)
  else x

/-- Push the words of a result, lowest first, and write the named registers, from lane values (R284, R305). -/
def Group.pushWords (g : Group) (w : Nat) (d : Dst) (words : Nat) (val : Nat → Nat) : Group :=
  (List.range words).foldl (fun g j =>
    let old (i : Nat) : W32 := match d with | .v k => lane (g.v.getD (k.val + j) []) i | _ => 0
    let out := (List.range w).map fun i => if g.enabled i then BitVec.ofNat 32 (val i / 2 ^ (32 * j)) else old i
    let g := { g with q := pushQ g.q out }
    match d with
    | .v k => g.setV (k.val + j) out
    | _ => g) g

/-- The value a list of lanes gives lane `i`. -/
def laneVal (lanes : List Nat) (vals : List Nat) (i : Nat) : Nat :=
  match (lanes.zip vals).find? fun p => p.1 == i with
  | some p => p.2
  | none => 0

/-- The group after a load, from the values its lanes read. -/
def Issuer.loaded (u : Issuer) (w : LoadWord) (vals : List Nat) : Group :=
  if w.scalar then u.g.setS w.d (BitVec.ofNat 64 (vals.headD 0))
  else u.g.pushWords u.w w.d (max 1 (w.bytes / 4)) fun i => extend w.bytes w.sext (laneVal (u.lanes false) vals i)

/-- Commit a load, and acquire when its order is 01 (R139, R305). -/
def Issuer.commitLoad (u : Issuer) (s : State) (w : LoadWord) (vals : List Nat) : WordOut :=
  let g := u.loaded w vals
  if w.m.order.val = 1 then u.acquire s g w.m.scope.val else .done g s

/-- A load that must wait keeps its word, so that LOAD_RESPONSE can commit it. -/
def keepLoad (w : LoadWord) : WordOut → WordOut
  | .wait g s => .wait { g with stall := { g.stall with load := some w } } s
  | o => o

/-- One lane's read as a request to a hub. -/
def readOp (bytes : Nat) (a : LaneAddr) : LaneOp := ⟨a.1, a.2.toNat, bytes, 0, none, 0, 0⟩

/-- A request to another cluster's hub that has failed (R33, R34): every lane meets the code. -/
def Issuer.lostRequest (u : Issuer) (s : State) (acc : Acc) (addrs : List LaneAddr) : Option WordOut :=
  match u.g.stall.faults with
  | [] => none
  | f :: _ => u.deliver s acc (addrs.map fun a => ⟨a.1, f.code, vaOf a.2⟩)

/-- A load (R305, R308): the lines it needs are asked for; nothing commits before every lane has its data
(R174). -/
def Issuer.loadStep (u : Issuer) (s : State) (w : LoadWord) : WordOut :=
  let addrs := u.addrs w.scalar w.base w.off
  match w.space with
  | .glob =>
    match u.gate s addrs w.bytes .read false with
    | some o => keepLoad w o
    | none =>
      let s := u.touchAll s (addrs.map fun a => vaOf a.2)
      u.commitLoad (s.trimL1 u.t.core) w (addrs.map fun a => u.readL1 s (vaOf a.2) w.bytes)
  | space =>
    match u.deliver s .read (u.sramCodes s space addrs w.bytes true false) with
    | some o => o
    | none =>
      if space = .cw ∧ u.windowLocal = false ∧ addrs ≠ [] then
        match u.g.stall.result with
        | some vals => u.commitLoad s w vals
        | none =>
          match u.lostRequest s .read addrs with
          | some o => o
          | none =>
          if u.g.stall.sent then keepLoad w (.wait u.g s)
          else keepLoad w (u.sendOut s .req (.die u.t.cwDie) (.window u.g.id (addrs.map (readOp w.bytes))))
      else u.commitLoad s w (addrs.map fun a => u.readSram s space a.1 a.2.toNat w.bytes)

/-- Words of a memory instruction: itself and its literals. -/
def memLen (base off : Src) : Nat := 1 + base.nlit + off.nlit

/-- A vector load. -/
def vload (ok : Bool) (space : Space) (bytes : Nat) (sext : Bool) (d : Dst) (base off : Src) (m : MemMods) : State → Out :=
  runWord ok (max (d.vtop (max 1 (bytes / 4))) (max (base.vtop 1) (off.vtop 1))) (memLen base off) fun u s =>
    u.loadStep s ⟨space, bytes, sext, d, base, off, m, false⟩
/-- A scalar load. -/
def sload (ok : Bool) (space : Space) (bytes : Nat) (d : Dst) (base off : Src) (m : MemMods) : State → Out :=
  runWordTo d ok 0 (memLen base off) fun u s => u.loadStep s ⟨space, bytes, false, d, base, off, m, true⟩

/-- The unit of protected storage that an access of a space reads: its line in the L1, or its SRAM word. -/
def Issuer.eccUnit (u : Issuer) (space : Space) (a : Int) : Option EccUnit :=
  match space with
  | .glob => some (.line (.l1 u.t.core) ⟨u.k.asid, vaOf a / 256⟩)
  | .sp => some (.spWord u.t.tid u.t.team a.toNat)
  | .cw => some (.cwWord u.t.cwDie u.t.cwCluster a.toNat)
  | .ds => some (.dsWord u.die a.toNat)
  | .priv => none
/-- The unit that the first lane of a load reads. -/
def Issuer.loadUnit (u : Issuer) (w : LoadWord) : Option EccUnit :=
  (u.addrs w.scalar w.base w.off).head?.bind fun a => u.eccUnit w.space a.2
/-- LOAD_RESPONSE (R198, R305): the data of a group's load has returned, and the word commits its push and its
register write, or delivers what its lanes met; an error in what the load reads first has its effect before that. -/
def execLoadResponse (g : GroupRef) (ecc : Ecc) (s : State) : Out :=
  match s.issuerOf g with
  | none => s.stays
  | some u =>
    match u.g.stall.load with
    | none => s.stays
    | some w =>
      if u.g.stall.asked ≠ [] ∨ (u.g.stall.sent = true ∧ u.g.stall.result = none) then s.stays
      else
        let s := s.found ecc (u.loadUnit w)
        match s.issuerOf g with
        | some u => .next (s.settle u (memLen w.base w.off) (u.loadStep s w))
        | none => .next s

/-! ### Stores (R306 to R308) -/

/-- The data of a lane (R306, R308). -/
def Issuer.storeData (u : Issuer) (x : Src) (bytes i : Nat) (scalar : Bool) : Nat :=
  if scalar then (u.g.scalar x).toNat
  else if bytes ≤ 4 then (u.g.laneSrc x i).toNat
  else match x with
    | .v k => (List.range (bytes / 4)).foldl (fun acc j => acc + (lane (u.g.v.getD (k.val + j) []) i).toNat * 2 ^ (32 * j)) 0
    | .s n => u.g.s[n].toNat
    | _ => 0

/-- The stores of a word's lanes, in ascending lane order. -/
def Issuer.stores (u : Issuer) (x base off : Src) (bytes : Nat) (scalar : Bool) : List LaneStore :=
  (u.addrs scalar base off).map fun a =>
    ⟨a.1, a.2, bytes, u.storeData x bytes a.1 scalar % 2 ^ (8 * bytes), ones (8 * bytes)⟩
/-- The stores of a nibble store (R307). -/
def Issuer.nibStores (u : Issuer) (x base off : Src) : List LaneStore :=
  (u.nibAddrs base off).map fun a =>
    let n := (u.g.addrPart off a.1 % 2).toNat
    ⟨a.1, a.2, 1, (u.g.laneSrc x a.1).toNat % 16 * 2 ^ (4 * n), 15 * 2 ^ (4 * n)⟩

/-- A lane's write as a request to a hub. -/
def writeOp (x : LaneStore) : LaneOp := ⟨x.lane, x.addr.toNat, x.bytes, x.mask, some none, x.val, 0⟩

/-- A store (R306): every lane is checked, an ordered store releases, and the lanes are written in ascending
order; a release store's lines are registered at its scope before it performs there, and at .sy what it writes to host
memory is flushed to the port (R138). -/
def Issuer.storeStep (u : Issuer) (s : State) (space : Space) (xs : List LaneStore) (bytes : Nat) (m : MemMods) : WordOut :=
  let addrs := xs.map fun x => (x.lane, x.addr)
  let rel (k : WordOut) : WordOut :=
    if m.order.val = 1 then (match u.release s m.scope.val with | some o => o | none => k) else k
  match space with
  | .glob =>
    match u.gate s addrs bytes .write true with
    | some o => o
    | none =>
      rel (match (if m.order.val = 1 then u.registerUp s (xs.map fun x => vaOf x.addr) m.scope.val else none) with
        | some o => o
        | none =>
          let s := u.inL1 s (xs.map fun x => vaOf x.addr) fun s => xs.foldl (fun s x => u.storeL1 s x) s
          .done u.g (if m.order.val = 1 ∧ m.scope.val = 5 then s.flushHost u.die else s))
  | _ =>
    match u.deliver s .write (u.sramCodes s space addrs bytes false true) with
    | some o => o
    | none =>
      rel (if space = .cw ∧ u.windowLocal = false ∧ xs ≠ [] then
        match u.g.stall.result with
        | some _ => .done u.g s
        | none =>
          match u.lostRequest s .write addrs with
          | some o => o
          | none =>
          if u.g.stall.sent then .wait u.g s
          else u.sendOut s .req (.die u.t.cwDie) (.window u.g.id (xs.map writeOp))
      else .done u.g (xs.foldl (fun s x => u.writeSram s space x) s))

/-- A vector store. -/
def vstore (ok : Bool) (space : Space) (bytes : Nat) (x base off : Src) (m : MemMods) : State → Out :=
  runWord ok (max (x.vtop (max 1 (bytes / 4))) (max (base.vtop 1) (off.vtop 1))) (memLen base off + x.nlit) fun u s =>
    u.storeStep s space (u.stores x base off bytes false) bytes m
/-- A nibble store. -/
def nstore (space : Space) (x base off : Src) (m : MemMods) : State → Out :=
  runWord (okSt x base off m) (max (x.vtop 1) (max (base.vtop 1) (off.vtop 1))) (memLen base off + x.nlit) fun u s =>
    u.storeStep s space (u.nibStores x base off) 1 m
/-- A scalar store. -/
def sstore (space : Space) (bytes : Nat) (x base off : Src) (m : MemMods) : State → Out :=
  runWord (okSst x base off m) 0 (memLen base off + x.nlit) fun u s =>
    u.storeStep s space (u.stores x base off bytes true) bytes m

/-! ### Atomics and reductions (R309 to R312) -/

/-- One lane's operation with its operands. -/
structure LaneAtom where
  lane : Nat
  addr : Int
  x : Nat
  y : Nat
  deriving DecidableEq, Repr

/-- x and y of a lane, from the operand registers (R310). -/
def Issuer.atomArgs (u : Issuer) (op : AtomOp) (d : Dst) (i : Nat) (scalar : Bool) : Nat × Nat :=
  match d with
  | .v k =>
    let r (j : Nat) : Nat := (lane (u.g.v.getD (k.val + j) []) i).toNat
    match op with
    | .cas => (r 0, r 1)
    | .addB64 => (r 0 + r 1 * 2 ^ 32, 0)
    | .casB64 => (r 0 + r 1 * 2 ^ 32, r 2 + r 3 * 2 ^ 32)
    | _ => (r 0, 0)
  | .s n => if scalar then (u.g.s[n].toNat, (u.g.s.getD (n.val + 1) 0).toNat) else (0, 0)
  | _ => (0, 0)

def Issuer.atoms (u : Issuer) (op : AtomOp) (d : Dst) (base off : Src) (scalar : Bool) : List LaneAtom :=
  (u.addrs scalar base off).map fun a => let p := u.atomArgs op d a.1 scalar; ⟨a.1, a.2, p.1, p.2⟩

/-- Perform the lanes of an atomic in ascending order at some place that reads and writes bytes; each lane
returns the value the one before it left (R310). -/
def atomFold (op : AtomOp) (rd : State → LaneAtom → Nat) (wr : State → LaneAtom → Nat → State) (xs : List LaneAtom)
    (s : State) : List (Nat × Nat) × State :=
  xs.foldl (fun acc x =>
    let old := rd acc.2 x
    (acc.1 ++ [(x.lane, old)], match atomNew op old x.x x.y with
      | some v => wr acc.2 x v
      | none => acc.2)) ([], s)

/-- An atomic's request to a home. -/
def atomOp (op : AtomOp) (x : LaneAtom) : LaneOp :=
  ⟨x.lane, vaOf x.addr, op.bytes, 0, some (some op), x.x, x.y⟩

/-- The group after an atomic, from the values its lanes read (R310). -/
def Issuer.atomed (u : Issuer) (op : AtomOp) (d : Dst) (scalar : Bool) (vals : List (Nat × Nat)) : Group :=
  let v (i : Nat) : Nat := match vals.find? fun p => p.1 == i with | some p => p.2 | none => 0
  if scalar then u.g.setS d (BitVec.ofNat 64 (v 0))
  else u.g.pushWords u.w d (op.bytes / 4) v

/-- The codes of lanes whose home is asked to perform them: those the die finds, then those the home answered. -/
def Issuer.homeCodes (u : Issuer) (s : State) (addrs : List LaneAddr) : List LaneCode :=
  addrs.filterMap fun a =>
    let va := vaOf a.2
    if !inGlobal a.2 then some ⟨a.1, cTRANSL, va⟩
    else if (u.home s va).isNone then some ⟨a.1, cNOHOME, va⟩
    else (u.g.stall.faults.find? fun f => f.line == va / 256).map fun f => ⟨a.1, f.code, va⟩

/-- Have the home perform operations on some lanes; `.inr` when it has, with what it returned (R145, R311).
When a lane lies outside the address space nothing is performed, and the others are only checked. -/
def Issuer.atHome (u : Issuer) (s : State) (acc : Acc) (addrs : List LaneAddr) (ops : List LaneOp) : WordOut ⊕ List (Nat × Nat) :=
  match addrs with
  | [] => .inr []
  | _ :: _ =>
    let outside := addrs.any fun a => !inGlobal a.2
    match u.g.stall.result with
    | some vals =>
      match (if outside then u.deliver s acc (u.homeCodes s addrs) else none) with
      | some o => .inl o
      | none => .inr ((ops.map fun o => o.lane).zip vals)
    | none =>
      if u.g.stall.sent then .inl (.wait u.g s)
      else
        let codes := u.homeCodes s addrs
        let known := u.g.stall.faults ≠ [] ∨ (codes.any fun c => c.code == cNOHOME) = true ∨ (codes.length = addrs.length)
        match (if known then u.deliver s acc codes else none) with
        | some o => .inl o
        | none =>
          let ops := if outside then
              (ops.filter fun o => inGlobal (BitVec.ofNat 64 o.addr).toInt).map fun o => { o with op := none }
            else ops
          match ops.head?.bind fun o => u.home s o.addr with
          | none => .inl (.wait u.g s)
          | some h => .inl (u.sendOut s .req (.tower h)
              (if acc = .red then .nearRed u.g.id u.k.asid u.priv ops else .homeAtomic u.g.id u.k.asid u.priv ops))

/-- What stands between a word and the home operations of its lanes; once they have been sent nothing does. -/
def Issuer.homeFirst (u : Issuer) (s : State) (addrs : List LaneAddr) : Option WordOut :=
  if u.g.stall.sent = true ∨ u.g.stall.result.isSome = true ∨ u.g.stall.faults ≠ [] then none
  else u.ownFirst s ((addrs.filter fun a => inGlobal a.2).map fun a => vaOf a.2)

/-- Whether a lane's line is a deckled one. -/
def Issuer.deckled (u : Issuer) (s : State) (a : Int) : Bool :=
  match u.l1 s (vaOf a / 256) with | some l => l.attr.dk | none => false

/-- The bytes an atomic performed below the home reads: a coherent line is registered up to the scope, so the L1 has
the level's value; of a deckled line the L2 has it, but at .cr (R145, R147, R311). -/
def Issuer.readAtom (u : Issuer) (s : State) (scope va bytes : Nat) : Nat :=
  match u.l1 s (va / 256), s.mem.line? (.l2 u.die) ⟨u.k.asid, va / 256⟩ with
  | some l, some h => if l.attr.dk && decide (1 ≤ scope) then lineNat h.val (va % 256) bytes else u.readL1 s va bytes
  | _, _ => u.readL1 s va bytes
/-- Perform some lanes below the home. -/
def Issuer.atomNear (u : Issuer) (s : State) (op : AtomOp) (scope : Nat) (xs : List LaneAtom) : List (Nat × Nat) × State :=
  let r := atomFold op (fun s x => u.readAtom s scope (vaOf x.addr) op.bytes)
    (fun s x v => u.storeL1 s ⟨x.lane, x.addr, op.bytes, v, ones (8 * op.bytes)⟩) xs (u.touchAll s (xs.map fun x => vaOf x.addr))
  (r.1, r.2.trimL1 u.t.core)

/-- An atomic or a reduction on global memory (R145, R309 to R312): at the home for .pk and .sy, and for a
reduction at .sh; below that in the L1, or for a deckled line in the L2, once every level up to its scope has the line
registered. A deckled line at .sh goes to the home: every lane is checked before, the lines of the other lanes are held
until the home has answered, and those lanes follow (R174). -/
def Issuer.atomStep (u : Issuer) (s : State) (acc : Acc) (op : AtomOp) (xs : List LaneAtom) (m : MemMods)
    (commit : List (Nat × Nat) → Group) : WordOut :=
  let addrs := xs.map fun x => (x.lane, x.addr)
  let scope := m.scope.val
  let rel (k : WordOut) : WordOut :=
    if m.order.val = 1 then (match u.release s scope with | some o => o | none => k) else k
  let fin (s : State) (vals : List (Nat × Nat)) : WordOut :=
    if m.order.val = 1 ∧ acc = .atomic then u.acquire s (commit vals) scope else .done (commit vals) s
  match u.deliver s acc (alignCodes addrs op.bytes) with
  | some o => o
  | none =>
    if 4 ≤ scope ∨ (acc = .red ∧ 3 ≤ scope) then
      rel (match u.homeFirst s addrs with
        | some o => o
        | none => match u.atHome s acc addrs (xs.map (atomOp op)) with
          | .inl o => o
          | .inr vals => fin s vals)
    else if u.g.stall.homing then
      let held : LaneAtom → Bool := fun x => u.g.stall.pinned.contains (vaOf x.addr / 256)
      let far := xs.filter fun x => !held x
      match u.homeFirst s (far.map fun x => (x.lane, x.addr)) with
      | some o => o
      | none => match u.atHome s acc (far.map fun x => (x.lane, x.addr)) (far.map (atomOp op)) with
        | .inl o => o
        | .inr vals =>
          let near := xs.filter held
          match u.gate s (near.map fun x => (x.lane, x.addr)) op.bytes acc true with
          | some o => o
          | none => match u.registerUp s (near.map fun x => vaOf x.addr) scope with
            | some o => o
            | none =>
              let r := u.atomNear s op scope near
              fin r.2 (vals ++ r.1)
    else match u.gate s addrs op.bytes acc true with
      | some o => o
      | none =>
        rel (
          let near := xs.filter fun x => !u.deckled s x.addr
          match u.registerUp s (near.map fun x => vaOf x.addr) scope with
          | some o => o
          | none =>
            if 1 ≤ scope ∧ (near.any fun x => u.homeWorks s ⟨u.k.asid, vaOf x.addr / 256⟩) = true then
              .wait { u.g with wait := some .mem } s
            else if scope < 3 ∨ near.length = xs.length then
              let r := u.atomNear s op scope xs
              fin r.2 r.1
            else .wait { u.g with wait := some .mem, stall := { u.g.stall with
              homing := true, pinned := (near.map fun x => vaOf x.addr / 256).foldl insertAsc [] } } s)

/-- An atomic on the core scratchpad (R309, R311): performed at the bank. -/
def Issuer.atomsStep (u : Issuer) (s : State) (op : AtomOp) (xs : List LaneAtom) (m : MemMods)
    (commit : List (Nat × Nat) → Group) : WordOut :=
  let scope := m.scope.val
  match u.deliver s .atomic (u.sramCodes s .sp (xs.map fun x => (x.lane, x.addr)) op.bytes true true) with
  | some o => o
  | none =>
    match (if m.order.val = 1 then u.release s scope else none) with
    | some o => o
    | none =>
      let r := atomFold op
        (fun s x => match s.team? u.t.tid u.t.team with
          | some t => { u with t := t }.readSram s .sp x.lane x.addr.toNat op.bytes
          | none => 0)
        (fun s x v => u.writeSram s .sp ⟨x.lane, x.addr, op.bytes, v, ones (8 * op.bytes)⟩) xs s
      if m.order.val = 1 then u.acquire r.2 (commit r.1) scope else .done (commit r.1) r.2

/-- Named registers an atomic names from its operand register (R310). -/
def AtomOp.regs : AtomOp → Nat | .cas => 2 | .addB64 => 2 | .casB64 => 4 | _ => 1

def vatom (ok : Bool) (op : AtomOp) (d : Dst) (base off : Src) (m : MemMods) : State → Out :=
  runWord ok (max (d.vtop op.regs) (max (base.vtop 1) (off.vtop 1))) (memLen base off) fun u s =>
    u.atomStep s .atomic op (u.atoms op d base off false) m (u.atomed op d false)
def vatoms (ok : Bool) (op : AtomOp) (d : Dst) (base off : Src) (m : MemMods) : State → Out :=
  runWord ok (max (d.vtop op.regs) (max (base.vtop 1) (off.vtop 1))) (memLen base off) fun u s =>
    u.atomsStep s op (u.atoms op d base off false) m (u.atomed op d false)
def satom (ok : Bool) (op : AtomOp) (d : Dst) (base off : Src) (m : MemMods) : State → Out :=
  runWordTo d ok 0 (memLen base off) fun u s =>
    u.atomStep s .atomic op (u.atoms op d base off true) m (u.atomed op d true)
/-- A reduction (R312): it returns nothing. -/
def vred (op : AtomOp) (x base off : Src) (m : MemMods) : State → Out :=
  runWord (okRedm x base off m) (max (x.vtop 1) (max (base.vtop 1) (off.vtop 1))) (memLen base off + x.nlit) fun u s =>
    u.atomStep s .red op ((u.addrs false base off).map fun a => ⟨a.1, a.2, (u.g.laneSrc x a.1).toNat, 0⟩) m fun _ => u.g

/-! ### At the home (R145, R197, R311) -/

/-- Translate the lanes of a request at their homes: the attributes of each lane's line, and what failed. -/
def State.homeLanes (s : State) (die asid : Nat) (priv : Bool) (k : Option Task) (acc : Acc) (ops : List LaneOp) :
    List (LaneOp × Attr) × List LineFault × State :=
  ops.foldl (fun r o =>
    let s := r.2.2
    let bad (c : Nat) (s : State) : List (LaneOp × Attr) × List LineFault × State := (r.1, r.2.1 ++ [⟨o.addr / 256, o.addr, c, false⟩], s)
    match s.mem.dieHome die asid o.addr with
    | none => bad cNOHOME s
    | some h =>
      match s.meet h asid o.addr o.bytes acc priv k with
      | (.error c, s) => bad c s
      | (.ok v, s) => (r.1 ++ [(o, v)], r.2.1, s)) ([], [], s)

/-- The home makes a coherent line its own before it reads and writes it: its owners have been recalled, and its
other holders are sent Inv (R151, R414). Of a deckled line the home's copy is meant: the issuing die has written back and
removed its own (R197, R311). -/
def State.homeOwn (s : State) (v : Attr) : State := if v.dk then s else s.homeClear v.place

/-- Perform one lane's operation at its home: the value it read. -/
def State.homeOp (s : State) (o : LaneOp) (v : Attr) : Nat × State :=
  let s := (s.homeOwn v).touch v.place
  let old := lineNat (s.mem.placeLine v.place) (o.addr % 256) o.bytes
  match o.op with
  | some (some op) =>
    match atomNew op old o.x o.y with
    | some n => (old, s.mapMem fun x => x.placeWrite v.place (linePlace (o.addr % 256) n) (lineMask (o.addr % 256) o.bytes))
    | none => (old, s)
  | _ => (old, s)

/-- A request performed whole at the home: it waits while a bank it needs is held, or
a copy holds a line of it, or the line's owners have not answered the home's Recall; when some lane meets a code
no lane is performed. -/
def State.atHomes (s : State) (k : Nat) (m : Msg) (g : GroupRef) (asid : Nat) (priv : Bool) (acc : Acc) (ops : List LaneOp) : Option State :=
  match s.coreOf g with
  | none => some s
  | some c =>
    if ops.any fun o => match s.mem.dieHome c.die asid o.addr with | some h => s.homeStalls h asid o.addr | none => false then none
    else
    let r := s.homeLanes c.die asid priv (s.task? g.tid) acc ops
    let s := r.2.2
    if r.2.1 ≠ [] then some (s.respond m .rsp (.homeRsp g [] r.2.1))
    else if r.1.any fun p => (p.2.tier == 0 && s.bankHeld p.2.home p.2.pa) || (!p.2.dk && (s.copyHolds p.2.place ||
        !s.homeQuiet p.2.place)) then none
    else if r.1.any fun p => !p.2.dk && s.homeOwned p.2.place then
      some ((r.1.foldl (fun s p => if p.2.dk || !s.homeQuiet p.2.place then s else s.recallOwners p.2) s).putBack k m)
    else
      let out := r.1.foldl (fun (acc : List Nat × State) p =>
        let q := acc.2.homeOp p.1 p.2
        (acc.1 ++ [q.1], q.2)) ([], s)
      some (out.2.respond m .rsp (.homeRsp g out.1 []))

/-- HOME_ATOMIC (R145, R311): an atomic at .pk or .sy is performed at the home. -/
def execHomeAtomic (k : Nat) (s : State) : Out :=
  onMsg k s fun m s => match m.body with
    | .homeAtomic g asid p ops => s.atHomes k m g asid p .atomic ops
    | _ => none

/-- NEAR_MEMORY_REDUCTION (R197): a reduction at .sh or wider is performed at the home on the newest copy. -/
def execNearMemoryReduction (k : Nat) (s : State) : Out :=
  onMsg k s fun m s => match m.body with
    | .nearRed g asid p ops => s.atHomes k m g asid p .red ops
    | _ => none

/-- CLUSTER_WINDOW_ACCESS (R99): an access from another cluster is performed at the hub, in arrival order. -/
def execClusterWindowAccess (k : Nat) (s : State) : Out :=
  onMsg k s fun m s => match m.body with
    | .window g ops =>
      match s.team? g.tid g.team with
      | none => some s
      | some t =>
        let base := (t.cwDie * 32 + t.cwCluster) * 2 ^ 21
        let r := ops.foldl (fun (acc : List Nat × State) o =>
          let a := base + o.addr
          (acc.1 ++ [acc.2.mem.window.nat a o.bytes], match o.op with
            | some none => acc.2.mapMem fun x => { x with
                window := x.window.write a (mergeBytes (x.window.nat a o.bytes) o.x o.nibs o.bytes)
                winBad := clearBad x.winBad a o.bytes }
            | _ => acc.2)) ([], s)
        some (r.2.respond m .rsp (.windowRsp g r.1))
    | _ => none

/-! ### Prefetch and cache maintenance (R314 to R318) -/

/-- Ask for one lane's line under a prefetch (R314). One of .pk that meets a bank that is held is dropped (log entry 117). -/
def Issuer.prefetch (u : Issuer) (s : State) (scope : Nat) (a : Int) : State :=
  let va := vaOf a
  let id : LineId := ⟨u.k.asid, va / 256⟩
  if !inGlobal a then s
  else if scope = 0 then
    if (u.l1 s (va / 256)).isSome then s else u.ask s va .pref .getS
  else if (u.home s va).isNone then s
  else if scope = 2 then
    let n : Node := .l2 u.die
    if (s.mem.line? n id).isSome || s.mem.asking n id || !(s.mem.txnsAt n id).isEmpty then s
    else s.askUp n id none ⟨n, .pref, u.priv, va, some u.g.id⟩ .getS
  else
    match u.home s va with
    | none => s
    | some h =>
      if s.homeStalls h u.k.asid va then s
      else match s.translateNow h u.k.asid va .pref u.priv with
      | (.ok v, s) =>
        if s.mem.lostLine h id v.place || (v.dk && !u.k.declares va 1 false false) || (v.tier == 0 && s.bankHeld v.home v.pa) then s else s.touch v.place
      | (.error _, s) => s

/-- pref (R314): it never raises a lane code and is never waited for. -/
def execPref (base off : Src) (scope : Fin 8) (_nt : Bool) (s : State) : Out :=
  runWord (okPref base off scope) (max (base.vtop 1) (off.vtop 1)) (memLen base off) (fun u s =>
    .done u.g ((u.addrs false base off).foldl (fun s a => u.prefetch s scope.val a.2) s)) s

/-- The range of cwb and cinv: its start, and one past its end; or the code SPACE (R315). -/
def rangeOf (start len : W64) : Option (Nat × Nat) :=
  let a := start.toNat
  if 2 ^ 26 < len.toNat then none
  else if len = 0 then some (a, a)
  else if a < 2 ^ 56 ∧ a + len.toNat ≤ 2 ^ 56 then some (a, a + len.toNat)
  else if 2 ^ 64 - 2 ^ 56 ≤ a ∧ a + len.toNat ≤ 2 ^ 64 then some (a, a + len.toNat)
  else none

/-- The address named for a range that raises SPACE: the first byte past the canonical half of its start, or a start
that lies in no half (R177, R315, R350). -/
def rangeEdge (start : W64) : W64 :=
  let a := start.toNat
  if a < 2 ^ 56 then 2 ^ 56 else if 2 ^ 64 - 2 ^ 56 ≤ a then 0 else start

/-- Copies on the issuing die of the lines that a range intersects (R315). -/
def Issuer.inRange (u : Issuer) (s : State) (r : Nat × Nat) : List Line :=
  s.mem.lines.filter fun l => l.a.asid == u.k.asid && nodeDie l.node == some u.die &&
    decide (r.1 < r.2) && decide (r.1 < (l.a.line + 1) * 256) && decide (l.a.line * 256 < r.2)

/-- The lowest line of a range that the deckle check table does not permit (R84, R315). -/
def Issuer.undeclared (u : Issuer) (ls : List Line) (lo : Nat) (ok : Deckle → Bool) : Option Nat :=
  let bad := ls.filter fun l => l.attr.dk &&
    !(u.k.deckles.any fun d => ok d && decide (d.base ≤ l.a.line * 256) && decide ((l.a.line + 1) * 256 ≤ d.base + d.extent))
  match bad with
  | [] => none
  | l :: rest => some (max lo (rest.foldl (fun m x => min m (x.a.line * 256)) (l.a.line * 256)))

/-- Send a deckled line's dirty nibbles home on a group's behalf; the line stays, clean (R316). -/
def Issuer.cleanLine (u : Issuer) (s : State) (l : Line) : State :=
  if l.dirty = 0 then s
  else
    let s := s.writeBack l.node l.node l.a l.attr.home l.val l.dirty false (.group u.g.id)
    s.mapMem fun x => x.setLine { l with dirty := 0 }

/-- cwb (R315, R316): deckled lines of the range are written home and stay, clean; coherent lines in W are
registered up to the scope. The group does not wait. -/
def execCwb (base off : Src) (scope : Fin 8) (s : State) : Out :=
  runWord (okCwb base off scope) 0 (memLen base off) (fun u s =>
    match rangeOf (u.g.scalar base) (u.g.scalar off) with
    | none => .fault cSPACE (rangeEdge (u.g.scalar base)) 0
    | some r =>
      let ls := u.inRange s r
      match u.undeclared ls r.1 (fun d => d.w) with
      | some va => .fault cDECKLE (BitVec.ofNat 64 va) 0
      | none =>
        let s := (ls.filter fun l => l.attr.dk && nodeDepth l.node == 2).foldl (fun s l => u.cleanLine s l) s
        let slice : Line → Bool := fun l => decide (4 ≤ scope.val) && (match s.mem.line? (.slice (sliceOf u.sheet l.a.line)) l.a with
          | some e => e.st == .w
          | none => false)
        let ws := ((ls.filter fun l => !l.attr.dk && ((l.st == .w && decide (nodeDepth l.node < scope.val)) || slice l)).map
          fun l => l.a.line).foldl insertAsc []
        .done u.g (ws.foldl (fun s l => s.send .fwd (.die u.die) (.die u.die)
          (.drain u.g.id (.l1 u.t.core) false scope.val (some ⟨u.k.asid, l⟩))) s)) s

/-- A fill for a line of a range is on its way to the issuing die. -/
def Issuer.fillsIn (u : Issuer) (s : State) (r : Nat × Nat) : Bool :=
  let mine (a : LineId) (n : Node) : Bool := a.asid == u.k.asid && nodeDie n == some u.die &&
    decide (r.1 < r.2) && decide (r.1 < (a.line + 1) * 256) && decide (a.line * 256 < r.2)
  let asks (b : Body) : Bool := match b with
    | .getS a _ r => mine a r.node
    | .getX a _ r => mine a r.node
    | .data a _ _ r _ _ => mine a r.node
    | .dataX a _ _ r _ _ _ _ => mine a r.node
    | _ => false
  (s.mem.net.any fun m => asks m.body) || s.mem.txns.any fun t => asks t.msg.body
/-- cinv (R147, R315, R317): fills of the range that are on their way end first; every copy of its deckled lines leaves the
die, dirty nibbles going home first; and it completes when those have been performed there. -/
def execCinv (base off : Src) (s : State) : Out :=
  runWord (okCinv base off) 0 (memLen base off) (fun u s =>
    if u.g.stall.sent then (if s.owesWrites u.g.id then .wait u.g s else .done u.g s)
    else match rangeOf (u.g.scalar base) (u.g.scalar off) with
    | none => .fault cSPACE (rangeEdge (u.g.scalar base)) 0
    | some r =>
      let ls := u.inRange s r
      match u.undeclared ls r.1 (fun d => d.r || d.w) with
      | some va => .fault cDECKLE (BitVec.ofNat 64 va) 0
      | none =>
        if u.fillsIn s r then .wait { u.g with wait := some .mem } s
        else
          let s := (ls.filter fun l => l.attr.dk && nodeDepth l.node == 2).foldl
            (fun s l => s.flushDie u.die l.a l.attr.home (.group u.g.id)) s
          if s.owesWrites u.g.id then .wait { u.g with wait := some .mem, stall := { u.g.stall with sent := true } } s
          else .done u.g s) s

/-- The deckled dirty lines of a range on a die, ascending. -/
def State.dirtyLines (s : State) (asid die lo hi : Nat) : List Line :=
  let ls := s.mem.lines.filter fun l => l.node == .l2 die && l.a.asid == asid && l.attr.dk && l.dirty != 0 &&
    decide (lo < (l.a.line + 1) * 256) && decide (l.a.line * 256 < hi)
  sortBy (fun a b => decide (a.a.line ≤ b.a.line)) ls

/-- dkflush (R95, R318): the dirty lines of a write deckle on the die are written home in ascending order, one at each turn of
the group, and it stalls until every write-back has been performed. The cursor stands past the lines already sent. -/
def execDkflush (base : Src) (s : State) : Out :=
  runWord base.isUni 0 (1 + base.nlit) (fun u s =>
    match u.k.deckles[(u.g.scalar base).toNat]? with
    | none => .fault cDECKLE 0 0
    | some d =>
      if d.w = false then .fault cDECKLE (BitVec.ofNat 64 d.base) 0
      else
        let lo := if u.g.cursor = 0 then d.base else u.g.cursor
        match s.dirtyLines u.k.asid u.die lo (d.base + d.extent) with
        | l :: _ => .wait { u.g with wait := some .dkflush, cursor := (l.a.line + 1) * 256 } (u.cleanLine s l)
        | [] => if s.owesWrites u.g.id then .wait { u.g with wait := some .dkflush } s else .done { u.g with cursor := 0 } s) s

/-! ### Loads -/

/-- ld.b8 (R305). -/
def execLdB8 (d : Dst) (base off : Src) (m : MemMods) (s : State) : Out :=
  vload (okLd d base off m) .glob 1 false d base off m s

/-- ld.s8 (R305). -/
def execLdS8 (d : Dst) (base off : Src) (m : MemMods) (s : State) : Out :=
  vload (okLd d base off m) .glob 1 true d base off m s

/-- ld.b16 (R305). -/
def execLdB16 (d : Dst) (base off : Src) (m : MemMods) (s : State) : Out :=
  vload (okLd d base off m) .glob 2 false d base off m s

/-- ld.s16 (R305). -/
def execLdS16 (d : Dst) (base off : Src) (m : MemMods) (s : State) : Out :=
  vload (okLd d base off m) .glob 2 true d base off m s

/-- ld.b32 (R305). -/
def execLdB32 (d : Dst) (base off : Src) (m : MemMods) (s : State) : Out :=
  vload (okLd d base off m) .glob 4 false d base off m s

/-- ld.b64 (R305). -/
def execLdB64 (d : Dst) (base off : Src) (m : MemMods) (s : State) : Out :=
  vload (okLd64 d base off m) .glob 8 false d base off m s

/-- ld.b128 (R305). -/
def execLdB128 (d : Dst) (base off : Src) (m : MemMods) (s : State) : Out :=
  vload (okLd128 d base off m) .glob 16 false d base off m s

/-- lds.b8 (R305). -/
def execLdsB8 (d : Dst) (base off : Src) (m : MemMods) (s : State) : Out :=
  vload (okLd d base off m) .sp 1 false d base off m s

/-- lds.s8 (R305). -/
def execLdsS8 (d : Dst) (base off : Src) (m : MemMods) (s : State) : Out :=
  vload (okLd d base off m) .sp 1 true d base off m s

/-- lds.b16 (R305). -/
def execLdsB16 (d : Dst) (base off : Src) (m : MemMods) (s : State) : Out :=
  vload (okLd d base off m) .sp 2 false d base off m s

/-- lds.s16 (R305). -/
def execLdsS16 (d : Dst) (base off : Src) (m : MemMods) (s : State) : Out :=
  vload (okLd d base off m) .sp 2 true d base off m s

/-- lds.b32 (R305). -/
def execLdsB32 (d : Dst) (base off : Src) (m : MemMods) (s : State) : Out :=
  vload (okLd d base off m) .sp 4 false d base off m s

/-- lds.b64 (R305). -/
def execLdsB64 (d : Dst) (base off : Src) (m : MemMods) (s : State) : Out :=
  vload (okLd64 d base off m) .sp 8 false d base off m s

/-- lds.b128 (R305). -/
def execLdsB128 (d : Dst) (base off : Src) (m : MemMods) (s : State) : Out :=
  vload (okLd128 d base off m) .sp 16 false d base off m s

/-- ldc.b8 (R305). -/
def execLdcB8 (d : Dst) (base off : Src) (m : MemMods) (s : State) : Out :=
  vload (okLd d base off m) .cw 1 false d base off m s

/-- ldc.s8 (R305). -/
def execLdcS8 (d : Dst) (base off : Src) (m : MemMods) (s : State) : Out :=
  vload (okLd d base off m) .cw 1 true d base off m s

/-- ldc.b16 (R305). -/
def execLdcB16 (d : Dst) (base off : Src) (m : MemMods) (s : State) : Out :=
  vload (okLd d base off m) .cw 2 false d base off m s

/-- ldc.s16 (R305). -/
def execLdcS16 (d : Dst) (base off : Src) (m : MemMods) (s : State) : Out :=
  vload (okLd d base off m) .cw 2 true d base off m s

/-- ldc.b32 (R305). -/
def execLdcB32 (d : Dst) (base off : Src) (m : MemMods) (s : State) : Out :=
  vload (okLd d base off m) .cw 4 false d base off m s

/-- ldc.b64 (R305). -/
def execLdcB64 (d : Dst) (base off : Src) (m : MemMods) (s : State) : Out :=
  vload (okLd64 d base off m) .cw 8 false d base off m s

/-- ldc.b128 (R305). -/
def execLdcB128 (d : Dst) (base off : Src) (m : MemMods) (s : State) : Out :=
  vload (okLd128 d base off m) .cw 16 false d base off m s

/-- ldd.b8 (R305). -/
def execLddB8 (d : Dst) (base off : Src) (m : MemMods) (s : State) : Out :=
  vload (okLd d base off m) .ds 1 false d base off m s

/-- ldd.s8 (R305). -/
def execLddS8 (d : Dst) (base off : Src) (m : MemMods) (s : State) : Out :=
  vload (okLd d base off m) .ds 1 true d base off m s

/-- ldd.b16 (R305). -/
def execLddB16 (d : Dst) (base off : Src) (m : MemMods) (s : State) : Out :=
  vload (okLd d base off m) .ds 2 false d base off m s

/-- ldd.s16 (R305). -/
def execLddS16 (d : Dst) (base off : Src) (m : MemMods) (s : State) : Out :=
  vload (okLd d base off m) .ds 2 true d base off m s

/-- ldd.b32 (R305). -/
def execLddB32 (d : Dst) (base off : Src) (m : MemMods) (s : State) : Out :=
  vload (okLd d base off m) .ds 4 false d base off m s

/-- ldd.b64 (R305). -/
def execLddB64 (d : Dst) (base off : Src) (m : MemMods) (s : State) : Out :=
  vload (okLd64 d base off m) .ds 8 false d base off m s

/-- ldd.b128 (R305). -/
def execLddB128 (d : Dst) (base off : Src) (m : MemMods) (s : State) : Out :=
  vload (okLd128 d base off m) .ds 16 false d base off m s

/-- ldp.b8 (R305). -/
def execLdpB8 (d : Dst) (base off : Src) (m : MemMods) (s : State) : Out :=
  vload (okLd d base off m) .priv 1 false d base off m s

/-- ldp.s8 (R305). -/
def execLdpS8 (d : Dst) (base off : Src) (m : MemMods) (s : State) : Out :=
  vload (okLd d base off m) .priv 1 true d base off m s

/-- ldp.b16 (R305). -/
def execLdpB16 (d : Dst) (base off : Src) (m : MemMods) (s : State) : Out :=
  vload (okLd d base off m) .priv 2 false d base off m s

/-- ldp.s16 (R305). -/
def execLdpS16 (d : Dst) (base off : Src) (m : MemMods) (s : State) : Out :=
  vload (okLd d base off m) .priv 2 true d base off m s

/-- ldp.b32 (R305). -/
def execLdpB32 (d : Dst) (base off : Src) (m : MemMods) (s : State) : Out :=
  vload (okLd d base off m) .priv 4 false d base off m s

/-- ldp.b64 (R305). -/
def execLdpB64 (d : Dst) (base off : Src) (m : MemMods) (s : State) : Out :=
  vload (okLd64 d base off m) .priv 8 false d base off m s

/-- ldp.b128 (R305). -/
def execLdpB128 (d : Dst) (base off : Src) (m : MemMods) (s : State) : Out :=
  vload (okLd128 d base off m) .priv 16 false d base off m s

/-! ### Stores -/

/-- st.b8 (R306). -/
def execStB8 (x base off : Src) (m : MemMods) (s : State) : Out :=
  vstore (okSt x base off m) .glob 1 x base off m s

/-- st.b16 (R306). -/
def execStB16 (x base off : Src) (m : MemMods) (s : State) : Out :=
  vstore (okSt x base off m) .glob 2 x base off m s

/-- st.b32 (R306). -/
def execStB32 (x base off : Src) (m : MemMods) (s : State) : Out :=
  vstore (okSt x base off m) .glob 4 x base off m s

/-- st.b64 (R306). -/
def execStB64 (x base off : Src) (m : MemMods) (s : State) : Out :=
  vstore (okSt64 x base off m) .glob 8 x base off m s

/-- st.b128 (R306). -/
def execStB128 (x base off : Src) (m : MemMods) (s : State) : Out :=
  vstore (okSt128 x base off m) .glob 16 x base off m s

/-- sts.b8 (R306). -/
def execStsB8 (x base off : Src) (m : MemMods) (s : State) : Out :=
  vstore (okSt x base off m) .sp 1 x base off m s

/-- sts.b16 (R306). -/
def execStsB16 (x base off : Src) (m : MemMods) (s : State) : Out :=
  vstore (okSt x base off m) .sp 2 x base off m s

/-- sts.b32 (R306). -/
def execStsB32 (x base off : Src) (m : MemMods) (s : State) : Out :=
  vstore (okSt x base off m) .sp 4 x base off m s

/-- sts.b64 (R306). -/
def execStsB64 (x base off : Src) (m : MemMods) (s : State) : Out :=
  vstore (okSt64 x base off m) .sp 8 x base off m s

/-- sts.b128 (R306). -/
def execStsB128 (x base off : Src) (m : MemMods) (s : State) : Out :=
  vstore (okSt128 x base off m) .sp 16 x base off m s

/-- stc.b8 (R306). -/
def execStcB8 (x base off : Src) (m : MemMods) (s : State) : Out :=
  vstore (okSt x base off m) .cw 1 x base off m s

/-- stc.b16 (R306). -/
def execStcB16 (x base off : Src) (m : MemMods) (s : State) : Out :=
  vstore (okSt x base off m) .cw 2 x base off m s

/-- stc.b32 (R306). -/
def execStcB32 (x base off : Src) (m : MemMods) (s : State) : Out :=
  vstore (okSt x base off m) .cw 4 x base off m s

/-- stc.b64 (R306). -/
def execStcB64 (x base off : Src) (m : MemMods) (s : State) : Out :=
  vstore (okSt64 x base off m) .cw 8 x base off m s

/-- stc.b128 (R306). -/
def execStcB128 (x base off : Src) (m : MemMods) (s : State) : Out :=
  vstore (okSt128 x base off m) .cw 16 x base off m s

/-- std.b8 (R306). -/
def execStdB8 (x base off : Src) (m : MemMods) (s : State) : Out :=
  vstore (okSt x base off m) .ds 1 x base off m s

/-- std.b16 (R306). -/
def execStdB16 (x base off : Src) (m : MemMods) (s : State) : Out :=
  vstore (okSt x base off m) .ds 2 x base off m s

/-- std.b32 (R306). -/
def execStdB32 (x base off : Src) (m : MemMods) (s : State) : Out :=
  vstore (okSt x base off m) .ds 4 x base off m s

/-- std.b64 (R306). -/
def execStdB64 (x base off : Src) (m : MemMods) (s : State) : Out :=
  vstore (okSt64 x base off m) .ds 8 x base off m s

/-- std.b128 (R306). -/
def execStdB128 (x base off : Src) (m : MemMods) (s : State) : Out :=
  vstore (okSt128 x base off m) .ds 16 x base off m s

/-- stp.b8 (R306). -/
def execStpB8 (x base off : Src) (m : MemMods) (s : State) : Out :=
  vstore (okSt x base off m) .priv 1 x base off m s

/-- stp.b16 (R306). -/
def execStpB16 (x base off : Src) (m : MemMods) (s : State) : Out :=
  vstore (okSt x base off m) .priv 2 x base off m s

/-- stp.b32 (R306). -/
def execStpB32 (x base off : Src) (m : MemMods) (s : State) : Out :=
  vstore (okSt x base off m) .priv 4 x base off m s

/-- stp.b64 (R306). -/
def execStpB64 (x base off : Src) (m : MemMods) (s : State) : Out :=
  vstore (okSt64 x base off m) .priv 8 x base off m s

/-- stp.b128 (R306). -/
def execStpB128 (x base off : Src) (m : MemMods) (s : State) : Out :=
  vstore (okSt128 x base off m) .priv 16 x base off m s

/-- st.n4 (R307). -/
def execStN4 (x base off : Src) (m : MemMods) (s : State) : Out :=
  nstore .glob x base off m s

/-- sts.n4 (R307). -/
def execStsN4 (x base off : Src) (m : MemMods) (s : State) : Out :=
  nstore .sp x base off m s

/-! ### Scalar accesses -/

/-- SldB32 (R308). -/
def execSldB32 (d : Dst) (base off : Src) (m : MemMods) (s : State) : Out :=
  sload (okSld d base off m) .glob 4 d base off m s

/-- SldB64 (R308). -/
def execSldB64 (d : Dst) (base off : Src) (m : MemMods) (s : State) : Out :=
  sload (okSld d base off m) .glob 8 d base off m s

/-- SldsB64 (R308). -/
def execSldsB64 (d : Dst) (base off : Src) (m : MemMods) (s : State) : Out :=
  sload (okSld d base off m) .sp 8 d base off m s

/-- SstB32 (R308). -/
def execSstB32 (x base off : Src) (m : MemMods) (s : State) : Out :=
  sstore .glob 4 x base off m s

/-- SstB64 (R308). -/
def execSstB64 (x base off : Src) (m : MemMods) (s : State) : Out :=
  sstore .glob 8 x base off m s

/-- SstsB64 (R308). -/
def execSstsB64 (x base off : Src) (m : MemMods) (s : State) : Out :=
  sstore .sp 8 x base off m s

/-! ### Atomics and reductions -/

/-- atom.addB32 (R309, R310). -/
def execAtomAddB32 (d : Dst) (base off : Src) (m : MemMods) (s : State) : Out :=
  vatom (okAtom1 d base off m) .addB32 d base off m s

/-- atoms.addB32 (R309, R310). -/
def execAtomsAddB32 (d : Dst) (base off : Src) (m : MemMods) (s : State) : Out :=
  vatoms (okAtom1 d base off m) .addB32 d base off m s

/-- atom.addF32 (R309, R310). -/
def execAtomAddF32 (d : Dst) (base off : Src) (m : MemMods) (s : State) : Out :=
  vatom (okAtom1 d base off m) .addF32 d base off m s

/-- atoms.addF32 (R309, R310). -/
def execAtomsAddF32 (d : Dst) (base off : Src) (m : MemMods) (s : State) : Out :=
  vatoms (okAtom1 d base off m) .addF32 d base off m s

/-- atom.minS32 (R309, R310). -/
def execAtomMinS32 (d : Dst) (base off : Src) (m : MemMods) (s : State) : Out :=
  vatom (okAtom1 d base off m) .minS32 d base off m s

/-- atoms.minS32 (R309, R310). -/
def execAtomsMinS32 (d : Dst) (base off : Src) (m : MemMods) (s : State) : Out :=
  vatoms (okAtom1 d base off m) .minS32 d base off m s

/-- atom.maxS32 (R309, R310). -/
def execAtomMaxS32 (d : Dst) (base off : Src) (m : MemMods) (s : State) : Out :=
  vatom (okAtom1 d base off m) .maxS32 d base off m s

/-- atoms.maxS32 (R309, R310). -/
def execAtomsMaxS32 (d : Dst) (base off : Src) (m : MemMods) (s : State) : Out :=
  vatoms (okAtom1 d base off m) .maxS32 d base off m s

/-- atom.minZ32 (R309, R310). -/
def execAtomMinZ32 (d : Dst) (base off : Src) (m : MemMods) (s : State) : Out :=
  vatom (okAtom1 d base off m) .minZ32 d base off m s

/-- atoms.minZ32 (R309, R310). -/
def execAtomsMinZ32 (d : Dst) (base off : Src) (m : MemMods) (s : State) : Out :=
  vatoms (okAtom1 d base off m) .minZ32 d base off m s

/-- atom.maxZ32 (R309, R310). -/
def execAtomMaxZ32 (d : Dst) (base off : Src) (m : MemMods) (s : State) : Out :=
  vatom (okAtom1 d base off m) .maxZ32 d base off m s

/-- atoms.maxZ32 (R309, R310). -/
def execAtomsMaxZ32 (d : Dst) (base off : Src) (m : MemMods) (s : State) : Out :=
  vatoms (okAtom1 d base off m) .maxZ32 d base off m s

/-- atom.and (R309, R310). -/
def execAtomAnd (d : Dst) (base off : Src) (m : MemMods) (s : State) : Out :=
  vatom (okAtom1 d base off m) .and d base off m s

/-- atoms.and (R309, R310). -/
def execAtomsAnd (d : Dst) (base off : Src) (m : MemMods) (s : State) : Out :=
  vatoms (okAtom1 d base off m) .and d base off m s

/-- atom.or (R309, R310). -/
def execAtomOr (d : Dst) (base off : Src) (m : MemMods) (s : State) : Out :=
  vatom (okAtom1 d base off m) .or d base off m s

/-- atoms.or (R309, R310). -/
def execAtomsOr (d : Dst) (base off : Src) (m : MemMods) (s : State) : Out :=
  vatoms (okAtom1 d base off m) .or d base off m s

/-- atom.xor (R309, R310). -/
def execAtomXor (d : Dst) (base off : Src) (m : MemMods) (s : State) : Out :=
  vatom (okAtom1 d base off m) .xor d base off m s

/-- atoms.xor (R309, R310). -/
def execAtomsXor (d : Dst) (base off : Src) (m : MemMods) (s : State) : Out :=
  vatoms (okAtom1 d base off m) .xor d base off m s

/-- atom.xchg (R309, R310). -/
def execAtomXchg (d : Dst) (base off : Src) (m : MemMods) (s : State) : Out :=
  vatom (okAtom1 d base off m) .xchg d base off m s

/-- atoms.xchg (R309, R310). -/
def execAtomsXchg (d : Dst) (base off : Src) (m : MemMods) (s : State) : Out :=
  vatoms (okAtom1 d base off m) .xchg d base off m s

/-- atom.cas (R309, R310). -/
def execAtomCas (d : Dst) (base off : Src) (m : MemMods) (s : State) : Out :=
  vatom (okAtom2 d base off m) .cas d base off m s

/-- atoms.cas (R309, R310). -/
def execAtomsCas (d : Dst) (base off : Src) (m : MemMods) (s : State) : Out :=
  vatoms (okAtom2 d base off m) .cas d base off m s

/-- atom.addB64 (R309, R310). -/
def execAtomAddB64 (d : Dst) (base off : Src) (m : MemMods) (s : State) : Out :=
  vatom (okAtom2 d base off m) .addB64 d base off m s

/-- atoms.addB64 (R309, R310). -/
def execAtomsAddB64 (d : Dst) (base off : Src) (m : MemMods) (s : State) : Out :=
  vatoms (okAtom2 d base off m) .addB64 d base off m s

/-- atom.casB64 (R309, R310). -/
def execAtomCasB64 (d : Dst) (base off : Src) (m : MemMods) (s : State) : Out :=
  vatom (okAtom4 d base off m) .casB64 d base off m s

/-- atoms.casB64 (R309, R310). -/
def execAtomsCasB64 (d : Dst) (base off : Src) (m : MemMods) (s : State) : Out :=
  vatoms (okAtom4 d base off m) .casB64 d base off m s

/-- satom.add.b64 (R310). -/
def execSatomAddB64 (d : Dst) (base off : Src) (m : MemMods) (s : State) : Out :=
  satom (okSatom d base off m) .addB64 d base off m s

/-- satom.cas.b64 (R310). -/
def execSatomCasB64 (d : Dst) (base off : Src) (m : MemMods) (s : State) : Out :=
  satom (okSatomCas d base off m) .casB64 d base off m s

/-- red.addB32 (R312). -/
def execRedAddB32 (x base off : Src) (m : MemMods) (s : State) : Out :=
  vred .addB32 x base off m s

/-- red.addF32 (R312). -/
def execRedAddF32 (x base off : Src) (m : MemMods) (s : State) : Out :=
  vred .addF32 x base off m s

/-- red.minS32 (R312). -/
def execRedMinS32 (x base off : Src) (m : MemMods) (s : State) : Out :=
  vred .minS32 x base off m s

/-- red.maxS32 (R312). -/
def execRedMaxS32 (x base off : Src) (m : MemMods) (s : State) : Out :=
  vred .maxS32 x base off m s

/-- red.and (R312). -/
def execRedAnd (x base off : Src) (m : MemMods) (s : State) : Out :=
  vred .and x base off m s

/-- red.or (R312). -/
def execRedOr (x base off : Src) (m : MemMods) (s : State) : Out :=
  vred .or x base off m s

/-- red.xor (R312). -/
def execRedXor (x base off : Src) (m : MemMods) (s : State) : Out :=
  vred .xor x base off m s

end Sys2Proof.Machine
end

