-- ==== Sys2Proof/Machine/Copy.lean ====
section
/-! DEFINITION. The copy words and the copy engine (R149, R169, R170, R319 to R324): the checks at issue, and
the 256-byte units. -/

namespace Sys2Proof.Machine

def CopyOp.code : CopyOp → Nat
  | .cpy => 0 | .cpy2 => 1 | .cpyg => 2 | .cpys => 3 | .cpym => 4 | .cpyr => 5 | .cpyf => 6 | .mred => 7

/-- The space a srcsp or dstsp code names (R319). -/
def spaceOf : Nat → Space | 0 => .glob | 1 => .sp | 2 => .cw | _ => .ds

/-! ### Codes found at issue -/

/-- A code and the offending address. -/
abbrev CopyCode := Nat × Nat
/-- Of the codes that one step of R321 finds, the earliest in the order of R176, with its lowest address. -/
def pickCopy (cs : List CopyCode) : Option CopyCode :=
  match cs with
  | [] => none
  | c :: rest =>
    let best := rest.foldl (fun b x => if codeRank x.1 < codeRank b then x.1 else b) c.1
    let low := (cs.filter fun x => x.1 == best).foldl (fun m x => min m x.2) (2 ^ 64)
    some (best, low)

/-- The first byte of a row that lies outside a range. -/
def outside (a : Int) (n lo hi : Nat) : Option Nat :=
  if a < (lo : Int) then some (vaOf a) else if (hi : Int) < a + n then some (vaOf (max a hi)) else none

/-- The receivers of a multicast, as teams of the issuing team's set (R323); `none` for a bit that names no
team, or a team that has exited. -/
def Issuer.receivers (u : Issuer) (s : State) (mask : Nat) : List (Option Team) :=
  let nteams := u.k.launch.gx * u.k.launch.gy * u.k.launch.gz
  ((List.range 16).filter fun j => bit mask j).map fun j =>
    let t := u.t.set * u.k.launch.tssize + j
    if j < u.k.launch.tssize ∧ t < nteams then s.team? u.k.tid t else none

/-- Start addresses of the rows of a copy, from row `first` on. -/
def Copy.dstRows (c : Copy) (first : Nat := 0) : List Int := ((List.range c.descr.rows).drop first).map c.dstRow
def Copy.srcRows (c : Copy) (first : Nat := 0) : List Int := ((List.range c.descr.rows).drop first).map c.srcRow
/-- A copy has a strided source whose rows are known at issue. -/
def Copy.strided (c : Copy) : Bool := c.op != .cpyg && c.op != .cpyf

/-- Step 4 of R321: what the descriptor's own fields raise; ILLOPND carries no address. -/
def Copy.badFields (c : Copy) : Bool :=
  let d := c.descr
  decide (2 ^ 24 - 1 < d.units) ||
  (c.op == .cpyf && (decide (2 ^ 32 ≤ d.saddr) || d.sstr != 0)) ||
  (c.op == .cpym && (decide (2 ^ 16 ≤ d.dstr) || d.dstr == 0))
/-- The index list's address, for the words that have one (R322). -/
def Copy.listAt (c : Copy) : Option Nat :=
  match c.op with
  | .cpyg => some c.descr.sstr
  | .cpys => some c.descr.dstr
  | _ => none

/-- Step 5 of R321: destination bytes outside the team's scratchpad, outside the set's window, or in no
receiver. -/
def Issuer.boundCodes (u : Issuer) (s : State) (c : Copy) (first : Nat := 0) : List CopyCode :=
  let d := c.descr
  match c.op with
  | .cpym =>
    (u.receivers s d.dstr).flatMap fun r =>
      match r with
      | none => [(cCPYBND, vaOf (c.dstRow 0))]
      | some t => (List.range d.rows).filterMap fun i =>
          (outside (t.spbase + c.dstRow i) d.rowb t.spbase (t.spbase + u.k.launch.spSize)).map fun a => (cCPYBND, a)
  | _ =>
    if c.dstsp = 1 ∨ c.dstsp = 2 then
      let r := u.range (spaceOf c.dstsp)
      (c.dstRows first).filterMap fun a => (outside a d.rowb r.1 r.2).map fun x => (cCPYBND, x)
    else []

/-- ALIGN of step 6: the address and stride fields that must be multiples of 4, or more for cpy2, and the rows that a
scatter addresses (R321, R322). -/
def Copy.alignBad (c : Copy) : Option Nat :=
  let d := c.descr
  let src := c.op != .cpyf && d.saddr % 4 != 0
  let sstr := c.op != .cpyg && d.sstr % 4 != 0
  let dstr := c.op != .cpys && c.op != .cpym && d.dstr % (if c.op = .cpy2 then 16 else 4) != 0
  let dst := d.daddr % (if c.op = .cpy2 then 16 else 4) != 0
  let rowb := d.rowb % (if c.op = .cpy2 then 128 else 4) != 0
  if src then some d.saddr else if dst then some d.daddr
  else if rowb || sstr || dstr then some (if c.op = .cpyf then d.daddr else d.saddr)
  else if c.op = .cpys then ((c.dstRows).find? fun a => a % 4 != 0).map vaOf
  else none

/-- The 64 KiB granules that a row touches in the die scratchpad, or the pages of a global row: start and length
of each part. -/
def pageParts (a n : Nat) : List (Nat × Nat) :=
  if n = 0 then []
  else (List.range ((a + n - 1) / 65536 + 1 - a / 65536)).map fun i =>
    let lo := max a ((a / 65536 + i) * 65536)
    (lo, min (a + n) ((a / 65536 + i + 1) * 65536) - lo)

/-- Codes of one row in an SRAM space, as a source or a die-scratchpad destination (steps 6 of R321). -/
def Issuer.sramRow (u : Issuer) (s : State) (space : Space) (a : Int) (n : Nat) (write : Bool) : List CopyCode :=
  let r := u.range space
  match outside a n r.1 r.2 with
  | some x => [(cSPACE, x)]
  | none =>
    if space = .ds then
      (pageParts a.toNat n).filterMap fun p => if u.dieAllowed s p.1 write then none else some (cPROT, p.1)
    else []

/-- Translate one page part of a global row at its home (steps 6 and 7 of R321). -/
def Issuer.pagePart (u : Issuer) (s : State) (p : Nat × Nat) (acc : Acc) : Except Nat Attr × State :=
  match u.home s p.1 with
  | none => (.error cNOHOME, s)
  | some h => s.translateNow h u.k.asid p.1 acc u.priv

/-- Codes of one global row or indexed element, with the KIND of each for a fault record: those of its pages, and DECKLE
unless one deckle covers every byte of it that lies in a deckled page (R84). -/
def Issuer.globRow (u : Issuer) (s : State) (a : Int) (n : Nat) (acc : Acc) : List (Nat × Nat × Nat) × State :=
  if inGlobal a && inGlobal (a + n - 1) then
    let r := (pageParts (vaOf a) n).foldl (fun (r : List (Nat × Nat × Nat) × List (Nat × Nat) × State) p =>
      match u.pagePart r.2.2 p acc with
      | (.error c, s) => (r.1 ++ [(c, p.1, acc.kind)], r.2.1, s)
      | (.ok v, s) => (r.1, if v.dk then r.2.1 ++ [p] else r.2.1, s)) ([], [], s)
    match r.2.1.head?, r.2.1.getLast? with
    | some lo, some hi =>
      (if u.k.declares lo.1 (hi.1 + hi.2 - lo.1) acc.rights.1 acc.rights.2 then r.1 else r.1 ++ [(cDECKLE, lo.1, acc.kind)], r.2.2)
    | _, _ => (r.1, r.2.2)
  else ([(cTRANSL, vaOf (if inGlobal a then 2 ^ 56 else a), acc.kind)], s)
/-- Codes of the global rows of one side. -/
def Issuer.globRows (u : Issuer) (s : State) (rows : List Int) (n : Nat) (acc : Acc) : List (Nat × Nat × Nat) × State :=
  rows.foldl (fun r a => let x := u.globRow r.2 a n acc; (r.1 ++ x.1, x.2)) ([], s)

/-- Steps 6 and 7 of R321: every code that the source and the destination raise. -/
def Issuer.sideCodes (u : Issuer) (s : State) (c : Copy) (first : Nat := 0) : List (Nat × Nat × Nat) × State :=
  let n := c.descr.rowb
  let al : List (Nat × Nat × Nat) := match c.alignBad with | some a => [(cALIGN, a, 0)] | none => []
  let src : List (Nat × Nat × Nat) × State :=
    if c.strided = false then ([], s)
    else if c.srcsp = 0 then u.globRows s (c.srcRows first) n .copySrc
    else (((c.srcRows first).flatMap fun a => u.sramRow s (spaceOf c.srcsp) a n false).map fun x => (x.1, x.2, 0), s)
  let dst : List (Nat × Nat × Nat) × State :=
    if c.dstsp = 0 then u.globRows src.2 (c.dstRows first) n .copyDst
    else if c.dstsp = 3 then (((c.dstRows first).flatMap fun a => u.sramRow s .ds a n true).map fun x => (x.1, x.2, 0), src.2)
    else ([], src.2)
  (al ++ src.1 ++ dst.1, dst.2)

/-- The lines of a copy's global destination. -/
def Copy.dstLines (c : Copy) : List Nat :=
  c.dstRows.foldl (fun l a => (List.range ((vaOf a + c.descr.rowb - 1) / 256 + 1 - vaOf a / 256)).foldl
    (fun l i => insertAsc l (vaOf a / 256 + i)) l) []
/-- Step 8: the coherent lines of the destination are taken from every cache (R149): whether they all are, and the state
with the Recalls of the others begun. -/
def Issuer.takeLines (u : Issuer) (s : State) (c : Copy) : Bool × State :=
  if c.dstsp ≠ 0 ∨ c.op = .mred then (true, s)
  else c.dstLines.foldl (fun r l =>
    match u.home r.2 (l * 256) with
    | none => r
    | some h =>
      if r.2.promoHeld h u.k.asid (l * 256) then (false, r.2)
      else match r.2.translateNow h u.k.asid (l * 256) .copyDst u.priv with
      | (.error _, s) => (r.1, s)
      | (.ok v, s) =>
        if v.dk then (r.1, s)
        else if !s.homeQuiet v.place || !s.lineQuiet ⟨u.k.asid, l⟩ then (false, s)
        else if s.homeAlone v.place then (r.1, s)
        else (false, s.recallAll v)) (true, s)

/-! ### Issue (R321) -/

/-- A read of scratchpad bytes by a word at issue. -/
def Issuer.spBytes (u : Issuer) (a n : Nat) : List (BitVec 8) :=
  (List.range n).map fun j => undefRead u.t.sp u.t.epoch (a + j)

/-- The status scalar of a copy that is complete, or in error. -/
def Group.setStatus (g : Group) (c : Copy) : Group := { g with s := g.s.set c.st c.status }

/-- Deliver a copy word's code, or park the group at the word (R128, R321). -/
def Issuer.copyFault (u : Issuer) (s : State) (cs : List (Nat × Nat × Nat)) : Option WordOut :=
  match pickCopy (cs.map fun c => (c.1, c.2.1)) with
  | none => none
  | some (code, va) =>
    if code = cTRANSL then
      some (u.transl s ((cs.filter fun c => c.1 == cTRANSL).map fun c => (c.2.1, c.2.2)) (BitVec.ofNat 64 va) 0)
    else some (.fault code (BitVec.ofNat 64 va) 0)

/-- A row of one of a copy's global sides lies in a range that is being promoted (R127). -/
def Issuer.rowsStall (u : Issuer) (s : State) (c : Copy) : Bool :=
  ((if c.srcsp = 0 then c.srcRows else []) ++ (if c.dstsp = 0 then c.dstRows else [])).any fun a =>
    (pageParts (vaOf a) c.descr.rowb).any fun p =>
      match u.home s p.1 with | some h => s.promoHeld h u.k.asid p.1 | none => false
/-- The issue of a copy word, in the steps of R321. -/
def Issuer.issueCopy (u : Issuer) (s : State) (op : CopyOp) (st desc : SReg) (srcsp dstsp vscope mode : Nat) : WordOut :=
  let core := s.core u.t.core
  let r := u.range .sp
  let at' := u.g.s[desc].toNat
  if 16 ≤ core.cq.length ∨ (core.cq.any fun c => c.g == u.g.id && c.st == st && c.pending) = true then
    .wait { u.g with wait := some .other } s
  else if at' % 32 ≠ 0 then .fault cALIGN u.g.s[desc] 0
  else if at' < r.1 ∨ r.2 < at' + 32 then .fault cSPACE u.g.s[desc] 0
  else match u.badWord s .sp at' 32 with
  | some w => .fault cLOSTLINE (BitVec.ofNat 64 w) 0
  | none =>
    let xword := op.code * 2 ^ 24 + (0x28 + st.val) * 2 ^ 18 + (0x28 + desc.val) * 2 ^ 12 + srcsp * 2 ^ 9 + dstsp * 2 ^ 6 + vscope * 2 ^ 3 + mode
    let c : Copy :=
      { g := u.g.id, op := op, st := st, srcsp := srcsp, dstsp := dstsp, vscope := vscope, mode := mode, xword := xword
        desc := u.spBytes at' 32, index := [], state := .queued, units := 0, code := 0, errVa := 0
        cancelRec := false }
    let d := c.descr
    if d.rows = 0 ∨ d.rowb = 0 then .done { u.g with s := u.g.s.set st (BitVec.ofNat 64 (2 ^ 31)) } s
    else if c.badFields then .fault cILLOPND 0 0
    else
      let badList := match c.listAt with
        | some a => if a % 4 ≠ 0 ∨ a < r.1 ∨ r.2 < a + 4 * d.rows then some a else none
        | none => none
      match badList with
      | some a => .fault cSPACE (BitVec.ofNat 64 a) 0
      | none =>
        let lost := if op = .cpys then u.badWord s .sp d.dstr (4 * d.rows) else none
        match lost with
        | some w => .fault cLOSTLINE (BitVec.ofNat 64 w) 0
        | none =>
          let c := if op = .cpys then
              { c with index := (List.range d.rows).map fun i => leNat (u.spBytes (d.dstr + 4 * i) 4) }
            else c
          match pickCopy (u.boundCodes s c) with
          | some (code, va) => .fault code (BitVec.ofNat 64 va) 0
          | none =>
            if u.rowsStall s c then .wait { u.g with wait := some .other } s
            else
            let (cs, s) := u.sideCodes s c
            match u.copyFault s cs with
            | some o => o
            | none =>
              match u.takeLines s c with
              | (false, s) => .wait { u.g with wait := some .other } s
              | (true, s) =>
                let core := s.core u.t.core
                .done { u.g with s := u.g.s.set st 0 } (s.setCore { core with cq := core.cq ++ [c] })

/-- A copy word (R319): its fields are checked at decode. -/
def copyWord (ok : Bool) (op : CopyOp) (st desc : SReg) (srcsp dstsp vscope mode : Nat) : State → Out :=
  runWord ok 0 1 fun u s => u.issueCopy s op st desc srcsp dstsp vscope mode

/-- cpy (R322): a plain two-dimensional copy. -/
def execCpy (st desc : SReg) (srcsp dstsp vscope : Fin 8) (s : State) : Out :=
  copyWord (okCpy srcsp dstsp vscope) .cpy st desc srcsp.val dstsp.val vscope.val 0 s
/-- cpy2 (R322): a swizzled copy into the core scratchpad. -/
def execCpy2 (st desc : SReg) (srcsp vscope : Fin 8) (s : State) : Out :=
  copyWord (okCpyD srcsp vscope) .cpy2 st desc srcsp.val 1 vscope.val 0 s
/-- cpyg (R322): a gather. -/
def execCpyg (st desc : SReg) (srcsp dstsp vscope : Fin 8) (s : State) : Out :=
  copyWord (okCpy srcsp dstsp vscope) .cpyg st desc srcsp.val dstsp.val vscope.val 0 s
/-- cpys (R322): a scatter. -/
def execCpys (st desc : SReg) (srcsp dstsp vscope : Fin 8) (s : State) : Out :=
  copyWord (okCpy srcsp dstsp vscope) .cpys st desc srcsp.val dstsp.val vscope.val 0 s
/-- cpym (R323): a multicast. -/
def execCpym (st desc : SReg) (srcsp vscope : Fin 8) (s : State) : Out :=
  copyWord (okCpyD srcsp vscope) .cpym st desc srcsp.val 1 vscope.val 0 s
/-- cpyr (R324): a reducing copy. -/
def execCpyr (st desc : SReg) (srcsp dstsp vscope mode : Fin 8) (s : State) : Out :=
  copyWord (okCpyr srcsp dstsp vscope mode) .cpyr st desc srcsp.val dstsp.val vscope.val mode.val s
/-- cpyf (R322): a fill. -/
def execCpyf (st desc : SReg) (dstsp vscope : Fin 8) (s : State) : Out :=
  copyWord (okCpyf dstsp vscope) .cpyf st desc 0 dstsp.val vscope.val 0 s
/-- mred (R324): a reduction at the home. -/
def execMred (st desc : SReg) (srcsp vscope mode : Fin 8) (s : State) : Out :=
  copyWord (okMred srcsp vscope mode) .mred st desc srcsp.val 0 vscope.val mode.val s

/-! ### The engine (R169, R170) -/

/-- Replace copy `k` of a core's queue, or remove it when it is done, and show its status word. -/
def State.putCopy (s : State) (id : CoreId) (k : Nat) (c : Copy) : State :=
  let core := s.core id
  let s := s.setCore { core with
    cq := if c.state = .done then core.cq.eraseIdx k else core.cq.set k c
    copies := if c.state = .done then core.copies + 1 else core.copies }
  match s.group? c.g with
  | some g => s.setGroup (g.setStatus c)
  | none => s

/-- What a unit's read or write meets. -/
inductive UnitOut (α : Type)
  | ok (x : α) (s : State)
  /-- A code and its address, and for a translation fault the address of every part that raised it, with its KIND. -/
  | bad (code va : Nat) (pages : List (Nat × Nat)) (s : State)
  /-- A bank it needs is held: the unit has not completed. -/
  | held
  /-- It waits for something that it has set going. -/
  | busy (s : State)

/-- The bytes of a die's newest view of a line: its own copies, under them the sheet's, under them the home's
(R149, R151). -/
def State.lineView (s : State) (core : CoreId) (a : LineId) (v : Attr) : BitVec 2048 :=
  match s.mem.line? (.l1 core) a with
  | some l => l.val
  | none =>
    match s.mem.line? (.l2 core.die) a with
    | some l => let r := s.mem.gather 3 (.l2 core.die) a; lineMerge l.val r.1 r.2
    | none =>
      if v.dk then s.mem.placeLine v.place
      else
        let r := s.mem.gather 4 (.slice (sliceOf (dieSheet core.die) a.line)) a
        lineMerge (s.mem.newest v.place) r.1 r.2

/-- Check one part of a unit, within one line, at its home (R84, R121, R132). What the die itself has on its way home to
the line is waited for. -/
def Issuer.unitLine (u : Issuer) (s : State) (va n : Nat) (acc : Acc) : UnitOut Attr :=
  let a : LineId := ⟨u.k.asid, va / 256⟩
  let bad (c : Nat) (s : State) : UnitOut Attr := .bad c va [(va, acc.kind)] s
  if !canonical va then bad cTRANSL s
  else match u.home s va with
  | none => bad cNOHOME s
  | some h =>
    if s.promoHeld h u.k.asid va then .held
    else match s.meet h u.k.asid va n acc u.priv (some u.k) with
    | (.error c, s) => bad c s
    | (.ok v, s) =>
      if (v.tier == 0 && s.bankHeld v.home v.pa) || (s.mem.net.any fun m => match m.body with
          | .wbDirty b n _ _ _ _ => b == a && nodeDie n == some u.die
          | _ => false) then .held
      else .ok v s

/-- The parts of a byte range that lie in one line each. -/
def lineParts (a n : Nat) : List (Nat × Nat) :=
  if n = 0 then []
  else (List.range ((a + n - 1) / 256 + 1 - a / 256)).map fun i =>
    let lo := max a ((a / 256 + i) * 256)
    (lo, min (a + n) ((a / 256 + i + 1) * 256) - lo)

/-- The codes that some bytes of a unit raise, and whether a bank holds some of them up. -/
structure UnitCodes where
  codes : List (Nat × Nat × Nat)
  held : Bool
/-- Those of global bytes, line by line. -/
def Issuer.lineCodes (u : Issuer) (s : State) (a : Int) (n : Nat) (acc : Acc) : UnitCodes × State :=
  if !(inGlobal a && inGlobal (a + n - 1)) then (⟨[(cTRANSL, vaOf (if inGlobal a then 2 ^ 56 else a), acc.kind)], false⟩, s)
  else (lineParts (vaOf a) n).foldl (fun r p =>
    match u.unitLine r.2 p.1 p.2 acc with
    | .ok _ s => (r.1, s)
    | .bad c va _ s => (⟨r.1.codes ++ [(c, va, acc.kind)], r.1.held⟩, s)
    | .held => (⟨r.1.codes, true⟩, r.2)
    | .busy s => (⟨r.1.codes, true⟩, s)) (⟨[], false⟩, s)
/-- The codes of a unit, of both sides, before any byte of it is read. An indexed element is checked whole when its index is
read (R84, R322). -/
def Issuer.unitCodes (u : Issuer) (s : State) (c : Copy) (row off n : Nat) (elem : Bool) : UnitCodes × State :=
  let a := c.srcRow row + off
  let al : List (Nat × Nat × Nat) := if c.op = .cpyg ∧ a % 4 ≠ 0 then [(cALIGN, vaOf a, 8)] else []
  let src : UnitCodes × State :=
    if c.op = .cpyf then (⟨[], false⟩, s)
    else if c.srcsp = 0 then
      let e := if elem then u.globRow s (c.srcRow row) c.descr.rowb .copySrc else ([], s)
      let l := u.lineCodes e.2 a n .copySrc
      (⟨al ++ e.1 ++ l.1.codes, l.1.held⟩, l.2)
    else
      let space := spaceOf c.srcsp
      let out := (if elem then u.sramRow s space (c.srcRow row) c.descr.rowb false else u.sramRow s space a n false).map fun x => (x.1, x.2, 0)
      let lost := if out = [] then (u.badWord s space a.toNat n).toList.map fun w => (cLOSTLINE, w, 0) else []
      (⟨al ++ out ++ lost, false⟩, s)
  if c.dstsp = 0 then
    let d := u.lineCodes src.2 (c.dstRow row + off) n .copyDst
    (⟨src.1.codes ++ d.1.codes, src.1.held || d.1.held⟩, d.2)
  else src

/-- Read the bytes of a unit whose checks have passed. -/
def Issuer.unitRead (u : Issuer) (s : State) (space : Space) (a : Int) (n : Nat) : UnitOut (List (BitVec 8)) :=
  match space with
  | .glob =>
    (lineParts (vaOf a) n).foldl (fun r p =>
      match r with
      | .ok bs s =>
        match u.unitLine s p.1 p.2 .copySrc with
        | .ok v s => .ok (bs ++ leBytes p.2 (lineNat (s.lineView u.t.core ⟨u.k.asid, p.1 / 256⟩ v) (p.1 % 256) p.2)) s
        | .bad c va ps s => .bad c va ps s
        | .held => .held
        | .busy s => .busy s
      | r => r) (.ok [] s)
  | _ => .ok (leBytes n (u.readSram s space 0 a.toNat n)) s

/-- Write bytes into one line of a global destination: deckled, into the die's L2 as a store of the issuing core;
coherent, at the home (R147, R149). -/
def Issuer.unitStore (u : Issuer) (s : State) (va : Nat) (bs : List (BitVec 8)) (v : Attr) : State :=
  let a : LineId := ⟨u.k.asid, va / 256⟩
  let val := linePlace (va % 256) (leNat bs)
  let mask := lineMask (va % 256) bs.length
  if v.dk then
    let l2 := (s.mem.line? (.l2 u.die) a).getD
      ⟨.l2 u.die, a, .s, [], s.mem.placeLine v.place, 0, v, s.now (.die u.die)⟩
    s.mapMem fun x =>
      let x := x.setLine { l2 with val := lineMerge l2.val val mask, dirty := l2.dirty ||| mask }
      match x.line? (.l1 u.t.core) a with
      | some l => x.setLine { l with val := lineMerge l.val val mask }
      | none => x
  else s.homeWrite v.place val mask

/-- Combine source words into destination words (R324). -/
def combine (mode : Nat) (old new : List (BitVec 8)) : List (BitVec 8) :=
  (List.range (new.length / 4)).flatMap fun i =>
    leBytes 4 (copyOp mode (BitVec.ofNat 32 (leNat ((old.drop (4 * i)).take 4))) (BitVec.ofNat 32 (leNat ((new.drop (4 * i)).take 4)))).toNat

/-- The places of a unit's bytes in an SRAM row: cpy2 permutes 16-byte columns (R322). -/
def Copy.pieces (c : Copy) (row off n : Nat) : List (Nat × Nat × Nat) :=
  match c.op with
  | .cpy2 => (List.range (n / 16)).map fun i =>
      let col := off / 16 + i
      (16 * i, (col / 8 * 8 + (col % 8 ^^^ row % 8)) * 16, 16)
  | _ => [(0, off, n)]

/-- Write one piece into an SRAM space of the issuer, or of a receiver. -/
def Issuer.pieceStore (u : Issuer) (s : State) (space : Space) (a : Nat) (bs : List (BitVec 8)) (comb : Option Nat) : UnitOut Unit :=
  let u' : Issuer := match s.team? u.t.tid u.t.team with | some t => { u with t := t } | none => u
  match comb with
  | none => .ok () (u'.writeSram s space ⟨0, a, bs.length, leNat bs, ones (8 * bs.length)⟩)
  | some mode =>
    match u'.badWord s space a bs.length with
    | some w => .bad cLOSTLINE w [] s
    | none =>
      let out := combine mode (leBytes bs.length (u'.readSram s space 0 a bs.length)) bs
      .ok () (u'.writeSram s space ⟨0, a, out.length, leNat out, ones (8 * out.length)⟩)

/-- Write the bytes of a unit at its destination. -/
def Issuer.unitWrite (u : Issuer) (s : State) (c : Copy) (row off : Nat) (bs : List (BitVec 8)) : UnitOut Unit :=
  let comb := if c.op = .cpyr ∨ c.op = .mred then some c.mode else none
  let step (t : Issuer) (space : Space) (base : Int) (r : UnitOut Unit) : UnitOut Unit :=
    (c.pieces row off bs.length).foldl (fun r p =>
      match r with
      | .ok _ s => t.pieceStore s space (base + p.2.1).toNat ((bs.drop p.1).take p.2.2) comb
      | r => r) r
  match c.op, c.dstsp with
  | .cpym, _ =>
    (u.receivers s c.descr.dstr).foldl (fun r t =>
      match t with
      | some t => step { u with t := t } .sp (t.spbase + c.dstRow row) r
      | none => r) (.ok () s)
  | _, 0 =>
    let a := vaOf (c.dstRow row + off)
    (lineParts a bs.length).foldl (fun r p =>
      match r with
      | .ok _ s =>
        match u.unitLine s p.1 p.2 .copyDst with
        | .ok v s =>
          let new := (bs.drop (p.1 - a)).take p.2
          match comb with
          | none => .ok () (u.unitStore s p.1 new v)
          | some mode =>
            let s := (s.homeOwn v).touch v.place
            let old := leBytes p.2 (lineNat (s.mem.placeLine v.place) (p.1 % 256) p.2)
            .ok () (s.mapMem fun x => x.placeWrite v.place (linePlace (p.1 % 256) (leNat (combine mode old new))) (lineMask (p.1 % 256) p.2))
        | .bad code va ps s => .bad code va ps s
        | .held => .held
        | .busy s => .busy s
      | r => r) (.ok () s)
  | _, space => step u (spaceOf space) (c.dstRow row) (.ok () s)

/-- A gather reads its index when its row begins (R322). -/
def Issuer.gatherIndex (u : Issuer) (s : State) (c : Copy) : Copy × Option Nat :=
  if c.op = .cpyg ∧ c.index = [] then
    let a := c.descr.sstr + 4 * (c.unit c.units).1
    match u.badWord s .sp a 4 with
    | some w => (c, some w)
    | none => ({ c with index := [leNat (u.spBytes a 4)] }, none)
  else (c, none)

/-- What stands between an mred and its destination lines (R145, R197, R324): the own copies of the issuing die go home, and
the home recalls owners. -/
def Issuer.mredFirst (u : Issuer) (s : State) (vas : List Nat) : Option (UnitOut Unit) :=
  match u.ownStart s vas with
  | some s => some (.busy s)
  | none => vas.findSome? fun va => match u.unitLine s va 0 .copyDst with
    | .ok v s =>
      if v.dk then none
      else if !s.homeQuiet v.place then some .held
      else if s.homeOwned v.place then some (.busy (s.recallOwners v))
      else none
    | _ => none

/-- A parked scatter that resumes reads its list again, and checks the rows that are not complete as steps 5 and 6 of R321
do (R322). -/
def Issuer.relist (u : Issuer) (s : State) (c : Copy) : Except (Nat × Nat) Copy × State :=
  let d := c.descr
  if c.op = .cpys ∧ c.index = [] then
    match u.badWord s .sp d.dstr (4 * d.rows) with
    | some w => (.error (cLOSTLINE, w), s)
    | none =>
      let c := { c with index := (List.range d.rows).map fun i => leNat (u.spBytes (d.dstr + 4 * i) 4) }
      let row := (c.unit c.units).1
      match pickCopy (u.boundCodes s c row) with
      | some x => (.error x, s)
      | none =>
        let r := u.sideCodes s c row
        match pickCopy ((r.1.map fun x => (x.1, x.2.1)).filter fun x => codeRank x.1 ≤ codeRank cDECKLE) with
        | some x => (.error x, r.2)
        | none => (.ok c, r.2)
  else (.ok c, s)

/-! ### Copy data on the fabric (R27, R34) -/

/-- The home a unit's data goes to or comes from: that of a global destination that is written at its home, otherwise that
of a global source that the die does not hold. -/
def Issuer.unitHome (u : Issuer) (s : State) (c : Copy) (row off : Nat) : Option Nat :=
  let dst := vaOf (c.dstRow row + off)
  let src := vaOf (c.srcRow row + off)
  let far := c.dstsp == 0 && (c.op == .mred || match u.unitLine s dst 1 .copyDst with | .ok v _ => !v.dk | _ => false)
  if far then u.home s dst
  else if c.srcsp = 0 ∧ c.op ≠ .cpyf ∧ s.mem.line? (.l2 u.die) ⟨u.k.asid, src / 256⟩ = none then u.home s src
  else none
/-- The next unit of a copy: both sides are checked, its data crosses the fabric, and its bytes are read, then written (R320
to R324). -/
def Issuer.unitStep (u : Issuer) (s : State) (c : Copy) : Copy × UnitOut Unit :=
  match u.relist s c with
  | (.error x, s) => (c, .bad x.1 x.2 [] s)
  | (.ok c, s) =>
    let (row, off, n) := c.unit c.units
    let fresh : Bool := c.op == .cpyg && (c.index == [] || off == 0)
    match u.gatherIndex s c with
    | (c, some w) => (c, .bad cLOSTLINE w [] s)
    | (c, none) =>
      let (cs, s) := u.unitCodes s c row off n fresh
      let vas := if c.op = .mred then (lineParts (vaOf (c.dstRow row + off)) n).map fun p => p.1 else []
      if cs.held then (c, .held)
      else match pickCopy (cs.codes.map fun x => (x.1, x.2.1)) with
      | some (code, va) => (c, .bad code va ((cs.codes.filter fun x => x.1 == cTRANSL).map fun x => (x.2.1, x.2.2)) s)
      | none =>
        let go (s : State) : UnitOut Unit :=
          match u.mredFirst s vas with
          | some o => o
          | none =>
            let src : UnitOut (List (BitVec 8)) :=
              if c.op = .cpyf then .ok ((List.range n).map fun j => BitVec.ofNat 8 (c.descr.saddr / 2 ^ (8 * (j % 4)))) s
              else u.unitRead s (spaceOf c.srcsp) (c.srcRow row + off) n
            match src with
            | .ok bs s => u.unitWrite s c row off bs
            | .bad code va ps s => .bad code va ps s
            | .held => .held
            | .busy s => .busy s
        match u.unitHome s c row off with
        | none => (c, go s)
        | some h =>
          match s.bulk (.die u.die) (.tower h) (.copyUnit c.g c.st.val c.units) with
          | .sent s => (c, .busy s)
          | .away => (c, .held)
          | .arrived s' =>
            match go s' with
            | .busy _ => (c, go s)
            | o => (c, o)

/-- The agent a copy works for. -/
def State.copyIssuer (s : State) (c : Copy) : Option Issuer :=
  match s.group? c.g, s.team? c.g.tid c.g.team, s.task? c.g.tid with
  | some g, some t, some k => some ⟨g, t, k⟩
  | _, _, _ => none

/-- COPY_START (R169, R170): the engine takes the oldest queued copy. -/
def execCopyStart (c : CoreId) (k : Nat) (s : State) : Out :=
  match (s.core c).cq[k]? with
  | none => s.stays
  | some q =>
    if q.state = .queued ∧ s.siteRuns (.die c.die) = true ∧ ((((s.core c).cq.take k).all fun e => e.state != .queued) = true) then
      .next (s.putCopy c k { q with state := .active })
    else s.stays

/-- The unit of protected storage that the next unit of a copy reads: an SRAM word, the die's line, or a sector of DRAM. -/
def Issuer.copyUnit (u : Issuer) (s : State) (q : Copy) : Option EccUnit :=
  let (row, off, _) := q.unit q.units
  let a := q.srcRow row + off
  match q.op, spaceOf q.srcsp with
  | .cpyf, _ => none
  | _, .glob =>
    let l : LineId := ⟨u.k.asid, vaOf a / 256⟩
    if (s.mem.line? (.l2 u.die) l).isSome then some (.line (.l2 u.die) l)
    else (s.placeAt u.k.asid (vaOf a)).bind fun p => if p.1.tier = 0 then some (.sector p.1.tower p.1.pa) else none
  | _, space => u.eccUnit space a
/-- COPY_UNIT_COMPLETE (R169, R170, R198): the next unit of an active copy is read and written, and UNITS rises; the
last one sets DONE. A translation fault parks the copy and posts its records (R128); any other fault puts it
in ERR. -/
def execCopyUnitComplete (c : CoreId) (k : Nat) (ecc : Ecc) (s : State) : Out := s.happens <|
  match (s.core c).cq[k]? with
  | none => none
  | some q =>
    match s.copyIssuer q with
    | none => none
    | some u =>
      if q.state ≠ .active ∨ s.siteRuns (.die c.die) = false then none
      else
        match u.unitStep (s.found ecc (u.copyUnit s q)) q with
        | (_, .held) => none
        | (q', .busy s) => some (s.putCopy c k q')
        | (q', .ok _ s) =>
          let q' := { q' with units := q'.units + 1, index := if q'.op = .cpyg ∧ (q'.units + 1) % q'.descr.perRow = 0 then [] else q'.index }
          some (s.putCopy c k (if q'.units = q'.descr.units then { q' with state := .done } else q'))
        | (q', .bad code va pages s) =>
          if code = cTRANSL then
            let (fid, s) := s.takeFid
            some ((s.faultRecords fid u.k.tid u.k.asid u.die pages).putCopy c k
              { q' with state := .parked fid, errVa := BitVec.ofNat 64 va })
          else some (s.putCopy c k { q' with state := .err, code := code, errVa := BitVec.ofNat 64 va })

end Sys2Proof.Machine
end

