-- ==== Sys2Proof/Machine/Control.lean ====
section
/-! DEFINITION. The CTL words of a group: control transfers (R276 to R279), the mask stack (R280, R281), barriers
and tethers (R153, R171 to R173, R339), launches and tail writes (R340, R341), leaving (R179, R342), and
waiting for a change (R343), with the events that complete them. -/

namespace Sys2Proof.Machine

/-! ### Control transfers (R276 to R278) -/

/-- A relative target: the clause header plus four times the signed word offset (R276). -/
def Issuer.relative (u : Issuer) (o : BitVec 18) : W64 := u.g.pc + 4 * o.signExtend 64
/-- A transfer that is taken, with the group it leaves (R276). -/
def Issuer.transferTo (_u : Issuer) (s : State) (g : Group) (target : W64) : WordOut :=
  .goto g target s
/-- A transfer whose target came from a scalar or a literal: bits [1:0] must be zero (R278). -/
def Issuer.transferVal (_u : Issuer) (s : State) (g : Group) (target : W64) : WordOut :=
  if target.toNat % 4 ≠ 0 then .fault cALIGN target 0 else .goto g target s
/-- A relative transfer, taken or falling through to the next clause. -/
def branch (ok : Bool) (o : BitVec 18) (taken : Issuer → Bool) : State → Out :=
  runWord ok 0 1 fun u s => if taken u then u.transferTo s u.g (u.relative o) else .done u.g s
/-- A call's link: s15 becomes the address of the clause that follows (R278). -/
def Issuer.link (u : Issuer) : Group := { u.g with s := u.g.s.set 15 (u.g.clauseEnd) }
/-- The mask a transfer tests, within the group's width. -/
def Issuer.maskBits (u : Issuer) (x : W64) : W64 := x &&& maskOnes u.w

/-- br (R277). -/
def execBr (o : BitVec 18) (s : State) : Out := branch true o (fun _ => true) s
/-- bcc (R275, R277): taken when the condition holds on FLAGS. -/
def execBcc (f : Code) (o : BitVec 18) (s : State) : Out := branch f.isCond o (fun u => condHolds u.g.flags f.val) s
/-- bmz (R277): taken when all bits of a mask are zero. -/
def execBmz (f : Code) (o : BitVec 18) (s : State) : Out :=
  branch (f.below 8) o (fun u => u.maskBits (u.g.mask f.val) == 0) s
/-- bmnz (R277): taken when any bit of a mask is one. -/
def execBmnz (f : Code) (o : BitVec 18) (s : State) : Out :=
  branch (f.below 8) o (fun u => u.maskBits (u.g.mask f.val) != 0) s
/-- bxz (R277): taken when all bits of EXM are zero. -/
def execBxz (o : BitVec 18) (s : State) : Out := branch true o (fun u => u.maskBits u.g.exm == 0) s
/-- bxnz (R277): taken when any bit of EXM is one. -/
def execBxnz (o : BitVec 18) (s : State) : Out := branch true o (fun u => u.maskBits u.g.exm != 0) s
/-- call to a relative target (R277, R278). -/
def execCall (o : BitVec 18) (s : State) : Out :=
  runWordTo (.s 15) true 0 1 (fun u s => u.transferTo s (u.link) (u.relative o)) s
/-- call to the value of a scalar, read before s15 is written (R278). -/
def execCallIndirect (k : SReg) (s : State) : Out :=
  runWordTo (.s 15) true 0 1 (fun u s => u.transferVal s (u.link) u.g.s[k]) s
/-- ret (R277, R278): to the value of s15. -/
def execRet (s : State) : Out := runWord true 0 1 (fun u s => u.transferVal s u.g u.g.s[15]) s
/-- jmpi (R277, R278): to the value of a scalar, or to a sign-extended literal. -/
def execJmpi (t : Src) (s : State) : Out :=
  runWord (okJmpi t) 0 (1 + t.nlit) (fun u s => u.transferVal s u.g (u.g.scalar t)) s

/-! ### The mask stack (R280) -/

/-- exif (R280): push EXM, and narrow it by a mask. -/
def execExif (f : Code) (s : State) : Out :=
  runWord (f.below 8) 0 1 (fun u s =>
    if u.g.msdepth = 16 then .fault cSTACK 0 0
    else .done { u.g with mstack := u.g.mstack.setIfInBounds u.g.msdepth u.g.exm, msdepth := u.g.msdepth + 1
                          exm := u.g.exm &&& u.g.mask f.val } s) s
/-- exelse (R280): the outer mask without the lanes now enabled. -/
def execExelse (s : State) : Out :=
  runWord true 0 1 (fun u s =>
    if u.g.msdepth = 0 then .fault cSTACK 0 0
    else .done { u.g with exm := u.g.mstack.getD (u.g.msdepth - 1) 0 &&& ~~~u.g.exm } s) s
/-- exend (R280): pop the outer mask. -/
def execExend (s : State) : Out :=
  runWord true 0 1 (fun u s =>
    if u.g.msdepth = 0 then .fault cSTACK 0 0
    else .done { u.g with exm := u.g.mstack.getD (u.g.msdepth - 1) 0, msdepth := u.g.msdepth - 1 } s) s

/-! ### Barriers (R171, R153) -/

/-- The groups of some groups that have not exited. -/
def live (gs : List Group) : List Group := gs.filter fun g => g.stat != .exited

/-- End the generation of a team barrier when every group that has not exited has arrived. -/
def Barrier.settle (b : Barrier) (gs : List Group) : Barrier :=
  if b.arrived ≠ 0 ∧ (live gs).all (fun g => bit b.arrived g.id.grp) = true then ⟨0, !b.gen⟩ else b
/-- Every barrier of a team, looked at again (R171). -/
def State.settleBarriers (s : State) (tid team : Nat) : State :=
  match s.team? tid team with
  | none => s
  | some t => s.setTeam { t with barriers := t.barriers.map fun b => b.settle (s.teamGroups tid team) }
/-- A group arrives at a team barrier. -/
def State.arrive (s : State) (g : GroupRef) (b : Nat) : State :=
  match s.team? g.tid g.team with
  | none => s
  | some t =>
    let x := t.barriers.getD b ⟨0, false⟩
    (s.setTeam { t with barriers := t.barriers.setIfInBounds b { x with arrived := x.arrived ||| 2 ^ g.grp } }).settleBarriers g.tid g.team
/-- The group's last arrival at a team barrier is in a generation that has not ended. -/
def Issuer.arrived (u : Issuer) (b : Nat) : Bool := bit (u.t.barriers.getD b ⟨0, false⟩).arrived u.g.id.grp

/-- The groups of every resident team of a team set. -/
def State.setGroups (s : State) (tid set : Nat) : List Group :=
  s.groups.filter fun g => g.id.tid == tid && (s.teams.any fun t => t.tid == tid && t.set == set && t.team == g.id.team)
/-- Cluster barriers whose every group has arrived end their generation (R171). -/
def State.settleCbar (s : State) (tid set : Nat) : State :=
  let gs := live (s.setGroups tid set)
  let ended := gs.foldl (fun m g => m &&& g.cbarArr) 0xFF
  if gs = [] ∨ ended = 0 then s
  else { s with groups := s.groups.map fun g =>
    if (gs.any fun h => h.id == g.id) then { g with cbarArr := g.cbarArr ^^^ (g.cbarArr &&& ended) } else g }

/-- tbar (R153, R171, R339): a release at .cr, arrival, the wait, and an acquire at .cr, which has nothing to wait
for. -/
def execTbar (f : Code) (s : State) : Out :=
  runWord (f.below 16) 0 1 (fun u s =>
    match u.g.wait with
    | some (.tbar _) => if u.arrived f.val then .wait u.g s else u.acquire s u.g 0
    | _ =>
      match u.release s 0 with
      | some o => o
      | none =>
        if u.arrived f.val then .wait { u.g with wait := some (.tarr f.val) } s
        else
          let s := s.arrive u.g.id f.val
          match s.team? u.t.tid u.t.team with
          | some t =>
            if Issuer.arrived { u with t := t } f.val then .wait { u.g with wait := some (.tbar f.val) } s
            else u.acquire s u.g 0
          | none => u.acquire s u.g 0) s
/-- tarr (R171, R339): arrive; a group that has already arrived in the generation first waits for it to end. -/
def execTarr (f : Code) (s : State) : Out :=
  runWord (f.below 16) 0 1 (fun u s =>
    if u.arrived f.val then .wait { u.g with wait := some (.tarr f.val) } s
    else .done u.g (s.arrive u.g.id f.val)) s
/-- twait (R171, R339): wait for the generation of the group's last tarr to end. -/
def execTwait (f : Code) (s : State) : Out :=
  runWord (f.below 16) 0 1 (fun u s =>
    if u.arrived f.val then .wait { u.g with wait := some (.twait f.val) } s else .done u.g s) s
/-- cbar (R153, R171, R339): as tbar over every group of the team set, with its ordering at COLOC scope. -/
def execCbar (f : Code) (s : State) : Out :=
  runWord (f.below 8) 0 1 (fun u s =>
    match u.g.wait with
    | some (.cbar _) => if bit u.g.cbarArr f.val then .wait u.g s else u.acquire s u.g u.k.launch.coloc
    | _ =>
      match u.release s u.k.launch.coloc with
      | some o => o
      | none =>
        let s := (s.setGroup { u.g with cbarArr := u.g.cbarArr ||| 2 ^ f.val }).settleCbar u.t.tid u.t.set
        match s.group? u.g.id with
        | some g =>
          if bit g.cbarArr f.val then .wait { g with wait := some (.cbar f.val), fence := none } s
          else u.acquire s g u.k.launch.coloc
        | none => .done u.g s) s

/-! ### Tethers (R172, R173) -/

def State.tethEn (s : State) (t : Nat) : Bool := bit (s.reg (offTeth t)) 31
def State.tethAsid (s : State) (t : Nat) : Nat := bits (s.reg (offTeth t)) 15 0
def State.tethCount (s : State) (t : Nat) : Nat := bits (s.reg (offTeth t + 4)) 15 0
def State.tethArrived (s : State) (t : Nat) : Nat := bits (s.reg (offTeth t + 8)) 31 16
def State.tethGen (s : State) (t : Nat) : Nat := bits (s.reg (offTeth t + 8)) 15 0
/-- A group of a task may use a tether (R172). -/
def State.tethOpen (s : State) (t asid : Nat) : Bool := s.tethEn t && s.tethCount t != 0 && s.tethAsid t == asid

def bitOf (t : Nat) : W64 := BitVec.ofNat 64 (2 ^ t)

/-- teth.arr (R153, R172, R173, R339): the check, made once, then the group arrives; a second arrival in one generation
first waits for its end. Every earlier release and fence of the group has completed, for the group issues nothing before they do. -/
def execTethArr (f : Code) (s : State) : Out :=
  runWord true 0 1 (fun u s =>
    if u.g.wait ≠ some (.tethArr f.val) ∧ s.tethOpen f.val u.k.asid = false then .fault cPROT 0 0
    else if u.g.tethArr.getLsbD f.val then .wait { u.g with wait := some (.tethArr f.val) } s
    else .done { u.g with tethArr := u.g.tethArr ||| bitOf f.val, tethLatched := u.g.tethLatched &&& ~~~bitOf f.val } s) s
/-- teth.wait (R172, R173, R339): after the check, made once, it consumes a latched release, waits for the generation that counts the group's last
arrival, or completes at once when there is none. -/
def execTethWait (f : Code) (s : State) : Out :=
  runWord true 0 1 (fun u s =>
    if u.g.wait ≠ some (.tethWait f.val) ∧ s.tethOpen f.val u.k.asid = false then .fault cPROT 0 0
    else if u.g.tethLatched.getLsbD f.val then .done { u.g with tethLatched := u.g.tethLatched &&& ~~~bitOf f.val } s
    else if u.g.tethArr.getLsbD f.val then .wait { u.g with wait := some (.tethWait f.val) } s
    else .done u.g s) s

/-- A team has arrived at a tether and is not yet counted. -/
def State.tethDue (s : State) (t : Team) (n : Nat) : Bool :=
  let gs := live (s.teamGroups t.tid t.team)
  !t.tethCounted.getLsbD n && gs != [] && gs.all fun g => g.tethArr.getLsbD n
/-- The root counts a team's arrival; the one that reaches COUNT ends the generation (R173). -/
def State.tethCountIn (s : State) (t : Team) (n : Nat) : State :=
  let s := s.setTeam { t with tethCounted := t.tethCounted ||| bitOf n, tethLatched := t.tethLatched &&& ~~~bitOf n }
  let arrived := s.tethArrived n + 1
  if arrived < s.tethCount n then s.setReg (offTeth n + 8) (arrived * 2 ^ 16 + s.tethGen n)
  else
    let s := s.setReg (offTeth n + 8) ((s.tethGen n + 1) % 2 ^ 16)
    { s with
      teams := s.teams.map fun t => if t.tethCounted.getLsbD n then { t with tethEnded := t.tethEnded ||| bitOf n } else t
      sched := { s.sched with saved := s.sched.saved.map fun t =>
        if t.tethCounted.getLsbD n then { t with tethEnded := t.tethEnded ||| bitOf n } else t } }

/-- Arrivals of a team that is about to be freed are counted first: each was sent before its groups exited (R173). -/
def State.tethLast (s : State) (t : Team) : State :=
  (List.range 64).foldl (fun s n =>
    match s.team? t.tid t.team with
    | some x => if s.tethDue x n then s.tethCountIn x n else s
    | none => s) s

/-- TETHER_ARRIVAL (R172, R173): the root lies in the primary farrier's tower, on sheet 0; a team whose every group that has not exited has arrived is counted at the root. -/
def execTetherArrival (tid team t : Nat) (s : State) : Out :=
  if 64 ≤ t then .fault .noSuchUnit
  else match s.team? tid team with
  | none => s.stays
  | some x => if s.tethDue x t ∧ s.sheetRuns (dieSheet x.core.die) ∧ s.sheetRuns 0 then .next (s.tethCountIn x t) else s.stays

/-- The release of a tether is on its way to a team, whose sheet runs: a sheet that has stopped takes it on thaw (R24). -/
def State.tethLanding (s : State) (x : Team) (t : Nat) : Bool := x.tethEnded.getLsbD t && s.sheetRuns (dieSheet x.core.die)
/-- TETHER_RELEASE (R24, R173): the release of an ended generation reaches the cores of the sheets that run, which latch it for every group
whose team was counted. -/
def execTetherRelease (t : Nat) (s : State) : Out :=
  if 64 ≤ t then .fault .noSuchUnit
  else if (s.teams.any fun x => s.tethLanding x t) = true then
    .next { s with
      groups := s.groups.map fun g =>
        match s.team? g.id.tid g.id.team with
        | some x =>
          if s.tethLanding x t && g.tethArr.getLsbD t then
            { g with tethArr := g.tethArr &&& ~~~bitOf t, tethLatched := g.tethLatched ||| bitOf t }
          else g
        | none => g
      teams := s.teams.map fun x =>
        if s.tethLanding x t then
          { x with tethEnded := x.tethEnded &&& ~~~bitOf t, tethCounted := x.tethCounted &&& ~~~bitOf t
                   tethLatched := x.tethLatched ||| bitOf t }
        else x }
  else s.stays

/-- TETHCFG_WRITE (R172): ignored while arrivals are counted; a write of EN from 0 to 1 clears GEN. -/
def execTethcfgWrite (t : Nat) (v : BitVec 32) (s : State) : Out :=
  if 64 ≤ t then .fault .noSuchUnit
  else if s.tethArrived t ≠ 0 then .next s
  else
    let s' := s.regWrite (offTeth t) v.toNat 0x8000FFFF
    .next (if s.tethEn t = false ∧ v.getLsbD 31 = true then s'.setReg (offTeth t + 8) 0 else s')
/-- TETHCNT_WRITE (R172): ignored while arrivals are counted. -/
def execTethcntWrite (t : Nat) (v : BitVec 32) (s : State) : Out :=
  if 64 ≤ t then .fault .noSuchUnit
  else if s.tethArrived t ≠ 0 then .next s
  else .next (s.regWrite (offTeth t + 4) v.toNat 0xFFFF)

/-! ### Launches and tail writes (R340, R341) -/

/-- The tower of the primary farrier, where the arbiter stands (R12, R71). -/
def arbiterSite : Site := .tower 19
/-- A tail write leaves the core for the arbiter (R56). -/
def Issuer.tail (u : Issuer) (s : State) (src : TailSource) (q : Nat) (t : W32) : State :=
  s.send .ctl (.die u.die) arbiterSite (.tailWrite src q t)
/-- A queue whose ASID is not the task's may be used at privileged level only (R340). -/
def Issuer.queueBarred (u : Issuer) (s : State) (q : Nat) : Bool :=
  bits (s.reg (offQCFG q)) 15 0 != u.k.asid && !u.priv

/-- tlaunch (R154, R340): the check of the queue, made once, then the die's dirty lines of the task's write deckles go home, then a release at .pk, then
the tail write. -/
def execTlaunch (k : SReg) (s : State) : Out :=
  runWord true 0 1 (fun u s =>
    let x := u.g.s[k].toNat
    if bits x 63 40 ≠ 0 then .fault cILLOPND 0 0
    else if u.g.fence.isNone && !u.g.stall.sent && u.queueBarred s (bits x 39 32) then .fault cPROT 0 0
    else
      let send (s : State) : WordOut := .done u.g (u.tail s .device (bits x 39 32) (u.g.s[k].setWidth 32))
      match u.g.fence with
      | some _ => send s
      | none =>
        let s := if u.g.stall.sent then s
          else (u.k.deckles.filter fun d => d.w).foldl (fun s d =>
            (s.dirtyLines u.k.asid u.die d.base (d.base + d.extent)).foldl (fun s l => u.cleanLine s l) s) s
        if s.owesWrites u.g.id then .wait { u.g with wait := some .whole, stall := { u.g.stall with sent := true } } s
        else match u.release s 4 with
        | some o => o
        | none => send s) s

/-- qtail (R40 to R42, R341): a tail write to a queue of this package, or a message to another package, which is lost where no fibre leads
there; no release. A package that names itself is a remote target. -/
def execQtail (k : SReg) (s : State) : Out :=
  runWord true 0 1 (fun u s =>
    let x := u.g.s[k].toNat
    let q := bits x 39 32
    let pkg := bits x 49 40
    let t := u.g.s[k].setWidth 32
    if bits x 63 51 ≠ 0 ∨ (bit x 50 = false ∧ pkg ≠ 0) then .fault cILLOPND 0 0
    else if bit x 50 = false then
      if u.queueBarred s q then .fault cPROT 0 0 else .done u.g (u.tail s .device q t)
    else if pkg = s.pkgNum then .done u.g (u.tail s (.remote pkg 0) q t)
    else .done u.g (match s.sendPacket (s.ownPacket .ctl pkg 0) with
      | some s => { s with out := s.out ++ [.remoteTail pkg q t.toNat] }
      | none => s)) s

/-! ### Leaving (R170, R179, R342) -/

/-- The first copy of a group that stands in ERR and is not retired, with its place in the queue. -/
def State.errCopy (s : State) (c : CoreId) (g : GroupRef) : Option (Nat × Copy) :=
  ((s.core c).cq.mapIdx fun i q => (i, q)).find? fun p => p.2.g == g && p.2.state == .err
/-- Retire a copy in ERR: its entry leaves the queue (R170). -/
def State.retireCopy (s : State) (c : CoreId) (i : Nat) : State :=
  let core := s.core c
  s.setCore { core with cq := core.cq.eraseIdx i }
/-- Raise a copy's fault at a CPW header or at an exit, retiring the copy (R170, R177, R179). -/
def State.raiseCopy (s : State) (u : Issuer) (p : Nat × Copy) : State :=
  (s.retireCopy u.t.core p.1).takeFault u p.2.code p.2.errVa 0

/-- exit (R179, R342): a copy error not yet retired is raised; otherwise the group enters the exit stall. -/
def execExit (s : State) : Out :=
  runWord true 0 1 (fun u s =>
    match s.errCopy u.t.core u.g.id with
    | some p => .stop (s.raiseCopy u p)
    | none => .stop (s.setGroup { u.g with stat := .exiting, wait := some .exit, wordsIssued := u.g.wordsIssued + 1 })) s

/-- The last group of a team has exited: its tiles, scratchpad, barriers and private memory are freed (R179), and
a set whose teams have all exited has exited (R72). -/
def State.freeTeam (s : State) (t : Team) : State :=
  let core := s.core t.core
  let s := s.setCore { core with cq := core.cq.filter fun q => !(q.g.tid == t.tid && q.g.team == t.team) }
  let s := { s with
    groups := s.groups.filter fun g => !(g.id.tid == t.tid && g.id.team == t.team)
    teams := s.teams.filter fun x => !(x.tid == t.tid && x.team == t.team) }
  if (s.teams.any fun x => x.tid == t.tid && x.set == t.set) then s
  else match s.task? t.tid with
  | some k => s.putTask { k with sets := k.sets.map fun x => if x.k = t.set then { x with st := .exited, reserved := none } else x }
  | none => s

/-- A multicast that has not ended targets a team (R323). -/
def State.multicastTo (s : State) (t : Team) (k : Task) : Bool :=
  s.cores.any fun c => c.cq.any fun q => q.op == .cpym && q.pending && q.g.tid == t.tid &&
    (match s.team? q.g.tid q.g.team with
      | some x => x.set == t.set && bit q.descr.dstr (t.team - t.set * k.launch.tssize)
      | none => false)

/-- EXIT_COMPLETE (R171, R173, R179): the exit stall ends when every copy of the group has ended, and for the last
group of a team when the team's matrix operations and the multicasts to it have ended. -/
def execExitComplete (r : GroupRef) (s : State) : Out := s.happens <|
  match s.group? r, s.team? r.tid r.team, s.task? r.tid with
  | some g, some t, some k =>
    let core := s.core t.core
    let last := (live (s.teamGroups r.tid r.team)).length = 1
    if g.stat ≠ .exiting ∨ s.siteRuns (.die t.core.die) = false then none
    else if (core.cq.any fun c => c.g == r && c.pending) then none
    else match s.errCopy t.core r with
    | some p =>
      let g := { g with stat := .ready, wait := none }
      some ((s.setGroup g).raiseCopy ⟨g, t, k⟩ p)
    | none =>
      if last ∧ ((core.mq.any fun o => o.g.tid == r.tid && o.g.team == r.team) = true ∨ s.multicastTo t k = true) then none
      else
        let s := if last then s.tethLast t else s
        let s := s.setGroup { g with stat := .exited, wait := none, fence := none }
        if last then some ((s.freeTeam t).settleCbar t.tid t.set)
        else some ((s.settleBarriers r.tid r.team).settleCbar t.tid t.set)
  | _, _, _ => none

/-- trap (R342). -/
def execTrap (_o : BitVec 18) (s : State) : Out := runWord true 0 1 (fun _ _ => .fault cTRAP 0 0) s
/-- brk (R342). -/
def execBrk (_o : BitVec 18) (s : State) : Out := runWord true 0 1 (fun _ _ => .fault cBRK 0 0) s

/-! ### Waiting for a change (R343) -/

/-- wfa (R343): checked and read as a 4-byte load at .cr; then the group waits until its core's copy of the line
is invalidated or written, or the limit passes. -/
def execWfa (k : SReg) (l : BitVec 18) (s : State) : Out :=
  runWord true 0 1 (fun u s =>
    let now := s.sheetNow u.sheet
    match u.g.wait with
    | some (.wfa a val deadline) =>
      let same := match s.mem.line? (.l1 u.t.core) a with | some e => e.val == val | none => false
      if same = false ∨ deadline ≤ now then .done u.g s else .wait u.g s
    | _ =>
      let addrs : List LaneAddr := [(0, u.g.s[k].toInt)]
      match u.gate s addrs 4 .read false with
      | some o => o
      | none =>
        let s := (u.touchL1 s (vaOf u.g.s[k].toInt)).trimL1 u.t.core
        match u.l1 s (vaOf u.g.s[k].toInt / 256) with
        | none => .done u.g s
        | some e => .wait { u.g with wait := some (.wfa e.a e.val (now + l.toNat * 1000)) } s) s

/-- WFA_WAKE (R343): the wait of a wfa ends, for any cause. -/
def execWfaWake (r : GroupRef) (s : State) : Out :=
  match s.issuerOf r with
  | none => s.stays
  | some u =>
    match u.g.wait with
    | some (.wfa _ _ _) => .next (s.settle u 1 (.done u.g s))
    | _ => s.stays

end Sys2Proof.Machine
end

