-- ==== Sys2Proof/Machine/Matrix.lean ====
section
/-! DEFINITION. The MTX words and the matrix unit (R166 to R168, R327 to R337): operand maps, format blocks, batches,
drains and fills, and the k-steps of queued operations. -/

namespace Sys2Proof.Machine

/-! ### Operand maps (R328) -/

/-- An operand map. -/
structure OpMap where
  addr : Nat
  stride : Nat
  ord : Nat
  swz : Nat
  rsv : Nat
  deriving DecidableEq, Repr

def OpMap.ofWord (x : W64) : OpMap :=
  let n := x.toNat
  ⟨bits n 17 0, bits n 33 18, bits n 35 34, bits n 37 36, bits n 63 38⟩
/-- The fields that raise ILLOPND. -/
def OpMap.illegal (p : OpMap) : Bool := p.rsv != 0 || decide (1 < p.swz) || decide (1 < p.ord)
/-- A misaligned address or stride. -/
def OpMap.misaligned (p : OpMap) : Bool :=
  p.addr % 16 != 0 || p.stride % (if p.swz = 1 then 128 else 16) != 0
/-- Bytes of a line's footprint. -/
def OpMap.window (p : OpMap) (len : Nat) : Nat := if p.swz = 1 then 128 else len
/-- The lowest footprint byte outside the team's allocation (R328). -/
def OpMap.outside (p : OpMap) (len lo hi : Nat) : Option Nat :=
  ((List.range 32).filterMap fun r =>
    let a := p.addr + r * p.stride
    if a < lo then some a else if hi < a + p.window len then some (max a hi) else none).min?
/-- Where byte `o` of line `r` lies. -/
def OpMap.at (p : OpMap) (r o : Nat) : Nat :=
  if p.swz = 1 then p.addr + r * p.stride + 16 * (o / 16 ^^^ r % 8) + o % 16 else p.addr + r * p.stride + o
/-- Line and element of the matrix element (i, j). -/
def OpMap.place (p : OpMap) (i j : Nat) : Nat × Nat := if p.ord = 0 then (i, j) else (j, i)

/-! ### Format blocks (R329) -/

/-- Line length of an element code, in bytes; 0 for a code that names no format. -/
def lineLen (code : Nat) : Nat :=
  match code with | 0x01 => 128 | 0x02 => 64 | 0x03 => 64 | 0x10 => 32 | 0x20 => 16 | _ => 0
def isBlock (code : Nat) : Bool := code == 0x10 || code == 0x20
def isHalf (code : Nat) : Bool := code == 0x02 || code == 0x03
/-- Products of one k-step for a pair of codes; `none` when the pair is not in the table (R168, R329). -/
def kPer (a b : Nat) : Option Nat :=
  if isBlock a && isBlock b then some 32
  else if isHalf a && isHalf b then some 8
  else if (a == 0x01 && (b == 0x01 || isHalf b)) || (isHalf a && b == 0x01) then some 2
  else none

/-- A format block as read. -/
structure FmtBlock where
  acode : Nat
  bcode : Nat
  ascale : Nat
  bscale : Nat
  /-- BLK, FLAGS, and bytes 12 to 15 are what they must be. -/
  fixed : Bool
  deriving DecidableEq, Repr
def FmtBlock.ofBytes (b : List (BitVec 8)) : FmtBlock :=
  let f (o n : Nat) : Nat := leNat ((b.drop o).take n)
  ⟨f 0 1, f 1 1, f 4 4, f 8 4, f 2 1 == 32 && f 3 1 == 0 && f 12 4 == 0⟩

/-! ### Checks of a word at issue -/

/-- Bytes of the team's scratchpad. -/
def Team.spNat (t : Team) (a n : Nat) : Nat := leNat ((List.range n).map fun j => undefRead t.sp t.epoch (a + j))
def Team.spBytes (t : Team) (a n : Nat) : List (BitVec 8) := (List.range n).map fun j => undefRead t.sp t.epoch (a + j)

/-- Place of a code in the order of R176 for a word without lanes. -/
def wordRank (c : Nat) : Nat := if c = cILLOPND then 0 else if c = cFORMAT then 1 else 2 + codeRank c
/-- Of the codes a word raises, in the order of its checks, the one delivered, with its address (R176, R177). -/
def pickWord (cs : List (Nat × Nat)) : Option (Nat × Nat) :=
  match cs with
  | [] => none
  | c :: rest => some (rest.foldl (fun b x => if wordRank x.1 < wordRank b.1 then x else b) c)

/-- Codes of a map, once its line length is known. -/
def Issuer.mapCodes (u : Issuer) (p : OpMap) (len : Nat) : List (Nat × Nat) :=
  let r := u.range .sp
  (if p.illegal then [(cILLOPND, 0)] else []) ++ (if p.misaligned then [(cALIGN, p.addr)] else []) ++
    (match p.outside len r.1 r.2 with | some a => [(cSPACE, a)] | none => [])
/-- Codes of a byte range that must lie in the allocation and be readable. -/
def Issuer.rangeCodes (u : Issuer) (s : State) (a n : Nat) (read : Bool) : List (Nat × Nat) :=
  let r := u.range .sp
  if a < r.1 then [(cSPACE, a)]
  else if r.2 < a + n then [(cSPACE, max a r.2)]
  else if read then (match u.badWord s .sp a n with | some w => [(cLOSTLINE, w)] | none => [])
  else []
/-- A scale byte names a reserved 8-bit type (R256, R329). -/
def reservedScale (code : Nat) (bs : List (BitVec 8)) : Bool :=
  code == 0x10 && bs.any fun b => decide (1 < scaleType b.toNat)

/-- Every code that mma or mmaz raises at issue, in the order of its checks (R328 to R330). -/
def Issuer.mmaCodes (u : Issuer) (s : State) (amap bmap : OpMap) (fblk : Nat) : List (Nat × Nat) :=
  let mapsOnly := (if amap.illegal || bmap.illegal then [(cILLOPND, 0)] else []) ++
    (if amap.misaligned then [(cALIGN, amap.addr)] else []) ++ (if bmap.misaligned then [(cALIGN, bmap.addr)] else [])
  if fblk % 16 ≠ 0 then mapsOnly ++ [(cALIGN, fblk)]
  else match u.rangeCodes s fblk 16 true with
  | c :: cs => mapsOnly ++ c :: cs
  | [] =>
    let f := FmtBlock.ofBytes (u.t.spBytes fblk 16)
    if f.fixed = false ∨ (kPer f.acode f.bcode).isNone = true then mapsOnly ++ [(cFORMAT, fblk)]
    else
      let sc (code at' : Nat) : List (Nat × Nat) :=
        if isBlock code then
          match u.rangeCodes s at' 32 true with
          | [] => if reservedScale code (u.t.spBytes at' 32) then [(cFORMAT, fblk)] else []
          | cs => cs
        else []
      u.mapCodes amap (lineLen f.acode) ++ u.mapCodes bmap (lineLen f.bcode) ++ sc f.acode f.ascale ++ sc f.bcode f.bscale

/-! ### The queue -/

/-- Operations of the team's tile in the matrix queue. -/
def Issuer.onTile (u : Issuer) (s : State) (t : Nat) : List MatOp :=
  (s.core u.t.core).mq.filter fun o => o.g.tid == u.g.id.tid && o.g.team == u.g.id.team && o.tile == t
/-- A tile at or above NACC (R166). -/
def Issuer.tileBad (u : Issuer) (t : Nat) : Bool := decide (u.k.launch.nacc ≤ t)
/-- A word that enters an operation waits for a queue entry, and behind a group that waits to read the tile, so
that the read observes exactly the operations that entered before it (R165, R337). -/
def Issuer.queueFull (u : Issuer) (s : State) (t : Nat) : Bool :=
  decide (8 ≤ (s.core u.t.core).mq.length) ||
    ((s.teamGroups u.g.id.tid u.g.id.team).any fun g => g.id != u.g.id && g.wait == some (.tile t))
/-- Enter an operation in the matrix queue, in the group's open batch (R167). -/
def Issuer.enqueue (u : Issuer) (s : State) (o : MatOp) : WordOut :=
  let core := s.core u.t.core
  .done u.g (s.setCore { core with mq := core.mq ++ [o] })
/-- An operation of the group that has captured nothing. -/
def Issuer.blankOp (u : Issuer) (kind : MatKind) (t : Nat) : MatOp :=
  { g := u.g.id, kind := kind, tile := t, batch := u.g.batch, progress := 0, ra := false, rb := false, zeroed := false
    amap := 0, bmap := 0, fmt := [], ascale := [], bscale := [], exm := 0, src := [], c := 0, n := 0, dir := false }

/-- mma and mmaz (R330). -/
def mmaWord (zero : Bool) (t : Fin 16) (amap bmap fblk : SReg) (ra rb : Bool) : State → Out :=
  runWord true 0 1 fun u s =>
    if u.tileBad t.val then .fault cILLOPND 0 0
    else if u.queueFull s t.val then .wait { u.g with wait := some .other } s
    else
      let at' := u.g.s[fblk].toNat
      match pickWord (u.mmaCodes s (OpMap.ofWord u.g.s[amap]) (OpMap.ofWord u.g.s[bmap]) at') with
      | some (c, va) => .fault c (BitVec.ofNat 64 va) 0
      | none =>
        let f := FmtBlock.ofBytes (u.t.spBytes at' 16)
        u.enqueue s { u.blankOp (if zero then .mmaz else .mma) t.val with
          ra := ra, rb := rb, amap := u.g.s[amap], bmap := u.g.s[bmap], fmt := u.t.spBytes at' 16
          ascale := if isBlock f.acode then u.t.spBytes f.ascale 32 else []
          bscale := if isBlock f.bcode then u.t.spBytes f.bscale 32 else [] }

/-- mma (R330): a multiplication onto the tile. -/
def execMma (t : Fin 16) (amap bmap fblk : SReg) (ra rb : Bool) (s : State) : Out :=
  mmaWord false t amap bmap fblk ra rb s
/-- mmaz (R330): the tile is zeroed first. -/
def execMmaz (t : Fin 16) (amap bmap fblk : SReg) (ra rb : Bool) (s : State) : Out :=
  mmaWord true t amap bmap fblk ra rb s

/-! ### Batches (R167, R332) -/

/-- The closed batches of a group that are outstanding, each once. -/
def Issuer.outstanding (u : Issuer) (s : State) : List Nat :=
  ((s.core u.t.core).mq.filter fun o => o.g == u.g.id && o.batch != u.g.batch).foldl (fun l o => insertAsc l o.batch) []

/-- mbatch (R332): close the open batch and return its number. -/
def execMbatch (d : Dst) (s : State) : Out :=
  runWordTo d d.isS 0 1 (fun u s =>
    if 15 ≤ (u.outstanding s).length then .wait { u.g with wait := some .other } s
    else
      let g := u.g.setS d (BitVec.ofNat 64 u.g.batch)
      .done { g with batch := if u.g.batch = 0xFFFFFFFF then 1 else u.g.batch + 1 } s) s
/-- mwait (R332): wait for a batch and every earlier one. -/
def execMwait (a : Src) (s : State) : Out :=
  runWord a.isUni 0 (1 + a.nlit) (fun u s =>
    let n := (u.g.scalar a).toNat % 2 ^ 32
    if (u.outstanding s).any fun b => decide ((n + 2 ^ 32 - b) % 2 ^ 32 < 2 ^ 31) then .wait { u.g with wait := some .other } s
    else .done u.g s) s

/-! ### Drains (R333, R334) -/

/-- Element (m, n) of a tile. -/
def Team.tileAt (t : Team) (tile m n : Nat) : W32 := lane (t.tiles.getD tile []) (32 * m + n)
/-- A read of a tile waits for the operations on it (R167, R337). -/
def Issuer.tileRead (u : Issuer) (s : State) (t : Nat) (k : Unit → WordOut) : WordOut :=
  if u.tileBad t then .fault cILLOPND 0 0
  else if u.onTile s t ≠ [] then .wait { u.g with wait := some (.tile t) } s
  else k ()

/-- Write bytes into a scratchpad; of several bytes at one address, the one that stands is a free choice. -/
def writeCells (fresh : Nat) (m : Mem) (cells : List (Nat × BitVec 8)) : Mem :=
  (cells.mapIdx fun i c => (i, c)).foldl (fun m p =>
    let same := (cells.mapIdx fun i c => (i, c)).filter fun q => q.2.1 == p.2.1
    let pick := same.getD (Config.drainPick fresh (p.2.1 / 4) % same.length) p
    if pick.1 = p.1 then undefPut m p.2.1 p.2.2 else m) m
/-- A drain's stores: the bytes of 32 lines, and loose bytes beside them; words written whole lose their error. -/
def Issuer.drainTo (u : Issuer) (s : State) (p : OpMap) (lines : List (List (BitVec 8))) (loose : List (Nat × BitVec 8)) : State :=
  match s.team? u.t.tid u.t.team with
  | none => s
  | some t =>
    let cells := (lines.mapIdx fun r bs => bs.mapIdx fun o b => (p.at r o, b)).flatten
    let words := cells.filterMap fun c => if c.1 % 4 = 0 then some c.1 else none
    s.setTeam { t with sp := writeCells s.fresh t.sp (cells ++ loose), spBad := t.spBad.filter fun w => !words.contains w }
/-- Line `r` of a tile under a map, as elements. -/
def Team.tileLine (t : Team) (tile : Nat) (p : OpMap) (r : Nat) : List W32 :=
  (List.range 32).map fun j => if p.ord = 0 then t.tileAt tile r j else t.tileAt tile j r

/-- The bytes of a drained element (R333). -/
def drainBytes (c : Nat) (x : W32) : List (BitVec 8) :=
  match c / 16 with
  | 0 => leBytes 4 x.toNat
  | 1 => leBytes 2 (narrow bf16 (rmodeOf (c % 16)) x)
  | _ => leBytes 2 (narrow fp16 (rmodeOf (c % 16)) x)
/-- Line length of a drain or fill format (R333). -/
def convLen (c : Nat) : Nat := if c / 16 = 0 then 128 else 64

/-- mdrain (R333): write a tile to a map, converted. -/
def execMdrain (d : Code) (a : Src) (c : Code) (s : State) : Out :=
  runWord (okDrain d a c) 0 (1 + a.nlit) (fun u s =>
    u.tileRead s d.val fun _ =>
      let p := OpMap.ofWord (u.g.scalar a)
      match pickWord (u.mapCodes p (convLen c.val)) with
      | some (code, va) => .fault code (BitVec.ofNat 64 va) 0
      | none =>
        .done u.g (u.drainTo s p ((List.range 32).map fun r => (u.t.tileLine d.val p r).flatMap (drainBytes c.val)) [])) s

/-- The bytes of a line of block elements (R257). -/
def mxBytes (set : MxSet) (codes : List Nat) : List (BitVec 8) :=
  match set with
  | .four _ => (List.range (codes.length / 2)).map fun j => BitVec.ofNat 8 (codes.getD (2 * j) 0 + 16 * codes.getD (2 * j + 1) 0)
  | _ => codes.map fun x => BitVec.ofNat 8 x

/-- mdrainx (R334): requantise a tile into blocks, one scale byte and 32 elements for each line. -/
def execMdrainx (d : Code) (a b : Src) (c : Code) (s : State) : Out :=
  runWord (okDrainx d a b c) 0 (1 + a.nlit + b.nlit) (fun u s =>
    u.tileRead s d.val fun _ =>
      let p := OpMap.ofWord (u.g.scalar a)
      let set := mxSetOf c.val
      let at' := (u.g.scalar b).toNat
      match pickWord (u.mapCodes p (if c.val / 16 = 1 then 32 else 16) ++ u.rangeCodes s at' 32 false) with
      | some (code, va) => .fault code (BitVec.ofNat 64 va) 0
      | none =>
        let scales := (List.range 32).map fun r => mxScale set (u.t.tileLine d.val p r)
        let lines := (List.range 32).map fun r =>
          mxBytes set ((u.t.tileLine d.val p r).map (mxElement set (scales.getD r 0)))
        .done u.g (u.drainTo s p lines (scales.mapIdx fun j x => (at' + j, BitVec.ofNat 8 x)))) s

/-! ### Fills and the small tile words (R333, R335, R336) -/

/-- mfill (R333): load a tile from a map; the source is read when the operation executes. -/
def execMfill (d : Code) (a : Src) (c : Code) (s : State) : Out :=
  runWord (okFill d a c) 0 (1 + a.nlit) (fun u s =>
    if u.tileBad d.val then .fault cILLOPND 0 0
    else if u.queueFull s d.val then .wait { u.g with wait := some .other } s
    else match pickWord (u.mapCodes (OpMap.ofWord (u.g.scalar a)) (convLen c.val)) with
    | some (code, va) => .fault code (BitVec.ofNat 64 va) 0
    | none => u.enqueue s { u.blankOp .mfill d.val with amap := u.g.scalar a, c := c.val }) s
/-- mzero (R335): every element of a tile becomes +0.0. -/
def execMzero (d : Code) (s : State) : Out :=
  runWord (d.below 16) 0 1 (fun u s =>
    if u.tileBad d.val then .fault cILLOPND 0 0
    else if u.queueFull s d.val then .wait { u.g with wait := some .other } s
    else u.enqueue s (u.blankOp .mzero d.val)) s

/-- The element that mrdv reads, or mwrv writes, at a lane (R335). -/
def tileCell (n : Nat) (col : Bool) (i : Nat) : Nat × Nat :=
  let n' := (n + i / 32) % 32
  if col then (i % 32, n') else (n', i % 32)
/-- mrdv (R335): a row or a column of a tile as lanes. -/
def execMrdv (d : Dst) (a : Code) (b : Src) (c : Code) (s : State) : Out :=
  runWord (okMrdv d a b c) (d.vtop 1) (1 + b.nlit) (fun u s =>
    u.tileRead s a.val fun _ =>
      let n := (u.g.scalar b).toNat % 2 ^ 32 % 32
      .done (u.g.writeVec u.w d fun i => let e := tileCell n (c.val == 1) i; u.t.tileAt a.val e.1 e.2) s) s
/-- mwrv (R335): lanes into a row or a column of a tile, captured at issue with EXM. -/
def execMwrv (d : Code) (a b : Src) (c : Code) (s : State) : Out :=
  runWord (okMwrv d a b c) (a.vtop 1) (1 + a.nlit + b.nlit) (fun u s =>
    if u.tileBad d.val then .fault cILLOPND 0 0
    else if u.queueFull s d.val then .wait { u.g with wait := some .other } s
    else u.enqueue s { u.blankOp .mwrv d.val with
      exm := u.g.exm, src := u.g.lanesSrc u.w a, n := (u.g.scalar b).toNat % 2 ^ 32 % 32, dir := c.val == 1 }) s
/-- mprog (R336): the operations on a tile, without waiting. -/
def execMprog (d : Dst) (a : Code) (s : State) : Out :=
  runWordTo d (okMprog d a) 0 1 (fun u s =>
    if u.tileBad a.val then .fault cILLOPND 0 0
    else
      let ops := u.onTile s a.val
      let x := match ops with
        | [] => 0
        | o :: _ => 2 ^ 8 + o.progress % 32 + ops.length * 2 ^ 32
      .done (u.g.setS d (BitVec.ofNat 64 x)) s) s

/-! ### Execution (R168, R258 to R260, R330) -/

/-- Width of an element in nibbles of a line: its byte offset, and whether it is the upper nibble. -/
def elemAt (p : OpMap) (code i j : Nat) : Nat × Nat :=
  let e := p.place i j
  (p.at e.1 (match code with | 0x01 => 4 * e.2 | 0x02 => 2 * e.2 | 0x03 => 2 * e.2 | 0x10 => e.2 | _ => e.2 / 2), e.2 % 2)
/-- Bytes of an element; a 4-bit one lies in one byte. -/
def elemSize (code : Nat) : Nat := match code with | 0x01 => 4 | 0x02 => 2 | 0x03 => 2 | _ => 1
/-- The value of an element under its scale byte (R255 to R257). -/
def Team.elem (t : Team) (p : OpMap) (code sb i j : Nat) : Fv :=
  let a := elemAt p code i j
  let x := t.spNat a.1 (elemSize code)
  match code with
  | 0x01 => fpDecode fp32 x
  | 0x02 => fpDecode bf16 x
  | 0x03 => fpDecode fp16 x
  | 0x10 => match mx8Format (scaleType sb) with
    | some f => fvScale (fpDecode f x) (scaleExp sb)
    | none => .nan
  | _ => fvScale (mx4Value (mx4SetOf (scaleType sb)) (x / 16 ^ a.2 % 16)) (scaleExp sb)

/-- The exact sum of a block's products (R258, R259). -/
def blockSum (ps : List Fv) : Fv := ps.foldl fvAdd (.fin false 0 0)

/-- One k-step of a multiplication: every element of the tile (R258, R260). -/
def MatOp.mmaStep (o : MatOp) (t : Team) (tile : List W32) : List W32 :=
  let f := FmtBlock.ofBytes o.fmt
  let pa := OpMap.ofWord o.amap
  let pb := OpMap.ofWord o.bmap
  let ks := (List.range ((kPer f.acode f.bcode).getD 32)).map fun k => o.progress + k
  let a (m k : Nat) : Fv := t.elem pa f.acode (o.ascale.getD m 0).toNat m k
  let b (k n : Nat) : Fv := t.elem pb f.bcode (o.bscale.getD n 0).toNat k n
  (List.range 1024).map fun i =>
    let acc := lane tile i
    if isBlock f.acode then toF32 (fvAdd (f32v acc) (blockSum (ks.map fun k => fvMul (a (i / 32) k) (b k (i % 32)))))
    else ks.foldl (fun acc k => toF32 (fvAdd (f32v acc) (fvMul (a (i / 32) k) (b k (i % 32))))) acc

/-- The tile a fill leaves (R333). -/
def MatOp.fillStep (o : MatOp) (t : Team) : List W32 :=
  let p := OpMap.ofWord o.amap
  let code := match o.c / 16 with | 0 => 0x01 | 1 => 0x02 | _ => 0x03
  (List.range 1024).map fun i => 
    let a := elemAt p code (i / 32) (i % 32)
    let x := t.spNat a.1 (elemSize code)
    match code with
    | 0x01 => BitVec.ofNat 32 x
    | 0x02 => widen bf16 x
    | _ => widen fp16 x
/-- The tile that mwrv leaves (R335). -/
def MatOp.writeStep (o : MatOp) (tile : List W32) : List W32 :=
  (List.range o.src.length).foldl (fun tl i =>
    if o.exm.getLsbD i then
      let e := tileCell o.n o.dir i
      tl.set (32 * e.1 + e.2) (lane o.src i)
    else tl) tile

/-- The bytes an operation reads in its next step, as addresses and lengths: of a fill, the source bytes of its lines, in
pieces of 16 that a swizzle does not part (R328, R333). -/
def MatOp.reads (o : MatOp) : List (Nat × Nat) :=
  match o.kind with
  | .mfill =>
    let p := OpMap.ofWord o.amap
    (List.range 32).flatMap fun r => (List.range (convLen o.c / 16)).map fun j => (p.at r (16 * j), 16)
  | .mma => go o
  | .mmaz => go o
  | _ => []
where
  go (o : MatOp) : List (Nat × Nat) :=
    let f := FmtBlock.ofBytes o.fmt
    let ks := (List.range ((kPer f.acode f.bcode).getD 32)).map fun k => o.progress + k
    (List.range 32).flatMap fun i => ks.flatMap fun k =>
      [((elemAt (OpMap.ofWord o.amap) f.acode i k).1, elemSize f.acode), ((elemAt (OpMap.ofWord o.bmap) f.bcode k i).1, elemSize f.bcode)]
/-- The first word with an uncorrectable error that the next step reads (R198, R330). -/
def MatOp.badRead (o : MatOp) (t : Team) : Option Nat :=
  match t.spBad with
  | [] => none
  | bad => let rs := o.reads; bad.find? fun w => rs.any fun r => decide (r.1 < w + 4) && decide (w < r.1 + r.2)

/-- One step of an operation: the tile it leaves, the products it makes, and whether it is complete. -/
def MatOp.run (o : MatOp) (t : Team) (tile : List W32) : List W32 × Nat × Bool :=
  let zeros : List W32 := List.replicate 1024 0
  match o.kind with
  | .mzero => (zeros, 0, true)
  | .mfill => (o.fillStep t, 0, true)
  | .mwrv => (o.writeStep tile, 0, true)
  | _ =>
    let f := FmtBlock.ofBytes o.fmt
    let kp := (kPer f.acode f.bcode).getD 32
    let start := if o.kind = .mmaz ∧ o.progress = 0 then zeros else tile
    (o.mmaStep t start, 1024 * kp, decide (32 ≤ o.progress + kp))

/-- An operation of a team set whose matrix operations have been stopped (R92). -/
def State.matHeld (s : State) (o : MatOp) : Bool :=
  match s.team? o.g.tid o.g.team, s.task? o.g.tid with
  | some t, some k => k.sets.any fun x => x.k == t.set && (match x.st with | .preempt n => decide (4 ≤ n) | _ => false)
  | _, _ => false

/-- One k-step of a core's oldest operation. An operation that reads a word with an uncorrectable error stops, its tile as the
last step left it, and its group takes LOSTLINE before its next clause (R168, R198, R330). -/
def State.kStep (s : State) (c : CoreId) (o : MatOp) (rest : List MatOp) (t : Team) : State :=
  let core := s.core c
  match o.badRead t with
  | some w =>
    let s := s.setCore { core with mq := rest }
    match s.group? o.g with
    | some g => s.setGroup { g with lateFault := some (BitVec.ofNat 64 w) }
    | none => s
  | none =>
    let (tile, macs, fin) := o.run t (t.tiles.getD o.tile [])
    let s := s.setTeam { t with tiles := t.tiles.set o.tile tile }
    let o' := { o with progress := o.progress + macs / 1024, zeroed := o.zeroed || o.kind == .mmaz }
    s.setCore { core with mq := if fin then rest else o' :: rest, macs := core.macs + macs }
/-- MATRIX_K_STEP (R168, R180, R198, R330, R338): the oldest operation of a core runs one k-step. A step whose residue check
fails is replayed: it is counted and logged, and a lasting failure fences the core. -/
def execMatrixKStep (c : CoreId) (res : Residue) (s : State) : Out :=
  match (s.core c).mq with
  | [] => s.stays
  | o :: rest =>
    match s.team? o.g.tid o.g.team with
    | none => s.stays
    | some t =>
      if s.siteRuns (.die c.die) = false ∨ s.matHeld o = true then s.stays
      else match res with
      | .clean => .next (s.kStep c o rest t)
      | .transient => .next ((s.transientResidue c o.g.tid).kStep c o rest t)
      | .lasting =>
        match s.group? o.g, s.task? o.g.tid with
        | some g, some k => .next (s.fenceCore ⟨g, t, k⟩)
        | _, _ => s.stays

end Sys2Proof.Machine
end

