-- ==== Sys2Proof/Machine/MillIsa.lean ====
section
/-! DEFINITION. The mill words but for the row words (R353 to R365, R370, R371): who issues, traps and parking
(R358, R189), registers, local and row-buffer accesses, and tower accesses with the event that performs them at
the home (R151, R188, R362). -/

namespace Sys2Proof.Machine

/-! ### Registers (R353) -/

/-- g0 reads 0. -/
def Mill.gr (m : Mill) (r : GReg) : W64 := if r = 0 then 0 else m.g[r]
/-- Writes to g0 are discarded. -/
def Mill.setG (m : Mill) (r : GReg) (x : W64) : Mill := if r = 0 then m else { m with g := m.g.set r x }
/-- k0 reads 0xFFFF. -/
def Mill.kr (m : Mill) (r : Fin 4) : BitVec 16 := if r = 0 then 0xFFFF else m.k[r]
/-- Writes to k0 are discarded. -/
def Mill.setK (m : Mill) (r : Fin 4) (x : BitVec 16) : Mill := if r = 0 then m else { m with k := m.k.set r x }

/-! ### Who issues -/

/-- A mill about to issue, with its task. -/
structure MillIssuer where
  m : Mill
  k : Task
  deriving DecidableEq, Repr

def MillIssuer.priv (u : MillIssuer) : Bool := u.k.asid == 0
def MillIssuer.tower (u : MillIssuer) : Nat := u.m.id.tower
def MillIssuer.site (u : MillIssuer) : Site := .tower u.m.id.tower
/-- The home that the tower's own table names (R188). -/
def MillIssuer.home (u : MillIssuer) (s : State) (va : Nat) : Option Nat := s.mem.towerHome u.tower u.k.asid va

/-- A mill can issue: it runs, its locks have been taken again, its task has not faulted, and its tower's sheet runs
(R22, R73, R187, R189). -/
def State.millIssuerOf (s : State) (r : MillRef) : Option MillIssuer :=
  match s.mill? r with
  | some m =>
    match s.task? m.tid with
    | some k => if m.st = .run ∧ m.relock = [] ∧ (k.faulted = false ∨ m.stall.sent = true) ∧ s.mem.failedTowers.contains r.tower = false ∧ s.siteRuns (.tower r.tower) = true then some ⟨m, k⟩ else none
    | none => none
  | none => none
def State.millIssuer (s : State) : Option MillIssuer :=
  match s.focus with
  | some (.mill r) => s.millIssuerOf r
  | _ => none

/-! ### Traps and parking (R189, R358) -/

/-- Release every lock a mill holds (R195). -/
def State.releaseLocks (s : State) (r : MillRef) : State :=
  s.mapMem fun x => { x with locks := x.locks.filter fun l => l.holder != r }
/-- A mill's trap: the task's first fault sets its code and is logged with the address of the trapping word
(R73, R189, R358). The rest of R189 follows in TASK_FAULT_END. -/
def State.millTrap (s : State) (u : MillIssuer) (code : Nat) (addr : W64) : State :=
  let s := (s.setMill { u.m with st := .trapped code, wait := none, rowBusy := [] }).releaseLocks u.m.id
  if u.k.faulted then s
  else (s.logTower 0x06 u.tower u.k.tid addr.toNat code u.m.m).setTask { u.k with faulted := true, fcode := code }
/-- A translation fault parks a mill under a new FID, with KIND bit 4 set in its record (R128, R130, R189). -/
def State.millPark (s : State) (u : MillIssuer) (va kind : Nat) : State :=
  let (fid, s) := s.takeFid
  (s.faultRecords fid u.k.tid u.k.asid u.tower [(va, 16 + kind)]).setMill
    { u.m with st := .park fid, faultVa := BitVec.ofNat 64 va, stall := MemStall.none
               wait := none }

/-- What a mill word answers. -/
inductive MillOut
  /-- The word completes, and the PC advances by 4 (R355). -/
  | done (m : Mill) (s : State)
  /-- A transfer is taken. -/
  | goto (m : Mill) (target : W64) (s : State)
  | wait (m : Mill) (s : State)
  | trap (code : Nat)
  /-- A translation fault at a VA, by an access of a KIND (R130). -/
  | park (va kind : Nat) (s : State)
  | stop (s : State)
  deriving DecidableEq, Repr

/-- A word that has completed waits for nothing more. -/
def Mill.retire (m : Mill) (pc : W64) : Mill := { m with pc := pc, wait := none, stall := MemStall.none }

/-- Carry out what a word answered. -/
def State.millSettle (s : State) (u : MillIssuer) : MillOut → State
  | .done m s' => s'.setMill (m.retire (m.pc + 4))
  | .goto m target s' => s'.setMill (m.retire target)
  | .wait m s' => s'.setMill m
  | .trap code => s.millTrap u code u.m.pc
  | .park va kind s' => s'.millPark u va kind
  | .stop s' => s'

/-- ONE WORD OF A MILL: its fields are checked, then its body's answer is carried out. -/
def runMill (ok : Bool) (body : MillIssuer → State → MillOut) (s : State) : Out :=
  match s.millIssuer with
  | none => .refused .noIssuer
  | some u => if ok = false then .next (s.millTrap u cILLOPND u.m.pc) else .next (s.millSettle u (body u s))

/-! ### Scalar words (R359, R360) -/

/-- A word of the MR group. -/
def millAlu (d a b : GReg) (f : W64 → W64 → W64) : State → Out :=
  runMill true fun u s => .done (u.m.setG d (f (u.m.gr a) (u.m.gr b))) s
/-- A word with an immediate. -/
def millImm (d a : GReg) (f : W64 → W64) : State → Out :=
  runMill true fun u s => .done (u.m.setG d (f (u.m.gr a))) s

/-- add (R359). -/
def execMillAdd (d a b : GReg) (s : State) : Out := millAlu d a b (fun x y => x + y) s
/-- sub (R359). -/
def execMillSub (d a b : GReg) (s : State) : Out := millAlu d a b (fun x y => x - y) s
/-- mul (R359). -/
def execMillMul (d a b : GReg) (s : State) : Out := millAlu d a b (fun x y => x * y) s
/-- mulh (R359). -/
def execMillMulh (d a b : GReg) (s : State) : Out := millAlu d a b mulhS s
/-- and (R359). -/
def execMillAnd (d a b : GReg) (s : State) : Out := millAlu d a b (fun x y => x &&& y) s
/-- or (R359). -/
def execMillOr (d a b : GReg) (s : State) : Out := millAlu d a b (fun x y => x ||| y) s
/-- xor (R359). -/
def execMillXor (d a b : GReg) (s : State) : Out := millAlu d a b (fun x y => x ^^^ y) s
/-- shl (R359, R274). -/
def execMillShl (d a b : GReg) (s : State) : Out := millAlu d a b (fun x y => shl64 x y.toNat) s
/-- shr (R359, R274). -/
def execMillShr (d a b : GReg) (s : State) : Out := millAlu d a b (fun x y => shr64 x y.toNat) s
/-- sar (R359, R274). -/
def execMillSar (d a b : GReg) (s : State) : Out := millAlu d a b (fun x y => sar64 x y.toNat) s
/-- slt (R359). -/
def execMillSlt (d a b : GReg) (s : State) : Out := millAlu d a b (fun x y => if x.toInt < y.toInt then 1 else 0) s
/-- sltz (R359). -/
def execMillSltz (d a b : GReg) (s : State) : Out := millAlu d a b (fun x y => if x.toNat < y.toNat then 1 else 0) s
/-- min (R359). -/
def execMillMin (d a b : GReg) (s : State) : Out := millAlu d a b minS s
/-- max (R359). -/
def execMillMax (d a b : GReg) (s : State) : Out := millAlu d a b maxS s
/-- addi (R360). -/
def execMillAddi (d a : GReg) (imm : BitVec 16) (s : State) : Out := millImm d a (fun x => x + imm.signExtend 64) s
/-- andi (R360). -/
def execMillAndi (d a : GReg) (imm : BitVec 16) (s : State) : Out := millImm d a (fun x => x &&& imm.setWidth 64) s
/-- ori (R360). -/
def execMillOri (d a : GReg) (imm : BitVec 16) (s : State) : Out := millImm d a (fun x => x ||| imm.setWidth 64) s
/-- xori (R360). -/
def execMillXori (d a : GReg) (imm : BitVec 16) (s : State) : Out := millImm d a (fun x => x ^^^ imm.setWidth 64) s
/-- shfi (R360). -/
def execMillShfi (d a : GReg) (k : ShiftKind) (n : Code) (s : State) : Out :=
  millImm d a (fun x => match k with | .shl => shl64 x n.val | .shr => shr64 x n.val | .sar => sar64 x n.val) s
/-- lui (R360): the immediate, sign-extended, times 2^16. -/
def execMillLui (d : GReg) (imm : BitVec 16) (s : State) : Out :=
  runMill true (fun u s => .done (u.m.setG d (imm.signExtend 64 <<< 16)) s) s

/-! ### Local memory and the row buffer (R361, R365) -/

/-- An address formed from a register and an immediate, computed exactly (R361, R362, R365). -/
def MillIssuer.addr (u : MillIssuer) (a : GReg) (imm : BitVec 16) : Int := (u.m.gr a).toInt + imm.toInt

/-- Opcode of the outstanding row operation; 0 when there is none (R354). -/
def Mill.rowCode (m : Mill) : Nat := bits m.rowop.toNat 31 26
/-- A row operation is outstanding. -/
def Mill.inRow (m : Mill) : Bool := m.rowop != 0
/-- A local access that overlaps the output of an outstanding rowmac waits (R361). -/
def Mill.rowHolds (m : Mill) (a n : Nat) : Bool :=
  m.inRow && (match m.rowOut with | some (b, k) => decide (a < b + k) && decide (b < a + n) | none => false)

/-- The code of an access to local memory or the row buffer (R358, R361, R365): misaligned, outside, or a word
with an uncorrectable error that is read. -/
def MillIssuer.localCode (u : MillIssuer) (buf : Bool) (a : Int) (n : Nat) (reads : Bool) : Option Nat :=
  let top : Nat := if buf then 2048 else u.k.launch.locbytes
  let base := if buf then 2 ^ 16 else 0
  if a % (n : Int) ≠ 0 then some cALIGN
  else if a < 0 ∨ (top : Int) < a + n then some cSPACE
  else if reads && (u.m.bad.any fun w => decide (base + a.toNat < w + 4) && decide (w < base + a.toNat + n)) then some cLOSTLINE
  else none
/-- Bytes of local memory or of the row buffer, as a number. -/
def Mill.readLocal (m : Mill) (buf : Bool) (a n : Nat) : Nat := if buf then m.buf.nat a n else m.loc.nat a n
/-- Store bytes there; a word written whole loses its error (R198). -/
def Mill.writeLocal (m : Mill) (buf : Bool) (a n x : Nat) : Mill :=
  if buf then { m with buf := m.buf.putNat a n x, bad := clearBad m.bad (2 ^ 16 + a) n }
  else { m with loc := m.loc.putNat a n x, bad := clearBad m.bad a n }

/-- A local access waits for an outstanding row operation that works on what it names (R361, R365). -/
def Mill.localWaits (m : Mill) (buf : Bool) (a n : Nat) : Bool :=
  if buf then m.inRow && (m.rowCode == 0x22 || m.rowCode == 0x23 || m.rowCode == 0x24) else m.rowHolds a n

/-- A local access: checked, held behind row operations, then performed. -/
def millLocal (buf : Bool) (a : GReg) (imm : BitVec 16) (n : Nat) (reads : Bool) (f : Mill → Nat → Mill) : State → Out :=
  runMill true fun u s =>
    let x := u.addr a imm
    match u.localCode buf x n reads with
    | some c => .trap c
    | none =>
      if u.m.localWaits buf x.toNat n then .wait { u.m with wait := some .row } s
      else .done (f u.m x.toNat) s

/-- ld64 (R361). -/
def execMillLd64 (d a : GReg) (imm : BitVec 16) (s : State) : Out :=
  millLocal false a imm 8 true (fun m x => m.setG d (BitVec.ofNat 64 (m.readLocal false x 8))) s
/-- st64 (R361). -/
def execMillSt64 (d a : GReg) (imm : BitVec 16) (s : State) : Out :=
  millLocal false a imm 8 false (fun m x => m.writeLocal false x 8 (m.gr d).toNat) s
/-- ld32 (R361): zero-extended. -/
def execMillLd32 (d a : GReg) (imm : BitVec 16) (s : State) : Out :=
  millLocal false a imm 4 true (fun m x => m.setG d (BitVec.ofNat 64 (m.readLocal false x 4))) s
/-- st32 (R361): the low 32 bits. -/
def execMillSt32 (d a : GReg) (imm : BitVec 16) (s : State) : Out :=
  millLocal false a imm 4 false (fun m x => m.writeLocal false x 4 ((m.gr d).toNat % 2 ^ 32)) s
/-- wld (R365): 64 bytes into a vector register. -/
def execMillWld (w : Fin 16) (buf : Bool) (a : GReg) (imm : BitVec 16) (s : State) : Out :=
  millLocal buf a imm 64 true (fun m x => { m with
    w := m.w.set w ((List.range 16).map fun i => BitVec.ofNat 32 (m.readLocal buf (x + 4 * i) 4)) }) s
/-- wst (R365): a vector register into 64 bytes. -/
def execMillWst (w : Fin 16) (buf : Bool) (a : GReg) (imm : BitVec 16) (s : State) : Out :=
  millLocal buf a imm 64 false (fun m x =>
    (List.range 16).foldl (fun m' i => m'.writeLocal buf (x + 4 * i) 4 (lane m.w[w] i).toNat) m) s

/-! ### Vector words (R364) -/

/-- Write the lanes that a mask enables. -/
def Mill.setW (m : Mill) (d : Fin 16) (k : Fin 4) (f : Nat → W32) : Mill :=
  { m with w := m.w.set d ((List.range 16).map fun i => if (m.kr k).getLsbD i then f i else lane m.w[d] i) }
/-- A lane-wise word of two sources. -/
def millVec (d a b : Fin 16) (k : Fin 4) (f : W32 → W32 → W32) : State → Out :=
  runMill true fun u s => .done (u.m.setW d k fun i => f (lane u.m.w[a] i) (lane u.m.w[b] i)) s

/-- wadd.b32 (R364). -/
def execMillWaddB32 (d a b : Fin 16) (k : Fin 4) (s : State) : Out := millVec d a b k (fun x y => x + y) s
/-- wsub.b32 (R364). -/
def execMillWsubB32 (d a b : Fin 16) (k : Fin 4) (s : State) : Out := millVec d a b k (fun x y => x - y) s
/-- wmul.b32 (R364). -/
def execMillWmulB32 (d a b : Fin 16) (k : Fin 4) (s : State) : Out := millVec d a b k (fun x y => x * y) s
/-- wfadd (R364, R250). -/
def execMillWfadd (d a b : Fin 16) (k : Fin 4) (s : State) : Out := millVec d a b k f32Add s
/-- wfmul (R364, R250). -/
def execMillWfmul (d a b : Fin 16) (k : Fin 4) (s : State) : Out := millVec d a b k f32Mul s
/-- wffma (R364, R250): one rounding. -/
def execMillWffma (d a b c : Fin 16) (k : Fin 4) (s : State) : Out :=
  runMill true (fun u s => .done (u.m.setW d k fun i => f32Fma (lane u.m.w[a] i) (lane u.m.w[b] i) (lane u.m.w[c] i)) s) s
/-- wfmax (R364, R251). -/
def execMillWfmax (d a b : Fin 16) (k : Fin 4) (s : State) : Out := millVec d a b k f32Max s
/-- wfmin (R364, R251). -/
def execMillWfmin (d a b : Fin 16) (k : Fin 4) (s : State) : Out := millVec d a b k f32Min s
/-- wredadd.f32 (R364, R261): lanes off enter as −0.0, and every lane receives the sum. -/
def execMillWredaddF32 (d a : Fin 16) (k : Fin 4) (s : State) : Out :=
  runMill true (fun u s =>
    let sum := treeRed f32Add 4 ((List.range 16).map fun i => if (u.m.kr k).getLsbD i then lane u.m.w[a] i else 0x80000000#32)
    .done { u.m with w := u.m.w.set d (List.replicate 16 sum) } s) s
/-- wcmp (R364). -/
def execMillWcmp (kd : Fin 4) (a b : Fin 16) (k : Fin 4) (cond : Fin 16) (s : State) : Out :=
  runMill (okWcmp kd cond) (fun u s =>
    let bitsOf := (List.range 16).foldr (fun i acc =>
      acc + b2n ((u.m.kr k).getLsbD i && wcmpHolds cond.val (lane u.m.w[a] i) (lane u.m.w[b] i)) * 2 ^ i) 0
    .done (u.m.setK kd (BitVec.ofNat 16 bitsOf)) s) s
/-- wsel (R364). -/
def execMillWsel (d a b : Fin 16) (kc : Fin 4) (k : Fin 4) (s : State) : Out :=
  runMill true (fun u s => .done (u.m.setW d k fun i =>
    if (u.m.kr kc).getLsbD i then lane u.m.w[a] i else lane u.m.w[b] i) s) s
/-- wbcast (R364): lane n of a source into every enabled lane; n is the plain value of field wb. -/
def execMillWbcast (d a b : Fin 16) (k : Fin 4) (s : State) : Out :=
  runMill true (fun u s => .done (u.m.setW d k fun _ => lane u.m.w[a] b.val) s) s

/-! ### Transfers (R363) -/

/-- The target of a relative transfer: the word's own address plus four times the signed offset. -/
def MillIssuer.target (u : MillIssuer) (off : BitVec 16) : W64 := u.m.pc + 4 * off.signExtend 64
/-- A conditional branch. -/
def millBranch (a b : GReg) (off : BitVec 16) (f : W64 → W64 → Bool) : State → Out :=
  runMill true fun u s => if f (u.m.gr a) (u.m.gr b) then .goto u.m (u.target off) s else .done u.m s

/-- beq (R363). -/
def execMillBeq (a b : GReg) (off : BitVec 16) (s : State) : Out := millBranch a b off (fun x y => x == y) s
/-- bne (R363). -/
def execMillBne (a b : GReg) (off : BitVec 16) (s : State) : Out := millBranch a b off (fun x y => x != y) s
/-- blt (R363). -/
def execMillBlt (a b : GReg) (off : BitVec 16) (s : State) : Out := millBranch a b off (fun x y => decide (x.toInt < y.toInt)) s
/-- bge (R363). -/
def execMillBge (a b : GReg) (off : BitVec 16) (s : State) : Out := millBranch a b off (fun x y => decide (y.toInt ≤ x.toInt)) s
/-- jal (R363). -/
def execMillJal (d : GReg) (imm : BitVec 16) (s : State) : Out :=
  runMill true (fun u s => .goto (u.m.setG d (u.m.pc + 4)) (u.target imm) s) s
/-- jr (R363): the target is read before the link is written; a misaligned one raises ALIGN and writes nothing. -/
def execMillJr (d a : GReg) (s : State) : Out :=
  runMill true (fun u s =>
    if (u.m.gr a).toNat % 4 ≠ 0 then .trap cALIGN else .goto (u.m.setG d (u.m.pc + 4)) (u.m.gr a) s) s

/-! ### Tower accesses (R151, R188, R362) -/

/-- The slices that the outstanding row operation names (R366). -/
def Mill.rowMask (m : Mill) : Nat :=
  match m.rowCode with
  | 0x22 => 2 ^ (m.rowb.toNat % 32)
  | 0x23 => 2 ^ (m.rowb.toNat % 32)
  | 0x24 => m.rowb.toNat
  | _ => m.rowd.toNat
/-- The pages that it names. -/
def Mill.rowPages (m : Mill) : List Nat := if m.rowCode = 0x20 then [m.rowa.toNat, m.rowb.toNat] else [m.rowa.toNat]
/-- An address lies in a slice of the mill's outstanding row operation under the page it names (R185, R362). -/
def Mill.rowNames (m : Mill) (va : Nat) : Bool :=
  m.inRow && (m.rowPages.any fun p => p / 65536 == va / 65536) && bit m.rowMask (va / 256 % 32)

/-- An 8-byte access at the home: checked, sent, and answered (R362). `kind` is the KIND of a fault record. -/
def MillIssuer.access (u : MillIssuer) (s : State) (va : Int) (wr : Option Nat) (k : Nat → MillOut) : MillOut :=
  let a := vaOf va
  let kind := if wr.isSome then 1 else 0
  if va % 8 ≠ 0 then .trap cALIGN
  else if !inGlobal va then .park a kind s
  else if u.m.rowNames a then .wait { u.m with wait := some .row } s
  else match u.m.stall.faults with
  | f :: _ => if f.code = cTRANSL then .park a kind s else .trap f.code
  | [] =>
    match u.m.stall.result with
    | some vals => k (vals.headD 0)
    | none =>
      if u.m.stall.sent then .wait u.m s
      else match u.home s a with
      | none => .trap cNOHOME
      | some h =>
        .wait { u.m with wait := some .mem, stall := { u.m.stall with sent := true } }
          (s.request .req u.site (.tower h) (.millAcc u.m.id u.k.asid u.priv a wr))

/-- ldt (R362). -/
def execMillLdt (d a : GReg) (imm : BitVec 16) (s : State) : Out :=
  runMill true (fun u s => u.access s (u.addr a imm) none fun x => .done (u.m.setG d (BitVec.ofNat 64 x)) s) s
/-- stt (R362). -/
def execMillStt (d a : GReg) (imm : BitVec 16) (s : State) : Out :=
  runMill true (fun u s => u.access s (u.addr a imm) (some (u.m.gr d).toNat) fun _ => .done u.m s) s

/-- A place lies in a slice of the pages that a mill's outstanding row operation names, under whatever VA (R362). -/
def State.rowNames (s : State) (r : MillRef) (asid : Nat) (p : Place) : Bool :=
  match s.mill? r with
  | none => false
  | some m => m.inRow && p.tier == 0 && bit m.rowMask (p.pa / 256 % 32) && m.rowPages.any fun a => match s.placeAt asid a with
    | some (q, _) => q.tier == 0 && q.tower == p.tower && q.pa / 65536 == p.pa / 65536
    | none => false
/-- An ldt or stt of a mill goes to a bank pair that the mill itself holds locked, which R195 refuses with PROT. -/
def State.ownLock (s : State) (r : MillRef) (h asid va : Nat) (priv wr : Bool) : Bool :=
  match (s.translateNow h asid va (if wr then .write else .read) priv).1 with
  | .ok v => v.tier == 0 && s.mem.locks.any fun l => l.holder == r && l.tower == v.home && l.pair == pairOf v.pa
  | .error _ => false

/-- MILL_LDT_STT_AT_HOME (R151, R188, R362): an ldt or stt is performed at the home. A coherent line is recalled from its
owners first, and before a write its other copies are sent Inv; of a deckled line the home's copy is meant. -/
def execMillLdtSttAtHome (k : Nat) (s : State) : Out :=
  onMsg k s fun m s => match m.body, m.dst with
    | .millAcc r asid priv va wr, .tower h =>
      let bad (c : Nat) (s : State) : Option State := some (s.respond m .rsp (.millRsp r 0 c wr.isSome))
      if s.homeStalls h asid va then none
      else if s.ownLock r h asid va priv wr.isSome then bad cPROT s
      else match s.meet h asid va 8 (if wr.isSome then .write else .read) priv ((s.mill? r).bind fun x => s.task? x.tid) with
      | (.error c, s) => bad c s
      | (.ok v, s) =>
        if (v.tier == 0 && s.bankHeld v.home v.pa) || s.rowNames r asid v.place ||
            (!v.dk && (s.copyHolds v.place || !s.homeQuiet v.place)) then none
        else if !v.dk && s.homeOwned v.place then some ((s.recallOwners v).putBack k m)
        else
          let s := s.touch v.place
          match wr with
          | none =>
            let val := if v.dk then s.mem.placeLine v.place else s.mem.newest v.place
            some (s.respond m .rsp (.millRsp r (lineNat val (va % 256) 8) 0 false))
          | some x =>
            let val := linePlace (va % 256) x
            let mask := lineMask (va % 256) 8
            let s := if v.dk then s.mapMem fun y => y.placeWrite v.place val mask else s.homeWrite v.place val mask
            some (s.respond m .rsp (.millRsp r 0 0 true))
    | _, _ => none

/-! ### Control and system words (R354, R370, R371) -/

/-- msync (R370): every earlier ldt and stt has performed at the home, for a mill waits at each; the row operation
is waited for. -/
def execMillMsync (s : State) : Out :=
  runMill true (fun u s => if u.m.inRow then .wait { u.m with wait := some .msync } s else .done u.m s) s
/-- mhalt (R189, R370): msync, then HALT; the mill's locks are released. -/
def execMillMhalt (s : State) : Out :=
  runMill true (fun u s =>
    if u.m.inRow then .wait { u.m with wait := some .msync } s
    else .stop (((s.setMill { u.m.retire (u.m.pc + 4) with st := .halt }).releaseLocks u.m.id).setTask
      { u.k with halted := u.k.halted + 1 })) s
/-- mtrap (R370). -/
def execMillMtrap (_imm : BitVec 16) (s : State) : Out := runMill true (fun _ _ => .trap cTRAP) s

/-- The bank pairs a mill holds, one bit each (R354, MLOCKS). -/
def State.millLocks (s : State) (r : MillRef) : Nat :=
  (s.mem.locks.filter fun l => l.holder == r).foldl (fun x l => x ||| 2 ^ l.pair) 0
/-- The value of a mill system register (R354). -/
def MillIssuer.sysReg (u : MillIssuer) (s : State) (id : Nat) : Nat :=
  match id with
  | 0x00 => u.k.tid
  | 0x01 => u.tower
  | 0x02 => u.m.m
  | 0x03 => u.k.launch.nmill
  | 0x04 => u.k.launch.argp.toNat
  | 0x05 => u.k.launch.locbytes
  | 0x06 => towerSheet u.tower
  | 0x07 => s.now u.site
  | 0x10 => 0xFFFF
  | 0x11 => (u.m.kr 1).toNat
  | 0x12 => (u.m.kr 2).toNat
  | 0x13 => (u.m.kr 3).toNat
  | 0x20 => u.m.rowprog.toNat
  | 0x21 => u.m.rowop.toNat
  | 0x22 => u.m.rowa.toNat
  | 0x23 => u.m.rowb.toNat
  | 0x24 => u.m.rowd.toNat
  | 0x25 => s.millLocks u.m.id
  | 0x26 => u.m.rowpc.toNat
  | _ => 0
/-- mrdsr (R354, R370). -/
def execMillMrdsr (d : GReg) (id : BitVec 16) (s : State) : Out :=
  runMill (millReadable id) (fun u s => .done (u.m.setG d (BitVec.ofNat 64 (u.sysReg s id.toNat))) s) s
/-- mwrsr (R354, R370): k1 to k3 take bits [15:0]. -/
def execMillMwrsr (a : GReg) (id : BitVec 16) (s : State) : Out :=
  runMill (millWritable id) (fun u s => .done (u.m.setK (Fin.ofNat 4 (id.toNat - 0x10)) ((u.m.gr a).setWidth 16)) s) s

/-- mpark (R371): the address is checked as an ldt's; then the mill waits until the home's line is written, or the
limit passes. -/
def execMillMpark (a : GReg) (limit : BitVec 16) (s : State) : Out :=
  runMill true (fun u s =>
    match u.m.wait with
    | some (.mpark tier tower pa val deadline) =>
      let p : Place := ⟨tier, tower, pa⟩
      if s.mem.watched.contains (u.m.id, p.watch) = false ∨ s.mem.newest p ≠ val ∨ deadline ≤ s.now u.site then .done u.m s
      else .wait u.m s
    | _ =>
      let va := (u.m.gr a).toInt
      u.access s va none fun _ =>
        match u.home s (vaOf va) with
        | none => .trap cNOHOME
        | some h =>
          match s.translateNow h u.k.asid (vaOf va) .read u.priv with
          | (.ok v, s) =>
            .wait { u.m with wait := some (.mpark v.tier v.home v.pa (s.mem.newest v.place) (s.now u.site + limit.toNat * 1000))
                             stall := MemStall.none } (s.mapMem fun x => x.watch u.m.id v.place)
          | (.error _, s) => .done u.m s) s
/-- MPARK_WAKE (R371): the wait of an mpark ends, for any cause. -/
def execMparkWake (r : MillRef) (s : State) : Out :=
  match s.millIssuerOf r with
  | none => s.stays
  | some u =>
    match u.m.wait with
    | some (.mpark _ _ _ _ _) => .next (s.millSettle u (.done u.m s))
    | _ => s.stays

end Sys2Proof.Machine
end

