-- ==== Sys2Proof/Machine/MillRow.lean ====
section
/-! DEFINITION. The row machinery (R184, R185, R188, R191 to R196, R366 to R369): row words, the steps of their
slices, refresh, and bank locks. -/

namespace Sys2Proof.Machine

/-! ### Pages and slices -/

/-- What resolving an address gives. -/
inductive Found
  | at (v : Attr) (s : State)
  | code (c : Nat) (s : State)

/-- Translate a page at its home, and require a tier-00 frame in that home's tower; for what must lie in this
tower, the home is this tower (R188). -/
def MillIssuer.frame (u : MillIssuer) (s : State) (va : Nat) (acc : Acc) (own : Bool) : Found :=
  if !canonical va then .code cTRANSL s
  else match u.home s va with
  | none => .code cNOHOME s
  | some h =>
    if own && h != u.tower then .code cPROT s
    else match s.translateNow h u.k.asid va acc u.priv with
    | (.error c, s) => .code c s
    | (.ok v, s) => if v.tier = 0 ∧ v.home = h ∧ s.leafTier h u.k.asid va = some 0 then .at v s else .code cPROT s

/-- First byte of slice `c` of a page, and the span that its eight bursts cover (R185). -/
def sliceVa (page c : Nat) : Nat := page + 256 * c
def sliceSpan : Nat := 7 * 8192 + 256
/-- The addresses of a slice's bursts from the address of its first byte. -/
def bursts (pa : Nat) : List Nat := (List.range 8).map fun j => pa + 8192 * j

/-- One slice of a page: translated, checked against R188, the deckles and the lost-line table, in the order of R176 (R84,
R132, R358, R366). -/
def MillIssuer.slice (u : MillIssuer) (s : State) (page c : Nat) (write own : Bool) : Found :=
  let va := sliceVa page c
  let lost : Bool := match u.home s va with
    | some h => (bursts va).any fun x => s.mem.isLostVa h ⟨u.k.asid, x / 256⟩
    | none => false
  match u.frame s va (if write then .write else .read) own with
  | .code x s => .code (if lost && decide (codeRank cLOSTLINE < codeRank x) then cLOSTLINE else x) s
  | .at v s =>
    if v.dk && !u.k.declares va sliceSpan (!write) write then .code cDECKLE s
    else if lost || (bursts v.pa).any fun p => s.mem.isLost ⟨0, v.home, p⟩ then .code cLOSTLINE s
    else .at v s

/-- A page lies in a range whose new translations wait (R127). -/
def MillIssuer.pageStalls (u : MillIssuer) (s : State) (page : Nat) : Bool :=
  match u.home s page with | some h => s.promoHeld h u.k.asid page | none => false

/-! ### Issue (R366) -/

/-- Capture a row word: the mill goes on issuing. A mask of 0 completes at issue. -/
def Mill.capture (m : Mill) (op : Nat) (d a b : GReg) (mask : Nat) (out : Option (Nat × Nat)) : Mill :=
  if mask = 0 then m
  else { m with
    rowop := BitVec.ofNat 32 (op * 2 ^ 26 + d.val * 2 ^ 21 + a.val * 2 ^ 16 + b.val * 2 ^ 11)
    rowa := m.gr a, rowb := m.gr b, rowd := m.gr d, rowpc := m.pc, rowprog := 0, rowBusy := [], rowOut := out, rowFault := none }

/-- The code of a row word's register values: a mask or an index beyond its bits, then a misaligned page. -/
def rowCodes (mask : Nat) (index : Option Nat) (pages : List W64) : Option Nat :=
  if 2 ^ 32 ≤ mask ∨ (match index with | some i => decide (32 ≤ i) | none => false) = true then some cILLOPND
  else if pages.any fun p => p.toNat % 65536 != 0 then some cALIGN
  else none

/-- A row word: it waits for an earlier row operation, is checked, and is captured (R366). -/
def rowWord (op : Nat) (d a b : GReg) (mask : Mill → Nat) (index : Mill → Option Nat) (pages : Mill → List W64) : State → Out :=
  runMill true fun u s =>
    if u.m.inRow then .wait { u.m with wait := some .row } s
    else match rowCodes (mask u.m) (index u.m) (pages u.m) with
    | some c => .trap c
    | none => .done (u.m.capture op d a b (mask u.m) none) s

/-- rowcp gm, gdst, gsrc (R367). -/
def execMillRowcp (m d r : GReg) (s : State) : Out :=
  rowWord 0x20 m d r (fun x => (x.gr m).toNat) (fun _ => none) (fun x => [x.gr d, x.gr r]) s
/-- rowzero gm, gdst (R367). -/
def execMillRowzero (m p : GReg) (s : State) : Out :=
  rowWord 0x21 m p 0 (fun x => (x.gr m).toNat) (fun _ => none) (fun x => [x.gr p]) s
/-- rowbuf gpage, gc (R367). -/
def execMillRowbuf (p i : GReg) (s : State) : Out :=
  rowWord 0x22 0 p i (fun _ => 1) (fun x => some (x.gr i).toNat) (fun x => [x.gr p]) s
/-- bufrow gpage, gc (R367). -/
def execMillBufrow (p i : GReg) (s : State) : Out :=
  rowWord 0x23 0 p i (fun _ => 1) (fun x => some (x.gr i).toNat) (fun x => [x.gr p]) s
/-- rowinv gm, gpage (R369). -/
def execMillRowinv (m p : GReg) (s : State) : Out :=
  rowWord 0x27 m p 0 (fun x => (x.gr m).toNat) (fun _ => none) (fun x => [x.gr p]) s

/-- A mill holds a bank pair of its tower locked. -/
def State.holdsLock (s : State) (r : MillRef) (pair : Nat) : Bool :=
  s.mem.locks.any fun l => l.tower == r.tower && l.pair == pair && l.holder == r

/-- rowmac gout, gpage, gm (R196, R367): its output range lies in local memory, and this mill holds the page's bank
at issue. -/
def execMillRowmac (o p m : GReg) (s : State) : Out :=
  runMill true (fun u s =>
    let mask := (u.m.gr m).toNat
    let out := (u.m.gr o).toNat
    let n := 4 * popcount 32 mask
    if u.m.inRow then .wait { u.m with wait := some .row } s
    else if 2 ^ 32 ≤ mask then .trap cILLOPND
    else if (u.m.gr p).toNat % 65536 ≠ 0 ∨ out % 4 ≠ 0 then .trap cALIGN
    else if u.k.launch.locbytes < out + n then .trap cSPACE
    else if u.pageStalls s (u.m.gr p).toNat then .wait { u.m with wait := some .row } s
    else match u.frame s (u.m.gr p).toNat .read true with
    | .code c s => if c = cTRANSL then .park (u.m.gr p).toNat 0 s else .trap c
    | .at v s =>
      if s.holdsLock u.m.id (pairOf v.pa) then .done (u.m.capture 0x24 o p m mask (some (out, n))) s
      else .trap cPROT) s

/-- rowwait (R192, R367). -/
def execMillRowwait (s : State) : Out :=
  runMill true (fun u s => if u.m.inRow then .wait { u.m with wait := some .row } s else .done u.m s) s

/-! ### Duties of the home (R192, R195, R369) -/

/-- Write a dirty tower-cache line to DRAM, and keep it, clean. -/
def MemState.tcClean (x : MemState) (tower line : Nat) : MemState :=
  match x.tcache.find? fun t => t.tower == tower && t.line == line with
  | some t =>
    { x.tcWriteback t with tcache := x.tcache.map fun u => if u.tower = tower ∧ u.line = line then { u with dirty := 0 } else u }
  | none => x
/-- The attributes under which the home itself recalls a line of its tower. -/
def ownAttr (tower pa : Nat) : Attr := ⟨true, false, false, false, 0, tower, pa⟩
/-- Recall the registered owners of a row's coherent lines; `none` when there are none (R192). -/
def State.recallRow (s : State) (r : Option (Nat × Nat)) (dk : Bool) : Option State :=
  match r with
  | none => none
  | some p =>
    let owned := if dk then [] else (bursts p.2).filter fun x => s.homeOwned ⟨0, p.1, x⟩
    if owned = [] then none else some (owned.foldl (fun s x => s.recallOwners (ownAttr p.1 x)) s)
/-- Before a source slice is read, its owners having been recalled (R192). -/
def State.readDuty (s : State) (r : Nat × Nat) : State :=
  (bursts r.2).foldl (fun s p => s.mapMem fun x => x.tcClean r.1 (p / 256)) s
/-- Before a destination slice is written, its owners having been recalled (R192). -/
def State.writeDuty (s : State) (r : Nat × Nat) (dk : Bool) : State :=
  (bursts r.2).foldl (fun s p =>
    let s := if dk then s else s.homeClear ⟨0, r.1, p⟩
    s.mapMem fun x => x.tcDrop r.1 (p / 256)) s
/-- A slice of rowinv: of a deckled page every die writes its dirty nibbles home and drops its copies, found by VA;
a coherent line is recalled as R192 gives; then the tower-cache lines are written back and dropped (R369). -/
def State.invDuty (s : State) (asid page c : Nat) (r : Nat × Nat) (dk : Bool) : State :=
  (List.range 8).foldl (fun s j =>
    let p : Place := ⟨0, r.1, r.2 + 8192 * j⟩
    let a : LineId := ⟨asid, (sliceVa page c + 8192 * j) / 256⟩
    let s :=
      if dk then (List.range 72).foldl (fun s d =>
        let g := s.gatherDie d a
        g.2.2.2.mapMem fun x => if g.2.1 = 0 then x else x.placeWrite p g.1 g.2.1) s
      else s.homeClear p
    s.mapMem fun x => x.tcDrop r.1 (p.pa / 256)) s

/-! ### Rows (R185, R196) -/

/-- The eight bursts of a slice in DRAM. -/
def MemState.rowLines (x : MemState) (r : Nat × Nat) : List (BitVec 2048) :=
  (bursts r.2).map fun p => x.dram.line (r.1 * towerSpan + p)
/-- Write a slice's bursts. -/
def MemState.putRow (x : MemState) (r : Nat × Nat) (vs : List (BitVec 2048)) : MemState :=
  { x with
    dram := ((bursts r.2).zip vs).foldl (fun m p => m.putLine (r.1 * towerSpan + p.1) p.2 lineFull) x.dram
    watched := x.watched.filter fun w => !(bursts r.2).any fun p => w.2 == (⟨0, r.1, p⟩ : Place).watch }
/-- Element i of a slice, or of the row buffer, as 512 FP32 words. -/
def rowWordAt (vs : List (BitVec 2048)) (i : Nat) : W32 := BitVec.ofNat 32 (lineNat (vs.getD (i / 64) 0) (4 * (i % 64)) 4)
/-- One slice of rowmac: one rounding for each product (R196). -/
def rowMac (vs : List (BitVec 2048)) (buf : Mem) : W32 :=
  (List.range 512).foldl (fun acc i => f32Fma (rowWordAt vs i) (BitVec.ofNat 32 (buf.nat (4 * i) 4)) acc) 0

/-! ### Steps (R191, R193, R366) -/

/-- Slices selected and not complete. -/
def Mill.slicesLeft (m : Mill) : List Nat :=
  (List.range 32).filter fun c => bit m.rowMask c && !m.rowprog.getLsbD c
/-- The next slice to start: the lowest that has not started. -/
def Mill.nextSlice (m : Mill) : Option Nat :=
  m.slicesLeft.find? fun c => !(m.rowBusy.any fun r => r.slice == c)

/-- A step moves through transit buffers: of its source's channel half when it goes to another tower, and of its
destination's (R191). -/
def RowStep.transit (r : RowStep) : List (Nat × Nat) :=
  match r.src, r.dst with
  | some a, some b =>
    if a.1 ≠ b.1 then [(a.1, a.2 / 2 ^ 16 % 2), (b.1, b.2 / 2 ^ 16 % 2)]
    else if a = b then []
    else if chanOf a.2 = chanOf b.2 ∧ bankOf a.2 = bankOf b.2 ∧ rowOf a.2 / 512 = rowOf b.2 / 512 then []
    else [(b.1, b.2 / 2 ^ 16 % 2)]
  | _, _ => []
/-- Channels a step uses. -/
def RowStep.channels (r : RowStep) : List (Nat × Nat) :=
  (r.src.toList ++ r.dst.toList).map fun p => (p.1, chanOf p.2)
/-- Steps in flight. -/
def State.rowSteps (s : State) : List RowStep := s.mills.flatMap fun m => m.rowBusy
/-- A step may start: its channels are free, and a transit buffer of each half it needs (R191). -/
def State.mayStep (s : State) (r : RowStep) : Bool :=
  let busy := s.rowSteps
  (r.channels.all fun c => busy.all fun b => !b.channels.contains c) &&
  (r.transit.all fun h => decide ((busy.flatMap RowStep.transit).count h < 4))

/-- What a row operation does with slice `c`: the step, or the code that the slices raise with the address it names, and
every page that raised it with the KIND of the access (R128, R130). -/
inductive SliceOut
  | step (r : RowStep) (s : State)
  | code (c va : Nat) (pages : List (Nat × Nat)) (s : State)

/-- Translate and check slice `c` of the outstanding row operation (R366). -/
def MillIssuer.prepare (u : MillIssuer) (s : State) (c : Nat) : SliceOut :=
  let a := u.m.rowa.toNat
  let b := u.m.rowb.toNat
  let one (page : Nat) (write : Bool) (k : Attr → State → SliceOut) : SliceOut :=
    match u.slice s page c write true with
    | .code x s => .code x (sliceVa page c) [(sliceVa page c, if write then 17 else 16)] s
    | .at v s => k v s
  match u.m.rowCode with
  | 0x20 =>
    let ra := (sliceVa b c, 16)
    let wa := (sliceVa a c, 17)
    match u.slice s b c false true with
    | .code x s =>
      match u.slice s a c true false with
      | .code y s =>
        if codeRank y < codeRank x then .code y wa.1 [wa] s
        else .code x ra.1 (if x = y then [ra, wa] else [ra]) s
      | .at _ s => .code x ra.1 [ra] s
    | .at v s =>
      match u.slice s a c true false with
      | .code x s => .code x wa.1 [wa] s
      | .at w s => .step ⟨c, some (v.home, v.pa), some (w.home, w.pa), v.dk, w.dk⟩ s
  | 0x22 => one a false fun v s => .step ⟨c, some (v.home, v.pa), none, v.dk, false⟩ s
  | 0x24 =>
    if u.m.bad.any fun w => decide (2 ^ 16 ≤ w) then .code cLOSTLINE 0 [] s
    else one a false fun v s => .step ⟨c, some (v.home, v.pa), none, v.dk, false⟩ s
  | 0x23 =>
    if u.m.bad.any fun w => decide (2 ^ 16 ≤ w) then .code cLOSTLINE 0 [] s
    else one a true fun v s => .step ⟨c, none, some (v.home, v.pa), false, v.dk⟩ s
  | _ => one a true fun v s => .step ⟨c, none, some (v.home, v.pa), false, v.dk⟩ s

/-- ROW_STEP_START (R191, R366): the lowest slice that has not started is translated and checked, and starts. A
translation fault parks the mill; any other code stops the operation and is delivered before the mill's next
word. -/
def execRowStepStart (r : MillRef) (c : Nat) (s : State) : Out := s.happens <|
  match s.millIssuerOf r with
  | none => none
  | some u =>
    if u.m.inRow = false ∨ u.m.rowFault.isSome = true ∨ u.m.nextSlice ≠ some c ∨ u.pageStalls s u.m.rowa.toNat = true ∨
        (u.m.rowCode = 0x20 ∧ u.pageStalls s u.m.rowb.toNat = true) then none
    else match u.prepare s c with
    | .code code va pages s =>
      if code = cTRANSL then
        let (fid, s) := s.takeFid
        some ((s.faultRecords fid u.k.tid u.k.asid u.tower pages).setMill
          { u.m with st := .park fid, faultVa := BitVec.ofNat 64 va })
      else some (s.setMill { u.m with rowFault := some (code, BitVec.ofNat 64 va) })
    | .step r s =>
      if s.mayStep r then some (s.setMill { u.m with rowBusy := u.m.rowBusy ++ [r] }) else none

/-- The bank of a row is held against a mill's step: refreshed, or locked by another mill (R191, R194, R195). -/
def State.rowHeld (s : State) (m : MillRef) (r : Option (Nat × Nat)) : Bool :=
  match r with
  | none => false
  | some p => s.bankRefreshing p.1 p.2 ||
      (s.mem.locks.any fun l => l.tower == p.1 && l.pair == pairOf p.2 && l.holder != m)
/-- Nothing is in flight for the coherent lines of a row. -/
def State.rowQuiet (s : State) (r : Option (Nat × Nat)) (dk : Bool) : Bool :=
  match r with
  | none => true
  | some p => dk || (bursts p.2).all fun x => s.homeQuiet ⟨0, p.1, x⟩
/-- For rowinv of a deckled page, nothing is in flight for the slice's lines under the mill's own mapping, so that no die
keeps a copy (R369). -/
def State.invQuiet (s : State) (m : Mill) (asid : Nat) (r : RowStep) : Bool :=
  m.rowCode != 0x27 || !r.dstDk || (bursts (sliceVa m.rowa.toNat r.slice)).all fun x => s.lineQuiet ⟨asid, x / 256⟩
/-- A step whose data goes to another tower: both ends (R191). -/
def RowStep.far (r : RowStep) : Option (Nat × Nat) :=
  match r.src, r.dst with
  | some a, some b => if a.1 = b.1 then none else some (a.1, b.1)
  | _, _ => none

/-- The state after a step's duties and its data (R191, R192, R196), and the mill. -/
def State.performStep (s : State) (m : Mill) (asid : Nat) (r : RowStep) : Mill × State :=
  let s := match r.src with | some p => s.readDuty p | none => s
  let vs := match r.src with | some p => s.mem.rowLines p | none => []
  match m.rowCode, r.dst with
  | 0x20, some p =>
    let s := s.writeDuty p r.dstDk
    (m, if r.src = r.dst then s else s.mapMem fun x => x.putRow p vs)
  | 0x21, some p => (m, (s.writeDuty p r.dstDk).mapMem fun x => x.putRow p (List.replicate 8 0))
  | 0x22, _ => ({ m with
      buf := (vs.mapIdx fun j v => (256 * j, leBytes 256 v.toNat)).foldl (fun b e => b.write e.1 e.2) m.buf
      bad := m.bad.filter fun w => decide (w < 2 ^ 16) }, s)
  | 0x23, some p =>
    (m, (s.writeDuty p r.dstDk).mapMem fun x =>
      x.putRow p ((List.range 8).map fun j => BitVec.ofNat 2048 (m.buf.nat (256 * j) 256)))
  | 0x24, _ =>
    let rank := ((List.range r.slice).filter fun c => bit m.rowMask c).length
    (m.writeLocal false (m.rowd.toNat + 4 * rank) 4 (rowMac vs m.buf).toNat, s)
  | _, some p => (m, s.invDuty asid m.rowa.toNat r.slice p r.dstDk)
  | _, none => (m, s)

/-- ROW_STEP_COMPLETE (R27, R191, R192, R366): a step that has started ends when its banks are free: the owners of its lines
are recalled, its data goes to another tower as bulk traffic, then the other duties and the data are done; its bit in
ROWPROG is set, and the last step ends the operation. -/
def execRowStepComplete (id : MillRef) (c : Nat) (s : State) : Out := s.happens <|
  match s.mill? id with
  | none => none
  | some m =>
    match m.rowBusy.find? fun r => r.slice == c, s.task? m.tid with
    | some r, some k =>
      if s.rowHeld id r.src || s.rowHeld id r.dst || !s.rowQuiet r.src r.srcDk || !s.rowQuiet r.dst r.dstDk ||
          !s.invQuiet m k.asid r then none
      else match s.recallRow r.src r.srcDk, s.recallRow r.dst r.dstDk with
      | some s, _ => some s
      | none, some s => some s
      | none, none =>
        let go (s : State) : State :=
          let (m, s) := s.performStep m k.asid r
          let m := { m with rowBusy := m.rowBusy.erase r, rowprog := m.rowprog ||| BitVec.ofNat 32 (2 ^ c) }
          s.setMill (if m.slicesLeft = [] then { m with rowop := 0, rowOut := none } else m)
        match r.far with
        | none => some (go s)
        | some (a, b) =>
          match s.bulk (.tower a) (.tower b) (.rowData id c) with
          | .sent s => some s
          | .away => none
          | .arrived s => some (go s)
    | _, _ => none

/-! ### Refresh (R194) -/

/-- REFRESH (R194): a bank's refresh begins, once no step that can complete is in flight there. It goes on while
the part is frozen. -/
def execRefresh (tower ch bank : Nat) (s : State) : Out :=
  if 72 ≤ tower ∨ 64 ≤ ch ∨ 32 ≤ bank then .fault .noSuchUnit
  else
    let pa := ch / 32 * 2 ^ 16 + ch % 32 * 2 ^ 8 + bank * 2 ^ 17
    let steps := s.mills.any fun m => m.rowBusy.any fun r =>
      (inBank r.src tower pa || inBank r.dst tower pa) && !s.rowHeld m.id r.src && !s.rowHeld m.id r.dst
    if s.mem.refreshing.contains (tower, ch, bank) || steps then s.stays
    else .next (s.mapMem fun x => { x with refreshing := x.refreshing ++ [(tower, ch, bank)] })
/-- REFRESH_COMPLETE (R194). -/
def execRefreshComplete (tower ch bank : Nat) (s : State) : Out :=
  if s.mem.refreshing.contains (tower, ch, bank) then
    .next (s.mapMem fun x => { x with refreshing := x.refreshing.erase (tower, ch, bank) })
  else s.stays

/-! ### Bank locks (R195, R368) -/

/-- The lock limit in ns: the lesser of 100 µs and half the smallest XTO of the package (R195). -/
def State.lockLimit (s : State) : Nat :=
  (List.range 72).foldl (fun m i => min m (min (s.xtoNs (.die i) / 2) (s.xtoNs (.tower i) / 2))) 100000

/-- An access that has arrived at a tower and wants a line of a bank pair. -/
def State.pairWanted (s : State) (tower pair : Nat) : Bool :=
  s.mem.net.any fun m => m.at' == m.dst && (match m.body.needs, m.dst with
    | some (a, acc, priv, va), .tower h =>
      (match s.translate h a.asid va acc priv with
        | .ok v => v.tier == 0 && v.home == tower && pairOf v.pa == pair
        | .walk => (match s.placeAt a.asid va with
          | some (p, _) => p.tier == 0 && p.tower == tower && pairOf p.pa == pair
          | none => false)
        | .fault _ => false)
    | _, _ => false)

/-- Locks held in a tower (R195: at most 16). -/
def State.towerLocks (s : State) (tower : Nat) : Nat := (s.mem.locks.filter fun l => l.tower == tower).length
/-- Take a lock (R195): no other mill holds the pair, accesses that waited for it have been served, and no step or
request is in flight there; the registered owners of the bank's coherent lines are recalled first, and then its tower-cache
lines are written back and dropped. Whether it is taken, and the state; `none` while it must wait. -/
def State.tryLock (s : State) (m : Mill) (pair : Nat) : Option (Bool × State) :=
  let tower := m.id.tower
  let mine (p : Place) : Bool := p.tier == 0 && p.tower == tower && pairOf p.pa == pair
  let entries := s.mem.lines.filter fun l => (match l.node with | .home _ => true | _ => false) && mine l.attr.place
  let steps := s.mills.any fun o => o.rowBusy.any fun r =>
    [r.src, r.dst].any fun p => match p with | some x => x.1 == tower && pairOf x.2 == pair | none => false
  let open' := s.mem.txns.any fun t => match t.node, t.attr with | .home _, some v => mine v.place | _, _ => false
  if (s.mem.locks.any fun l => l.tower == tower && l.pair == pair) || steps || open' || s.pairWanted tower pair ||
      (entries.any fun l => !s.homeQuiet l.attr.place) then none
  else
    let owned := entries.filter fun l => s.homeOwned l.attr.place
    if owned ≠ [] then some (false, owned.foldl (fun s l => s.recallOwners (ownAttr tower l.attr.pa)) s)
    else
    let s := (s.mem.tcache.filter fun t => mine ⟨0, t.tower, t.line * 256⟩).foldl (fun s t =>
      s.mapMem fun x => x.tcDrop t.tower t.line) s
    some (true, s.mapMem fun x => { x with locks := x.locks ++ [⟨tower, pair, m.id, s.now (.tower tower), s.lockLimit⟩] })

/-- The frame of this tower that maps the page a word names; a misaligned page is refused, and a page whose new
translations wait holds the word (R127, R188, R368). -/
def MillIssuer.bankPage (u : MillIssuer) (s : State) (p : GReg) (k : Attr → State → MillOut) : MillOut :=
  let page := (u.m.gr p).toNat
  if page % 65536 ≠ 0 then .trap cALIGN
  else if u.pageStalls s page then .wait { u.m with wait := some .row } s
  else match u.frame s page .read true with
    | .code c s => if c = cTRANSL then .park page 0 s else .trap c
    | .at v s => k v s
/-- banklk gpage (R195, R368): the pair of the frame that maps the page is locked, at once or when it is free. -/
def execMillBanklk (p : GReg) (s : State) : Out :=
  runMill true (fun u s => u.bankPage s p fun v s =>
      let pair := pairOf v.pa
      if s.holdsLock u.m.id pair then .done u.m s
      else if 4 ≤ (s.mem.locks.filter fun l => l.holder == u.m.id).length ∨
          16 ≤ s.towerLocks u.tower then .trap cPROT
      else match s.tryLock u.m pair with
      | some (true, s) => .done u.m s
      | some (false, s) => .wait { u.m with wait := some (.banklk pair) } s
      | none => .wait { u.m with wait := some (.banklk pair) } s) s

/-- bankul gpage (R195, R368): after the outstanding row operation, the pair is released if this mill holds it. -/
def execMillBankul (p : GReg) (s : State) : Out :=
  runMill true (fun u s =>
    if u.m.inRow then .wait { u.m with wait := some .row } s
    else u.bankPage s p fun v s =>
      .done u.m (s.mapMem fun x => { x with
        locks := x.locks.filter fun l => !(l.tower == u.tower && l.pair == pairOf v.pa && l.holder == u.m.id) })) s

/-- BANK_LOCK_TAKEN (R189, R195): a mill that waits for a pair takes it, and its banklk completes, or traps when its tower
holds 16 locks by then; a restored mill takes its pairs again before it issues, and waits while its tower holds 16 (log
entry 114). -/
def execBankLockTaken (r : MillRef) (s : State) : Out := s.happens <|
  match s.mill? r with
  | none => none
  | some m =>
    if m.st ≠ .run ∨ s.siteRuns (.tower r.tower) = false then none
    else match m.relock, m.wait with
    | pair :: rest, _ =>
      if 16 ≤ s.towerLocks r.tower then none
      else (s.tryLock m pair).map fun t => if t.1 then t.2.setMill { m with relock := rest } else t.2
    | [], some (.banklk pair) =>
      if 16 ≤ s.towerLocks r.tower then (s.task? m.tid).map fun k => s.millTrap ⟨m, k⟩ cPROT m.pc
      else (s.tryLock m pair).map fun t => if t.1 then t.2.setMill (m.retire (m.pc + 4)) else t.2
    | [], _ => none

/-- BANK_LOCK_FORCED_RELEASE (R195): a lock held for its limit is released and logged, and its holder traps. -/
def execBankLockForcedRelease (r : MillRef) (pair : Nat) (s : State) : Out := s.happens <|
  match s.mem.locks.find? fun l => l.holder == r && l.pair == pair, s.mill? r with
  | some l, some m =>
    match s.task? m.tid with
    | none => none
    | some k =>
      if s.siteRuns (.tower r.tower) = false ∨ s.now (.tower r.tower) < l.since + l.limit then none
      else
        let s := (s.mapMem fun x => { x with locks := x.locks.erase l }).logTower 0x0E r.tower m.tid pair m.m 0
        some (s.millTrap ⟨m, k⟩ cTIMEOUT m.pc)
  | _, _ => none

end Sys2Proof.Machine
end

