-- ==== Sys2Proof/Machine/Respond.lean ====
section
/-! DEFINITION. Responses and failed requests (R31 to R37): the acceptance check, what an answer does to the
group or the mill that waits for it, refusals, time-outs, watermark notices, and retired tags. -/

namespace Sys2Proof.Machine

/-! ### Answers to groups and mills -/

/-- Change what a group's memory word has gathered, if the group stands at such a word. -/
def State.stallGroup (s : State) (r : GroupRef) (f : MemStall → MemStall) : State :=
  { s with groups := s.groups.map fun g => if g.id = r ∧ g.stall.sent = true then { g with stall := f g.stall } else g }
/-- The same for a mill. -/
def State.stallMill (s : State) (r : MillRef) (f : MemStall → MemStall) : State :=
  { s with mills := s.mills.map fun m => if m.id = r ∧ m.stall.sent = true then { m with stall := f m.stall } else m }
/-- An answer with values. -/
def MemStall.answered (m : MemStall) (vals : List Nat) : MemStall := { m with sent := false, result := some vals }
/-- An answer with faults. -/
def MemStall.failed (m : MemStall) (fs : List LineFault) : MemStall := { m with sent := false, faults := m.faults ++ fs }
/-- An answer of a home: values, or the lanes' faults. -/
def MemStall.homeAnswer (m : MemStall) (vals : List Nat) (fs : List LineFault) : MemStall :=
  if fs = [] then m.answered vals else m.failed fs

/-- A line request is refused with a code: the level that asked hands the refusal to the child it asked for; where
the request began, the group that made it meets the code (R121). A prefetch drops it (R314). -/
def State.refuseAt (s : State) (a : LineId) (dest : Node) (r : Req) (code : Nat) (dk : Bool) : State :=
  match s.mem.txns.find? fun t => t.node == dest && t.a == a && t.up && r.node != dest with
  | some t =>
    let s := (s.mapMem fun x => x.dropTxn t).lateHome dest dest a t.val t.dirty
      (match t.attr with | some v => v.home | none => sliceOf (siteSheet (nodeSite dest)) a.line)
    match t.msg.body.child with
    | some (_, kid, r') => s.respond t.msg .rsp (.refuse a kid r' code dk)
    | none => s
  | none =>
    match dest with
    | .l1 c => s.wake c a fun g m =>
        if r.who = some g.id ∧ r.acc ≠ .pref then { m with faults := m.faults ++ [⟨a.line, r.va, code, dk⟩] } else m
    | _ => s

/-- A release or an acquire whose Drain got no answer faults its group (R34); the group stands at the word that releases, or
at the one after the word that acquired. -/
def State.failDrain (s : State) (g : GroupRef) (code : Nat) : State :=
  match s.group? g, s.team? g.tid g.team, s.task? g.tid with
  | some x, some t, some k => if x.fence.isSome then s.takeFault ⟨x, t, k⟩ code 0 0 else s
  | _, _, _ => s
/-- A copy whose data got no answer goes into ERR (R34, R170). -/
def State.failCopy (s : State) (g : GroupRef) (st unit code : Nat) : State :=
  match s.team? g.tid g.team with
  | none => s
  | some t =>
    match (s.core t.core).cq.findIdx? fun c => c.g == g && c.st.val == st && c.units == unit && c.state == .active with
    | none => s
    | some k =>
      match (s.core t.core).cq[k]? with
      | some c => s.putCopy t.core k { c with state := .err, code := code, errVa := BitVec.ofInt 64 (c.dstRow (c.unit unit).1 + (c.unit unit).2.1) }
      | none => s
/-- A row step whose data got no answer stops its operation (R34, R366). -/
def State.failRow (s : State) (r : MillRef) (slice code : Nat) : State :=
  match s.mill? r with
  | some m => s.setMill { m with rowBusy := m.rowBusy.filter fun x => x.slice != slice, rowFault := some (code, m.rowa) }
  | none => s

/-- A record read fails (R59). -/
def State.pullError (s : State) (q : Nat) : State :=
  s.setReg (offQSTAT q) (s.reg (offQSTAT q) ||| (2 ^ 31 + 2 ^ 29))
/-- A record read of the arbiter times out: it is logged, and fails (R34, R59). ADDR of the record is the index of the record
in the ring's queue (log entry 122). -/
def State.pullTimeout (s : State) (q : Nat) : State :=
  (s.logArbiter 0x07 noTask (q * 2 ^ 32 + s.reg (offQHEAD q)) 0).pullError q

/-- A request fails at its requester (R33 to R35). -/
def State.failReq (s : State) (o : OutReq) (code : Nat) : State :=
  match o.body with
  | .getS a kid r => s.refuseAt a kid r code false
  | .getX a kid r => s.refuseAt a kid r code false
  | .upgr a kid r => s.refuseAt a kid r code false
  | .homeAtomic g _ _ ops => s.stallGroup g fun m => m.failed (ops.map fun x => ⟨x.addr / 256, x.addr, code, false⟩)
  | .nearRed g _ _ ops => s.stallGroup g fun m => m.failed (ops.map fun x => ⟨x.addr / 256, x.addr, code, false⟩)
  | .window g ops => s.stallGroup g fun m => m.failed (ops.map fun x => ⟨x.addr / 256, x.addr, code, false⟩)
  | .tnow g _ => s.stallGroup g fun m => m.failed [⟨0, 0, code, false⟩]
  | .drain g _ _ _ _ => s.failDrain g code
  | .copyUnit g st unit => s.failCopy g st unit code
  | .rowData r slice => s.failRow r slice code
  | .recordRead q => s.pullTimeout q
  | .millAcc r _ _ va _ => s.stallMill r fun m => m.failed [⟨va / 256, va, code, false⟩]
  | _ => s

/-! ### Events -/

/-- RESPONSE_ARRIVAL (R31, R32, R35): a response to a request that a home, a hub or another sheet performed whole,
or a refusal, reaches its requester. A stale or a late one is dropped and counted. -/
def execResponseArrival (k : Nat) (s : State) : Out :=
  onMsg k s fun m s =>
    let take (f : State → State) : Option State :=
      let (ok, s) := s.accept m
      some (if ok then f s else s)
    match m.body with
    | .refuse a dest r code dk => take fun s => s.refuseAt a dest r code dk
    | .homeRsp g vals fs => take fun s => s.stallGroup g fun x => x.homeAnswer vals fs
    | .windowRsp g vals => take fun s => s.stallGroup g fun x => x.answered vals
    | .tnowRsp g ns => take fun s => s.stallGroup g fun x => x.answered [ns]
    | .millRsp r val code _ => take fun s => s.stallMill r fun x =>
        if code = 0 then x.answered [val] else x.failed [⟨0, 0, code, false⟩]
    | _ => none

/-- REQUEST_TIMEOUT (R34, R35): a request whose time has run out fails with TIMEOUT, and its tag is retired. -/
def execRequestTimeout (site : Site) (tag : Nat) (s : State) : Out :=
  match s.mem.reqs.find? fun r => r.site == site && r.tag == tag with
  | none => s.stays
  | some r =>
    if s.siteRuns site = false ∨ (match r.sentAt with | some t => decide (s.now site - t < r.limit) | none => true) = true then s.stays
    else
      let s := s.mapMem fun x => { x with reqs := x.reqs.erase r, retired := x.retired ++ [⟨site, tag, s.now site, r.limit⟩] }
      .next (s.failReq r cTIMEOUT)

/-- RETIRED_TAG_RELEASE (R35): a retired tag is free again once twice XTO has passed. -/
def execRetiredTagRelease (site : Site) (tag : Nat) (s : State) : Out :=
  match s.mem.retired.find? fun r => r.site == site && r.tag == tag with
  | none => s.stays
  | some r =>
    if s.siteRuns site = false ∨ s.now site - r.since < 2 * r.xto then s.stays
    else .next (s.mapMem fun x => { x with retired := x.retired.erase r })

/-- WATERMARK_NOTICE (R31, R33): requests whose recorded watermark of the responder is not the new one fail at
once. -/
def execWatermarkNotice (k : Nat) (s : State) : Out :=
  onMsg k s fun m s => match m.body with
    | .watermark site value =>
      let late : OutReq → Bool := fun r => r.site == m.dst && r.responder == site && r.respWm != value
      let bad := s.mem.reqs.filter late
      let s := s.mapMem fun x => { x with reqs := x.reqs.filter fun r => !late r }
      some (bad.foldl (fun s r => s.failReq r cTIMEOUT) s)
    | _ => none

/-- TNOW_REQUEST_ARRIVAL (R347): the farrier's tower of the sheet answers with the sheet's counter. -/
def execTnowRequestArrival (k : Nat) (s : State) : Out :=
  onMsg k s fun m s => match m.body with
    | .tnow g _ => some (s.respond m .rsp (.tnowRsp g (s.now m.dst)))
    | _ => none

end Sys2Proof.Machine
end

