-- ==== Sys2Proof/Machine/Own.lean ====
section
/-! DEFINITION. Accesses that the W1 makes of its own (R415): by virtual address through one copy of the home
region table, at the level a task of the ASID runs at, and by tower physical address. Each is performed whole. -/

namespace Sys2Proof.Machine

/-- The home region table copy an access uses: VA and ASID to home tower. -/
abbrev HomeOf := Nat → Nat → Option Nat
/-- Tower 19's copy: the arbiter, and BAR4 (R415). -/
def State.arbHome (s : State) : HomeOf := fun asid va => s.mem.towerHome 19 asid va
/-- A die's copy, and a tower's. -/
def State.dieHomeOf (s : State) (die : Nat) : HomeOf := fun asid va => s.mem.dieHome die asid va
def State.towerHomeOf (s : State) (tower : Nat) : HomeOf := fun asid va => s.mem.towerHome tower asid va

/-- What such an access answers. -/
inductive Own (α : Type)
  | ok (x : α) (s : State)
  | bad (code : Nat) (s : State)
  /-- A bank it needs is held, or a copy has taken its line: it has not been performed. -/
  | busy

/-- Translate and check the line of an access. -/
def State.ownLine (s : State) (home : HomeOf) (asid va : Nat) (acc : Acc) : Own Attr :=
  if !canonical va then .bad cTRANSL s
  else match home asid va with
  | none => .bad cNOHOME s
  | some h =>
    if s.promoHeld h asid va then .busy
    else match s.meet h asid va 0 acc (asid == 0) none with
    | (.error c, s) => .bad c s
    | (.ok v, s) =>
      if (v.tier == 0 && s.bankHeld v.home v.pa) || (!v.dk && s.copyHolds v.place) then .busy
      else .ok v s

/-- The line an own access reads: the newest registered value of a coherent line, the home's of a deckled one. -/
def State.ownView (s : State) (v : Attr) : BitVec 2048 := if v.dk then s.mem.placeLine v.place else s.mem.newest v.place

/-- Read bytes by virtual address. -/
def State.ownRead (s : State) (home : HomeOf) (asid va n : Nat) : Own (List (BitVec 8)) :=
  (lineParts va n).foldl (fun r p =>
    match r with
    | .ok bs s =>
      match s.ownLine home asid p.1 .read with
      | .ok v s => .ok (bs ++ leBytes p.2 (lineNat (s.ownView v) (p.1 % 256) p.2)) (s.touch v.place)
      | .bad c s => .bad c s
      | .busy => .busy
    | r => r) (.ok [] s)

/-- Write bytes by virtual address: every line is checked before any is written. -/
def State.ownWrite (s : State) (home : HomeOf) (asid va : Nat) (bs : List (BitVec 8)) : Own Unit :=
  let parts := lineParts va bs.length
  let checked := parts.foldl (fun (r : Own (List Attr)) p =>
    match r with
    | .ok vs s =>
      match s.ownLine home asid p.1 .write with
      | .ok v s => .ok (vs ++ [v]) s
      | .bad c s => .bad c s
      | .busy => .busy
    | r => r) (.ok [] s)
  match checked with
  | .ok vs s =>
    .ok () ((parts.zip vs).foldl (fun s q =>
      let val := linePlace (q.1.1 % 256) (leNat ((bs.drop (q.1.1 - va)).take q.1.2))
      let mask := lineMask (q.1.1 % 256) q.1.2
      if q.2.dk then s.mapMem fun x => x.placeWrite q.2.place val mask else s.homeWrite q.2.place val mask) s)
  | .bad c s => .bad c s
  | .busy => .busy

/-- Read and write bytes by tower physical address. -/
def State.physRead (s : State) (tower pa n : Nat) : List (BitVec 8) :=
  (lineParts pa n).flatMap fun p => leBytes p.2 (lineNat (s.mem.newest ⟨0, tower, p.1 / 256 * 256⟩) (p.1 % 256) p.2)
def State.physWrite (s : State) (tower pa : Nat) (bs : List (BitVec 8)) : State :=
  (lineParts pa bs.length).foldl (fun s p =>
    s.homeWrite ⟨0, tower, p.1 / 256 * 256⟩ (linePlace (p.1 % 256) (leNat ((bs.drop (p.1 - pa)).take p.2))) (lineMask (p.1 % 256) p.2)) s

end Sys2Proof.Machine
end

