-- ==== Sys2Proof/Machine/Block.lean ====
section
/-! DEFINITION. The stable block (R93, R98, R181 to R183, R190): its layout for a core team and for a mill, the bytes
that are written, and the state that is read back from them. -/

namespace Sys2Proof.Machine

/-! ### Where a block lies (R93, R181, R190) -/

def Launch.tilesAt (l : Launch) : Nat := 0x1000 + l.slots * 0x2000
def Launch.spAt (l : Launch) : Nat := l.tilesAt + l.nacc * 4096
def Launch.privAt (l : Launch) : Nat := l.spAt + l.spSize
/-- Size of a team's block (R181). -/
def Launch.blockSize (l : Launch) : Nat := alignUp (l.privAt + l.ngrp * l.privbytes * l.lanes) 65536
/-- Size of a mill's block (R190). -/
def millBlockSize : Nat := 128 * 1024

/-- Read and write bytes of a block. -/
def State.blockRead (s : State) (home : HomeOf) (asid : Nat) (b : BlockLoc) (off n : Nat) : Own (List (BitVec 8)) :=
  match b with
  | .none => .ok (List.replicate n 0) s
  | .va a => s.ownRead home asid (a + off) n
  | .pool t pa _ => .ok (s.physRead t (pa + off) n) s
def State.blockWrite (s : State) (home : HomeOf) (asid : Nat) (b : BlockLoc) (off : Nat) (bs : List (BitVec 8)) : Own Unit :=
  match b with
  | .none => .ok () s
  | .va a => s.ownWrite home asid (a + off) bs
  | .pool t pa _ => .ok () (s.physWrite t (pa + off) bs)

/-! ### Laying bytes out -/

/-- Fields at rising offsets, with zeros between them and up to a size. -/
def layFrom : Nat → List (Nat × List (BitVec 8)) → Nat → List (BitVec 8)
  | at', [], size => List.replicate (size - at') 0
  | at', (o, bs) :: fs, size => List.replicate (o - at') 0 ++ bs ++ layFrom (o + bs.length) fs size
def lay (fs : List (Nat × List (BitVec 8))) (size : Nat) : List (BitVec 8) := layFrom 0 fs size
/-- A field of some bytes, as a number. -/
def fld (b : List (BitVec 8)) (o n : Nat) : Nat := leNat ((b.drop o).take n)

/-! ### Trap registers (R177) -/

def TrapRegs.ofWords (c pc next va lanes exm : Nat) : TrapRegs :=
  let w (x : Nat) : W64 := BitVec.ofNat 64 x
  ⟨bit c 31, bits c 11 8, bits c 7 0, w pc, w next, w va, w lanes, w exm⟩

/-! ### Slot records (R182) -/

/-- The 32 lanes of half `h` of a vector. -/
def laneBytes (v : Lanes) (h : Nat) : List (BitVec 8) := (List.range 32).flatMap fun i => leBytes 4 (lane v (32 * h + i)).toNat
/-- Half `h` of a mask. -/
def maskBytes (x : W64) (h : Nat) : List (BitVec 8) := leBytes 4 (x.toNat / 2 ^ (32 * h))

/-- The state bits of a slot record, and the number of the barrier or tether the group waits at. -/
def Group.waitBits (g : Group) : Nat × Nat :=
  let p := match g.stat with | .parked _ => 1 | .exited => 32 | _ => 0
  match g.wait with
  | some (.tbar b) => (p + 2, b)
  | some (.tarr b) => (p + 2, b)
  | some (.twait b) => (p + 2, b)
  | some (.cbar c) => (p + 4, c)
  | some (.tethWait t) => (p + 8, t)
  | some .dkflush => (p + 16, 0)
  | _ => (p, 0)
def Group.fid (g : Group) : Nat := match g.stat with | .parked f => f | _ => 0

/-- The record of slot half `h` of a group: the upper half of a pair holds vector and mask fields only. -/
def Group.record (g : Group) (h : Nat) : List (BitVec 8) :=
  let low (bs : List (BitVec 8)) : List (BitVec 8) := if h = 0 then bs else List.replicate bs.length 0
  let w := g.waitBits
  lay [(0x0000, g.v.toList.flatMap fun x => laneBytes x h), (0x0C00, g.q.toList.flatMap fun x => laneBytes x h),
    (0x1400, low (g.s.toList.flatMap fun x => leBytes 8 x.toNat)), (0x1480, g.m.toList.flatMap fun x => maskBytes x h),
    (0x14A0, maskBytes g.exm h), (0x14A4, low (leBytes 4 g.msdepth)), (0x14A8, low (leBytes 8 g.flags.toNat)),
    (0x14B0, low (leBytes 8 g.pc.toNat)), (0x14B8, low (leBytes 4 g.widx)), (0x14BC, low (leBytes 4 g.batch)),
    (0x14C0, g.mstack.toList.flatMap fun x => maskBytes x h),
    (0x1500, low (leBytes 8 g.trap.trcode ++ leBytes 8 g.trap.pc.toNat ++ leBytes 8 g.trap.next.toNat ++ leBytes 8 g.trap.va.toNat ++
      leBytes 8 g.trap.lanes.toNat ++ leBytes 8 g.trap.exm.toNat)),
    (0x1530, low (leBytes 8 g.tethArr.toNat)), (0x1538, low (leBytes 8 g.cursor)), (0x1540, low (leBytes 4 g.fid)),
    (0x1544, low (leBytes 4 w.1)), (0x1548, low (leBytes 8 g.tethLatched.toNat)), (0x1550, low (leBytes 4 w.2)),
    (0x1554, low (leBytes 4 g.cbarArr))] 0x2000

/-- Lanes of a register from the records of a group's slots. -/
def lanesOf (recs : List (List (BitVec 8))) (o : Nat) : Lanes :=
  recs.flatMap fun b => (List.range 32).map fun i => BitVec.ofNat 32 (fld b (o + 4 * i) 4)
/-- A mask from them. -/
def slotMask (recs : List (List (BitVec 8))) (o : Nat) : W64 :=
  BitVec.ofNat 64 (fld (recs.headD []) o 4 + 2 ^ 32 * fld (recs.getD 1 []) o 4)

/-- A group as its records give it (R182, R183): its counters restart, and it has gathered nothing. A replay or a
cancel that was recorded leaves it ready. -/
def Group.ofRecords (id : GroupRef) (recs : List (List (BitVec 8))) : Group :=
  let b := recs.headD []
  let w := fld b 0x1544 4
  let n := fld b 0x1550 4
  { id := id
    pc := BitVec.ofNat 64 (fld b 0x14B0 8)
    widx := fld b 0x14B8 4 % 16
    q := Vector.ofFn fun i => lanesOf recs (0x0C00 + 128 * i.val)
    v := Vector.ofFn fun i => lanesOf recs (128 * i.val)
    s := Vector.ofFn fun i => BitVec.ofNat 64 (fld b (0x1400 + 8 * i.val) 8)
    exm := slotMask recs 0x14A0
    m := Vector.ofFn fun i => slotMask recs (0x1480 + 4 * i.val)
    mstack := Vector.ofFn fun i => slotMask recs (0x14C0 + 4 * i.val)
    msdepth := fld b 0x14A4 4
    flags := Flags.ofNat (fld b 0x14A8 8)
    batch := fld b 0x14BC 4
    trap := TrapRegs.ofWords (fld b 0x1500 8) (fld b 0x1508 8) (fld b 0x1510 8) (fld b 0x1518 8) (fld b 0x1520 8) (fld b 0x1528 8)
    stat := if bit w 5 then .exited else if bit w 0 && !bit w 6 && !bit w 7 then .parked (fld b 0x1540 4) else .ready
    wait := if bit w 1 then some (.tbar n) else if bit w 2 then some (.cbar n) else if bit w 3 then some (.tethWait n)
      else if bit w 4 then some .dkflush else none
    fence := none
    stall := MemStall.none
    faultVa := 0
    faultLanes := 0
    cursor := fld b 0x1538 8
    tethArr := BitVec.ofNat 64 (fld b 0x1530 8)
    tethLatched := BitVec.ofNat 64 (fld b 0x1548 8)
    cbarArr := fld b 0x1554 4
    lateFault := none
    clause := []
    ready := none
    clauseStarts := 0
    wordsIssued := 0
    dbgmks := 0 }

/-! ### Matrix queue entries and copy records (R182) -/

def MatKind.code : MatKind → Nat | .mma => 0 | .mmaz => 1 | .mfill => 2 | .mzero => 3 | .mwrv => 4
def MatKind.ofCode : Nat → MatKind | 0 => .mma | 1 => .mmaz | 2 => .mfill | 3 => .mzero | _ => .mwrv

/-- A matrix queue entry. -/
def MatOp.entry (o : MatOp) : List (BitVec 8) :=
  let x10 := match o.kind with | .mwrv => o.exm.toNat | _ => o.bmap.toNat
  let x08 := match o.kind with | .mwrv => o.n + b2n o.dir * 2 ^ 8 | _ => o.amap.toNat
  let x18 := match o.kind with | .mfill => [BitVec.ofNat 8 o.c] | _ => o.fmt
  lay [(0, leBytes 1 o.tile), (1, leBytes 1 o.g.grp),
    (2, leBytes 1 (b2n o.ra + 2 * b2n o.rb + 4 * b2n o.zeroed + 8 * o.kind.code)), (3, leBytes 1 o.progress),
    (4, leBytes 4 o.batch), (0x08, leBytes 8 x08), (0x10, leBytes 8 x10), (0x18, x18)] 64
/-- What it captured. -/
def MatOp.captured (o : MatOp) : List (BitVec 8) :=
  match o.kind with
  | .mwrv => lay [(0, o.src.flatMap fun x => leBytes 4 x.toNat)] 256
  | _ => lay [(0, o.ascale), (0x20, o.bscale)] 256
/-- An entry as its bytes give it. -/
def MatOp.ofBytes (tid team w : Nat) (e c : List (BitVec 8)) : MatOp :=
  let f := fld e 2 1
  let kind := MatKind.ofCode (bits f 5 3)
  { g := ⟨tid, team, fld e 1 1⟩, kind := kind, tile := fld e 0 1, batch := fld e 4 4, progress := fld e 3 1
    ra := bit f 0, rb := bit f 1, zeroed := bit f 2
    amap := match kind with | .mwrv => 0 | _ => BitVec.ofNat 64 (fld e 8 8)
    bmap := match kind with | .mwrv => 0 | _ => BitVec.ofNat 64 (fld e 0x10 8)
    fmt := (e.drop 0x18).take 16
    ascale := c.take 32
    bscale := (c.drop 32).take 32
    exm := match kind with | .mwrv => BitVec.ofNat 64 (fld e 0x10 8) | _ => 0
    src := match kind with | .mwrv => (List.range w).map fun i => BitVec.ofNat 32 (fld c (4 * i) 4) | _ => []
    c := match kind with | .mfill => fld e 0x18 1 | _ => 0
    n := match kind with | .mwrv => fld e 8 1 % 32 | _ => 0
    dir := match kind with | .mwrv => bit (fld e 8 2) 8 | _ => false }

/-- A copy that a team's block holds: parked, or in ERR (R170). -/
def Copy.kept (c : Copy) : Bool := match c.state with | .parked _ => true | .err => true | _ => false
def Copy.fid (c : Copy) : Nat := match c.state with | .parked f => f | _ => 0
/-- Its record. -/
def Copy.record (c : Copy) : List (BitVec 8) :=
  lay [(0, leBytes 1 c.g.grp), (1, leBytes 1 c.st.val), (2, leBytes 1 (match c.state with | .parked _ => 1 | .err => 2 | _ => 0)),
    (4, leBytes 4 c.xword), (8, leBytes 8 c.status.toNat), (0x10, c.desc), (0x30, leBytes 4 c.fid),
    (0x34, leBytes 4 (b2n c.cancelRec * 2)), (0x38, leBytes 8 (match c.state with | .err => c.errVa.toNat | _ => 0))] 64

def CopyOp.ofCode : Nat → CopyOp
  | 0 => .cpy | 1 => .cpy2 | 2 => .cpyg | 3 => .cpys | 4 => .cpym | 5 => .cpyr | 6 => .cpyf | _ => .mred
/-- A copy as its record gives it: a recorded replay makes it active, a recorded cancel puts it in ERR (R92, R170).
A scatter takes its index list from the restored scratchpad when it goes on (R322). -/
def Copy.ofRecord (tid team : Nat) (b : List (BitVec 8)) : Copy :=
  let x := fld b 4 4
  let status := fld b 8 8
  let r := fld b 0x34 4
  let op := CopyOp.ofCode (bits x 26 24)
  let parked := fld b 2 1 == 1
  let state : CopySt := if !parked || bit r 1 then .err else if bit r 0 then .active else .parked (fld b 0x30 4)
  { g := ⟨tid, team, fld b 0 1⟩, op := op, st := Fin.ofNat 16 (fld b 1 1), srcsp := bits x 11 9, dstsp := bits x 8 6
    vscope := bits x 5 3, mode := bits x 2 0, xword := x, desc := (b.drop 0x10).take 32
    index := []
    state := state, units := bits status 23 0
    code := if parked then (if bit r 1 then cTRANSL else 0) else bits status 29 24
    errVa := BitVec.ofNat 64 (fld b 0x38 8)
    cancelRec := bit r 1 }

/-! ### A team's block (R181, R182) -/

/-- Matrix operations and kept copies of a team. -/
def State.teamOps (s : State) (t : Team) : List MatOp := (s.core t.core).mq.filter fun o => o.g.tid == t.tid && o.g.team == t.team
def State.teamCopies (s : State) (t : Team) : List Copy :=
  (s.core t.core).cq.filter fun c => c.g.tid == t.tid && c.g.team == t.team && c.kept

/-- A byte of the team's lane-private memory, by its offset in the backing (R98, R159). -/
def Team.privByte (t : Team) (i : Nat) : BitVec 8 :=
  match t.priv.find? fun c => c.1 == i with
  | some c => c.2
  | none => Config.undefByte t.epoch (2 ^ 18 + i)

/-- The header. -/
def State.blockHeader (s : State) (t : Team) (l : Launch) : List (BitVec 8) :=
  let gs := (s.teamGroups t.tid t.team).filter fun g => g.stat != .exited
  let cb := gs.foldl (fun x g => x &&& g.cbarArr) 0xFF
  let ops := (s.teamOps t).take 8
  lay [(0x000, leBytes 4 1), (0x004, leBytes 4 t.team), (0x008, leBytes 4 t.tid), (0x00C, leBytes 4 l.slots),
    (0x040, t.barriers.toList.flatMap fun b => leBytes 4 (b.arrived + b2n b.gen * 2 ^ 16)), (0x080, leBytes 8 cb),
    (0x088, leBytes 8 t.tethCounted.toNat), (0x090, leBytes 8 t.tethLatched.toNat), (0x100, ops.flatMap MatOp.entry),
    (0x300, (s.teamCopies t).flatMap Copy.record), (0x700, ops.flatMap MatOp.captured)] 0x1000

/-- The slot records of a team, in slot order: a group whose slot was freed leaves a record that says so. -/
def State.blockSlots (s : State) (t : Team) (l : Launch) : List (BitVec 8) :=
  (List.range l.ngrp).flatMap fun n =>
    match s.group? ⟨t.tid, t.team, n⟩ with
    | some g => (List.range (l.lanes / 32)).flatMap g.record
    | none => (List.range (l.lanes / 32)).flatMap fun h => lay [(0x1544, leBytes 4 (if h = 0 then 32 else 0))] 0x2000

/-- Every byte of a team's block. -/
def State.teamBlock (s : State) (t : Team) (l : Launch) : List (BitVec 8) :=
  let body := s.blockHeader t l ++ s.blockSlots t l ++
    (t.tiles.flatMap fun x => x.flatMap fun w => leBytes 4 w.toNat) ++
    (List.range l.spSize).map (fun i => undefRead t.sp t.epoch (t.spbase + i)) ++
    (List.range (l.ngrp * l.privbytes * l.lanes)).map t.privByte
  body ++ List.replicate (l.blockSize - body.length) 0

/-- What a team's block gives back. -/
structure Restored where
  team : Team
  groups : List Group
  ops : List MatOp
  copies : List Copy
  deriving DecidableEq, Repr

/-- A listed memory of consecutive bytes. -/
def consecutive (base : Nat) (bs : List (BitVec 8)) : Mem := bs.mapIdx fun i b => (base + i, b)

/-- Read a team back from its block (R94, R182). The tether bits of the header are a summary, and the arrivals that
the root has counted are the root's. -/
def SavedTeam.restore (x : SavedTeam) (l : Launch) (c : CoreId) (cwDie cwCluster : Nat) (b : List (BitVec 8)) : Restored :=
  let sp := consecutive x.spbase ((b.drop l.spAt).take l.spSize)
  let h := l.lanes / 32
  let counted := x.tethCounted &&& ~~~x.tethEnded
  let team : Team :=
    { tid := x.tid, team := x.team, set := x.set, core := c, spbase := x.spbase, cwbase := x.cwbase
      cwDie := cwDie, cwCluster := cwCluster, started := true, epoch := x.epoch, sp := sp, spBad := x.spBad
      priv := consecutive 0 ((b.drop l.privAt).take (l.ngrp * l.privbytes * l.lanes))
      tiles := (List.range l.nacc).map fun i => (List.range 1024).map fun j =>
        BitVec.ofNat 32 (fld b (l.tilesAt + 4096 * i + 4 * j) 4)
      barriers := Vector.ofFn fun i => let w := fld b (0x40 + 4 * i.val) 4; ⟨bits w 15 0, bit w 16⟩
      tethCounted := counted, tethLatched := BitVec.ofNat 64 (fld b 0x90 8) ||| x.tethEnded, tethEnded := 0, block := x.block }
  let copies := ((List.range 16).filter fun e => fld b (0x300 + 64 * e + 2) 1 != 0).map fun e =>
    Copy.ofRecord x.tid x.team ((b.drop (0x300 + 64 * e)).take 64)
  let late (g : Group) : Group :=
    let done := g.tethArr &&& x.tethEnded
    let at' := x.parked.find? fun p => p.grp == g.id.grp
    { g with tethArr := g.tethArr &&& ~~~done, tethLatched := g.tethLatched ||| done
             wait := match g.wait with
               | some (.tbar n) => if x.arriving.contains g.id.grp then some (.tarr n) else some (.tbar n)
               | w => w
             s := copies.foldl (fun r c => if c.g == g.id && c.cancelRec then r.set c.st c.status else r) g.s
             faultVa := (at'.map fun p => p.va).getD 0
             faultLanes := (at'.map fun p => p.lanes).getD 0
             clause := match g.stat with | .parked _ => (at'.map fun p => p.clause).getD [] | _ => []
             lateFault := (x.late.find? fun p => p.1 == g.id.grp).map fun p => p.2 }
  { team := team
    groups := (List.range l.ngrp).map fun n =>
      late (Group.ofRecords ⟨x.tid, x.team, n⟩ ((List.range h).map fun i => (b.drop (0x1000 + 0x2000 * (h * n + i))).take 0x2000))
    ops := (List.range x.nops).map fun e =>
      MatOp.ofBytes x.tid x.team l.lanes ((b.drop (0x100 + 64 * e)).take 64) ((b.drop (0x700 + 256 * e)).take 256)
    copies := copies }

/-- A replay or a cancel for a FID, recorded in the bytes of a team's block (R182, R349). -/
def recordAction (b : List (BitVec 8)) (l : Launch) (fid : Nat) (cancel : Bool) : List (Nat × List (BitVec 8)) :=
  let h := l.lanes / 32
  ((List.range l.ngrp).filterMap fun n =>
    let o := 0x1000 + 0x2000 * (h * n)
    let w := fld b (o + 0x1544) 4
    if bit w 0 && fld b (o + 0x1540) 4 == fid then some (o + 0x1544, leBytes 4 (w ||| (if cancel then 128 else 64))) else none) ++
  ((List.range 16).filterMap fun e =>
    let o := 0x300 + 64 * e
    let w := fld b (o + 0x34) 4
    if fld b (o + 2) 1 == 1 && fld b (o + 0x30) 4 == fid then some (o + 0x34, leBytes 4 (w ||| (if cancel then 2 else 1))) else none)

/-! ### A mill's block (R190, R354) -/

/-- Every byte of a mill's block. -/
def State.millBlock (s : State) (u : MillIssuer) : List (BitVec 8) :=
  let m := u.m
  let fid := match m.st with | .park f => f | .save f => f | _ => 0
  let ids : List Nat := List.range 8 ++ [0x10, 0x11, 0x12, 0x13] ++ (List.range 7).map fun i => 0x20 + i
  lay [(0x0000, leBytes 4 1), (0x0004, leBytes 4 m.tid), (0x0008, leBytes 1 m.id.tower), (0x0009, leBytes 1 m.m),
    (0x000A, leBytes 2 (b2n (fid != 0) + 2 * b2n m.inRow + 4 * b2n (m.rowCode == 0x24))), (0x0010, leBytes 8 m.pc.toNat),
    (0x0018, leBytes 4 m.rowprog.toNat), (0x001C, leBytes 4 fid), (0x0020, leBytes 8 (m.relock.foldl (fun x p => x ||| 2 ^ p) (s.millLocks m.id))),
    (0x0100, (List.range 32).flatMap fun i => leBytes 8 (m.gr (Fin.ofNat 32 i)).toNat),
    (0x0200, m.w.toList.flatMap fun x => (List.range 16).flatMap fun i => leBytes 4 (lane x i).toNat),
    (0x0600, (List.range 4).flatMap fun i => leBytes 2 (m.kr (Fin.ofNat 4 i)).toNat),
    (0x0640, (List.range 56).flatMap fun i => leBytes 8 (if ids.contains i then u.sysReg s i else 0)),
    (0x0800, m.buf.read 0 2048), (0x10000, m.loc.read 0 65536)] millBlockSize

/-- Bytes of a memory in canonical form. -/
def canonBytes (bs : List (BitVec 8)) : Mem := (bs.mapIdx fun i b => (i, b)).filter fun c => c.2 != memUnlisted

/-- Read a mill back (R189, R190): its fetch buffer is empty, its locks are taken again, and MTOWER, MINDEX, MSHEET and
MTIME are those of the new place. -/
def SavedMill.restore (x : SavedMill) (id : MillRef) (b : List (BitVec 8)) : Mill :=
  let f := fld b 0x0A 2
  let w (o : Nat) : W64 := BitVec.ofNat 64 (fld b o 8)
  let locks := fld b 0x20 8
  let parked := bit f 0 && !bit f 3 && !bit f 4
  let m : Mill :=
    { id := id, tid := x.tid, m := x.m, st := if parked then .park (fld b 0x1C 4) else .run
      pc := w 0x10
      g := Vector.ofFn fun i => w (0x100 + 8 * i.val)
      w := Vector.ofFn fun i => (List.range 16).map fun j => BitVec.ofNat 32 (fld b (0x200 + 64 * i.val + 4 * j) 4)
      k := Vector.ofFn fun i => BitVec.ofNat 16 (fld b (0x600 + 2 * i.val) 2)
      loc := canonBytes ((b.drop 0x10000).take 65536), buf := canonBytes ((b.drop 0x800).take 2048), bad := x.bad
      rowprog := BitVec.ofNat 32 (fld b 0x18 4), rowop := BitVec.ofNat 32 (fld b (0x640 + 8 * 0x21) 4)
      rowa := w (0x640 + 8 * 0x22), rowb := w (0x640 + 8 * 0x23), rowd := w (0x640 + 8 * 0x24), rowpc := w (0x640 + 8 * 0x26)
      rowBusy := [], rowOut := none, rowFault := none
      since := 0, relock := (List.range 64).filter fun p => bit locks p
      fetchBuf := [], wait := none, stall := MemStall.none, faultVa := x.faultVa, block := x.block }
  if m.rowCode = 0x24 then { m with rowOut := some (m.rowd.toNat, 4 * popcount 32 m.rowb.toNat) } else m

end Sys2Proof.Machine
end

