-- ==== Sys2Proof/Machine/System.lean ====
section
/-! DEFINITION. The SYS words (R344 to R352): system registers, topo, time and counters, the acknowledgement of faults
(R129, R349), the removal of translations (R124, R125, R350), and the debug marker (R351). -/

namespace Sys2Proof.Machine

/-! ### System registers (R345) -/

/-- The value of a system register that rdsys reads. -/
def Issuer.sysReg (u : Issuer) (s : State) (id : Nat) : Nat :=
  let l := u.k.launch
  let t := u.t.team
  let lead := u.g.id.grp < l.nlead
  match id with
  | 0x00 => t % l.gx
  | 0x01 => t / l.gx % l.gy
  | 0x02 => t / (l.gx * l.gy)
  | 0x03 => l.gx
  | 0x04 => l.gy
  | 0x05 => l.gz
  | 0x06 => u.g.id.grp
  | 0x07 => l.ngrp
  | 0x08 => if lead then 0 else 1
  | 0x09 => if lead then u.g.id.grp else u.g.id.grp - l.nlead
  | 0x0A => l.argp.toNat
  | 0x0B => u.t.spbase
  | 0x0C => l.spSize
  | 0x0D => u.t.cwbase
  | 0x0E => u.k.tid
  | 0x10 => u.g.flags.toNat
  | 0x11 => u.g.msdepth
  | 0x12 => u.g.trap.trcode
  | 0x13 => u.g.trap.pc.toNat
  | 0x14 => u.g.trap.next.toNat
  | 0x15 => u.g.trap.va.toNat
  | 0x16 => u.g.trap.lanes.toNat
  | 0x17 => u.g.trap.exm.toNat
  | 0x20 => u.t.core.core
  | 0x21 => u.t.core.cluster
  | 0x22 => u.die
  | 0x23 => u.sheet
  | 0x24 => 0x00F10000
  | 0x25 => s.reg offFQBASE
  | 0x26 => s.reg offELBASE
  | 0x40 => u.k.asid
  | 0x41 => s.pkgNum
  | _ => 0
/-- A system register that only privileged level reads (R344). -/
def sysPriv (id : Nat) : Bool := decide (0x40 ≤ id)
/-- Write the RW fields of a system register (R163, R177, R345). -/
def Group.wrsys (g : Group) (id : Nat) (x : W64) : Group :=
  match id with
  | 0x10 => { g with flags := Flags.ofNat x.toNat }
  | 0x12 => { g with trap := { g.trap with active := x.getLsbD 31 } }
  | 0x17 => { g with trap := { g.trap with exm := x } }
  | _ => g

/-- rdsys (R344, R345). -/
def execRdsys (d : Dst) (id : BitVec 12) (s : State) : Out :=
  runWordTo d (okRdsys d id) 0 1 (fun u s =>
    if sysPriv id.toNat && !u.priv then .fault cPRIV 0 0
    else .done (u.g.setS d (BitVec.ofNat 64 (u.sysReg s id.toNat))) s) s
/-- wrsys (R344, R345): the registers with an RW field may be written at user level. -/
def execWrsys (a : Src) (id : BitVec 12) (s : State) : Out :=
  runWord (okWrsys a id) 0 (1 + a.nlit) (fun u s => .done (u.g.wrsys id.toNat (u.g.scalar a)) s) s

/-- The value of a topo selector (R14). -/
def Issuer.topoVal (u : Issuer) (s : State) (sel : Nat) : Nat :=
  match sel with
  | 0 => if s.boot.gradeA then 0x0A else 0x0B
  | 1 => if s.boot.gradeA then 22 else 21
  | 2 => 16
  | 3 => 72
  | 4 => 4
  | 5 => 72
  | 6 => 8
  | 7 => (dieXY u.die).1 + (dieXY u.die).2 * 2 ^ 8
  | _ => u.sheet
/-- topo (R346). -/
def execTopo (d : Dst) (c : Code) (s : State) : Out :=
  runWordTo d (okTopo d c) 0 1 (fun u s => .done (u.g.setS d (BitVec.ofNat 64 (u.topoVal s c.val))) s) s

/-- tnow (R347, R352): the counter of the core's sheet, or of another sheet, sampled at its farrier's tower; that request is
timed (R34). -/
def execTnow (d : Dst) (c : Code) (s : State) : Out :=
  runWordTo d (okTnow d c) 0 1 (fun u s =>
    if c.val = 0 then .done (u.g.setS d (BitVec.ofNat 64 (s.sheetNow u.sheet))) s
    else
      let sheet := c.val - 0x10
      match u.g.stall.result, u.g.stall.faults with
      | some (x :: _), _ => .done (u.g.setS d (BitVec.ofNat 64 x)) s
      | _, f :: _ => .fault f.code 0 0
      | _, [] =>
        if u.g.stall.sent then .wait u.g s
        else .wait { u.g with wait := some .tnow, stall := { u.g.stall with sent := true } }
          (s.request .req (.die u.die) (.tower (farrierTower sheet)) (.tnow u.g.id sheet))) s

/-- The value of a counter of pmrd (R348). -/
def Issuer.counter (u : Issuer) (s : State) (c : Nat) : Nat :=
  let k := s.core u.t.core
  match c with
  | 0 => s.boot.clocks.getD u.sheet 0
  | 1 => u.g.clauseStarts
  | 2 => u.g.wordsIssued
  | 3 => k.macs
  | 4 => k.copies
  | 5 => k.l1miss
  | 6 => k.residue
  | _ => u.g.dbgmks
/-- pmrd (R348). -/
def execPmrd (d : Dst) (c : Code) (s : State) : Out :=
  runWordTo d (okDM d c) 0 1 (fun u s => .done (u.g.setS d (BitVec.ofNat 64 (u.counter s c.val))) s) s

/-! ### fltack (R129, R349) -/

/-- A copy of a group that is parked under a FID. -/
def State.copyParked (s : State) (g : GroupRef) (fid : Nat) : Bool :=
  s.cores.any fun k => k.cq.any fun c => c.g == g && c.state == .parked fid
/-- A group parked under a FID takes the action: it is ready again, or is delivered TRANSL, unless it stands parked
for a copy, whose error it meets at its clause header (R129, R170). -/
def State.ackGroup (s : State) (fid : Nat) (cancel : Bool) (g : Group) : State :=
  if g.stat ≠ .parked fid then s
  else
    let mine := !s.copyParked g.id fid
    let g := { g with stat := .ready }
    let s := s.setGroup g
    match s.team? g.id.tid g.id.team, s.task? g.id.tid with
    | some t, some k => if cancel && mine then s.takeFault ⟨g, t, k⟩ cTRANSL g.faultVa g.faultLanes else s
    | _, _ => s
/-- A parked copy takes it: ACTIVE, or ERR with TRANSL (R170). -/
def Copy.ack (c : Copy) (fid : Nat) (cancel : Bool) : Copy :=
  if c.state = .parked fid then
    (if cancel then { c with state := .err, code := cTRANSL, cancelRec := true } else { c with state := .active })
  else c
/-- Every copy of every core, and the status words they show. -/
def State.ackCopies (s : State) (fid : Nat) (cancel : Bool) : State :=
  let hit := (s.cores.flatMap fun k => k.cq).filter fun c => c.state == .parked fid
  let s := { s with cores := s.cores.map fun k => { k with cq := k.cq.map fun c => c.ack fid cancel } }
  hit.foldl (fun s c =>
    match s.group? c.g with
    | some g => s.setGroup (g.setStatus (c.ack fid cancel))
    | none => s) s
/-- A parked mill takes it: it runs again, or traps (R189); one that is being saved goes on being saved, parked no more (R190,
R349). -/
def State.ackMill (s : State) (fid : Nat) (cancel : Bool) (m : Mill) : State :=
  if m.st ≠ .park fid ∧ m.st ≠ .save fid then s
  else match s.task? m.tid with
  | none => s
  | some k =>
    let m := { m with st := if m.st = .save fid then .save 0 else .run }
    if cancel then s.millTrap ⟨m, k⟩ cTRANSL (if m.rowNames m.faultVa.toNat then m.rowpc else m.pc)
    else s.setMill m

/-- Write some fields of a block; a fault ends the task (R93). -/
def State.recordIn (s : State) (home : HomeOf) (x : Site) (tid unit asid : Nat) (b : BlockLoc) (ws : List (Nat × List (BitVec 8))) : Own Unit :=
  ws.foldl (fun r w =>
    match r with
    | .ok _ s =>
      match s.blockWrite home asid b w.1 w.2 with
      | .bad c s => .ok () (s.taskFault (siteSheet x) (siteField x) tid c unit)
      | r => r
    | r => r) (.ok () s)
/-- The agents saved parked under a FID: the action is recorded in their blocks (R182, R190, R349). -/
def State.ackSaved (s : State) (die fid : Nat) (cancel : Bool) : Own Unit :=
  let teams := (s.sched.saved.filter fun x => x.fids.contains fid).foldl (fun (r : Own Unit) x =>
    match r with
    | .ok _ s =>
      (match s.task? x.tid with
      | none => .ok () s
      | some k =>
        match s.blockRead (s.dieHomeOf die) k.asid x.block 0 k.launch.blockSize with
        | .ok b s => s.recordIn (s.dieHomeOf die) (.die die) k.tid x.team k.asid x.block (recordAction b k.launch fid cancel)
        | .bad c s => .ok () (s.taskFault (dieSheet die) die k.tid c x.team)
        | .busy => .busy)
    | r => r) (.ok () s)
  let mills := (s.sched.savedMills.filter fun x => x.fid == fid).foldl (fun (r : Own Unit) x =>
    match r with
    | .ok _ s =>
      (match s.task? x.tid with
      | none => .ok () s
      | some k =>
        match s.blockRead (s.towerHomeOf x.tower) k.asid x.block 0x0A 2 with
        | .ok b s =>
          s.recordIn (s.towerHomeOf x.tower) (.tower x.tower) k.tid x.m k.asid x.block [(0x0A, leBytes 2 (leNat b ||| (if cancel then 16 else 8)))]
        | .bad c s => .ok () (s.taskFault (towerSheet x.tower) (towerSite x.tower) k.tid c x.m)
        | .busy => .busy)
    | r => r) teams
  match mills with
  | .ok _ s => .ok () { s with sched := { s.sched with
      saved := s.sched.saved.map fun x => { x with fids := x.fids.filter fun f => f != fid }
      savedMills := s.sched.savedMills.map fun x => if x.fid = fid then { x with fid := 0 } else x } }
  | r => r

/-- fltack (R344, R349): the action of every agent parked under the FID. A FID that none holds is ignored. -/
def execFltack (a : Src) (c : Code) (s : State) : Out :=
  runWord (okFltack a c) 0 (1 + a.nlit) (fun u s =>
    let fid := (u.g.scalar a).toNat % 2 ^ 32
    let cancel := c.val == 1
    if fid = 0 then .fault cILLOPND 0 0
    else if u.priv = false then .fault cPRIV 0 0
    else match s.ackSaved u.die fid cancel with
    | .ok _ s =>
      let s := s.groups.foldl (fun s g => s.ackGroup fid cancel g) s
      let s := s.ackCopies fid cancel
      .done u.g (s.mills.foldl (fun s m => s.ackMill fid cancel m) s)
    | _ => .wait { u.g with wait := some .whole } s) s

/-! ### xlinv (R124, R125, R350) -/

/-- The line a message is about. -/
def Body.line? : Body → Option LineId
  | .getS a _ _ => some a | .getX a _ _ => some a | .upgr a _ _ => some a | .inv a _ _ => some a
  | .fwdS a _ _ => some a | .fwdX a _ _ => some a | .recall a _ _ => some a | .data a _ _ _ _ _ => some a
  | .dataX a _ _ _ _ _ _ _ => some a | .refuse a _ _ _ _ => some a | .invAck a _ _ _ _ => some a
  | .wbDirty a _ _ _ _ _ => some a 
  | _ => none
/-- The VAs an access performed whole at a home names. -/
def Body.opLines : Body → List LineId
  | .homeAtomic _ asid _ ops => ops.map fun o => ⟨asid, o.addr / 256⟩
  | .nearRed _ asid _ ops => ops.map fun o => ⟨asid, o.addr / 256⟩
  | .millAcc _ asid _ va _ => [⟨asid, va / 256⟩]
  | _ => []

/-- Write a die's dirty nibbles of a line home at once, translated there by its VA; a write-back without a home or a
translation is lost (R121, R125). -/
def State.homeNow (s : State) (die : Nat) (a : LineId) (last : Nat) (val mask : BitVec 2048) (owner : WbOwner) : State :=
  if mask = 0 then s
  else
    match s.wbHome (.l2 die) a last with
    | none => s.loseWriteback last a (.l2 die) owner
    | some h =>
      match s.translateNow h a.asid (a.line * 256) .writeback true with
      | (.error _, s) => s.loseWriteback h a (.l2 die) owner
      | (.ok v, s) => if v.dk then s.mapMem fun x => x.placeWrite v.place val mask else s.homeWrite v.place val mask

/-- Remove one line, named by VA, from every level, writing its dirty nibbles home: registered ones first, those of
copies in W after them (R414). -/
def State.evictEverywhere (s : State) (a : LineId) (owner : WbOwner) : State :=
  let last := match s.mem.lines.find? fun l => l.a == a && nodeDepth l.node ≤ 3 with | some l => l.attr.home | none => 0
  let got := (List.range 72).foldl (fun (r : List (Nat × BitVec 2048 × BitVec 2048 × BitVec 2048) × State) d =>
    let g := r.2.gatherDie d a
    (if g.2.1 = 0 then r.1 else r.1 ++ [(d, g.1, g.2.1, g.2.2.1)], g.2.2.2)) ([], s)
  let s := got.2.mapMem fun x =>
    let lines := x.lines.filter fun l => !(l.a == a && (match l.node with | .slice _ => true | _ => false))
    let lines := lines.map fun l => match l.node with
      | .home _ => { l with kids := l.kids.filter fun k => k.a != a }
      | _ => l
    { x with lines := lines.filter fun l => match l.node with | .home _ => !l.kids.isEmpty | _ => true }
  let order := (got.1.map fun g => (g.1, g.2.1, g.2.2.1 &&& ~~~g.2.2.2)) ++ got.1.map fun g => (g.1, g.2.1, g.2.2.2)
  order.foldl (fun s g => s.homeNow g.1 a last g.2.1 g.2.2 owner) s

/-- A line lies in some pages of an ASID. -/
def lineIn (asid lo hi : Nat) (a : LineId) : Bool := a.asid == asid && decide (lo ≤ a.line / 256) && decide (a.line / 256 ≤ hi)

/-- xlinv (R125, R344, R350): TLB entries that meet the range go at once; when nothing is in flight for its lines, every copy
is written back and dropped, and the instruction lines with them. -/
def execXlinv (a b c : Src) (s : State) : Out :=
  runWord (okXlinv a b c) 0 (1 + a.nlit + b.nlit + c.nlit) (fun u s =>
    let start := (u.g.scalar a).toNat
    let len := (u.g.scalar b).toNat
    let asid := (u.g.scalar c).toNat % 2 ^ 16
    if u.priv = false then .fault cPRIV 0 0
    else if len = 0 then .done u.g s
    else if canonical start = false ∨ (if start < 2 ^ 56 then 2 ^ 56 else 2 ^ 64) < start + len then
      .fault cSPACE (rangeEdge (u.g.scalar a)) 0
    else
      let lo := start / 65536
      let hi := (start + len - 1) / 65536
      let p0 := lo % 2 ^ 41
      let p1 := hi % 2 ^ 41
      let s := s.mapMem fun x => { x with
        tlb := x.tlb.filter fun t => !(t.asid == asid && decide (t.page ≤ p1) && decide (p0 < t.page + t.pages)) }
      let mine := lineIn asid lo hi
      let busy := (s.mem.net.any fun m => (match m.body.line? with | some l => mine l | none => false) || m.body.opLines.any mine) ||
        (s.mem.txns.any fun t => mine t.a) || (s.groups.any fun g => !g.stall.pinned.isEmpty) ||
        (s.mem.promos.any fun p => p.asid == asid && decide (p.va / 65536 ≤ p1) && decide (p0 < p.va / 65536 + 32)) ||
        (s.mem.lines.any fun l => mine l.a && nodeDepth l.node != 4 && l.dirty != 0 && l.attr.tier == 0 && s.bankHeld l.attr.home l.attr.pa)
      if busy then .wait { u.g with wait := some .whole } s
      else
        let names := ((s.mem.lines.filter fun l => mine l.a && nodeDepth l.node != 4).map fun l => l.a).eraseDups
        let s := names.foldl (fun s a => s.evictEverywhere a (.group u.g.id)) s
        .done u.g { s with cores := s.cores.map fun k => { k with icache := k.icache.filter fun l => !mine ⟨l.asid, l.line / 4⟩ } }) s

/-! ### dbgmk (R351) -/

/-- A freeze of the part is asked for (R205). -/
def State.askFreeze (s : State) : State := { s with boot := { s.boot with freezing := true } }

/-- dbgmk (R206, R351): counted; when it meets the armed marker, the part is frozen. -/
def execDbgmk (a : Src) (s : State) : Out :=
  runWord a.isUni 0 (1 + a.nlit) (fun u s =>
    .done { u.g with dbgmks := u.g.dbgmks + 1 }
      (if s.boot.granted = true ∧ s.boot.marker = some (u.g.scalar a) then s.askFreeze else s)) s

end Sys2Proof.Machine
end

