-- ==== Sys2Proof/Machine/Window.lean ====
section
/-! DEFINITION. What the management window reads (R19, R36, R52, R53, R126, R202, R205, R209): registers held as
values, and those that show other state. -/

namespace Sys2Proof.Machine

/-- BOOTST (R19). -/
def BootState.bootst (b : BootState) : Nat :=
  b2n b.ready * 2 ^ 31 + b2n b.fail * 2 ^ 30 + b.phase * 2 ^ 16 + b.sheetsUp * 2 ^ 12 + b.failCode
/-- Frames of a tower that are marked, and its lost-line table entries in use (R126). -/
def State.markedFrames (s : State) (tower : Nat) : Nat := (s.mem.marks.filter fun m => m.1 == tower).length
def State.lostLines (s : State) (tower : Nat) : Nat := (s.mem.lost.filter fun l => l.tower == tower).length
/-- A word of the promotion block of a tower (R126). -/
def State.promRead (s : State) (tower off : Nat) : Nat :=
  match off with
  | 0x1C => min 0xFFFF (s.markedFrames tower) * 2 ^ 16 + s.lostLines tower
  | 0x20 => s.markedFrames tower
  | o => s.reg (offProm tower + o)
/-- The attestation mailbox (R209). -/
def State.attRead (s : State) (off : Nat) : Nat :=
  if off = 0 then b2n s.boot.attDone * 2 ^ 31 + b2n s.boot.attBusy * 2 ^ 30
  else if off = 4 then Config.attestLen % 2 ^ 32
  else if 0x1000 ≤ off ∧ off < 0x4000 then leNat ((s.boot.attReport.drop (off - 0x1000)).take 8)
  else if 0x4000 ≤ off ∧ off < 0x4000 + Config.attestLen % 2 ^ 32 then leNat ((List.range 8).map fun i => Config.attestByte 0 (off + i))
  else s.reg (offATT + off)
/-- The offsets that hold a register of 64 bits (R44, R47, R52, R53, R117, R126, R130, R202, R209, R416). -/
def wideAt (off : Nat) : Bool :=
  let at' (base step count : Nat) (os : Nat → Bool) : Bool :=
    match blockIndex off base step count with | some _ => os ((off - base) % step) | none => false
  at' 0x00200000 0x40 256 (fun o => o == 0 || o == 0x18) || at' 0x00300000 0x10 1024 (fun o => o == 0) ||
  at' 0x00400000 0x30 1 (fun o => o == 0 || o == 0x08 || o == 0x20) || at' 0x00410000 0x100 72 (fun o => o == 0x08 || o == 0x10) ||
  at' 0x00700000 8 0x4000 (fun o => o == 0) || at' 0x00750000 0x100 1024 (fun o => decide (o ≤ 0x88) && o % 8 == 0) ||
  at' 0x00800000 0x20 1 (fun o => o == 0) || at' offATT 0x10000 1 (fun o => decide (0x100 ≤ o) && o % 8 == 0) ||
  at' 0x01000000 0x10000 72 (fun o => o % 8 == 0) || at' 0x01500000 0x10000 72 (fun o => o % 8 == 0)
/-- The register that begins at an offset of the window, whole; an offset in no block reads as zero (R52). -/
def State.regAt (s : State) (off : Nat) : Nat :=
  if off = 0 then s.boot.bootst
  else match blockIndex off 0x00410000 0x100 72 with
  | some j => s.promRead j (off % 0x100)
  | none =>
    match blockIndex off offATT 0x10000 1 with
    | some _ => s.attRead (off - offATT)
    | none =>
      if off = offFRZCTL then b2n s.frozen * 2 ^ 31
      else match blockIndex off 0x01500000 0x10000 72 with
      | some i => s.mem.dieSp.nat (i * 2 ^ 24 + 0xF00000 + off % 0x10000) 8
      | none =>
        match blockIndex off 0x01000000 0x10000 72 with
        | some j => s.mem.towerTab.nat (j * 2 ^ 16 + off % 0x10000) 8
        | none => s.reg off
/-- The 4-byte word of the window at an offset: a register of 32 bits, or half of one of 64 (R51, R52). -/
def State.word32 (s : State) (off : Nat) : Nat :=
  if off % 8 = 4 ∧ wideAt (off - 4) = true then s.regAt (off - 4) / 2 ^ 32 else s.regAt off % 2 ^ 32
/-- What a naturally aligned read of 4 or 8 bytes of the window returns (R51, R52). -/
def State.windowRead (s : State) (off size : Nat) : Nat :=
  if size = 8 ∧ wideAt off = false then s.word32 off + s.word32 (off + 4) * 2 ^ 32
  else if size = 8 then s.regAt off
  else s.word32 off

end Sys2Proof.Machine
end

