-- ==== Sys2Proof/Machine/Boot.lean ====
section
/-! DEFINITION. Reset and boot (R13, R16, R19 to R21, R30), clock stretching (R17), freeze, thaw and readout (R22 to
R24, R205, R206), the loss of a farrier (R207), and attestation (R208, R209). -/

namespace Sys2Proof.Machine

/-! ### Boot -/

/-- The frames of the lent regions (R43, R44). -/
def State.lentFrames (s : State) : List (Nat × Nat) :=
  s.mgmt.flatMap fun e => match blockIndex e.1 0x00750000 0x100 1024 with
    | some _ =>
      if e.1 % 0x100 = 0 ∧ bit e.2 63 = true then
        (List.range ((bits e.2 5 0 + 1) * 1024)).map fun i => (bits e.2 54 48, bits e.2 35 26 * 1024 + i)
      else []
    | none => []
/-- A part reset (R20, R48, R59): every register and every cache restarts; DRAM, the memories outside the part and the
watermarks stay, and boot begins at phase 0x01. What lies in lent regions is lost: their frames are marked (R48, R132; log entry 9). -/
def State.partReset (s : State) : State :=
  let lent := s.lentFrames
  { State.reset with
    mem := { MemState.reset with
      dram := s.mem.dram, host := s.mem.host, pool := s.mem.pool
      marks := s.mem.marks ++ lent.filter fun f => !s.mem.marks.contains f }
    link := { LinkState.reset with wms := s.link.wms, lenders := s.link.lenders }
    boot := { BootState.reset with phase := 1, gradeA := s.boot.gradeA, minVersion := s.boot.minVersion }
    out := s.out, agenda := s.agenda, fresh := s.fresh }
/-- PART_RESET (R20). -/
def execPartReset (s : State) : Out := .next s.partReset

/-- The limit of a boot phase, in ns (R20). -/
def phaseLimit : Nat → Nat
  | 1 => 200000000 | 2 => 1000000 | 3 => 50000000 | 4 => 2000000000 | 5 => 500000000 | 6 => 10000000 | 7 => 1000000000
  | _ => 1000000
/-- Boot stops (R19, R204). -/
def State.bootFail (s : State) (code : Nat) : State := { s with boot := { s.boot with fail := true, failCode := code } }

/-- The physical cluster positions that are good on every die, and the exposed ones: the lowest of them, as many as the
grade has (R13). -/
def goodPositions (gs : List Nat) : List Nat := (List.range 24).filter fun p => gs.all fun g => bit g p
/-- Counters at their release differ by at most 2 µs (R16). -/
def closeOffsets (os : List Nat) : Bool := os.all fun a => os.all fun b => decide (a ≤ b + 2000)

/-- Every die and every tower. -/
def allSites : List Site := (List.range 72).flatMap fun i => [.die i, .tower i]
/-- The watermark of a site advances (R31). -/
def State.advanceWm (s : State) (x : Site) : State := s.setWm x ((s.wm x + 1) % 2 ^ 16)
/-- A site's watermark advances, and the farrier of its sheet sends a notice to every die and tower (R31, R207). -/
def State.notifyReset (s : State) (x : Site) : State :=
  let s := s.advanceWm x
  allSites.foldl (fun s y => s.send .ctl (.tower (farrierTower (siteSheet x))) y (.watermark x (s.wm x))) s

/-- The banded-latency table (R30): HOPMIN, HOPMAX, and XMIN and XMAX of the eight crossings. -/
def lbtabBytes (v : List Nat) : List (BitVec 8) :=
  let edges : List (Nat × Nat) := [(0, 1), (1, 0), (0, 2), (2, 0), (1, 3), (3, 1), (2, 3), (3, 2)]
  leBytes 4 1 ++ leBytes 4 8 ++ leBytes 2 (v.getD 0 0) ++ leBytes 2 (v.getD 1 0) ++ leBytes 4 0 ++
    (edges.mapIdx fun i e => leBytes 1 e.1 ++ leBytes 1 e.2 ++ leBytes 2 0 ++ leBytes 2 (v.getD (2 + 2 * i) 0) ++
      leBytes 2 (v.getD (3 + 2 * i) 0)).flatten
/-- The measured values lie inside the bands of R29 and narrow them: no minimum is above its maximum (R30). -/
def bandsOk (v : List Nat) : Bool :=
  v.length == 18 && ((v.take 2).all fun x => decide (5 ≤ x) && decide (x ≤ 7)) &&
    ((v.drop 2).all fun x => decide (22 ≤ x) && decide (x ≤ 30)) &&
    ((List.range 9).all fun i => decide (v.getD (2 * i) 0 ≤ v.getD (2 * i + 1) 0))

/-- What a report shows of a phase: that it has passed, that it failed, with its FAILCODE, or that it goes on (R16, R20, R29, R204,
R208). -/
inductive PhaseEnd | passed | failed (code : Nat) | goesOn
  deriving DecidableEq, Repr
def State.phaseEnd (s : State) (r : BootReport) : PhaseEnd :=
  match s.boot.phase with
  | 1 =>
    if r.firmware.length ≠ 4 then .goesOn
    else if (r.firmware.all fun f => f.1) = false then .failed 1
    else if (r.firmware.all fun f => decide (s.boot.minVersion ≤ f.2.1)) = false then .failed 2
    else .passed
  | 2 =>
    if r.sheets % 16 = 15 ∧ closeOffsets ((List.range 4).map fun i => r.offsets.getD i 0) = true then .passed else .goesOn
  | 3 => if r.trained then .passed else .failed 4
  | 4 => if r.towersGood then .passed else .failed 5
  | 5 => if (goodPositions r.goodClusters).length < s.boot.clusters then .failed 6 else .passed
  | 8 => if bandsOk r.lbtab then .passed else .goesOn
  | _ => .passed

/-- What a phase that has passed leaves (R13, R16, R20, R21, R30, R31). -/
def State.phaseDone (s : State) (p : Nat) (r : BootReport) : State :=
  match p with
  | 1 => { s with boot := { s.boot with
      cxl := (List.range 4).map fun i => r.cxlPorts.getD i false
      versions := r.firmware.map fun f => f.2.1, digests := r.firmware.map fun f => f.2.2 } }
  | 2 => { s with boot := { s.boot with started := true, sheetsUp := 15, time := Vector.ofFn fun i => r.offsets.getD i.val 0 } }
  | 5 =>
    let good := goodPositions r.goodClusters
    { s with boot := { s.boot with exposed := (good.take s.boot.clusters).foldl (fun x p => x + 2 ^ p) 0 } }
  | 6 =>
    let s := s.mapMem fun x => { MemState.reset with dram := x.dram, host := x.host, pool := x.pool, nextTag := x.nextTag, marks := x.marks }
    allSites.foldl State.notifyReset s
  | 7 =>
    let down := (List.range 64).filter fun f => !r.fibresUp.contains f
    let s := { s with link := { s.link with fibres := (List.range 64).map fun f => ⟨f, r.fibresUp.contains f, if r.fibresUp.contains f then 16 else 0, 0, []⟩ } }
    down.foldl (fun s f => s.logTower 0x09 (portTower (f / 4)) noTask f 0 0) s
  | 8 =>
    let b := lbtabBytes r.lbtab
    let s := s.mapMem fun x => { x with dieSp := (List.range 72).foldl (fun m i => m.write (i * 2 ^ 24 + 0xF10000) b) x.dieSp }
    { s with boot := { s.boot with ready := true } }
  | _ => s

/-- BOOT_PHASE (R19, R20, R204): a report of the current phase. When every sheet has ended it, within its limit on the boot timer, the next
one begins, or the part is ready; a failure in any sheet, and an overrun, stop boot. Before the first phase, boot begins. -/
def execBootPhase (r : BootReport) (s : State) : Out :=
  let b := s.boot
  if b.ready || b.fail || s.frozen then s.stays
  else if b.phase = 0 then .next { s with boot := { b with phase := 1, timer := 0 } }
  else if phaseLimit b.phase < b.timer then .next (s.bootFail 3)
  else match s.phaseEnd r with
  | .failed c => .next (s.bootFail c)
  | .goesOn => .next (if b.phase = 2 then { s with boot := { b with sheetsUp := r.sheets % 16 } } else s)
  | .passed =>
    let s := s.phaseDone b.phase r
    .next (if 8 ≤ b.phase then s else { s with boot := { s.boot with phase := b.phase + 1, timer := 0 } })

/-- BOOT_PHASE_LIMIT_EXPIRY (R20): a phase overruns its limit on the boot timer. -/
def execBootPhaseLimitExpiry (s : State) : Out :=
  if s.boot.ready || s.boot.fail || s.frozen || s.boot.phase == 0 || decide (s.boot.timer ≤ phaseLimit s.boot.phase) then s.stays
  else .next (s.bootFail 3)

/-- CLOCK_STRETCH_CHANGE (R17): not while the sheet is stopped. -/
def execClockStretchChange (sheet : Fin 4) (n : Nat) (s : State) : Out :=
  if 128 < n ∨ s.sheetRuns sheet.val = false then s.stays
  else .next { s with boot := { s.boot with stretch := s.boot.stretch.set sheet n } }

/-! ### Freeze (R22 to R24, R205, R206) -/

/-- FREEZE_REQUEST (R205): the host writes REQ, or the farrier asks under FRZLAST. -/
def execFreezeRequest (s : State) : Out := .next (if s.frozen then s else s.askFreeze)
/-- DEBUG_FREEZE_REQUEST (R205): a debug agent asks through the 1687 network. -/
def execDebugFreezeRequest (s : State) : Out := .next (if s.frozen then s else s.askFreeze)
/-- SHEET_FREEZE (R22): a freeze request reaches a sheet, which stops its main clock and its counter. -/
def execSheetFreeze (sheet : Fin 4) (s : State) : Out :=
  if s.boot.freezing = false ∨ s.sheetRuns sheet.val = false then s.stays
  else
    let s := { s with boot := { s.boot with stopped := s.boot.stopped.set sheet true } }
    .next (if s.frozen then { s with boot := { s.boot with freezing := false } } else s)
/-- THAW (R23, R205): every sheet goes on from where it stopped, and what was held meanwhile comes first. -/
def execThaw (s : State) : Out :=
  .next (if s.frozen then
    { s with boot := { s.boot with stopped := Vector.replicate 4 false }, agenda := s.held.map .event ++ s.agenda, held := [] }
  else s)
/-- FRZCTL_RESET (R23, R205): writing RST while frozen resets the part. -/
def execFrzctlReset (s : State) : Out := .next (if s.frozen then s.partReset else s)

/-- The number that stands for a line state in what a debug agent reads. -/
def LState.number : LState → Nat | .m => 5 | .o => 4 | .e => 3 | .s => 2 | .w => 1
/-- A line's own state and the recorded states of its children, three bits each, the line's own lowest. -/
def Line.stateNumber (e : Line) : Nat := ((e.kids.map fun k => k.st).reverse.foldl (fun n x => n * 8 + x.number) 0) * 8 + e.st.number

/-- What a debug agent reads; the error log and the window without a grant, the rest only under one (R206). -/
def State.readout (s : State) : ReadTarget → Option Nat
  | .errorLog i => some (leNat (s.physRead (bits (s.reg offELBASE) 46 40) (bits (s.reg offELBASE) 35 5 * 32 + 32 * i) 32))
  | .register off size => some (s.windowRead off size)
  | .scalar g n => if s.boot.granted then (s.group? g).map fun x => x.s[n].toNat else none
  | .vector g n i => if s.boot.granted then (s.group? g).map fun x => (lane x.v[n] i).toNat else none
  | .queue g n i => if s.boot.granted then (s.group? g).map fun x => (lane x.q[n] i).toNat else none
  | .mask g n => if s.boot.granted then (s.group? g).map fun x => x.m[n].toNat else none
  | .line n a l => if s.boot.granted then (s.mem.line? n ⟨a, l⟩).map fun e => e.val.toNat else none
  | .directory n a l => if s.boot.granted then (s.mem.line? n ⟨a, l⟩).map fun e => e.stateNumber else none
  | .dram t pa => if s.boot.granted then some (s.mem.dram.line (t * towerSpan + pa / 256 * 256)).toNat else none
  | .exm g => if s.boot.granted then (s.group? g).map fun x => x.exm.toNat else none
  | .maskStack g n => if s.boot.granted then (s.group? g).map fun x => x.mstack[n].toNat else none
  | .tile tid team t i => if s.boot.granted then (s.team? tid team).map fun x => ((x.tiles.getD t []).getD i 0).toNat else none
  | .millScalar m n => if s.boot.granted then (s.mill? m).map fun x => x.g[n].toNat else none
  | .millVector m n i => if s.boot.granted then (s.mill? m).map fun x => (lane x.w[n] i).toNat else none
  | .millMask m n => if s.boot.granted then (s.mill? m).map fun x => x.k[n].toNat else none
  | .text c a l => if s.boot.granted then ((s.core c).icache.find? fun x => x.asid == a && x.line == l).map fun x => x.val.toNat else none
  | .towerCache t l => if s.boot.granted then (s.mem.tcache.find? fun x => x.tower == t && x.line == l).map fun x => x.val.toNat else none
/-- READOUT_1687 (R23, R206): alters no state of the part. -/
def execReadout1687 (what : ReadTarget) (s : State) : Out :=
  match s.readout what with
  | some x => .next { s with out := s.out ++ [.readout x] }
  | none => .next s
/-- DEBUG_GRANT (R206, R351): the primary farrier accepts a grant whose signature checks. -/
def execDebugGrant (valid : Bool) (marker : Option (BitVec 64)) (s : State) : Out :=
  .next (if valid then { s with boot := { s.boot with granted := true, marker := marker } } else s)

/-- FARRIER_LOST (R204, R207): after boot the other farriers freeze the part and log the fault; during boot, boot
stops. -/
def execFarrierLost (sheet : Fin 4) (s : State) : Out :=
  if s.boot.ready then
    .next ((s.logAdd 0x07 (if sheet.val = 0 then 1 else 0) (towerSite (farrierTower sheet.val)) noTask 0 0 0).askFreeze)
  else .next (if s.boot.fail then s else s.bootFail 7)

/-! ### Attestation (R208, R209) -/

/-- ATTESTATION_GO (R209): ignored while a report is in progress. -/
def execAttestationGo (v : BitVec 32) (s : State) : Out :=
  if v.getLsbD 0 = false ∨ s.boot.attBusy = true then .next s
  else .next { s with boot := { s.boot with
    attBusy := true, attDone := false, attNonce := (List.range 8).flatMap fun i => leBytes 8 (s.reg (offATT + 0x100 + 8 * i)) } }
/-- The bytes of a report (R209); the signature is not the model's to know (log entry 16). -/
def State.attReportBytes (s : State) : List (BitVec 8) :=
  let digest (i : Nat) : List (BitVec 8) := (List.range 64).map fun j => (s.boot.digests.getD i []).getD j 0
  lay [(0, leBytes 4 1), (4, leBytes 1 (if s.boot.gradeA then 0x0A else 0x0B)), (6, leBytes 2 s.pkgNum), (8, leBytes 4 s.boot.minVersion),
    (0xC, (List.range 4).flatMap fun i => leBytes 4 (s.boot.versions.getD i 0)),
    (0x40, s.boot.attNonce), (0x80, (List.range 4).flatMap digest),
    (0x200, (List.range 4627).map fun i => Config.attestByte (2 + s.fresh) (0x200 + i))] (0x200 + 4627)
/-- ATTESTATION_DONE (R209): a freeze holds it until thaw. -/
def execAttestationDone (s : State) : Out :=
  if s.boot.attBusy = false ∨ s.sheetRuns 0 = false then s.stays
  else .next { s with boot := { s.boot with attBusy := false, attDone := true, attReport := s.attReportBytes } }

end Sys2Proof.Machine
end

