-- ==== Sys2Proof/Machine/Links.lean ====
section
/-! DEFINITION. Panel links and routers (R25, R26, R199, R201), fibres and packets between packages (R38 to R42), and
the link registers (R36, R52). -/

namespace Sys2Proof.Machine

/-! ### Panel links (R199, R201) -/

/-- LINK_FLIT_CRC_FAIL (R198, R199, R201): the receiver asks for a flit again. The third correction within 1 s on the
die's sheet counter is a lasting error, after which the link retrains, as after eight replays of one flit. Every record about a
link bears the die as SITE and the tower's index in ADDR (DESIGN CHOICE, log entries 64 and 135). -/
def execLinkFlitCrcFail (l : LinkId) (s : State) : Out :=
  if linkInPanel l = false then .fault .noSuchUnit
  else s.happens <| match s.linkSt l with
  | .up n =>
    let (lasting, s) := s.correct (.link l) (.die l.die) noTask l.tower
    some (s.setLinkSt l (.up (if lasting then 8 else min 8 (n + 1))))
  | _ => none
/-- LINK_RETRAIN (R199): a link on which one flit was replayed eight times retrains; traffic waits. -/
def execLinkRetrain (l : LinkId) (s : State) : Out :=
  if linkInPanel l = false then .fault .noSuchUnit
  else if s.linkSt l = .up 8 then .next ((s.setLinkSt l .retraining).logDie 0x08 l.die noTask l.tower 0 0)
  else s.stays
/-- LINK_RETRAIN_COMPLETE (R199): the link is up again. Its corrections before still count towards the three of R201 (DEDUCED, log
entry 125). -/
def execLinkRetrainComplete (l : LinkId) (s : State) : Out :=
  if linkInPanel l = false then .fault .noSuchUnit
  else if s.linkSt l = .retraining then .next (s.setLinkSt l (.up 0))
  else s.stays

/-! ### Routers (R25, R26, R28) -/

/-- ROUTER_FORWARD (R26, R34, R199): message `k` moves one hop along its fixed route, over a link that is up and not due to retrain; a
request is timed from the hop that leaves its sender. Messages of one class, source and destination keep their order (R28). A router
forwards while its site runs: that of a failed die, or of a stopped sheet, forwards nothing (DESIGN CHOICE, log entry 134). -/
def execRouterForward (k : Nat) (s : State) : Out :=
  match s.mem.net[k]? with
  | none => s.stays
  | some m =>
    if m.at' = m.dst then s.stays
    else
      let next := siteAt (nextHop (siteXY m.at') (siteXY m.dst))
      let ahead := (s.mem.net.take k).any fun e => e.cls == m.cls && e.src == m.src && e.dst == m.dst && e.at' == m.at'
      match linkBetween m.at' next with
      | none => s.stays
      | some l =>
        match s.linkSt l with
        | .up n =>
          if ahead || decide (8 ≤ n) || !s.siteRuns m.at' || !s.siteRuns next then s.stays
          else .next (s.mapMem fun x =>
            { (if m.at' = m.src then x.departed m (s.now m.src) else x) with net := x.net.set k { m with at' := next } })
        | _ => s.stays

/-! ### Fibres (R38, R39, R41) -/

/-- A record about a fibre: ADDR is the fibre's number, 4 times the port tower's and the fibre's at the tower, and AUX is 0 (DESIGN
CHOICE, log entry 136). -/
def State.logFibre (s : State) (f : Nat) : State := s.logTower 0x09 (portTower (f / 4)) noTask f 0 0

/-- The flits of a fibre that are sent. -/
def Fibre.sent (x : Fibre) : List Flit := x.flits.take flitWindow
/-- The receiver acknowledges flits up to a sequence number: they are kept no more, and those that waited behind them are sent (R39). -/
def State.flitAck (s : State) (f seq : Nat) : State :=
  match s.fibre? f with
  | some x =>
    let n := (x.sent.filter fun y => decide (y.seq ≤ seq)).length
    let y := { x with flits := x.flits.drop n }
    { s.setFibre y with out := s.out ++ (y.sent.drop (x.sent.length - n)).map fun z => .packet f z.seq z.pkt }
  | none => s
/-- One more replay of a flit, counted within 1 ms (R39). -/
def Flit.replayed (y : Flit) (now : Nat) : Flit :=
  if y.replays = 0 ∨ y.since + 1000000 < now then { y with replays := 1, since := now } else { y with replays := y.replays + 1 }
/-- OPTICAL_NAK (R39): the receiver misses a flit, or its CRC failed, and the sender replays from that flit onward; replays of the flit are
counted within 1 ms. -/
def execOpticalNak (f : FlitRef) (s : State) : Out :=
  let (f, seq) := (f.fibre, f.seq)
  if 64 ≤ f then .fault .noSuchUnit
  else match s.fibre? f with
  | some x =>
    if x.up = false ∨ (x.sent.any fun y => y.seq == seq) = false then s.stays
    else
      let now := s.now (.tower (portTower (f / 4)))
      let s := s.setFibre { x with flits := x.flits.map fun y => if y.seq = seq then y.replayed now else y }
      .next { s with out := s.out ++ (x.sent.filter fun y => decide (seq ≤ y.seq)).map fun y => .packet f y.seq y.pkt }
  | none => s.stays
/-- FIBRE_RETRAIN (R39): after 16 replays of one flit the fibre retrains; wavelengths that fail are taken out of service and
logged, and with fewer than four it goes down. -/
def execFibreRetrain (f good : Nat) (s : State) : Out :=
  if 64 ≤ f then .fault .noSuchUnit
  else s.happens <| match s.fibre? f with
  | some x =>
    if x.up = false ∨ (x.flits.any fun y => decide (16 ≤ y.replays)) = false ∨ x.waves < good then none
    else
      let s := (List.range (x.waves - good)).foldl (fun s _ => s.logFibre f) s
      let s := s.setFibre { x with waves := good, up := decide (4 ≤ good), flits := x.flits.map fun y => { y with replays := 0 } }
      some (if good < 4 then s.logFibre f else s)
  | none => none
/-- FIBRE_COMES_BACK (R41): a fibre that is down trains again on all its wavelengths. -/
def execFibreComesBack (f : Nat) (s : State) : Out :=
  if 64 ≤ f then .fault .noSuchUnit
  else match s.fibre? f with
  | some x => if x.up then s.stays else .next (s.setFibre { x with up := true, waves := 16 })
  | none => s.stays
/-- HASH_BUCKET_MOVE (R41): once every flit of the bucket on its old fibre has been acknowledged, it moves to another that its packets may
use. -/
def execHashBucketMove (b f : Nat) (s : State) : Out :=
  match s.link.buckets.find? fun x => x.1 == b with
  | some x =>
    if (s.fibresTo (b % 1024)).contains f = true ∧ s.bucketHeld b x.2 = false then
      .next { s with link := { s.link with buckets := (s.link.buckets.filter fun x => x.1 != b) ++ [(b, f)] } }
    else s.stays
  | none => s.stays

/-- A packet that is dropped is logged with its address in ADDR and its destination in AUX (R40, R42; DESIGN CHOICE, log entry 136). -/
def State.logDrop (s : State) (p : Nat) (pkt : Packet) : State := s.logTower 0x09 (portTower p) noTask pkt.addr pkt.dst 0
/-- OPTICAL_TRANSIT (R40, R42): a packet for another package is forwarded; it is dropped and logged on its fifth hop
between packages, or where no fibre leads to its destination. -/
def execOpticalTransit (p : Nat) (pkt : Packet) (s : State) : Out :=
  if 16 ≤ p then .fault .noSuchUnit
  else if pkt.dst = s.pkgNum ∨ s.siteRuns (.tower (portTower p)) = false then s.stays
  else
    let h := pkt.hops + 1
    if 5 ≤ h then .next (s.logDrop p pkt)
    else .next ((s.sendPacket { pkt with hops := h }).getD (s.logDrop p pkt))
/-- A packet that ends in this package: it is dropped and logged when it came on its fifth hop (R40). The model sees no port tower that it
came by, and logs it at port tower 0 (log entry 136). -/
def State.arrives (s : State) (cls : MClass) (pkg hops addr : Nat) (f : State → State) : State :=
  if 5 ≤ hops then s.logDrop 0 ⟨cls.number, pkg, s.pkgNum, addr, hops⟩ else f s

/-! ### Registers (R36, R42, R52) -/

/-- ROUTE_ENTRY_WRITE (R42). -/
def execRouteEntryWrite (p k : Nat) (v : BitVec 32) (s : State) : Out :=
  if 16 ≤ p ∨ 1024 ≤ k then .fault .noSuchUnit
  else .next (s.regWrite (offRoute p k) v.toNat 0x80000003)
/-- XTOCFG_WRITE (R36): a value outside 100 to 100,000 µs stores the nearer end. -/
def execXtocfgWrite (site : Site) (v : BitVec 32) (s : State) : Out :=
  if siteInPanel site = false then .fault .noSuchUnit
  else .next (s.setReg (offLink site) (min 100000 (max 100 (bits v.toNat 23 0))))
/-- PKGNUM_WRITE (R52): read-only once a queue has been enabled. -/
def execPkgnumWrite (v : BitVec 32) (s : State) : Out :=
  .next (if s.boot.pkgLocked then s else s.setReg offPKGNUM (bits v.toNat 9 0))

end Sys2Proof.Machine
end

