-- ==== Sys2Proof/Machine/Pool.lean ====
section
/-! DEFINITION. Loan regions and the pool (R43 to R48), the composition table and CXL.mem (R46, R47, R152), and the
aperture of BAR4 (R19, R51, R85, R152). -/

namespace Sys2Proof.Machine

/-! ### The loan table (R44) -/

/-- RW bits of LRBASE and of LRGRANT. -/
def maskLRBASE : Nat := 2 ^ 63 + 2 ^ 62 + ones 7 * 2 ^ 48 + ones 10 * 2 ^ 26 + ones 6
def maskLRGRANT : Nat := 2 ^ 63 + 2 ^ 62 + ones 10 * 2 ^ 40 + ones 2
/-- The tower and the bytes of a region: first and one past the last. -/
def loanRange (v : Nat) : Nat × Nat × Nat :=
  let lo := bits v 35 26 * 2 ^ 26
  (bits v 54 48, lo, lo + (bits v 5 0 + 1) * 2 ^ 26)
/-- Another lent region of this package meets it. -/
def State.loanOverlap (s : State) (r v : Nat) : Bool :=
  let a := loanRange v
  (List.range 1024).any fun q =>
    let w := s.reg (offLoan q)
    let b := loanRange w
    q != r && bit w 63 && a.1 == b.1 && decide (a.2.1 < b.2.2) && decide (b.2.1 < a.2.2)
/-- LRBASE_WRITE (R44). A write that would lend from a tower the panel does not have, 72 to 127, is ignored like one that passes the end of
the tower's DRAM (DESIGN CHOICE, log entry 130). -/
def execLrbaseWrite (r : Nat) (v : BitVec 64) (s : State) : Out :=
  if 1024 ≤ r then .fault .noSuchUnit
  else
    let old := s.reg (offLoan r)
    let new := v.toNat &&& maskLRBASE
    let x := loanRange new
    if bit old 63 then
      if new % 2 ^ 63 ≠ old % 2 ^ 63 then .next s
      else if bit new 63 = false ∧ ((List.range 16).any fun g => bit (s.reg (offLGrant r g)) 63) = true then .next s
      else .next (s.setReg (offLoan r) new)
    else if bit new 63 = true ∧ (72 ≤ x.1 ∨ dramTop < x.2.2 ∨ s.loanOverlap r new = true) then .next s
    else .next (s.setReg (offLoan r) new)
/-- LRGRANT_WRITE (R44): taking a grant back makes the region busy while its lines are recalled. -/
def execLrgrantWrite (r g : Nat) (v : BitVec 64) (s : State) : Out :=
  if 1024 ≤ r ∨ 16 ≤ g then .fault .noSuchUnit
  else
    let s' := s.setReg (offLGrant r g) (v.toNat &&& maskLRGRANT)
    .next (if bit (s.reg (offLGrant r g)) 63 = true ∧ v.getLsbD 63 = false then s'.setReg (offLRSTAT r) (2 ^ 63) else s')
/-- A line registered for a grantee that no longer holds a grant of its region (R44). -/
def State.lapsed (s : State) (r : Nat) (b : Borrow) : Bool :=
  let x := loanRange (s.reg (offLoan r))
  b.tower == x.1 && decide (x.2.1 ≤ b.line * 256) && decide (b.line * 256 < x.2.2) && !(match b.who with
    | .pkg k => s.granted r false k 0
    | .host k port => s.granted r true k port)
/-- GRANT_WITHDRAW_COMPLETE (R44): the home recalls every line of the region that is registered for the grantee, and those of this package's
own caches with them. -/
def execGrantWithdrawComplete (r : Nat) (s : State) : Out :=
  if 1024 ≤ r then .fault .noSuchUnit
  else if bit (s.reg (offLRSTAT r)) 63 = false then s.stays
  else
    let x := loanRange (s.reg (offLoan r))
    let mine := s.mem.lines.filter fun l => (match l.node with | .home _ => true | _ => false) &&
      l.attr.tier == 0 && l.attr.home == x.1 && decide (x.2.1 ≤ l.attr.pa) && decide (l.attr.pa < x.2.2)
    if mine.any fun l => !s.homeQuiet l.attr.place then s.stays
    else .next (((mine.foldl (fun s l => s.homeClear l.attr.place) s).callBack (s.lapsed r)).setReg (offLRSTAT r) 0)

/-! ### Accesses from outside to a place in this package's memory -/

/-- Bytes of an access. -/
def extSize : ExtAccess → Nat | .read n => n | .write bs => bs.length
/-- A reader of a coherent line of a lent region is registered as a child of its home (R108). -/
def MemState.borrow (x : MemState) (who : Grantee) (p : Place) : MemState :=
  let b : Borrow := ⟨who, p.tower, p.pa / 256⟩
  if x.borrowed.contains b then x else { x with borrowed := x.borrowed ++ [b] }
/-- What an access of a grantee to a place within one line answers: bytes for a read, and the state; `none` while it must wait. A writer is
told nothing of its own write. -/
def State.extLine (s : State) (who : Grantee) (p : Place) (dk : Bool) (off n : Nat) (w : Option (List (BitVec 8))) :
    Option (List (BitVec 8) × State) :=
  if p.tier = 0 ∧ s.bankHeld p.tower p.pa = true then none
  else match w with
  | none =>
    let v := if dk then s.mem.placeLine p else s.mem.newest p
    let s := s.touch p
    some (leBytes n (lineNat v off n), if dk then s else s.mapMem fun x => x.borrow who p)
  | some bs =>
    let val := linePlace off (leNat bs)
    let mask := lineMask off n
    let s := s.mapMem fun x => { x with borrowed := x.borrowed.filter fun b => b != ⟨who, p.tower, p.pa / 256⟩ }
    some ([], if dk then s.mapMem fun x => x.placeWrite p val mask else s.homeWrite p val mask)

/-- What an access to a lent region answers: its bytes, or a refusal with the code that the requester meets (R43 to R45, R132). -/
inductive ExtOut
  | ok (bytes : List (BitVec 8)) (s : State)
  | refused (code : Nat)
  | wait

/-- An access to bytes of a lent region by a grantee (R45 to R47, R132): a host is refused on a deckled region, and no access is performed that
meets a lost line. -/
def State.loanAccess (s : State) (r off : Nat) (who : Grantee) (acc : ExtAccess) : ExtOut :=
  let dk := bit (s.reg (offLoan r)) 62
  let parts := lineParts off (extSize acc)
  let place (o : Nat) : Option Place := match who with
    | .pkg k => s.loanPlace r o false k 0
    | .host k port => if dk then none else s.loanPlace r o true k port
  if parts.any fun q => (place (q.1 + q.2 - 1)).isNone then .refused cPROT
  else if parts.any fun q => (place q.1).any fun p => s.mem.isLost { p with pa := p.pa / 256 * 256 } then .refused cLOSTLINE
  else parts.foldl (fun (o : ExtOut) q =>
    match o with
    | .ok bs s =>
      (match place q.1 with
      | none => .refused cPROT
      | some p =>
        let w := match acc with | .read _ => none | .write xs => some ((xs.drop (q.1 - off)).take q.2)
        match s.extLine who { p with pa := p.pa / 256 * 256 } dk (p.pa % 256) q.2 w with
        | some (b, s) => .ok (bs ++ b) s
        | none => .wait)
    | o => o) (.ok [] s)

/-- The package that a grantee's accesses come from. -/
def granteePkg : Grantee → Nat | .pkg k => k | .host k _ => k
/-- POOL_ACCESS (R19, R40, R43 to R45, R48): a package or a host reaches lent memory of this package through the fabric. A packet that came
on its fifth hop is dropped. -/
def execPoolAccess (who : PoolSource) (region off : Nat) (acc : ExtAccess) (s : State) : Out :=
  let (who, hops) := (who.who, who.hops)
  if s.frozen || !s.boot.ready then s.stays
  else if 5 ≤ hops then .next (s.arrives .req (granteePkg who) hops (region * 2 ^ 32 + off) id)
  else match s.loanAccess region off who acc with
  | .wait => s.stays
  | .refused c => .next { s with out := s.out ++ [.refused who c] }
  | .ok bs s => .next { s with out := s.out ++ [.poolData who bs] }

/-! ### CXL.mem (R46, R47) -/

/-- RW bits of a composition entry. -/
def maskComp : Nat := 2 ^ 63 + ones 10 * 2 ^ 32 + ones 10 * 2 ^ 12 + ones 6
/-- COMPOSITION_ENTRY_WRITE (R47). -/
def execCompositionEntryWrite (n : Nat) (v : BitVec 64) (s : State) : Out :=
  if 16384 ≤ n then .fault .noSuchUnit
  else .next (s.setReg (offComp n) (v.toNat &&& maskComp))

/-- An access that finds no entry, or that the lender refuses (R47). -/
def State.compMiss (s : State) (port dpa : Nat) (acc : ExtAccess) : State :=
  let s := s.logTower 0x0F 19 noTask dpa 0 0
  { s with out := s.out ++ (match acc with | .read n => [.readData port (List.replicate n 0xFF)] | .write _ => []) ++ [.aer port] }
/-- An access of a host on a port of this package to another package's lent region, which the pool memory stands for (R46, R47). -/
def State.farAccess (s : State) (port pkg region byte : Nat) (acc : ExtAccess) : ExtOut :=
  let base := (pkg * 2 ^ 26 + region * 2 ^ 16) * 65536 + byte
  match s.farCode pkg region ((byte + extSize acc - 1) / 65536) (some port) with
  | some c => .refused c
  | none =>
    let s := (s.sendPacket (s.ownPacket .req pkg (base % 2 ^ 42))).getD s
    match acc with
    | .read n => .ok (s.mem.pool.read base n) s
    | .write bs => .ok [] (s.mapMem fun x => { x with pool := x.pool.write base bs })
/-- CXL_MEM_ACCESS (R46, R47, R132): translated by the composition table, under the grant of the host and its port. A lost line of this
package's own DRAM ends in Completer Abort. -/
def execCxlMemAccess (port dpa : Nat) (acc : ExtAccess) (s : State) : Out :=
  if 4 ≤ port then .fault .noSuchUnit
  else if s.frozen then s.stays
  else if s.boot.ready = false ∨ s.boot.cxl.getD port false = false then .next { s with out := s.out ++ [.unsupported port] }
  else
    let e := s.reg (offComp (dpa / 2 ^ 26))
    let region := bits e 21 12
    let byte := bits e 5 0 * 2 ^ 26 + dpa % 2 ^ 26
    let pkg := bits e 41 32
    if 2 ^ 40 ≤ dpa ∨ bit e 63 = false then .next (s.compMiss port dpa acc)
    else
      let r := if pkg = s.pkgNum then s.loanAccess region byte (.host pkg port) acc else s.farAccess port pkg region byte acc
      match r with
      | .wait => s.stays
      | .refused c =>
        if c = cLOSTLINE then .next { s with out := s.out ++ [.abort port, .aer port] } else .next (s.compMiss port dpa acc)
      | .ok bs s =>
        .next { s with out := s.out ++ (match acc with | .read _ => [.readData port bs] | .write _ => []) }

/-! ### The aperture of BAR4 (R51, R52, R152) -/

/-- The VA and the ASID of an aperture offset, if its slot is enabled. -/
def State.aperture (s : State) (off : Nat) : Option (Nat × Nat) :=
  let n := off / 2 ^ 26
  let a := s.reg (offSlot n + 8)
  if n < 1024 ∧ bit a 31 = true then
    let va := bits (s.reg (offSlot n)) 56 26 * 2 ^ 26 + off % 2 ^ 26
    some (if bit va 56 then va + (2 ^ 64 - 2 ^ 57) else va, bits a 15 0)
  else none
/-- BAR4_ACCESS (R19, R152): performed at the home that tower 19's table names. An error aborts a read and drops a
write, and is reported. -/
def execBar4Access (port off : Nat) (acc : ExtAccess) (s : State) : Out :=
  if 4 ≤ port then .fault .noSuchUnit
  else if s.frozen then s.stays
  else if s.boot.ready = false then .next { s with out := s.out ++ [.unsupported port] }
  else match s.aperture off with
  | none => .next { s with out := s.out ++ [.unsupported port] }
  | some (va, asid) =>
    let bad (s : State) : Out := .next { s with out := s.out ++ (match acc with | .read _ => [.abort port] | .write _ => []) ++ [.aer port] }
    match acc with
    | .read n =>
      match s.ownRead s.arbHome asid va n with
      | .ok bs s => .next { s with out := s.out ++ [.readData port bs] }
      | .bad _ s => bad s
      | .busy => s.stays
    | .write bs =>
      match s.ownWrite s.arbHome asid va bs with
      | .ok _ s => .next s
      | .bad _ s => bad s
      | .busy => s.stays

end Sys2Proof.Machine
end

