-- ==== Sys2Proof/Machine/Queue.lean ====
section
/-! DEFINITION. The queues (R53 to R59): enabling and disabling, tail writes, pulling records, and the head shadow. -/

namespace Sys2Proof.Machine

/-- The arbiter runs (R22, R71). -/
def State.arbRuns (s : State) : Bool := s.siteRuns arbiterSite

def State.qEn (s : State) (q : Nat) : Bool := bit (s.reg (offQCFG q)) 31
def State.qLoc (s : State) (q : Nat) : Nat := bits (s.reg (offQCFG q)) 26 24
def State.qPort (s : State) (q : Nat) : Nat := bits (s.reg (offQCFG q)) 23 22
def State.qLog (s : State) (q : Nat) : Nat := bits (s.reg (offQCFG q)) 20 16
def State.qAsid (s : State) (q : Nat) : Nat := bits (s.reg (offQCFG q)) 15 0
def State.qHead (s : State) (q : Nat) : Nat := s.reg (offQHEAD q)
def State.qTail (s : State) (q : Nat) : Nat := s.reg (offQTAIL q)
def State.qStop (s : State) (q : Nat) : Bool := bit (s.reg (offQSTAT q)) 31
/-- Set some bits of QSTAT. -/
def State.qSet (s : State) (q mask : Nat) : State := s.setReg (offQSTAT q) (s.reg (offQSTAT q) ||| mask)
/-- Bits of QCFG other than EN that software writes. -/
def maskQCFG : Nat := ones 5 * 2 ^ 22 + ones 5 * 2 ^ 16 + ones 16
/-- LOC or LOG2N holds a reserved value (R53). -/
def qcfgBad (v : Nat) : Bool := decide (2 < bits v 26 24) || decide (bits v 20 16 < 4) || decide (16 < bits v 20 16)
/-- A record of a queue is being admitted. -/
def State.admittingOf (s : State) (q : Nat) : Bool := s.sched.admitting.any fun a => a.q == q

/-- A write of EN from 0 to 1 takes effect (R54): refused for a reserved LOC or LOG2N, otherwise the queue restarts and
forgets what its earlier enable named (R74). -/
def State.enableQueue (s : State) (q v : Nat) : State :=
  let s := s.setReg (offQCFG q) (v &&& maskQCFG)
  if qcfgBad v then s.qSet q (2 ^ 28)
  else
    let s := s.setReg (offQCFG q) ((v &&& maskQCFG) + 2 ^ 31)
    let s := s.setReg (offQSTAT q) (setBits (s.reg (offQSTAT q)) 31 31 0)
    let s := (s.setReg (offQHEAD q) 0).setReg (offQTAIL q) 0
    { s with boot := { s.boot with pkgLocked := true }
             sched := { s.sched with known := s.sched.known.filter fun e => e.q != q } }
/-- QUEUE_ENABLE (R54): a write of QCFG that sets EN; it is held while a record of the queue is being admitted. -/
def execQueueEnable (q : Nat) (v : BitVec 32) (s : State) : Out :=
  if 256 ≤ q then .fault .noSuchUnit
  else if v.getLsbD 31 = false ∨ s.qEn q = true then s.stays
  else if s.admittingOf q then .next { s with sched := { s.sched with heldEnable := s.sched.heldEnable ++ [(q, v)] } }
  else .next (s.enableQueue q v.toNat)
/-- A held enable takes effect once the queue's record has been admitted (R54). -/
def State.releaseHeld (s : State) (q : Nat) : State :=
  if s.admittingOf q then s
  else match s.sched.heldEnable.find? fun e => e.1 == q with
  | some e =>
    let s := { s with sched := { s.sched with heldEnable := s.sched.heldEnable.erase e } }
    if s.qEn q then s else s.enableQueue q e.2.toNat
  | none => s

/-- The pending entries of a queue are discarded, with one record for each record index (R74, R417). -/
def State.dropPending (s : State) (q : Nat) : State :=
  let mine := s.sched.pending.filter fun p => p.q == q
  let idxs := (mine.map fun p => p.index).eraseDups
  let s := idxs.foldl (fun s i =>
    s.logArbiter 0x0D noTask (q * 2 ^ 32 + i) (mine.filter fun p => p.index == i).length) s
  { s with sched := { s.sched with pending := s.sched.pending.filter fun p => p.q != q } }
/-- Whether a task is still held by the arbiter and is not DONE. -/
def State.live? (s : State) (tid : Nat) : Bool := match s.task? tid with | some k => k.st != .done | none => false
/-- QUEUE_DISABLE (R54, R74): EN becomes 0 and the other fields stay; the arbiter forgets the queue's records that are
DONE or were rejected, so that what names one of them finds no task until the queue is enabled again. -/
def execQueueDisable (q : Nat) (v : BitVec 32) (s : State) : Out :=
  if 256 ≤ q then .fault .noSuchUnit
  else if v.getLsbD 31 = true ∨ s.qEn q = false then s.stays
  else
    let s := (s.setReg (offQCFG q) (setBits (s.reg (offQCFG q)) 31 31 0)).dropPending q
    .next { s with sched := { s.sched with known := s.sched.known.map fun e =>
      if e.q = q ∧ (match e.tid with | some t => s.live? t | none => true) = false then { e with tid := none } else e } }
/-- QSTAT_CLEAR (R54): write 1 to clear; pulling restarts when the last of BADTAIL and PULLERR is cleared. -/
def execQstatClear (q : Nat) (v : BitVec 32) (s : State) : Out :=
  if 256 ≤ q then .fault .noSuchUnit
  else
    let old := s.reg (offQSTAT q)
    let clear := v.toNat &&& (ones 4 * 2 ^ 27)
    let new := old - (old &&& clear)
    .next (s.setReg (offQSTAT q) (if bits old 30 29 ≠ 0 ∧ bits new 30 29 = 0 then setBits new 31 31 0 else new))

/-! ### Tail writes (R56) -/

/-- What a tail write does. -/
def State.tailIn (s : State) (src : TailSource) (q : Nat) (t : BitVec 32) : State :=
  let d := (t.toNat + 2 ^ 32 - s.qTail q) % 2 ^ 32
  let h := (t.toNat + 2 ^ 32 - s.qHead q) % 2 ^ 32
  let rmt := s.reg (offQRMT q)
  let barred : Option Nat := match src with
    | .remote pkg _ => if bit rmt 31 = false ∨ bits rmt 9 0 ≠ pkg then some (pkg % 2 ^ 10 + (if bit rmt 31 then 0 else 2 ^ 31)) else none
    | _ => none
  if s.qEn q = false then s
  else match barred with
  | some aux => s.logArbiter 0x0C noTask (q * 2 ^ 32 + t.toNat) aux
  | none =>
    if d = 0 then s
    else if 2 ^ 31 ≤ d then
      let x := s.reg (offQSTAT q)
      s.setReg (offQSTAT q) (setBits x 15 0 (min 0xFFFF (bits x 15 0 + 1)))
    else if 2 ^ s.qLog q < h then s.qSet q (2 ^ 31 + 2 ^ 30)
    else s.setReg (offQTAIL q) t.toNat
/-- TAIL_WRITE (R19, R40, R51, R56, R59): a write of a host or of a remote package, or a message of qtail or tlaunch that has
reached the arbiter. Before READY a host's write completes with Unsupported Request, as one of another size than 4 or 8 bytes always
does, and a packet of another package is not taken. -/
def execTailWrite (src : TailSource) (q : Nat) (t : BitVec 32) (s : State) : Out :=
  if 256 ≤ q then .fault .noSuchUnit
  else s.happens <|
    if s.arbRuns = false then none else
    let k := s.mem.net.findIdx fun m => m.body == .tailWrite src q t
    match s.takeMsg k, src with
    | some (_, s), _ => some (s.tailIn src q t)
    | none, .device => none
    | none, .host port size =>
      some (if s.boot.ready && (size == 4 || size == 8) then s.tailIn src q t else { s with out := s.out ++ [.unsupported port] })
    | none, .remote pkg hops => if s.boot.ready then some (s.arrives .ctl pkg hops 0 fun s => s.tailIn src q t) else none

/-! ### Pulling (R54, R55, R57, R59) -/

/-- A head-shadow store that cannot be made is logged and not retried (R54, R203). -/
def State.shadowFail (s : State) (q code : Nat) : State :=
  (s.qSet q (2 ^ 27)).logArbiter 0x11 noTask (s.reg (offQHSH q)) (code * 2 ^ 16)
/-- The store of HEAD to the head shadow: `none` while it must wait. -/
def State.headShadow (s : State) (q : Nat) : Option State :=
  let a := s.reg (offQHSH q)
  if a = 0 then some s
  else if a % 4 ≠ 0 then some (s.shadowFail q cALIGN)
  else match s.ownWrite s.arbHome (s.qAsid q) a (leBytes 4 (s.qHead q)) with
  | .ok _ s => some s
  | .bad c s => some (s.shadowFail q c)
  | .busy => none
/-- A record can be pulled. -/
def State.mayPull (s : State) (q : Nat) : Bool :=
  s.boot.ready && s.arbRuns && s.qEn q && !s.qStop q && s.qHead q != s.qTail q && !s.admittingOf q
/-- Bring record HEAD from the home of its line to the arbiter (R27, R57): from another tower as bulk data. -/
def State.pullData (s : State) (q va : Nat) : Wire :=
  match s.arbHome (s.qAsid q) va with
  | some h => if h = 19 then .arrived s else s.bulk arbiterSite (.tower h) (.recordRead q)
  | none => .arrived s
/-- The bytes of record HEAD, as they stand when it is pulled (R55, R57, R58): from device memory, from a host's memory, or from another
package, whose tower and address the request names and which gives them. -/
def State.recordBytes (s : State) (q : Nat) (ext : List (BitVec 8)) : Own (List (BitVec 8)) :=
  let at' := 256 * (s.qHead q % 2 ^ s.qLog q)
  let base := s.reg (offQBASE q)
  match s.qLoc q with
  | 0 => s.ownRead s.arbHome (s.qAsid q) (base + at') 256
  | 1 => .ok (s.mem.host.read (s.qPort q * 2 ^ 64 + base + at') 256) s
  | _ =>
    match s.sendPacket (s.ownPacket .req (bits base 57 48) (bits base 46 40 * 2 ^ 36 + bits base 35 0 + at')) with
    | none => .bad cTIMEOUT s
    | some s => .ok ((List.range 256).map fun i => ext.getD i 0) s
/-- RECORD_PULL (R54, R57, R58): the record is copied into admission as it stands, HEAD advances, and the head shadow
is stored. `ext` is what another package answers. -/
def execRecordPull (q : Nat) (ext : List (BitVec 8)) (s : State) : Out :=
  if 256 ≤ q then .fault .noSuchUnit
  else s.happens <| if s.mayPull q = false then none
  else
    let wire := if s.qLoc q = 0 then s.pullData q (s.reg (offQBASE q) + 256 * (s.qHead q % 2 ^ s.qLog q)) else .arrived s
    match wire with
    | .sent s => some s
    | .away => none
    | .arrived s =>
      match s.recordBytes q ext with
      | .busy => none
      | .bad c s => some (if c = cTIMEOUT then s.pullTimeout q else s.pullError q)
      | .ok bs s =>
        let a : Admission :=
          ⟨q, s.qHead q, bs, s.qAsid q, s.qPort q, s.qLoc q, bits (s.reg (offQBASE q)) 57 48, false⟩
        let s := s.setReg (offQHEAD q) ((s.qHead q + 1) % 2 ^ 32)
        State.headShadow { s with sched := { s.sched with admitting := s.sched.admitting ++ [a] } } q
/-- RECORD_READ_FAIL (R34, R59): the read of record HEAD, from a host or from another package, times out. -/
def execRecordReadFail (q : Nat) (s : State) : Out :=
  if 256 ≤ q then .fault .noSuchUnit
  else if s.mayPull q = false then s.stays
  else .next (s.pullTimeout q)
/-- HEAD_SHADOW_FAIL (R22, R54): the last head-shadow store timed out. -/
def execHeadShadowFail (q : Nat) (s : State) : Out :=
  if 256 ≤ q then .fault .noSuchUnit
  else if s.reg (offQHSH q) = 0 ∨ s.qHead q = 0 ∨ s.arbRuns = false then s.stays
  else .next (s.shadowFail q cTIMEOUT)

end Sys2Proof.Machine
end

