-- ==== Sys2Proof/Machine/Header.lean ====
section
/-! DEFINITION. The clause header (R164, R167, R170, R219, R220): what a group meets before the first word of a
clause issues. -/

namespace Sys2Proof.Machine

/-- A copy of the group that is parked: the FID of the first in the queue (R128). -/
def State.parkedCopy (s : State) (c : CoreId) (g : GroupRef) : Option Nat :=
  (s.core c).cq.findSome? fun q => if q.g = g then (match q.state with | .parked f => some f | _ => none) else none
/-- The first copy of a group whose error a cancel left, which no CPW is needed to meet (R129, R170). -/
def State.cancelledCopy (s : State) (c : CoreId) (g : GroupRef) : Option (Nat × Copy) :=
  ((s.core c).cq.mapIdx fun i q => (i, q)).find? fun p => p.2.g == g && p.2.state == .err && p.2.cancelRec
/-- A header wait (R164). -/
def State.headerWait (s : State) (u : Issuer) : State := s.setGroup { u.g with wait := some .other }
/-- A group runs on a core. -/
def State.onCore (s : State) (c : CoreId) (g : Group) : Bool :=
  match s.team? g.id.tid g.id.team with | some t => t.core == c | none => false
/-- A group of a core starts a clause: the others there that are ready have seen one start more (R164). -/
def State.seeStart (s : State) (c : CoreId) : State :=
  { s with groups := s.groups.map fun g =>
    if s.onCore c g then { g with ready := g.ready.map fun r => (r.1, r.2 + 1) } else g }
/-- The header has been passed: the clause has started (R164, R183, R348). -/
def State.headerDone (s : State) (u : Issuer) : State :=
  (s.seeStart u.t.core).setGroup { u.g with wait := none, widx := 1, ready := none, clauseStarts := u.g.clauseStarts + 1 }
/-- A header waits: for the group's copies under CPW, its writes under SDR, or its batches beyond MBW (R164, R167, R170). What it meets
first, an error, a cancel or a parked copy, it does not wait for. -/
def State.headerHeld (s : State) (u : Issuer) (mbw : Nat) (sdr cpw : Bool) : Bool :=
  u.g.lateFault.isNone && (s.cancelledCopy u.t.core u.g.id).isNone && (s.parkedCopy u.t.core u.g.id).isNone &&
  ((cpw && (s.core u.t.core).cq.any fun c => c.g == u.g.id && c.pending) ||
   ((!cpw || (s.errCopy u.t.core u.g.id).isNone) &&
    ((sdr && s.owesWrites u.g.id) || (mbw != 15 && decide (mbw < (u.outstanding s).length)))))

/-- The waits and faults of a well-formed header, in turn. -/
def State.header (s : State) (u : Issuer) (mbw : Nat) (sdr cpw : Bool) : State :=
  match u.g.lateFault with
  | some va =>
    let g := { u.g with lateFault := none }
    (s.setGroup g).takeFault { u with g := g } cLOSTLINE va 0
  | none =>
    match s.cancelledCopy u.t.core u.g.id with
    | some p => s.raiseCopy u p
    | none =>
      match s.parkedCopy u.t.core u.g.id with
      | some fid => s.setGroup { u.g with stat := .parked fid, wait := none }
      | none =>
        if cpw && (s.core u.t.core).cq.any fun c => c.g == u.g.id && c.pending then s.headerWait u
        else match (if cpw then s.errCopy u.t.core u.g.id else none) with
        | some p => s.raiseCopy u p
        | none =>
          if sdr && s.owesWrites u.g.id then s.headerWait u
          else if mbw ≠ 15 ∧ mbw < (u.outstanding s).length then s.headerWait u
          else s.headerDone u

/-- CLAUSE_HEADER (R128, R164, R167, R170, R219, R220, R233, R330): a group at word index 0 evaluates its header. -/
def execClauseHeader (n : Fin 16) (cls : Fin 8) (mbw : Fin 16) (sdr cpw : Bool) (s : State) : Out :=
  match s.issuer with
  | none => .refused .noIssuer
  | some u =>
    if u.g.widx ≠ 0 then s.stays
    else if okHeader n cls = false then .next (s.takeFault u cBADCLAUSE 0 0)
    else .next (s.header u mbw.val sdr cpw)

end Sys2Proof.Machine
end

