-- ==== Sys2Proof/Machine/Admit.lean ====
section
/-! DEFINITION. Admission (R57, R60 to R67, R71, R78, R89): the records as the arbiter reads them, the checks, the
dependence counts (R74, R75), and the completion of a record that is rejected. -/

namespace Sys2Proof.Machine

/-! ### Records (R60 to R63) -/

/-- Every byte of a range is zero. -/
def zeroAt (b : List (BitVec 8)) (o n : Nat) : Bool := ((b.drop o).take n).all fun x => x == 0

/-- A task record whose own fields are malformed (R60, R64). -/
def recordBad (b : List (BitVec 8)) : Bool :=
  let type := fld b 0 1
  let succN := fld b 0x10 2
  let ndeck := fld b 0x12 1
  let flags := fld b 0x13 1
  let inline := bit flags 0
  decide (2 < type) || bits (fld b 1 1) 7 3 != 0 || (succN == 0 && fld b 8 8 != 0) || decide (64 < succN) ||
  decide (16 < ndeck) || bits flags 7 2 != 0 || (inline && decide (4 < ndeck)) || bits (fld b 0x14 2) 15 11 != 0 ||
  decide (5 < fld b 0x16 1) || !zeroAt b 0x17 1 || (!inline && decide (0 < ndeck) && fld b 0x18 8 % 32 != 0) ||
  (type != 2 && fld b 0x20 8 % 128 != 0) || fld b 0x30 8 % 65536 != 0 || !zeroAt b 0x38 8 ||
  !zeroAt b (if inline then 0x40 + 32 * ndeck else 0x40) (if inline then 128 - 32 * ndeck else 128) || !zeroAt b 0xC0 64

/-- A deckle record as it is read (R61). -/
def Deckle.ofBytes (b : List (BitVec 8)) : Deckle :=
  let m := fld b 0x10 1
  ⟨fld b 0 8, fld b 8 8, bit m 0, bit m 1, bit m 2⟩
/-- A malformed deckle (R61, R64). -/
def deckleBad (b : List (BitVec 8)) : Bool :=
  let d := Deckle.ofBytes b
  !canonical d.base || d.extent == 0 || decide ((if d.base < 2 ^ 56 then 2 ^ 56 else 2 ^ 64) < d.base + d.extent) ||
  bits (fld b 0x10 1) 7 3 != 0 || (!d.r && !d.w) || (d.couch && !d.w) || !zeroAt b 0x11 15

/-- A launch record as it is read (R62, R63); the fields a mill task has instead of a core task's are zero for the
other. -/
def Launch.ofBytes (b : List (BitVec 8)) (mill : Bool) : Launch :=
  let c (o n : Nat) : Nat := if mill then 0 else fld b o n
  let m (o n : Nat) : Nat := if mill then fld b o n else 0
  { code := fld b 0 8, entry := fld b 8 4, width := fld b 0xD 1, gx := c 0x10 4, gy := c 0x14 4, gz := c 0x18 4
    ngrp := c 0x1C 1, nlead := c 0x1D 1, nwheel := c 0x1E 1, lbud := c 0x1F 1, wbud := c 0x20 1, nacc := c 0x21 1
    tssize := c 0x22 1, coloc := c 0x23 1, spbytes := c 0x24 4, privbytes := c 0x28 4, cwbytes := c 0x2C 4
    placemap := fld b 0x30 8, traph := BitVec.ofNat 64 (fld b 0x38 8), argp := BitVec.ofNat 64 (fld b 0x40 8)
    towmask := m 0x10 9, nmill := m 0x1C 1, locbytes := m 0x24 4 }
/-- A malformed launch record for a task of a type (R62 to R64). -/
def launchBad (b : List (BitVec 8)) (type : Nat) : Bool :=
  let l := Launch.ofBytes b (type == 1)
  l.code % 65536 != 0 || l.entry % 4 != 0 || fld b 0xC 1 != type || !zeroAt b 0xE 2 || !zeroAt b 0x48 56 ||
  (if type = 1 then
    l.width != 0 || l.towmask == 0 || !zeroAt b 0x19 3 || l.nmill == 0 || !zeroAt b 0x1D 7 || !zeroAt b 0x28 8
  else
    (l.width != 0 && l.width != 32 && l.width != 64) || l.teams == 0 || decide (2 ^ 32 ≤ l.teams) || l.ngrp == 0 ||
    l.nlead + l.nwheel != l.ngrp || l.lbud % 8 != 0 || (l.lbud == 0 && l.nlead != 0) || l.wbud % 8 != 0 ||
    (l.wbud == 0 && l.nwheel != 0) || (l.wbud != 0 && l.nwheel == 0) || l.tssize == 0 || l.coloc == 0 ||
    decide (3 < l.coloc) || l.privbytes % 16 != 0)
/-- A launch that exceeds the part (R64). -/
def Launch.exceeds (l : Launch) (mill : Bool) : Bool :=
  if mill then decide (8 < l.nmill) || decide (65536 < l.locbytes)
  else decide (24 < l.lbud) || decide (24 < l.wbud) || decide (16 < l.slots) || decide (384 < l.regs) ||
    decide (262144 < l.spSize) || decide (16 < l.nacc) || decide (16 < l.tssize) || decide (2 ^ 20 < l.cwSize) ||
    decide (65536 < l.privbytes)

/-- A malformed placement-map entry (R89). -/
def hintBad (e : Nat) : Bool :=
  let h := PlaceHint.ofNat e
  bits e 63 25 != 0 || (match h.sheet with | some x => decide (3 < x) | none => false) ||
  (match h.die with | some x => decide (71 < x) | none => false) ||
  (h.strict && match h.sheet, h.die with | some x, some d => dieSheet d != x | _, _ => false)
/-- An entry as placement uses it: one that only hints at a cluster this grade does not have is ignored (R89). -/
def State.hintUsed (s : State) (e : Nat) : Nat :=
  let h := PlaceHint.ofNat e
  match h.cluster with
  | some c => if !h.strict && decide (s.boot.clusters ≤ c) then 0xFFFFFF else e
  | none => e
/-- A strict entry that names a cluster at or above the clusters of the grade (R89). -/
def State.hintExceeds (s : State) (e : Nat) : Bool :=
  let h := PlaceHint.ofNat e
  h.strict && (match h.cluster with | some c => decide (s.boot.clusters ≤ c) | none => false)

/-! ### The checks (R64, R415) -/

/-- What admission finds in a record. -/
structure Parsed where
  deckles : List Deckle
  launch : Launch
  pmap : List Nat
  deriving DecidableEq, Repr
/-- The answer of the checks. -/
inductive Checked
  | ok (p : Parsed) (s : State)
  | reject (st : TStatus) (s : State)
  | busy

/-- The launch of a marker. -/
def Launch.none : Launch := Launch.ofBytes [] false

/-- Read something of a record under its queue's ASID; a read that faults is a malformed record. -/
def Admission.read (a : Admission) (s : State) (va n : Nat) (k : List (BitVec 8) → State → Checked) : Checked :=
  match s.ownRead s.arbHome a.asid va n with
  | .ok b s => k b s
  | .bad _ s => .reject .badrec s
  | .busy => .busy
/-- The placement map, when there is one: an entry for each team set. -/
def Admission.readMap (a : Admission) (s : State) (l : Launch) (mill : Bool) (k : List Nat → State → Checked) : Checked :=
  if l.placemap = 0 ∨ mill = true then k [] s
  else a.read s l.placemap (8 * l.nsets) fun b s =>
    let es := (List.range l.nsets).map fun i => fld b (8 * i) 8
    if es.any hintBad then .reject .badrec s else k es s
/-- Every check of a record: the malformed first, part by part, then what exceeds this part (R64, R89). -/
def Admission.check (a : Admission) (s : State) : Checked :=
  let b := a.bytes
  let type := fld b 0 1
  let n := fld b 0x12 1
  if recordBad b then .reject .badrec s
  else
    let decks (k : List (BitVec 8) → State → Checked) : Checked :=
      if bit (fld b 0x13 1) 0 then k ((b.drop 0x40).take (32 * n)) s
      else if n = 0 then k [] s
      else a.read s (fld b 0x18 8) (32 * n) k
    decks fun db s =>
      let parts := (List.range n).map fun i => (db.drop (32 * i)).take 32
      if parts.any deckleBad then .reject .badrec s
      else
        let ds := parts.map Deckle.ofBytes
        if type = 2 then .ok ⟨ds, Launch.none, []⟩ s
        else a.read s (fld b 0x20 8) 128 fun lb s =>
          let l := Launch.ofBytes lb (type == 1)
          if launchBad lb type then .reject .badrec s
          else a.readMap s l (type == 1) fun es s =>
            if l.exceeds (type == 1) || es.any s.hintExceeds then .reject .resource s
            else .ok ⟨ds, l, es.map s.hintUsed⟩ s

/-! ### Dependences (R74, R75) -/

/-- A decrement that cannot be applied is logged (R74, R417). -/
def State.depx (s : State) (tid q index cause : Nat) : State := s.logArbiter 0x10 tid (q * 2 ^ 32 + index) cause
/-- A successor list that cannot be read is logged (R74, R417). -/
def State.depxList (s : State) (tid addr code : Nat) : State := s.logArbiter 0x10 tid addr (1 + code * 2 ^ 8)

/-- A task whose count has reached 0 leaves WAITDEP: to WAITHAZ, or, doomed, to DONE (R72, R75). -/
def Task.released (k : Task) : Task :=
  if k.st = .waitdep ∧ k.depcnt = 0 then
    (if k.doomed then { k with st := .done, status := .abandoned } else { k with st := .waithaz })
  else k
/-- A decrement, with its doom mark, for a task that can take it (R74, R75); `sys` says that its sender completes at .sy
(R148). -/
def Task.decremented (k : Task) (doom sys : Bool) : Task :=
  Task.released { k with depcnt := k.depcnt - 1, doomed := k.doomed || doom, sysEdge := k.sysEdge || sys }
/-- One entry of a successor list (R74). -/
def State.applyEntry (s : State) (tid e : Nat) (doom sys : Bool) : State :=
  let q := bits e 39 32
  let i := bits e 31 0
  if bits e 63 40 ≠ 0 then s.depx tid q i 2
  else match s.sched.known.find? fun x => x.q == q && x.index == i with
  | none => { s with sched := { s.sched with pending := s.sched.pending ++ [⟨q, i, tid, doom, sys⟩] } }
  | some x =>
    match x.tid.bind s.task? with
    | some k => if k.st = .waitdep ∧ k.depcnt ≠ 0 then s.setTask (k.decremented doom sys) else s.depx tid q i 0
    | none => s.depx tid q i 0
/-- The pending table's size (R74). -/
def pendingMax : Nat := 16384

/-- The entries of a successor list, or why it cannot be read. -/
def State.readList (s : State) (asid addr n : Nat) : Own (List Nat) :=
  if n = 0 then .ok [] s
  else match s.ownRead s.arbHome asid addr (8 * n) with
  | .ok b s => .ok ((List.range n).map fun i => fld b (8 * i) 8) s
  | .bad c s => .bad c s
  | .busy => .busy

/-! ### Completion (R66, R67) -/

/-- The status code of a completion word. -/
def TStatus.code : TStatus → Nat
  | .ok => 0 | .resource => 1 | .badrec => 2 | .fault => 3 | .abandoned => 4 | .lost => 5
/-- A completion word. -/
def completionWord (tid : Nat) (st : TStatus) (fcode : Nat) : Nat :=
  tid * 2 ^ 32 + (if st = .fault then fcode * 2 ^ 16 else 0) + st.code * 2 ^ 8 + 1
/-- What a completion is made of. -/
structure Completion where
  tid : Nat
  st : TStatus
  fcode : Nat
  addr : Nat
  asid : Nat
  irq : Bool
  /-- The store is made at .sy. -/
  sys : Bool
  vec : Nat
  port : Nat
  loc : Nat
  ringPkg : Nat
  deriving DecidableEq, Repr
/-- A completion is made at .sy: for a rejected record, for CSCOPE 5, and under IRQ (R66). -/
def Task.sysDone (k : Task) : Bool := k.cscope == 5 || k.irq
/-- A completion store that fails is logged (R66, R203). -/
def State.storeFailed (s : State) (c : Completion) (code : Nat) : State :=
  s.logArbiter 0x11 c.tid c.addr ((if c.st = .fault then c.fcode else 0) + c.st.code * 2 ^ 8 + code * 2 ^ 16)
/-- The completion store and the MSI-X message owed after it; `none` while the store must wait. `fail` says that it
times out (R66, R67). -/
def State.complete (s : State) (c : Completion) (fail : Bool) : Option State :=
  let word := completionWord c.tid c.st c.fcode
  let owe (s : State) (r : Option LogRec) : State :=
    if c.irq && c.loc != 2 then { s with sched := { s.sched with irqs := s.sched.irqs ++ [⟨c.tid, c.port, c.vec, r⟩] } } else s
  let failed (s : State) (code : Nat) : State := let s := s.storeFailed c code; owe s s.log.getLast?
  if fail then some (failed s cTIMEOUT)
  else if c.addr % 8 ≠ 0 then some (failed s cALIGN)
  else if c.loc = 2 then
    (match s.sendPacket (s.ownPacket .wb c.ringPkg c.addr) with
     | none => some (failed s cTIMEOUT)
     | some s => some { s with out := s.out ++ [.remoteStore c.ringPkg c.addr word] })
  else match s.ownWrite s.arbHome c.asid c.addr (leBytes 8 word) with
  | .ok _ s => some (owe (if c.sys then s.sendBackInv else s) none)
  | .bad code s => some (failed s code)
  | .busy => none

/-- MSIX_SEND (R66, R67): the message owed after a completion store that has been performed at system scope, or after the
record of one that failed has been posted; a vector that is masked at the port stays pending there. -/
def execMsixSend (tid : Nat) (s : State) : Out :=
  match s.sched.irqs.find? fun e => e.tid == tid with
  | some e =>
    let waits := match e.after with | some r => s.log.contains r | none => !s.mem.backInv.isEmpty
    if s.arbRuns = false ∨ waits = true then s.stays
    else .next ({ s with sched := { s.sched with irqs := s.sched.irqs.erase e } }.sendMsix e.port e.vec)
  | none => s.stays

/-! ### Admission (R57, R64, R71, R72, R74, R78, R79) -/

/-- The lowest address that two deckles share, when at least one of them writes (R76). -/
def Deckle.overlap (a b : Deckle) : Option Nat :=
  if (a.w || b.w) && decide (a.base < b.base + b.extent) && decide (b.base < a.base + a.extent) then some (max a.base b.base)
  else none
/-- The lowest address at which the deckles of two tasks overlap. -/
def overlapAt (xs ys : List Deckle) : Option Nat := (xs.flatMap fun a => ys.filterMap fun b => a.overlap b).min?
/-- Active deckles (R79). -/
def State.activeDeckles (s : State) : Nat :=
  ((s.sched.tasks.filter fun k => k.st != .done).map fun k => k.deckles.length).sum
/-- An overlap with a task of another domain is logged, once for each such task (R78). -/
def State.logHazards (s : State) (k : Task) : State :=
  (s.sched.tasks.filter fun e => e.st != .done && e.domain != k.domain).foldl (fun s e =>
    match overlapAt e.deckles k.deckles with
    | some a => s.logArbiter 0x05 e.tid a k.tid
    | none => s) s
/-- The TASKID after this one (R71). -/
def nextTaskId (t : Nat) : Nat := if 0xFFFFFFFE ≤ t then 0 else t + 1

/-- The task that a record becomes, before its pending entries are applied (R60, R71, R72). -/
def Admission.task (a : Admission) (p : Parsed) (tid : Nat) : Task :=
  let b := a.bytes
  let type : TaskType := match fld b 0 1 with | 0 => .core | 1 => .mill | _ => .marker
  { tid := tid, q := a.q, index := a.index, type := type, prio := fld b 1 1, domain := fld b 2 2, depcnt := fld b 4 4
    doomed := false, sysEdge := false, succAddr := fld b 8 8, succN := fld b 0x10 2, irq := bit (fld b 0x13 1) 1, ivec := fld b 0x14 2
    cscope := fld b 0x16 1, cwaddr := fld b 0x28 8, stable := fld b 0x30 8, asid := a.asid, port := a.port, loc := a.loc
    ringPkg := a.ringPkg, deckles := p.deckles, launch := p.launch, pmap := p.pmap, st := .waitdep, status := .ok
    fcode := 0, waited := 0, since := 0
    sets := if type = .core then (List.range p.launch.nsets).map fun i => ⟨i, .unplaced, 0, none⟩ else []
    dies := [], drainDies := [], couchTo := [], couchOf := none, couched := [], couchPlan := [], millsLeft := []
    halted := 0, faulted := false, completed := false, succDone := false }

/-- The record leaves admission (R54). -/
def State.admitted (s : State) (a : Admission) (tid : Option Nat) : State :=
  let s := { s with sched := { s.sched with
    admitting := s.sched.admitting.erase a
    known := s.sched.known ++ [({ q := a.q, index := a.index, tid := tid } : Admitted)] } }
  s.releaseHeld a.q

/-- A record that passes: it gets its TASKID and enters its deckles; pending entries reduce its count, those in excess
are logged, and it may leave WAITDEP at once (R71, R72, R74). The excess are the entries that arrived last (DESIGN CHOICE, log
entry 120): R74 does not say which they are. -/
def State.admitTask (s : State) (a : Admission) (p : Parsed) : State :=
  let mine := s.sched.pending.filter fun e => e.q == a.q && e.index == a.index
  let tid := s.sched.nextTid
  let k := a.task p tid
  let s := s.logHazards k
  let used := mine.take k.depcnt
  let edge (e : Task) : Bool := e.st != .done && e.cscope == 5 && (overlapAt (e.deckles.filter fun d => d.w) k.deckles).isSome
  let k := Task.released { k with depcnt := k.depcnt - used.length, doomed := used.any fun e => e.doom
                                  sysEdge := (used.any fun e => e.sys) || s.sched.tasks.any edge }
  let s := (mine.drop used.length).foldl (fun s e => s.depx e.tid a.q a.index 0) s
  let s := { s with sched := { s.sched with
    tasks := s.sched.tasks ++ [k], nextTid := nextTaskId tid, pending := s.sched.pending.filter fun e => !mine.contains e } }
  s.admitted a (some tid)

/-- A record that is rejected: it is completed at .sy, its pending entries are freed and logged, and its successors
are doomed (R64, R66, R74). `none` while an access must wait or the pending table lacks room. -/
def State.rejectRecord (s : State) (a : Admission) (st : TStatus) (fail : Bool) : Option State :=
  let b := a.bytes
  let n := fld b 0x10 2
  let c : Completion := ⟨noTask, st, 0, fld b 0x28 8, a.asid, bit (fld b 0x13 1) 1, true, bits (fld b 0x14 2) 10 0, a.port, a.loc, a.ringPkg⟩
  match s.complete c fail with
  | none => none
  | some s =>
    let mine := s.sched.pending.filter fun e => e.q == a.q && e.index == a.index
    let s := mine.foldl (fun s e => s.depx e.tid a.q a.index 3) s
    let s := { s with sched := { s.sched with pending := s.sched.pending.filter fun e => !mine.contains e } }
    let s := s.admitted a Option.none
    if 64 < n then some (s.depxList noTask (fld b 8 8) 0)
    else match s.readList a.asid (fld b 8 8) n with
    | .ok es s =>
      let s := es.foldl (fun s e => s.applyEntry noTask e true true) s
      if pendingMax < s.sched.pending.length then none else some s
    | .bad code s => some (s.depxList noTask (fld b 8 8) code)
    | .busy => none

/-- Make the checks of a record and admit it, pause it, or reject it. -/
def State.tryAdmit (s : State) (a : Admission) : Option State :=
  match a.check s with
  | .busy => none
  | .reject st s =>
    s.rejectRecord a st false
  | .ok p s =>
    if 4096 < s.activeDeckles + p.deckles.length then
      (if a.paused then none
       else some { s with sched := { s.sched with
         admitting := s.sched.admitting.map fun x => if x = a then { a with paused := true } else x } })
    else some (s.admitTask a p)

/-- TASK_ADMIT (R57, R64, R71, R72): the record of a queue that is in admission goes through it. -/
def execTaskAdmit (q : Nat) (s : State) : Out :=
  match s.sched.admitting.find? fun a => a.q == q && !a.paused with
  | some a => if s.arbRuns then s.happens (s.tryAdmit a) else s.stays
  | none => s.stays
/-- ADMISSION_RETRY (R72): a record that waits for room in the hazard table tries again. -/
def execAdmissionRetry (q : Nat) (s : State) : Out :=
  match s.sched.admitting.find? fun a => a.q == q && a.paused with
  | some a => if s.arbRuns then s.happens (s.tryAdmit a) else s.stays
  | none => s.stays

end Sys2Proof.Machine
end

