-- ==== Sys2Proof/Machine/Convert.lean ====
section
/-! DEFINITION. The conversion words (R299 to R302). -/

namespace Sys2Proof.Machine

/-- A conversion word of one source under the code in field c (R300). -/
def convert (ok : Bool) (d : Dst) (a : Src) (f : W32 → W32) : State → Out :=
  runPure ok (max (d.vtop 1) (a.vtop 1)) (1 + a.nlit) fun u =>
    u.g.writeVec u.w d fun i => f (u.g.laneSrc a i)

/-- A scaled conversion: each lane of b gives that lane's scale byte (R301). -/
def convertScaled (ok : Bool) (d : Dst) (a b : Src) (f : Nat → W32 → W32) : State → Out :=
  runPure ok (vtop3 d a b) (1 + a.nlit + b.nlit) fun u =>
    u.g.writeVec u.w d fun i => f ((u.g.laneSrc b i).toNat % 256) (u.g.laneSrc a i)

/-- An 8-bit element from FP32 under a scale byte and a mode; types 10 and 11 give 0x7F (R301). -/
def toE8 (md : RMode) (sb : Nat) (x : W32) : W32 :=
  match mx8Format (scaleType sb) with
  | some f => BitVec.ofNat 32 (fpEncode f md (fvScale (f32v x) (-(scaleExp sb))))
  | none => 0x7F#32
/-- FP32 from byte j of a lane under a scale byte; types 10 and 11 give the NaN (R301). -/
def fromE8 (j sb : Nat) (x : W32) : W32 :=
  match mx8Format (scaleType sb) with
  | some f => toF32 (fvScale (fpDecode f (x.toNat / 2 ^ (8 * j) % 256)) (scaleExp sb))
  | none => nanF32
/-- A 4-bit element from FP32 (R301, R265, R266). -/
def toN4 (sb : Nat) (x : W32) : W32 := BitVec.ofNat 32 (mxElement (.four (mx4SetOf (scaleType sb))) sb x)
/-- FP32 from nibble j of a lane (R301). -/
def fromN4 (j sb : Nat) (x : W32) : W32 :=
  toF32 (fvScale (mx4Value (mx4SetOf (scaleType sb)) (x.toNat / 2 ^ (4 * j) % 16)) (scaleExp sb))

/-- vcvt.f32.s32 (R300, R253). -/
def execVcvtF32S32 (d : Dst) (a : Src) (c : Code) (s : State) : Out :=
  convert (okCvt d a c) d a (fun x => f32OfInt (rmodeOf c.val) x.toInt) s

/-- vcvt.f32.z32 (R300, R253). -/
def execVcvtF32Z32 (d : Dst) (a : Src) (c : Code) (s : State) : Out :=
  convert (okCvt d a c) d a (fun x => f32OfInt (rmodeOf c.val) x.toNat) s

/-- vcvt.s32.f32 (R300, R253). -/
def execVcvtS32F32 (d : Dst) (a : Src) (c : Code) (s : State) : Out :=
  convert (okCvt d a c) d a (f32ToInt (rmodeOf c.val).dir (-(2 ^ 31)) (2 ^ 31 - 1)) s

/-- vcvt.z32.f32 (R300, R253). -/
def execVcvtZ32F32 (d : Dst) (a : Src) (c : Code) (s : State) : Out :=
  convert (okCvt d a c) d a (f32ToInt (rmodeOf c.val).dir 0 (2 ^ 32 - 1)) s

/-- vcvt.f16.f32 (R300, R252). -/
def execVcvtF16F32 (d : Dst) (a : Src) (c : Code) (s : State) : Out :=
  convert (okCvt d a c) d a (fun x => BitVec.ofNat 32 (narrow fp16 (rmodeOf c.val) x)) s

/-- vcvt.bf16.f32 (R300, R252). -/
def execVcvtBf16F32 (d : Dst) (a : Src) (c : Code) (s : State) : Out :=
  convert (okCvt d a c) d a (fun x => BitVec.ofNat 32 (narrow bf16 (rmodeOf c.val) x)) s

/-- vcvt.f32.f16 (R300, R252): half c. -/
def execVcvtF32F16 (d : Dst) (a : Src) (c : Code) (s : State) : Out :=
  convert (okHalf d a c) d a (fun x => widen fp16 (x.toNat / 2 ^ (16 * c.val) % 2 ^ 16)) s

/-- vcvt.f32.bf16 (R300, R252): half c. -/
def execVcvtF32Bf16 (d : Dst) (a : Src) (c : Code) (s : State) : Out :=
  convert (okHalf d a c) d a (fun x => widen bf16 (x.toNat / 2 ^ (16 * c.val) % 2 ^ 16)) s

/-- vcvt.e8.f32 (R301). -/
def execVcvtE8F32 (d : Dst) (a b : Src) (c : Code) (s : State) : Out :=
  convertScaled (okE8 d a b c) d a b (toE8 (rmodeOf c.val)) s

/-- vcvt.f32.e8 (R301): byte c. -/
def execVcvtF32E8 (d : Dst) (a b : Src) (c : Code) (s : State) : Out :=
  convertScaled (okVc4 d a b c) d a b (fromE8 c.val) s

/-- vcvt.n4.f32 (R301). -/
def execVcvtN4F32 (d : Dst) (a b : Src) (s : State) : Out :=
  convertScaled (okV3 d a b) d a b toN4 s

/-- vcvt.f32.n4 (R301): nibble c. -/
def execVcvtF32N4 (d : Dst) (a b : Src) (c : Code) (s : State) : Out :=
  convertScaled (okVk8 d a b c) d a b (fromN4 c.val) s

/-- vmxscale (R302): every lane of a block of 32 receives the block's scale byte; a disabled lane counts
as 0 in the maximum. -/
def execVmxscale (d : Dst) (a : Src) (c : Code) (s : State) : Out :=
  runPure (okScale d a c) (max (d.vtop 1) (a.vtop 1)) (1 + a.nlit) (fun u =>
    let block : Nat → W32 := fun k => BitVec.ofNat 32 (mxScale (mxSetOf c.val)
      ((List.range 32).map fun j => if u.g.enabled (32 * k + j) then u.g.laneSrc a (32 * k + j) else 0))
    let r := [block 0, block 1]
    u.g.writeVec u.w d fun i => lane r (i / 32)) s

end Sys2Proof.Machine
end

