-- ==== Sys2Proof/Machine/Place.lean ====
section
/-! DEFINITION. Hazards (R76), placement (R84, R86 to R89, R93, R160, R416), the invalidations of a placed set (R80), and
the start of its teams (R94, R148, R155, R159, R234). -/

namespace Sys2Proof.Machine

/-! ### Hazards (R72, R76) -/

/-- Write-backs of a task are on their way home. -/
def State.taskWrites (s : State) (tid : Nat) : Bool :=
  s.mem.net.any fun m => match m.body with | .wbDirty _ _ _ _ _ (.task t) => t == tid | _ => false
/-- A task has finished its DRAIN write-back. -/
def State.drained (s : State) (k : Task) : Bool :=
  k.st == .done || (k.st == .drain && k.drainDies.isEmpty && !s.taskWrites k.tid)
/-- An earlier task still holds a later one (R76). -/
def State.blocks (s : State) (e k : Task) : Bool :=
  let meets (f : Deckle → Deckle → Bool) : Bool := e.deckles.any fun a => k.deckles.any fun b => f a b && (a.overlap b).isSome
  (meets (fun a _ => a.w) && !s.drained e) || (meets (fun _ b => b.w) && e.st != .drain && e.st != .done)
/-- The tasks admitted before a task, oldest first. -/
def State.earlier (s : State) (tid : Nat) : List Task := s.sched.tasks.takeWhile fun k => k.tid != tid
/-- HAZARD_RELEASE (R72, R76, R77): no earlier overlapping task still blocks the task; a marker is done. -/
def execHazardRelease (tid : Nat) (s : State) : Out :=
  match s.task? tid with
  | none => s.stays
  | some k =>
    if k.st ≠ .waithaz ∨ s.arbRuns = false ∨ ((s.earlier tid).any fun e => s.blocks e k) = true then s.stays
    else .next (s.setTask (if k.type = .marker then { k with st := .done } else { k with st := .ready, since := s.sheetNow 0 }))

/-! ### Priority and waiting (R86) -/

/-- Time that a task has waited in READY and STABLED. -/
def State.waitedNow (s : State) (k : Task) : Nat := k.waited + (if k.st.waits then s.sheetNow 0 - k.since else 0)
/-- Effective priority. -/
def State.effPrio (s : State) (k : Task) : Nat := min 7 (k.prio + s.waitedNow k / 1000000)
/-- The next set of a core task that waits for placement. -/
def Task.nextSet (k : Task) : Option TeamSet := k.sets.find? fun x => x.st.off
/-- A task whose sets the arbiter may place. -/
def Task.placeable (k : Task) : Bool :=
  k.type == .core && !k.faulted && k.couchOf.isNone && k.nextSet.isSome &&
  (match k.st with | .ready => true | .placed => true | .running => true | .preempt => true | .stabled => true | _ => false)

/-! ### What is free (R88, R99, R160, R416) -/

/-- A named budget. -/
def Launch.budgetOf (l : Launch) (grp : Nat) : Nat := if grp < l.nlead then l.lbud else l.wbud
/-- The hardware slots and the named registers that a resident team takes: those of its groups that have not exited, or
of all of them before it starts. -/
def State.teamTakes (s : State) (t : Team) (l : Launch) : Nat × Nat :=
  if t.started then
    let gs := live (s.teamGroups t.tid t.team)
    (gs.length * (l.lanes / 32), (gs.map fun g => l.budgetOf g.id.grp).sum * (l.lanes / 32))
  else (l.slots, l.regs)
/-- The launch of a team's task. -/
def State.launchOf (s : State) (tid : Nat) : Launch := match s.task? tid with | some k => k.launch | none => Launch.none
/-- What some part of a core takes: slots, registers, tiles, and scratchpad ranges. -/
structure Takes where
  slots : Nat
  regs : Nat
  tiles : Nat
  sp : List (Nat × Nat)
def Takes.add (a b : Takes) : Takes := ⟨a.slots + b.slots, a.regs + b.regs, a.tiles + b.tiles, a.sp ++ b.sp⟩
/-- What one team of a launch takes, with its scratchpad at a base. -/
def Launch.takes (l : Launch) (base : Nat) : Takes := ⟨l.slots, l.regs, l.nacc, [(base, base + l.spSize)]⟩
/-- What the places reserved on a core for other sets take (R86). -/
def State.heldTakes (s : State) (tid set : Nat) (c : CoreId) : Takes :=
  s.sched.tasks.foldl (fun a k => k.sets.foldl (fun a x =>
    if k.tid = tid ∧ x.k = set then a
    else match x.reserved with
    | some r => (r.spots.filter fun p => p.core == c).foldl (fun a p => a.add (k.launch.takes p.spbase)) a
    | none => a) a) ⟨0, 0, 0, []⟩
/-- What the teams of a core take, and what is reserved there for sets other than one. -/
def State.coreTakes (s : State) (tid set : Nat) (c : CoreId) : Takes :=
  (s.teams.filter fun t => t.core == c).foldl (fun a t =>
    let l := s.launchOf t.tid
    let n := s.teamTakes t l
    a.add ⟨n.1, n.2, l.nacc, [(t.spbase, t.spbase + l.spSize)]⟩) (s.heldTakes tid set c)
/-- A range meets none of some ranges. -/
def clear (busy : List (Nat × Nat)) (lo hi : Nat) : Bool := busy.all fun b => decide (hi ≤ b.1) || decide (b.2 ≤ lo)
/-- Bases, in granules of 4 KiB below a top, of ranges of a size that are free and do not overlap. -/
def freeBases (busy : List (Nat × Nat)) (top size : Nat) : List Nat :=
  if size = 0 then List.replicate 16 0
  else ((List.range (top / 4096)).foldl (fun (r : List Nat × Nat) i =>
    let a := 4096 * i
    if r.2 ≤ a ∧ a + size ≤ top ∧ clear busy a (a + size) = true then (r.1 ++ [a], a + size) else r) ([], 0)).1
/-- A core takes teams: it is not fenced, and its die has not failed. -/
def State.coreOpen (s : State) (c : CoreId) : Bool := !(s.core c).fenced && !s.mem.failedDies.contains c.die
/-- Teams of a launch fit beside something on a core, at these scratchpad bases. -/
def Launch.fits (l : Launch) (u : Takes) : List Nat :=
  let by' (top used need : Nat) : Nat := if need = 0 then 16 else (top - used) / need
  (freeBases u.sp 262144 l.spSize).take (min (by' 16 u.slots l.slots) (min (by' 384 u.regs l.regs) (by' 16 u.tiles l.nacc)))
/-- The scratchpad bases at which teams of a set fit on a core. -/
def State.room (s : State) (k : Task) (set : Nat) (c : CoreId) : List Nat := k.launch.fits (s.coreTakes k.tid set c)
/-- Window ranges reserved at a hub for other sets (R86). -/
def State.heldWindows (s : State) (tid set die cluster : Nat) : List (Nat × Nat) :=
  s.sched.tasks.flatMap fun k => k.sets.flatMap fun x =>
    if k.tid = tid ∧ x.k = set then []
    else match x.reserved with
    | some ⟨p :: _, a⟩ => if p.core.die = die ∧ p.core.cluster = cluster then [(a, a + k.launch.cwSize)] else []
    | _ => []
/-- Window ranges in use at a hub, or reserved there for sets other than one. -/
def State.windowTakes (s : State) (tid set die cluster : Nat) : List (Nat × Nat) :=
  ((s.teams.filter fun t => t.cwDie == die && t.cwCluster == cluster).map fun t => (t.cwbase, t.cwbase + (s.launchOf t.tid).cwSize)) ++
  s.heldWindows tid set die cluster
/-- A free window for a set at a hub. -/
def State.freeWindow (s : State) (k : Task) (set die cluster : Nat) : Option Nat :=
  (freeBases (s.windowTakes k.tid set die cluster) (2 ^ 21) k.launch.cwSize).head?

/-- The pool's tower, start and end (R416). -/
def State.poolRange (s : State) : Nat × Nat × Nat :=
  let b := s.reg offSTPBASE
  let lo := bits b 35 16 * 65536
  (bits b 46 40, lo, min dramTop (lo + s.reg offSTPSIZE * 65536))
/-- A block as a range of the pool. -/
def BlockLoc.range? : BlockLoc → Option (Nat × Nat)
  | .pool _ a n => some (a, a + n)
  | _ => Option.none
/-- The blocks of the pool that are allocated (R416). -/
def State.poolTakes (s : State) : List (Nat × Nat) :=
  (s.teams.filterMap fun t => t.block.range?) ++ (s.sched.saved.filterMap fun t => t.block.range?) ++
  ((s.mills.filter fun m => m.st != .halt).filterMap fun m => m.block.range?) ++ (s.sched.savedMills.filterMap fun m => m.block.range?)
/-- Take `n` blocks of a size from the pool, each at the lowest place that is free. -/
def State.takeBlocks (s : State) (size : Nat) : Nat → List (Nat × Nat) → Option (List BlockLoc)
  | 0, _ => some []
  | n + 1, busy =>
    let p := s.poolRange
    let fits (a : Nat) : Bool := decide (p.2.1 ≤ a) && decide (a + size ≤ p.2.2) && clear busy a (a + size)
    match ((p.2.1 :: busy.map fun b => b.2).filter fits).min? with
    | some a => (State.takeBlocks s size n ((a, a + size) :: busy)).map fun bs => .pool p.1 a size :: bs
    | none => none
/-- Blocks for some teams of a task: under STABLE, or from the pool (R93). -/
def State.blocksFor (s : State) (k : Task) (teams : List Nat) : Option (List BlockLoc) :=
  if k.stable ≠ 0 then some (teams.map fun t => .va (k.stable + t * k.launch.blockSize))
  else s.takeBlocks k.launch.blockSize teams.length s.poolTakes
/-- The blocks that a set needs from its start (R93). -/
def State.startBlocks (s : State) (k : Task) (teams : List Nat) : Option (List BlockLoc) :=
  if k.stable = 0 ∧ k.launch.privbytes = 0 then some (teams.map fun _ => .none) else s.blocksFor k teams

/-! ### Finding places (R88, R94) -/

/-- The cores of a place, in order. -/
def unitCores (u : List (Nat × Nat)) : List CoreId := u.flatMap fun c => (List.range 16).map fun i => ⟨c.1, c.2, i⟩
/-- What is reserved for a set. -/
def Task.reserveOf (k : Task) (set : Nat) : Option Reserve := (k.sets.find? fun x => x.k == set).bind fun x => x.reserved
/-- The free places of a unit for teams of a set. -/
def State.unitSpots (s : State) (k : Task) (set : Nat) (u : List (Nat × Nat)) : List TeamSpot :=
  ((unitCores u).filter s.coreOpen).flatMap fun c => (s.room k set c).map fun b => ⟨c, b⟩
/-- Put the places of the first cluster whose hub has a window first. -/
def State.withWindow (s : State) (k : Task) (set : Nat) (spots : List TeamSpot) (n : Nat) : Option (List TeamSpot × Nat) :=
  spots.findSome? fun p =>
    let here (x : TeamSpot) : Bool := x.core.die == p.core.die && x.core.cluster == p.core.cluster
    (s.freeWindow k set p.core.die p.core.cluster).map fun a =>
      (((spots.filter here) ++ spots.filter fun x => !here x).take n, a)
/-- A range of a size lies in granules of 4 KiB below a top and meets none of some ranges. -/
def fitsAt (busy : List (Nat × Nat)) (top base size : Nat) : Bool :=
  size == 0 || (clear busy base (base + size) && base % 4096 == 0 && decide (base + size ≤ top))
/-- A team of a launch fits beside something on a core, with its scratchpad at a base. -/
def Launch.fitsAt (l : Launch) (u : Takes) (base : Nat) : Bool :=
  decide (u.slots + l.slots ≤ 16) && decide (u.regs + l.regs ≤ 384) && decide (u.tiles + l.nacc ≤ 16) &&
  Machine.fitsAt u.sp 262144 base l.spSize
/-- The matrix operations and the copies that the saved teams placed on a core bring back (R160). -/
def State.coming (s : State) (c : CoreId) : Nat × Nat :=
  let xs := s.sched.saved.filter fun x => s.teams.any fun t => t.core == c && t.tid == x.tid && t.team == x.team && !t.started
  ((xs.map fun x => x.nops).sum, (xs.map fun x => x.ncopies).sum)
/-- The queues of a core have room for what some saved teams bring back (R160). -/
def State.queuesTake (s : State) (c : CoreId) (ops copies : Nat) : Bool :=
  decide ((s.core c).mq.length + ops ≤ 8) && decide ((s.core c).cq.length + copies ≤ 16)
/-- What a saved team brings back. -/
def State.savedOps (s : State) (tid team : Nat) : Nat × Nat :=
  match s.sched.saved.find? fun x => x.tid == tid && x.team == team with
  | some x => (x.nops, x.ncopies)
  | none => (0, 0)
/-- Whether a core can take a team of a set with its scratchpad at a given base. -/
def State.takesAt (s : State) (k : Task) (set team : Nat) (c : CoreId) (base : Nat) : Bool :=
  let n := s.coming c
  let own := s.savedOps k.tid team
  k.launch.fitsAt (s.coreTakes k.tid set c) base && s.queuesTake c (n.1 + own.1) (n.2 + own.2)
/-- Places for a set that has not started: the spots of its teams, and the window. A set that has aged goes to what is
reserved for it. -/
def State.findSpots (s : State) (k : Task) (set : Nat) : Option (List TeamSpot × Nat) :=
  let n := (k.launch.setTeams set).length
  if (s.startBlocks k (k.launch.setTeams set)).isNone then none
  else match k.reserveOf set with
  | some r => some (r.spots, r.cwbase)
  | none => (s.hintUnits k.launch.coloc (k.hint set)).findSome? fun u =>
    let spots := s.unitSpots k set u
    if spots.length < n then none else s.withWindow k set spots n
/-- A team that has its resources and has not started. -/
def Team.reserved (tid team set : Nat) (p : TeamSpot) (cw : Nat × Nat × Nat) (b : BlockLoc) : Team :=
  { tid := tid, team := team, set := set, core := p.core, spbase := p.spbase, cwbase := cw.2.2, cwDie := cw.1, cwCluster := cw.2.1
    started := false, epoch := 0, sp := [], spBad := [], priv := [], tiles := [], barriers := Vector.replicate 16 ⟨0, false⟩
    tethCounted := 0, tethLatched := 0, tethEnded := 0, block := b }
/-- The teams of a stabled set with their saved bases (R94), in team order. -/
def State.savedOf (s : State) (tid set : Nat) : List SavedTeam :=
  sortBy (fun a b => decide (a.team ≤ b.team)) (s.sched.saved.filter fun x => x.tid == tid && x.set == set)
/-- Give teams cores one by one, each at its own scratchpad base: the first core of a unit that takes it. -/
def State.fitSaved (s : State) (k : Task) (set : Nat) (cores : List CoreId) : List SavedTeam → Option (List TeamSpot)
  | [] => some []
  | x :: xs =>
    (cores.find? fun c => s.takesAt k set x.team c x.spbase).bind fun c =>
      let p : TeamSpot := ⟨c, x.spbase⟩
      let s := { s with teams := s.teams ++ [Team.reserved k.tid x.team set p (72, 0, 0) .none] }
      (State.fitSaved s k set cores xs).map fun ps => p :: ps
/-- Places for a stabled set: its teams in order, the first of them in a cluster whose hub has its window free. -/
def State.findResume (s : State) (k : Task) (set : Nat) : Option (List TeamSpot) :=
  let xs := s.savedOf k.tid set
  match xs, k.reserveOf set with
  | [], _ => some []
  | _, some r => some r.spots
  | x :: _, none =>
    (s.hintUnits k.launch.coloc (k.hint set)).findSome? fun u => u.findSome? fun c =>
      if fitsAt (s.windowTakes k.tid set c.1 c.2) (2 ^ 21) x.cwbase k.launch.cwSize then
        let all := (unitCores u).filter s.coreOpen
        let first := all.filter fun i => i.die == c.1 && i.cluster == c.2
        (first.find? fun i => s.takesAt k set x.team i x.spbase).bind fun i =>
          let p : TeamSpot := ⟨i, x.spbase⟩
          let s' := { s with teams := s.teams ++ [Team.reserved k.tid x.team set p (72, 0, 0) .none] }
          (s'.fitSaved k set all xs.tail).map fun ps => p :: ps
      else none
/-! ### Placement (R72, R88) -/

/-- The clusters of a COLOC unit: two clusters lie in one (R88). -/
def sameUnit (coloc : Nat) (a b : Nat × Nat) : Bool :=
  match coloc with
  | 1 => a == b
  | 2 => a.1 == b.1
  | _ => dieSheet a.1 == dieSheet b.1
/-- Put teams on their spots one by one, when each is free. -/
def State.seat (s : State) (k : Task) (set : Nat) (cw : Nat × Nat × Nat) : List (Nat × TeamSpot × BlockLoc) → Option State
  | [] => some s
  | (t, p, b) :: rest =>
    let h := k.hint set
    if p.core.die < 72 ∧ p.core.cluster < s.boot.clusters ∧ p.core.core < 16 ∧ s.coreOpen p.core = true ∧
        (!h.strict || h.allows p.core.die p.core.cluster) = true ∧ s.takesAt k set t p.core p.spbase = true then
      State.seat { s with teams := s.teams ++ [Team.reserved k.tid t set p cw b] } k set cw rest
    else none
/-- The dies of some spots, each once. -/
def spotDies (spots : List TeamSpot) : List Nat := spots.foldl (fun l p => insertAsc l p.core.die) []
/-- Reserve the resources of a set, and enter PLACED: the invalidations of its dies begin. A set that has aged goes only to
what is reserved for it (R86). -/
def State.enterPlaced (s : State) (k : Task) (set : Nat) (teams : List (Nat × TeamSpot × BlockLoc)) (cwbase : Nat) (resume : Bool) : Option State :=
  match teams with
  | [] => none
  | (_, p, _) :: _ =>
    let clusterOf (x : TeamSpot) : Nat × Nat := (x.core.die, x.core.cluster)
    let w := (p.core.die, p.core.cluster, cwbase)
    let size := k.launch.cwSize
    if ¬ (teams.all fun x => sameUnit k.launch.coloc (clusterOf p) (clusterOf x.2.1)) ∨
        fitsAt (s.windowTakes k.tid set w.1 w.2.1) (2 ^ 21) cwbase size = false ∨
        ((k.reserveOf set).any fun r => r.spots != teams.map (fun x => x.2.1) || r.cwbase != cwbase) = true then none
    else (s.seat k set w teams).map fun s =>
      let dies := spotDies (teams.map fun x => x.2.1)
      s.putTask { k with st := .placed, couched := k.couched.filter fun c => !resume || !dies.contains c.1
                         sets := k.sets.map fun x => if x.k = set then { x with st := .placed dies resume, reserved := none } else x }
/-- Place a set that has not started. -/
def State.place (s : State) (k : Task) (set : Nat) (spots : List TeamSpot) (cwbase : Nat) : Option State :=
  let ts := k.launch.setTeams set
  if spots.length ≠ ts.length then none
  else match s.startBlocks k ts with
  | some bs => s.enterPlaced k set (ts.zip (spots.zip bs)) cwbase false
  | none => none

/-- Place a stabled set again, each team on its spot. -/
def State.resumeAt (s : State) (k : Task) (set : Nat) (spots : List TeamSpot) : Option State :=
  let xs := s.savedOf k.tid set
  if spots.map (fun p => p.spbase) ≠ xs.map (fun y => y.spbase) then none
  else s.enterPlaced k set ((xs.zip spots).map fun y => (y.1.team, y.2, .none)) ((xs.map fun y => y.cwbase).headD 0) true

/-- The next set of a task can be placed now. -/
def State.canPlace (s : State) (k : Task) : Bool :=
  match k.nextSet with
  | some x => (match x.st with
    | .stabled => ((s.findResume k x.k).bind (s.resumeAt k x.k)).isSome
    | _ => ((s.findSpots k x.k).bind fun r => s.place k x.k r.1 r.2).isSome)
  | none => false
/-- No other task that can be placed goes before a task (R86). -/
def State.mayGo (s : State) (k : Task) : Bool :=
  let before := s.earlier k.tid
  s.sched.tasks.all fun j => j.tid == k.tid || !j.placeable ||
    !(decide (s.effPrio k < s.effPrio j) || (s.effPrio j == s.effPrio k && before.any fun e => e.tid == j.tid)) || !s.canPlace j

/-- TASK_PLACE (R65, R72, R86, R88, R89, R160): a whole team set gets its cores, its scratchpad and its window. -/
def execTaskPlace (tid set : Nat) (spots : List TeamSpot) (cwbase : Nat) (s : State) : Out := s.happens <|
  match s.task? tid with
  | none => none
  | some k =>
    match k.nextSet with
    | some x =>
      if k.placeable = false ∨ x.k ≠ set ∨ x.st ≠ .unplaced ∨ s.arbRuns = false ∨ s.mayGo k = false then none
      else s.place k set spots cwbase
    | none => none

/-- TASK_RESUME (R72, R94, R182): a stabled set gets cores again, each team its scratchpad at the base it had. -/
def execTaskResume (tid set : Nat) (spots : List TeamSpot) (s : State) : Out := s.happens <|
  match s.task? tid with
  | none => none
  | some k =>
    match k.nextSet with
    | some x =>
      if k.placeable = false ∨ x.k ≠ set ∨ x.st ≠ .stabled ∨ s.arbRuns = false ∨ s.mayGo k = false then none
      else s.resumeAt k set spots
    | none => none

/-- A range of a size for a reservation: at a base that is given; otherwise where it is free of everything, and if it is so
nowhere, at the lowest place that is not itself reserved. -/
def reserveBase (busy held : List (Nat × Nat)) (top size : Nat) (at' : Option Nat) : Option Nat :=
  match at' with
  | some a => if fitsAt held top a size then some a else none
  | none => ((freeBases busy top size) ++ freeBases held top size).head?
/-- Places for teams on cores, each on the first core that could take it beside what is reserved, were nothing else there: a
team that has been saved keeps its base (R86, R94). -/
def State.reserveSpots (s : State) (k : Task) (set : Nat) (cores : List CoreId) : List (Option Nat) → List TeamSpot → Option (List TeamSpot)
  | [], got => some got
  | b :: bs, got =>
    (cores.findSome? fun c =>
      let mine : Takes := (got.filter fun p => p.core == c).foldl (fun a p => a.add (k.launch.takes p.spbase)) ⟨0, 0, 0, []⟩
      let held := (s.heldTakes k.tid set c).add mine
      (reserveBase ((s.coreTakes k.tid set c).add mine).sp held.sp 262144 k.launch.spSize b).bind fun a =>
        if k.launch.fitsAt held a then some (⟨c, a⟩ : TeamSpot) else none).bind fun p =>
      State.reserveSpots s k set cores bs (got ++ [p])
/-- A reservation in a place, on the cores with the most room first, ties going to the lower core, and with the window at the
hub of the first of them. -/
def State.reserveIn (s : State) (k : Task) (set : Nat) (u : List (Nat × Nat)) : Option Reserve :=
  let xs := s.savedOf k.tid set
  let bases := if xs = [] then (k.launch.setTeams set).map fun _ => none else xs.map fun x => some x.spbase
  let free (c : CoreId) : Nat := (s.room k set c).length
  let cores := sortBy (fun a b => decide (free b ≤ free a)) ((unitCores u).filter s.coreOpen)
  (s.reserveSpots k set cores bases []).bind fun ps =>
    match ps with
    | [] => none
    | p :: _ =>
      let d := p.core.die
      let c := p.core.cluster
      (reserveBase (s.windowTakes k.tid set d c) (s.heldWindows k.tid set d c) (2 ^ 21) k.launch.cwSize
        (xs.head?.map fun x => x.cwbase)).map fun a => ⟨ps, a⟩

/-- A set has nothing reserved for it, or its reservation names a core that takes teams no more. -/
def State.unreserved (s : State) (x : TeamSet) : Bool :=
  match x.reserved with | some r => r.spots.any fun p => !s.coreOpen p.core | none => true
/-- AGEING_RESERVE (R86): a task that has waited more than 4 ms at effective priority 7 gets a target for its next set:
the place that its entry allows with the most room, where what the set needs is reserved (log entry 73). -/
def execAgeingReserve (tid set : Nat) (s : State) : Out :=
  match s.task? tid with
  | none => s.stays
  | some k =>
    match k.sets.find? fun x => x.st.off && s.unreserved x with
    | none => s.stays
    | some x =>
      if x.k ≠ set ∨ k.placeable = false ∨ s.arbRuns = false ∨ s.waitedNow k ≤ (11 - k.prio) * 1000000 then s.stays
      else
        let h := k.hint set
        let units := (if h.strict then s.namedUnits k.launch.coloc h else s.units k.launch.coloc).filter fun u => (s.reserveIn k set u).isSome
        let room (u : List (Nat × Nat)) : Nat := (s.unitSpots k set u).length
        match units with
        | [] => s.stays
        | u :: us =>
          let r := s.reserveIn k set (us.foldl (fun a b => if room a < room b then b else a) u)
          .next (s.setTask { k with sets := k.sets.map fun y => if y.k = set then { y with reserved := r } else y })

/-! ### Invalidation (R80, R83) -/

/-- The deckled lines of a die that a deckle meets. -/
def State.deckLines (s : State) (asid die : Nat) (d : Deckle) : List LineId :=
  ((s.mem.lines.filter fun l => nodeDie l.node == some die && l.a.asid == asid && l.attr.dk &&
    decide (d.base < (l.a.line + 1) * 256) && decide (l.a.line * 256 < d.base + d.extent)).map fun l => l.a).eraseDups
/-- A copy of a deckled line of a task is on its way into a die. -/
def State.fillsInto (s : State) (k : Task) (die : Nat) : Bool :=
  let mine (a : LineId) : Bool := a.asid == k.asid &&
    k.deckles.any fun d => decide (d.base < (a.line + 1) * 256) && decide (a.line * 256 < d.base + d.extent)
  (s.mem.net.any fun m => m.dst == .die die && (match m.body with
    | .data a _ _ _ _ v => v.dk && mine a
    | .dataX a _ _ _ _ _ _ v => v.dk && mine a
    | _ => false)) ||
  (s.mem.txns.any fun t => nodeDie t.node == some die && mine t.a && (match t.attr with | some v => v.dk | none => false))
/-- EDGE_INVALIDATE (R80, R83): every copy of the lines of the task's deckles leaves a placed die, dirty nibbles going
home; lines that the die has received by couch stay. -/
def execEdgeInvalidate (tid die : Nat) (s : State) : Out :=
  match s.task? tid with
  | none => s.stays
  | some k =>
    let due (x : TeamSet) : Bool := match x.st with | .placed ds _ => ds.contains die | _ => false
    if (k.sets.any due) = false ∨ s.siteRuns (.die die) = false ∨ s.fillsInto k die = true then s.stays
    else
      let s := k.deckles.foldl (fun s d =>
        ((s.deckLines k.asid die d).filter fun a => !k.couched.contains (die, a.line)).foldl (fun s a =>
          let last := match s.mem.line? (.l2 die) a with | some l => l.attr.home | none => 0
          s.flushDie die a last (.task tid)) s) s
      .next (s.setTask { k with sets := k.sets.map fun x => match x.st with
        | .placed ds r => { x with st := .placed (ds.erase die) r }
        | _ => x })

/-! ### The start of teams (R94, R148, R155, R159, R234) -/

/-- A group at team start (R159). -/
def Group.fresh (id : GroupRef) (l : Launch) : Group :=
  let zero : Lanes := List.replicate l.lanes 0
  { id := id, pc := BitVec.ofNat 64 (l.code + l.entry), widx := 0, q := Vector.replicate 16 zero, v := Vector.replicate 24 zero
    s := Vector.replicate 16 0, exm := maskOnes l.lanes, m := Vector.replicate 8 0, mstack := Vector.replicate 16 0, msdepth := 0
    flags := ⟨false, false, false, false⟩, batch := 1, trap := TrapRegs.zero, stat := .ready, wait := none, fence := none
    stall := MemStall.none, faultVa := 0, faultLanes := 0, cursor := 0, tethArr := 0, tethLatched := 0, cbarArr := 0
    lateFault := none, clause := [], ready := none, clauseStarts := 0, wordsIssued := 0, dbgmks := 0 }
/-- A team at its start: tiles at +0.0, barriers at generation 0; the rest is undefined (R159). -/
def Team.begin (t : Team) (l : Launch) (epoch : Nat) : Team :=
  { t with started := true, epoch := epoch, tiles := List.replicate l.nacc (List.replicate 1024 0) }
/-- Start a team whose groups are fresh. -/
def State.startTeam (s : State) (t : Team) (l : Launch) : State :=
  let s := s.setTeam (t.begin l s.fresh)
  { s with fresh := s.fresh + 1, groups := s.groups ++ (List.range l.ngrp).map fun n => Group.fresh ⟨t.tid, t.team, n⟩ l }

/-- A cancel that a slot record holds is delivered to its group, at the clause it met, unless a copy of the group holds it
too (R92, R129, R177, R182). -/
def State.deliverCancels (s : State) (t : Team) (k : Task) (parked : List ParkedGroup) (b : List (BitVec 8)) : State :=
  let h := k.launch.lanes / 32
  (List.range k.launch.ngrp).foldl (fun s n =>
    let o := 0x1000 + 0x2000 * (h * n)
    let w := fld b (o + 0x1544) 4
    let copy := (List.range 16).any fun e =>
      fld b (0x300 + 64 * e + 2) 1 == 1 && fld b (0x300 + 64 * e) 1 == n && fld b (0x300 + 64 * e + 0x30) 4 == fld b (o + 0x1540) 4
    match s.group? ⟨t.tid, t.team, n⟩, s.team? t.tid t.team, s.task? t.tid with
    | some g, some t, some k =>
      let g := { g with clause := ((parked.find? fun p => p.grp == n).map fun p => p.clause).getD [] }
      if bit w 0 && bit w 7 && !copy then s.takeFault ⟨g, t, k⟩ cTRANSL g.faultVa g.faultLanes else s
    | _, _, _ => s) s
/-- Restore a team from its block (R94, R182). -/
def State.restoreTeam (s : State) (t : Team) (k : Task) : Own Unit :=
  match s.sched.saved.find? fun x => x.tid == t.tid && x.team == t.team with
  | none => .ok () s
  | some x =>
    match s.blockRead (s.dieHomeOf t.core.die) k.asid x.block 0 k.launch.blockSize with
    | .busy => .busy
    | .bad c s => .bad c s
    | .ok b s =>
      let r := x.restore k.launch t.core t.cwDie t.cwCluster b
      let core := s.core t.core
      let s := (s.setTeam r.team).setCore { core with mq := core.mq ++ r.ops, cq := core.cq ++ r.copies }
      let s := { s with groups := s.groups ++ r.groups, sched := { s.sched with saved := s.sched.saved.erase x } }
      .ok () (s.deliverCancels r.team k x.parked b)

/-- The acquire with which teams start and resume, at .pk or at .sy, and the cores' instruction caches without the ASID's
lines. -/
def State.openCore (s : State) (asid : Nat) (sys : Bool) (c : CoreId) : State :=
  let s := s.acquired c (if sys then 5 else 4)
  let k := s.core c
  if k.icache.any fun l => l.asid == asid then s.setCore { k with icache := k.icache.filter fun l => l.asid != asid } else s

/-- Couch data for a task is on its way (R72). -/
def State.couching (s : State) (tid : Nat) : Bool :=
  s.mem.net.any fun m => match m.body with | .couchData _ tids _ _ _ => tids.contains tid | _ => false
/-- The queues of a core have room for what those of some teams that are placed there bring back (R160). -/
def State.roomFor (s : State) (ts : List Team) (c : CoreId) : Bool :=
  let ns := (ts.filter fun t => t.core == c).map fun t => s.savedOps t.tid t.team
  s.queuesTake c (ns.map fun n => n.1).sum (ns.map fun n => n.2).sum

/-- TEAM_START (R72, R81, R91, R94, R148, R154, R155, R159, R160, R182, R234): when a set's invalidations and couch
receptions have ended, and a couch producer's write-back with them, its teams start, or are restored. The start that R91
counts 100 µs from is read on sheet 0's counter, the arbiter's (DESIGN CHOICE, log entry 119). -/
def execTeamStart (tid set : Nat) (s : State) : Out := s.happens <|
  match s.task? tid with
  | none => none
  | some k =>
    let ts := s.teams.filter fun t => t.tid == tid && t.set == set
    match k.sets.find? fun x => x.k == set with
    | none => none
    | some x =>
      match x.st with
      | .placed [] resume =>
        if k.faulted ∨ k.couchOf.isSome = true ∨ s.taskWrites tid = true ∨ s.couching tid = true ∨
            (ts.any fun t => s.invToward t.core 4 || !s.siteRuns (.die t.core.die) || !s.roomFor ts t.core) = true ∨
            (k.sysEdge && !s.mem.backInv.isEmpty) = true then none
        else
          let s := ts.foldl (fun s t => s.openCore k.asid k.sysEdge t.core) s
          let r : Own Unit := ts.foldl (fun r t =>
            match r with
            | .ok _ s => if resume then s.restoreTeam t k else .ok () (s.startTeam t k.launch)
            | r => r) (.ok () s)
          match r with
          | .busy => none
          | .bad c s => 
            let d := match ts with | t :: _ => t.core.die | [] => 0
            some (s.taskFault (dieSheet d) d tid c 0)
          | .ok _ s =>
            match s.task? tid with
            | none => some s
            | some k => some (s.putTask { k with
                dies := ts.foldl (fun l t => insertAsc l t.core.die) k.dies
                sets := k.sets.map fun y => if y.k = set then { y with st := .running, since := s.sheetNow 0 } else y })
      | _ => none

end Sys2Proof.Machine
end

