-- ==== Sys2Proof/Machine/Preempt.lean ====
section
/-! DEFINITION. Pre-emption of core tasks (R83, R87, R91 to R95, R155, R181 to R183). -/

namespace Sys2Proof.Machine

/-! ### The choice (R91) -/

/-- The teams of a set. -/
def State.setTeamsOf (s : State) (tid set : Nat) : List Team := s.teams.filter fun t => t.tid == tid && t.set == set
/-- The state without the teams of some sets. -/
def State.without (s : State) (sets : List (Nat × Nat)) : State :=
  { s with teams := s.teams.filter fun t => !sets.contains (t.tid, t.set) }
/-- The blocks that a set's teams still need for its state (R93). -/
def State.stableSpace (s : State) (k : Task) (set : Nat) : Option (List BlockLoc) :=
  let ts := s.setTeamsOf k.tid set
  if ts.all fun t => t.block != .none then some (ts.map fun t => t.block) else s.blocksFor k (ts.map fun t => t.team)
/-- A set that a task of a base priority may have pre-empted: it has run 100 µs or is placed and does not run yet, and
its state can be kept (R72, R83, R91). -/
def State.victim (s : State) (prio : Nat) (k : Task) (x : TeamSet) : Bool :=
  decide (k.prio + 2 ≤ prio) && !k.faulted &&
  (match x.st with
    | .running => decide (x.since + 100000 ≤ s.sheetNow 0) && (s.stableSpace k x.k).isSome
    | .placed [] _ => true
    | _ => false)
/-- The sets that may be taken: the lowest base priority first, and in it the most recently started first. Of sets that started
at one counter value, that of the task admitted first goes first, and then the lower set (DESIGN CHOICE, log entry 121). -/
def State.victims (s : State) (prio : Nat) : List (Task × TeamSet) :=
  sortBy (fun a b => decide (a.1.prio < b.1.prio) || (a.1.prio == b.1.prio && decide (b.2.since ≤ a.2.since)))
    (s.sched.tasks.flatMap fun k => (k.sets.filter (s.victim prio k)).map fun x => (k, x))
/-- The sets whose pre-emption is under way. -/
def State.leaving (s : State) : List (Nat × Nat) :=
  s.sched.tasks.flatMap fun k => (k.sets.filter fun x => match x.st with | .preempt _ => true | _ => false).map fun x => (k.tid, x.k)

/-- Stable blocks for every one of some sets together: each takes its own from what the others leave (R91, R93). -/
def State.spaceFor (s : State) : List (Task × TeamSet) → Bool
  | [] => true
  | (k, x) :: rest =>
    match x.st with
    | .placed _ _ => State.spaceFor s rest
    | _ =>
      match s.stableSpace k x.k with
      | none => false
      | some bs => State.spaceFor (((s.setTeamsOf k.tid x.k).zip bs).foldl (fun s p => s.setTeam { p.1 with block := p.2 }) s) rest

/-- A set leaves PLACED: its resources are freed, and there is no state to save (R72). -/
def State.unplace (s : State) (k : Task) (set : Nat) (resume : Bool) : State :=
  (s.without [(k.tid, set)]).putTask { k with
    sets := k.sets.map fun x => if x.k = set then { x with st := if resume then .stabled else .unplaced } else x }

/-- PREEMPT_CHOOSE (R72, R83, R87, R91, R93): for a task that cannot be placed, the next set in the order of R91 is taken,
when taking sets in that order frees enough. -/
def execPreemptChoose (tid vtid vset : Nat) (s : State) : Out := s.happens <|
  match s.task? tid, s.task? vtid with
  | some k, some v =>
    let vs := s.victims k.prio
    let after (n : Nat) : State := s.without (s.leaving ++ (vs.take n).map fun p => (p.1.tid, p.2.k))
    match vs with
    | [] => none
    | (w, x) :: _ =>
      if w.tid ≠ vtid ∨ x.k ≠ vset ∨ (k.st ≠ .ready ∧ k.st ≠ .stabled) ∨ k.placeable = false ∨ s.arbRuns = false ∨
          (after 0).canPlace k = true ∨
          ((List.range vs.length).any fun n => (after (n + 1)).canPlace k && s.spaceFor (vs.take (n + 1))) = false then
        none
      else match x.st with
        | .placed _ resume => some (s.unplace v vset resume)
        | _ =>
          match s.stableSpace v vset with
          | none => none
          | some bs =>
            let ts := s.setTeamsOf vtid vset
            let s := (ts.zip bs).foldl (fun s p => s.setTeam { p.1 with block := p.2 }) s
            some (s.putTask { v with sets := v.sets.map fun y => if y.k = vset then { y with st := .preempt 1 } else y })
  | _, _ => none

/-! ### The sequence (R92, R95, R155) -/

/-- The step a set has reached. -/
def State.setStep (s : State) (k : Task) (set n : Nat) : State :=
  s.putTask { k with sets := k.sets.map fun x => if x.k = set then { x with st := .preempt n } else x }
/-- A group whose wfa pre-emption ends (R343). -/
def State.stopWfa (s : State) (g : Group) : State :=
  match g.wait, s.team? g.id.tid g.id.team, s.task? g.id.tid with
  | some (.wfa _ _ _), some t, some k => s.settle ⟨g, t, k⟩ 1 (.done g s)
  | _, _, _ => s
/-- Coherent lines of an ASID that a die's path has not registered. -/
def State.wLines (s : State) (asid die : Nat) : List Line :=
  s.mem.lines.filter fun l => l.st == .w && !l.attr.dk && l.a.asid == asid &&
    (nodeDie l.node == some die || match l.node with | .slice _ => l.kids.any (fun k => k.node == .l2 die) | _ => false)
/-- What the release of the groups of a die has come to. -/
inductive Releasing
  | done
  /-- Lines are registered now; others follow. -/
  | going (s : State)
  | wait
/-- The release at .pk that the dispatchers make for the groups of some dies: every W line is registered, and what has left
the dies in W has reached the homes (R138, R148, R155). -/
def State.releaseDies (s : State) (asid : Nat) (dies : List Nat) : Releasing :=
  let ls := dies.flatMap (s.wLines asid)
  match ls, ls.filter fun l => s.canRegister l.node l.a with
  | [], _ => if dies.any fun d => s.nibblesOut d fun a => a.asid == asid then .wait else .done
  | _, [] => .wait
  | _, can => .going (can.foldl (fun s l => if s.canRegister l.node l.a then s.register l.node l.a else s) s)
/-- Write the dirty nibbles of a deckled line of a die home for a task; the line stays, clean (R80). -/
def State.cleanFor (s : State) (tid : Nat) (l : Line) : State :=
  let s := s.writeBack l.node l.node l.a l.attr.home l.val l.dirty false (.task tid)
  s.mapMem fun x => x.setLine { l with dirty := 0 }
/-- The dirty lines of the task's write deckles on a die, in deckle order and each in address order. -/
def State.cleanDie (s : State) (k : Task) (die : Nat) : State :=
  (k.deckles.filter fun d => d.w).foldl (fun s d =>
    (s.dirtyLines k.asid die d.base (d.base + d.extent)).foldl (fun s l => s.cleanFor k.tid l) s) s

/-- A team whose lane-private memory has bytes in a line of an ASID on a die, with those bytes as offset in the team's block and byte
(R98, R181). -/
def State.privIn (s : State) (die asid line : Nat) : Option (Team × List (Nat × BitVec 8)) :=
  s.teams.findSome? fun t =>
    match s.task? t.tid, t.block with
    | some k, .va b =>
      let cells := (t.priv.map fun c => (k.launch.privAt + c.1, c.2)).filter fun c => (b + c.1) / 256 == line
      if t.core.die = die ∧ k.asid = asid ∧ cells ≠ [] then some (t, cells) else none
    | _, _ => none
/-- A lane-private line leaves the L2 of a die: its bytes reach the block that backs them (R96, R98, R102; log entry 47). -/
def State.privEvict (s : State) (die asid line : Nat) : Option State :=
  (s.privIn die asid line).bind fun p =>
    match p.2.foldl (fun (r : Own Unit) c => match r with
      | .ok _ s => s.blockWrite (s.dieHomeOf die) asid p.1.block c.1 [c.2]
      | r => r) (.ok () s) with
    | .ok _ s => some s
    | _ => none
/-- A level gives a line's place up, when it can. -/
def State.evictLine (s : State) (node : Node) (asid line : Nat) : Option State :=
  let a : LineId := ⟨asid, line⟩
  match s.mem.line? node a with
  | none => (match node with
    | .l2 d => if s.siteRuns (.die d) then s.privEvict d asid line else none
    | _ => none)
  | some l =>
    if !s.canEvict node a then none
    else match node with
      | .l1 c => some (s.evictL1 c l)
      | .l2 d => some (s.flushDie d a l.attr.home .none)
      | _ => if l.kids = [] then some (s.mapMem fun x => x.dropLine node a) else none
/-- LINE_EVICTION (R98, R103, R106, R110, R198): a level gives a line's place up; an error in the line, or in the directory's entry of
it, has its effect before that. -/
def execLineEviction (node : Node) (asid line : Nat) (ecc : Ecc) (s : State) : Out := s.happens <|
  (s.evictLine node asid line).map fun u =>
    if ecc = .clean then u
    else
      let a : LineId := ⟨asid, line⟩
      let t := s.found ecc (some (if holdsData node then .line node a else .entry node a))
      (t.evictLine node asid line).getD t

/-- A team as it is saved. -/
def State.savedTeam (s : State) (t : Team) : SavedTeam :=
  let gs := s.teamGroups t.tid t.team
  let cs := s.teamCopies t
  { tid := t.tid, team := t.team, set := t.set, spbase := t.spbase, cwbase := t.cwbase, block := t.block
    fids := ((gs.map Group.fid) ++ cs.map Copy.fid).filter fun f => f != 0
    parked := gs.filterMap fun g => match g.stat with | .parked _ => some ⟨g.id.grp, g.faultVa, g.faultLanes, g.clause⟩ | _ => none
    arriving := gs.filterMap fun g => match g.wait with | some (.tarr _) => some g.id.grp | _ => none
    late := gs.filterMap fun g => g.lateFault.map fun va => (g.id.grp, va)
    nops := ((s.teamOps t).take 8).length, ncopies := cs.length, spBad := t.spBad, epoch := t.epoch
    tethCounted := t.tethCounted, tethEnded := t.tethEnded }
/-- A team's state has gone to its block: only its resources are still held. -/
def State.strip (s : State) (t : Team) : State :=
  let x := s.savedTeam t
  let core := s.core t.core
  let mine (g : GroupRef) : Bool := g.tid == t.tid && g.team == t.team
  let s := s.setCore { core with mq := core.mq.filter fun o => !mine o.g, cq := core.cq.filter fun c => !mine c.g }
  let s := s.setTeam { t with started := false, tethCounted := 0, tethEnded := 0 }
  let s := s.mapMem fun m => { m with reqs := m.reqs.filter fun r => match r.body with | .tnow g _ => !mine g | _ => true }
  { s with groups := s.groups.filter fun g => !mine g.id, sched := { s.sched with saved := s.sched.saved ++ [x] } }
/-- Write the blocks of some teams. -/
def State.writeBlocks (s : State) (k : Task) (ts : List Team) : Own Unit :=
  ts.foldl (fun r t =>
    match r with
    | .ok _ s => s.blockWrite (s.dieHomeOf t.core.die) k.asid t.block 0 (s.teamBlock t k.launch)
    | r => r) (.ok () s)
/-- The matrix operation at the head of a core's queue has one k-step left, which takes fewer than 64 clocks. -/
def lastStep (o : MatOp) : Bool :=
  match o.kind with
  | .mma => let f := FmtBlock.ofBytes o.fmt; decide (32 ≤ o.progress + (kPer f.acode f.bcode).getD 32)
  | .mmaz => let f := FmtBlock.ofBytes o.fmt; decide (32 ≤ o.progress + (kPer f.acode f.bcode).getD 32)
  | _ => false
/-- Complete it. -/
def State.finishHead (s : State) (tid set : Nat) (c : CoreId) : State :=
  match (s.core c).mq with
  | o :: _ =>
    if o.g.tid = tid ∧ ((s.team? tid o.g.team).any fun t => t.set == set) = true ∧ lastStep o = true then
      (match execMatrixKStep c .clean s with | .next s => s | _ => s)
    else s
  | [] => s

/-- Copies of some teams of a task have still to drain; a parked one that a replay has made active does so too (R170). -/
def State.copiesRun (s : State) (tid : Nat) (ts : List Team) : Bool :=
  s.cores.any fun c => c.cq.any fun q => q.g.tid == tid && (ts.any fun t => t.team == q.g.team) &&
    (q.state == .queued || q.state == .active)

/-- PREEMPT_SEQUENCE (R92, R95, R155, R182, R183): the next of the steps by which a set leaves its cores: issue stops,
copies drain, matrix operations stop, the state is written, and the write deckles are written back. -/
def execPreemptSequence (tid set : Nat) (s : State) : Out := s.happens <|
  match s.task? tid with
  | none => none
  | some k =>
    let ts := s.setTeamsOf tid set
    let gs := s.setGroups tid set
    let dies := ts.foldl (fun l t => insertAsc l t.core.die) []
    match k.sets.find? fun x => x.k == set with
    | none => none
    | some x =>
      if k.faulted = true ∨ (ts.any fun t => !s.siteRuns (.die t.core.die)) = true then none
      else match x.st with
      | .preempt 1 =>
        if gs.any fun g => g.midWord || g.stat == .exiting then none
        else
          let s := gs.foldl (fun s g => s.stopWfa g) s
          some ((ts.foldl (fun s t => s.setTeam { t with started := false }) s).setStep k set 2)
      | .preempt 2 =>
        if s.copiesRun tid ts then none else some (s.setStep k set 3)
      | .preempt 3 =>
        let cores := (ts.map fun t => t.core).eraseDups
        some ((cores.foldl (fun s c => s.finishHead tid set c) s).setStep k set 4)
      | .preempt 4 =>
        if s.copiesRun tid ts then none
        else match s.releaseDies k.asid dies with
        | .wait => none
        | .going s => some s
        | .done =>
          match s.writeBlocks k ts with
          | .busy => none
          | .bad c s => 
            let d := match ts with | t :: _ => t.core.die | [] => 0
            some (s.taskFault (dieSheet d) d tid c 0)
          | .ok _ s => some ((ts.foldl (fun s t => s.strip t) s).setStep k set 5)
      | .preempt 5 => some ((dies.foldl (fun s d => s.cleanDie k d) s).setStep k set 6)
      | _ => none

/-- PREEMPT_COMPLETE (R72, R92): the write-backs have been performed, and the set's resources are freed. -/
def execPreemptComplete (tid set : Nat) (s : State) : Out :=
  match s.task? tid with
  | none => s.stays
  | some k =>
    let own : WbOwner → Bool := fun o => match o with
      | .task t => t == tid
      | .group g => g.tid == tid && (s.setTeamsOf tid set).any fun t => t.team == g.team
      | .none => false
    let busy := s.mem.net.any fun m => match m.body with | .wbDirty _ _ _ _ _ o => own o | _ => false
    match k.sets.find? fun x => x.k == set with
    | none => s.stays
    | some x =>
      if x.st ≠ .preempt 6 ∨ busy = true ∨ s.arbRuns = false then s.stays
      else .next ((s.without [(tid, set)]).putTask { k with
        sets := k.sets.map fun y => if y.k = set then { y with st := .stabled } else y })

end Sys2Proof.Machine
end

