-- ==== Sys2Proof/Machine/Drain.lean ====
section
/-! DEFINITION. The end of a task: faults (R73), DRAIN with its write-backs and couch data (R80, R81, R148), DONE with the
completion store (R66) and the successors (R74, R75), and the registers of the stable pool (R416). -/

namespace Sys2Proof.Machine

/-! ### A task that faulted (R73, R189) -/

/-- Nothing of a task is left on cores, on mills, or in stable blocks. -/
def State.ended (s : State) (k : Task) : Bool :=
  (k.sets.all fun x => x.st == .exited) && !(s.teams.any fun t => t.tid == k.tid) && !(s.mills.any fun m => m.tid == k.tid) &&
  !(s.sched.saved.any fun x => x.tid == k.tid) && !(s.sched.savedMills.any fun x => x.tid == k.tid)
/-- Take a task off every core, mill and block without saving anything. -/
def State.clearTask (s : State) (tid : Nat) : State :=
  let s := (s.mills.filter fun m => m.tid == tid).foldl (fun s m => s.releaseLocks m.id) s
  { s with
    groups := s.groups.filter fun g => g.id.tid != tid
    teams := s.teams.filter fun t => t.tid != tid
    mills := s.mills.filter fun m => m.tid != tid
    cores := s.cores.map fun c => { c with mq := c.mq.filter fun o => o.g.tid != tid, cq := c.cq.filter fun q => q.g.tid != tid }
    sched := { s.sched with saved := s.sched.saved.filter fun x => x.tid != tid
                            savedMills := s.sched.savedMills.filter fun x => x.tid != tid } }
/-- An access of a task's mills is on its way. -/
def State.millBusy (s : State) (tid : Nat) : Bool :=
  let mine (r : MillRef) : Bool := s.mills.any fun m => m.id == r && m.tid == tid
  (s.mem.net.any fun m => match m.body with | .millAcc r _ _ _ _ => mine r | _ => false) ||
  (s.mills.any fun m => m.tid == tid && m.rowBusy != [])

/-- The dispatchers and towers where a task has teams and mills run (R22). -/
def State.hostsRun (s : State) (tid : Nat) : Bool :=
  ((s.taskTeams tid).all fun t => s.siteRuns (.die t.core.die)) && (s.mills.all fun m => m.tid != tid || s.siteRuns (.tower m.id.tower))
/-- TASK_FAULT_END (R22, R73, R175, R189): the dispatchers stop every team and every mill of a task that has faulted; copies
drain first, and nothing is saved. -/
def execTaskFaultEnd (tid : Nat) (s : State) : Out :=
  match s.task? tid with
  | none => s.stays
  | some k =>
    let words := s.groups.any fun g => g.id.tid == tid && g.midWord && (s.issuerOf g.id).isSome
    let copies := s.cores.any fun c => c.cq.any fun q => q.g.tid == tid && (q.state == .queued || q.state == .active)
    if k.faulted = false ∨ k.st = .drain ∨ k.st = .done ∨ s.ended k = true ∨ words = true ∨ copies = true ∨ s.millBusy tid = true ∨
        s.hostsRun tid = false ∨ s.frozen = true then s.stays
    else .next ((s.clearTask tid).setTask { k with sets := k.sets.map fun x => { x with st := .exited, reserved := none } })

/-! ### Couch targets (R72, R81) -/

/-- Every team of a task has exited, or every mill of it has halted. -/
def State.finished (s : State) (k : Task) : Bool :=
  match k.type with
  | .mill => k.halted == k.launch.nmill * popcount 72 k.launch.towmask
  | _ => (k.sets.all fun x => x.st == .exited) && !(s.teams.any fun t => t.tid == k.tid)
/-- The entries of a list that name a record. -/
def namesOf (es : List Nat) (q index : Nat) : Nat := es.countP fun e => bits e 63 40 == 0 && bits e 39 32 == q && bits e 31 0 == index
/-- The record of a task is the one its queue's present enable knows (R74). -/
def State.knows (s : State) (k : Task) : Bool := s.sched.known.any fun x => x.q == k.q && x.index == k.index && x.tid == some k.tid
/-- A consumer whose only unresolved dependences and hazards are with the producer that enters DRAIN. -/
def State.couchable (s : State) (p k : Task) (es : List Nat) : Bool :=
  let n := namesOf es k.q k.index
  k.type == .core && k.st == .waitdep && !k.doomed && n != 0 && k.depcnt == n && s.knows k &&
  (s.earlier k.tid).all fun e => e.tid == p.tid || !s.blocks e k
/-- Place as many sets of a task as there is room for, in order (R81, log entry 124). -/
def State.placeSets (s : State) (tid : Nat) : List TeamSet → State
  | [] => s
  | x :: xs =>
    match s.task? tid with
    | none => s
    | some k =>
      match (s.findSpots k x.k).bind fun r => s.place k x.k r.1 r.2 with
      | some s => State.placeSets s tid xs
      | none => s
/-- Place the consumers that can be placed, and apply the producer's decrements to them (R81). -/
def State.chooseCouch (s : State) (p : Task) (es : List Nat) : State :=
  s.sched.tasks.foldl (fun s k =>
    if s.couchable p k es then
      let k' := { k with depcnt := 0, couchOf := some p.tid, st := .ready, sysEdge := k.sysEdge || p.cscope == 5 }
      match (s.findSpots k' 0).bind fun r => s.place k' 0 r.1 r.2 with
      | some s =>
        let s := s.placeSets k.tid (k.sets.drop 1)
        (match s.task? p.tid with
        | some p => s.setTask { p with couchTo := p.couchTo ++ List.replicate (namesOf es k.q k.index) k.tid }
        | none => s)
      | none => s
    else s) s

/-- The dies of a couch target that receive data: at most four, with the most teams, ties to the lower index. -/
def State.couchDies (s : State) (tid : Nat) : List Nat :=
  let ts := s.taskTeams tid
  let n (d : Nat) : Nat := (ts.filter fun t => t.core.die == d).length
  (sortBy (fun a b => decide (n b < n a) || (n a == n b && decide (a ≤ b))) (ts.foldl (fun l t => insertAsc l t.core.die) [])).take 4
/-- Couch lines that one die receives at one edge: 8 MiB. -/
def couchMax : Nat := 32768
/-- The targets of a producer that a line goes to on a die: a read deckle of theirs meets it (R80, R81). -/
def State.couchFor (s : State) (p : Task) (die : Nat) (a : LineId) : List Nat :=
  p.couchTo.eraseDups.filter fun t =>
    match s.task? t with
    | some k => k.st == .placed && k.couchOf == some p.tid && (s.couchDies t).contains die && k.deckles.any fun d =>
        d.r && decide (d.base < (a.line + 1) * 256) && decide (a.line * 256 < d.base + d.extent)
    | none => false
/-- The lines that each die receives at the edge: those that a producer has dirty on other dies under the hint, in
ascending order of address, as far as 8 MiB reach (R81). -/
def State.couchPlan (s : State) (p : Task) : List (Nat × Nat) :=
  ((p.couchTo.flatMap s.couchDies).eraseDups).flatMap fun die =>
    let ls := (p.dies.filter fun d => d != die).flatMap fun d => (p.deckles.filter fun x => x.couch).flatMap fun x =>
      ((s.dirtyLines p.asid d x.base (x.base + x.extent)).filter fun l => !(s.couchFor p die l.a).isEmpty).map fun l => l.a.line
    ((sortBy (fun a b => decide (a ≤ b)) ls.eraseDups).take couchMax).map fun l => (die, l)

/-- TASK_DRAIN (R72, R73, R80, R81, R90, R148): every team has exited, every mill has halted, or a fault has ended the
task: the write-back of its write deckles begins, after couch targets have been placed. -/
def execTaskDrain (tid : Nat) (s : State) : Out := s.happens <|
  match s.task? tid with
  | none => none
  | some k =>
    let active := k.st != .waitdep && k.st != .waithaz && k.st != .drain && k.st != .done
    if active = false ∨ s.arbRuns = false ∨ (if k.faulted then !s.ended k else !s.finished k) = true then none
    else
      let s := { s with mills := s.mills.filter fun m => m.tid != tid }
      let s := s.setTask { k with st := .drain, drainDies := k.dies }
      let s := if k.type = .mill ∧ k.sysDone = true then s.sendBackInv else s
      if k.faulted then some s
      else match s.readList k.asid k.succAddr k.succN with
      | .busy => none
      | .bad _ s => some s
      | .ok es s =>
        let s := s.chooseCouch k es
        some (match s.task? tid with | some p => s.setTask { p with couchPlan := s.couchPlan p } | none => s)

/-! ### Write-back (R80, R81, R148) -/

/-- The couch copies of one dirty line that a producer writes home from a die (R27, R80, R81). -/
def State.couch (s : State) (ptid die : Nat) (l : Line) : State :=
  match s.task? ptid with
  | none => s
  | some p =>
    (p.couchPlan.filter fun e => e.2 == l.a.line && e.1 != die).foldl (fun s e =>
      match s.couchFor p e.1 l.a with
      | [] => s
      | tids => s.send .wb (.die die) (.die e.1) (.couchData l.a tids l.val l.dirty l.attr)) s
/-- The write-back of one die: every dirty line of each write deckle goes home, and under the hint to the couch targets. -/
def State.drainDie (s : State) (k : Task) (die : Nat) : State :=
  (k.deckles.filter fun d => d.w).foldl (fun s d =>
    (s.dirtyLines k.asid die d.base (d.base + d.extent)).foldl (fun s l =>
      let s := s.cleanFor k.tid l
      if d.couch then s.couch k.tid die l else s) s) s

/-- EDGE_WRITEBACK (R80, R81, R148): a die on which the task ran releases its coherent lines, at .pk or at .sy, then writes
the dirty lines of the write deckles home. -/
def execEdgeWriteback (tid die : Nat) (s : State) : Out :=
  match s.task? tid with
  | none => s.stays
  | some k =>
    if k.st ≠ .drain ∨ k.drainDies.contains die = false ∨ s.siteRuns (.die die) = false then s.stays
    else match s.releaseDies k.asid [die] with
    | .wait => s.stays
    | .going s => .next s
    | .done =>
      let s := if k.sysDone then s.flushHost die else s
      let s := s.drainDie k die
      match s.task? tid with
      | some k => .next (s.setTask { k with drainDies := k.drainDies.erase die })
      | none => .next s

/-! ### DONE (R66, R72, R75, R81) -/

/-- The status with which a task in DRAIN ends. -/
def Task.endStatus (k : Task) : TStatus :=
  match k.status with
  | .ok => if k.faulted then .fault else .ok
  | x => x
/-- The completion of a task. -/
def Task.completion (k : Task) (st : TStatus) : Completion :=
  ⟨k.tid, st, k.fcode, k.cwaddr, k.asid, k.irq, k.sysDone, k.ivec, k.port, k.loc, k.ringPkg⟩
/-- The couch targets of a task that is done: held no longer, or abandoned if they are still placed (R81). -/
def State.freeTargets (s : State) (tid : Nat) (ok : Bool) : State :=
  (s.sched.tasks.filter fun t => t.couchOf == some tid).foldl (fun s t =>
    if ok || t.st != .placed then s.setTask { t with couchOf := none }
    else (s.clearTask t.tid).setTask { t with couchOf := none, st := .done, status := .abandoned
                                              sets := t.sets.map fun x => { x with st := .exited, reserved := none } }) s
/-- A task may go to DONE: its write-back is complete, and the pending table has room (R74, R148). -/
def State.mayEnd (s : State) (k : Task) : Bool :=
  s.arbRuns && !k.completed &&
  (k.st == .done || (k.st == .drain && s.drained k && decide (s.sched.pending.length < pendingMax) &&
    (!k.sysDone || s.mem.backInv.isEmpty)))
/-- The completion store, and what follows it. -/
def State.finishTask (s : State) (k : Task) (fail : Bool) : Option State :=
  let st := k.endStatus
  match s.complete (k.completion st) fail with
  | none => none
  | some s => some ((s.setTask { k with st := .done, status := st, completed := true }).freeTargets k.tid (st == .ok))

/-- TASK_DONE (R66, R72, R75, R79, R81): the write-back is complete; the completion word is stored, and the deckles leave
the hazard table. -/
def execTaskDone (tid : Nat) (s : State) : Out :=
  match s.task? tid with
  | some k => if s.mayEnd k then s.happens (s.finishTask k false) else s.stays
  | none => s.stays
/-- COMPLETION_STORE_FAIL (R66): the completion store times out; the task is DONE all the same. Of TASKID 0xFFFFFFFF, it is
the store of the oldest record in admission that is rejected. -/
def execCompletionStoreFail (tid : Nat) (s : State) : Out := s.happens <|
  if tid = noTask then
    match s.sched.admitting with
    | [] => none
    | a :: _ =>
      if s.arbRuns = false then none
      else match a.check s with
      | .reject st s => s.rejectRecord a st true
      | _ => none
  else match s.task? tid with
  | some k => if s.mayEnd k then s.finishTask k true else none
  | none => none

/-- Apply the entries of a list that no couch target has had already (R74, R81). -/
def State.applyList (s : State) (tid : Nat) (doom sys : Bool) : List Nat → List Nat → State
  | [], _ => s
  | e :: es, had =>
    let hit := had.find? fun t => match s.sched.known.find? fun x => x.q == bits e 39 32 && x.index == bits e 31 0 with
      | some x => bits e 63 40 == 0 && x.tid == some t
      | none => false
    match hit with
    | some t => State.applyList s tid doom sys es (had.erase t)
    | none => State.applyList (s.applyEntry tid e doom sys) tid doom sys es had
/-- The arbiter holds a task no more. -/
def State.forget (s : State) (tid : Nat) : State :=
  { s with sched := { s.sched with tasks := s.sched.tasks.filter fun k => k.tid != tid } }
/-- SUCCESSOR_LIST_READ (R74, R75): the successors of a task that is DONE are decremented, and doomed when its status is
not OK. -/
def execSuccessorListRead (tid : Nat) (s : State) : Out := s.happens <|
  match s.task? tid with
  | none => none
  | some k =>
    if k.st ≠ .done ∨ k.completed = false ∨ s.arbRuns = false then none
    else match s.readList k.asid k.succAddr k.succN with
    | .busy => none
    | .bad c s => some ((s.depxList tid k.succAddr c).forget tid)
    | .ok es s =>
      let s := s.applyList tid (k.status != .ok) (k.cscope == 5) es k.couchTo
      if pendingMax < s.sched.pending.length then none else some (s.forget tid)

/-! ### The stable pool (R416) -/

/-- STABLE_POOL_WRITE (R416): ignored while a block of the pool is allocated. -/
def execStablePoolWrite (off : Nat) (v : BitVec 64) (s : State) : Out :=
  if off ≠ offSTPBASE ∧ off ≠ offSTPSIZE then .fault .noSuchUnit
  else if s.poolTakes ≠ [] then .next s
  else .next (s.regWrite off v.toNat (if off = offSTPBASE then ones 7 * 2 ^ 40 + ones 20 * 2 ^ 16 else ones 32))

end Sys2Proof.Machine
end

