-- ==== Sys2Proof/Machine/Tables.lean ====
section
/-! DEFINITION. Writes of the management window (R52): the registers that only store their fields, the owner tables (R101),
the copies of the home region table (R115, R188), and the lost marks (R126). -/

namespace Sys2Proof.Machine

/-- What a write of a register at an offset does: stores the fields of a mask, does nothing, or is an event of its
own. -/
inductive RegKind
  | stores (mask : Nat)
  | ignores
  | special
  deriving DecidableEq, Repr

/-- The registers of a queue (R53, R54): while EN is 1, QBASE and the fields of QCFG do not change. -/
def State.queueKind (s : State) (q off : Nat) : RegKind :=
  match off with
  | 0x00 => if s.qEn q then .ignores else .stores (ones 56 * 2 ^ 8)
  | 0x08 => if s.qEn q then .ignores else .stores maskQCFG
  | 0x18 => .stores (ones 64)
  | 0x20 => .special
  | 0x28 => .stores (2 ^ 31 + ones 10)
  | _ => .ignores
/-- The memory block (R117, R130, R416). -/
def memBlockKind : Nat → RegKind
  | 0x00 => .stores (ones 7 * 2 ^ 40 + ones 36)
  | 0x08 => .stores (ones 7 * 2 ^ 40 + ones 31 * 2 ^ 5)
  | 0x10 => .stores (2 ^ 31 + ones 2 * 2 ^ 22 + ones 4 * 2 ^ 16 + ones 11)
  | 0x18 => .stores (ones 32)
  | 0x20 => .special
  | 0x28 => .special
  | _ => .ignores
/-- The promotion block (R126). -/
def promKind : Nat → RegKind
  | 0x00 => .stores (ones 16)
  | 0x08 => .stores (2 ^ 63 + ones 20)
  | 0x10 => .special
  | 0x18 => .special
  | _ => .ignores
/-- The error block (R202). -/
def errorKind : Nat → RegKind
  | 0x00 => .stores (ones 7 * 2 ^ 40 + ones 31 * 2 ^ 5)
  | 0x08 => .stores (2 ^ 31 + 2 ^ 30 + ones 2 * 2 ^ 22 + ones 5 * 2 ^ 16 + ones 11)
  | 0x10 => .stores (ones 32)
  | _ => .ignores
/-- A block of the window, as its base, stride, number of copies, and what a write of an offset in a copy does. -/
structure Block where
  base : Nat
  step : Nat
  count : Nat
  kind : Nat → Nat → RegKind
/-- The blocks of R52 that hold writable registers. -/
def State.blocks52 (s : State) : List Block :=
  [⟨offPKGNUM, 8, 1, fun _ _ => .special⟩,
   ⟨0x00100000, 0x100, 72, fun _ o => if o = 0 then .special else .ignores⟩,
   ⟨0x00110000, 0x100, 72, fun _ o => if o = 0 then .special else .ignores⟩,
   ⟨0x00200000, 0x40, 256, s.queueKind⟩,
   ⟨0x00300000, 0x10, 1024, fun _ o => if o = 0 then .stores (ones 31 * 2 ^ 26) else if o = 8 then .stores (2 ^ 31 + ones 16) else .ignores⟩,
   ⟨0x00400000, 0x10000, 1, fun _ o => memBlockKind o⟩,
   ⟨0x00410000, 0x100, 72, fun _ o => promKind o⟩,
   ⟨0x00500000, 0x400, 72, fun _ o => if o < 960 then .special else .ignores⟩,
   ⟨0x00600000, 0x10, 64, fun _ o => if o < 8 then .special else .ignores⟩,
   ⟨0x00700000, 8, 0x4000, fun _ _ => .special⟩,
   ⟨0x00740000, 0x1000, 16, fun _ _ => .special⟩,
   ⟨0x00750000, 0x100, 1024, fun _ o => if o < 0x88 then .special else .ignores⟩,
   ⟨0x00800000, 0x20, 1, fun _ o => errorKind o⟩,
   ⟨offATT, 0x10000, 1, fun _ o => if o = 0 then .special else if 0x100 ≤ o ∧ o < 0x140 then .stores (ones 64) else .ignores⟩,
   ⟨offFRZCTL, 4, 1, fun _ _ => .special⟩,
   ⟨0x01000000, 0x10000, 72, fun _ _ => .special⟩,
   ⟨0x01500000, 0x10000, 72, fun _ _ => .special⟩]
/-- What a write at an offset does; an offset in no block ignores it. -/
def State.regKind (s : State) (off : Nat) : RegKind :=
  match s.blocks52.find? fun b => (blockIndex off b.base b.step b.count).isSome with
  | some b => b.kind ((off - b.base) / b.step) ((off - b.base) % b.step)
  | none => .ignores
/-- A write of the 4-byte word at an offset: `none` where the register has behaviour of its own, and is written by its own event. A half
of a 64-bit register is stored alone. -/
def State.storeWord (s : State) (off x : Nat) : Option State :=
  let upper := off % 8 == 4 && wideAt (off - 4)
  match s.regKind (if upper then off - 4 else off) with
  | .special => none
  | .ignores => some s
  | .stores m => some (if upper then s.regWrite (off - 4) (x % 2 ^ 32 * 2 ^ 32) (m / 2 ^ 32 * 2 ^ 32) else s.regWrite off (x % 2 ^ 32) (m % 2 ^ 32))
/-- REGISTER_WRITE (R4, R51, R52, R54): a 4-byte or 8-byte naturally aligned access stores the RW fields of the registers it covers; any
other access completes with Unsupported Request and is ignored. A write of QCFG changes no EN here: that is QUEUE_ENABLE or
QUEUE_DISABLE. -/
def execRegisterWrite (off : BarWrite) (v : BitVec 64) (s : State) : Out :=
  let (port, off, size) := (off.port, off.off, off.size)
  let q := (blockIndex off 0x00200000 0x40 256).getD 256
  if 4 ≤ port then .fault .noSuchUnit
  else if (size ≠ 4 ∧ size ≠ 8) ∨ off % size ≠ 0 then .next { s with out := s.out ++ [.unsupported port] }
  else if q < 256 ∧ off % 0x40 = 8 ∧ v.getLsbD 31 ≠ s.qEn q then s.stays
  else if size = 4 then s.happens (s.storeWord off v.toNat)
  else if wideAt off then s.happens <| match s.regKind off with
    | .special => none
    | .ignores => some s
    | .stores m => some (s.regWrite off v.toNat m)
  else
    let s := (s.storeWord off (v.toNat % 2 ^ 32)).getD s
    s.happens (s.storeWord (off + 4) (v.toNat / 2 ^ 32))

/-- OWNER_TABLE_WRITE (R101). -/
def execOwnerTableWrite (die n : Nat) (v : BitVec 32) (s : State) : Out :=
  if 72 ≤ die ∨ 240 ≤ n then .fault .noSuchUnit else .next (s.regWrite (offOwner die n) v.toNat (ones 17))

/-- HOME_TABLE_WRITE (R113, R115): an entry of a die's copy, which lies in its die scratchpad. -/
def execHomeTableWrite (die n : Nat) (v : BitVec 128) (s : State) : Out :=
  if 72 ≤ die ∨ 4096 ≤ n then .fault .noSuchUnit
  else .next (s.mapMem fun x => { x with dieSp := x.dieSp.putNat (die * 2 ^ 24 + 0xF00000 + 16 * n) 16 (v.toNat &&& maskHome) })
/-- TOWER_HOME_TABLE_WRITE (R113, R188): an entry of a tower's copy. -/
def execTowerHomeTableWrite (tower n : Nat) (v : BitVec 128) (s : State) : Out :=
  if 72 ≤ tower ∨ 4096 ≤ n then .fault .noSuchUnit
  else .next (s.mapMem fun x => { x with towerTab := x.towerTab.putNat (tower * 2 ^ 16 + 16 * n) 16 (v.toNat &&& maskHome) })

/-- LOST_MARK_CLEAR (R126, R132): every lost mark on a frame goes: its bit, and its lines in the table. -/
def execLostMarkClear (tower : Nat) (v : BitVec 32) (s : State) : Out :=
  if 72 ≤ tower then .fault .noSuchUnit
  else
    let f := bits v.toNat 19 0
    .next (s.mapMem fun x => { x with
      lost := x.lost.filter fun l => !(l.tower == tower && (match l.phys with | some p => p / 256 == f | none => false))
      marks := x.marks.filter fun m => m != (tower, f) })

end Sys2Proof.Machine
end

