-- ==== Sys2Proof/Machine/Promote.lean ====
section
/-! DEFINITION. Promotion of a 2 MiB range of base pages into a run (R126, R127). -/

namespace Sys2Proof.Machine

/-! ### The request -/

/-- The attributes of a leaf entry that the pages of a range must share (R119, R127). -/
def pteAttrs (e : Nat) : Nat := e &&& (2 ^ 1 + 2 ^ 2 + 2 ^ 5 + ones 2 * 2 ^ 7 + 2 ^ 9)
/-- The 32 level-1 entries of a range, with where the first one lies, if the request can be accepted (R127). -/
def State.promEntries (s : State) (tower asid va : Nat) : Option (Nat × Nat × List W64) :=
  if s.mem.towerHome tower asid va ≠ some tower then none
  else
    let found := (List.range 32).map fun i => s.walk asid (va + 65536 * i)
    let es := found.filterMap fun w => match w with
      | .leaf e 1 t pa => some (e, t, pa)
      | _ => none
    match es with
    | [] => none
    | (e0, t0, pa0) :: _ =>
      if es.length = 32 ∧ (es.all fun x => !pteRun x.1 && pteAttrs x.1 == pteAttrs e0 && pteTier x.1 == 0 &&
          frameTower (pteFrame x.1) == tower) = true then
        some (t0, pa0, es.map fun x => BitVec.ofNat 64 x.1)
      else none

/-- Record a promotion's status (R126). -/
def State.promLast (s : State) (tower status : Nat) : State :=
  s.setReg (offProm tower) (setBits (setBits (s.reg (offProm tower)) 31 31 0) 30 28 status)

/-- PROMREQ_WRITE (R126, R127): ignored while a promotion is in progress or no target is present; refused, or accepted:
the range leaves the TLB, and new translations of it stall. -/
def execPromreqWrite (tower : Nat) (v : BitVec 64) (s : State) : Out :=
  if 72 ≤ tower then .fault .noSuchUnit
  else
    let cfg := s.reg (offProm tower)
    let tgt := s.reg (offProm tower + 8)
    let asid := bits cfg 15 0
    let va56 := bits v.toNat 56 21 * 2 ^ 21
    let va := if bit v.toNat 56 then va56 + ones 7 * 2 ^ 57 else va56
    if bit cfg 31 = true ∨ bit tgt 63 = false ∨ s.siteRuns (.tower tower) = false then .next s
    else match s.promEntries tower asid va with
    | none => .next (s.promLast tower 2)
    | some (t, pa, es) =>
      let s := (s.setReg (offProm tower) (setBits cfg 31 31 1)).setReg (offProm tower + 8) (setBits tgt 63 63 0)
      .next (s.mapMem fun x => { x with
        tlb := x.tlb.filter fun e => !(e.tower == tower && e.asid == asid && decide (e.page < va56 / 65536 + 32) &&
          decide (va56 / 65536 < e.page + e.pages))
        promos := x.promos ++ [⟨tower, asid, va56, bits tgt 19 0, t, pa, es⟩] })

/-! ### The copy -/

/-- The source frame of page `j`. -/
def Promotion.source (p : Promotion) (j : Nat) : Nat := bits (pteFrame (p.entries.getD j 0).toNat) 19 0
/-- The entry of page `j` on its target frame, in a run or as a base page; A and D are kept. -/
def Promotion.entryOn (p : Promotion) (j : Nat) (run : Bool) : Nat :=
  setBits (setBits (p.entries.getD j 0).toNat 6 6 (b2n run)) 35 16 (p.target + j)
/-- The page of the range that a line lies in. -/
def Promotion.pageOf (p : Promotion) (a : LineId) : Option Nat :=
  if a.asid = p.asid ∧ a.line % 2 ^ 49 / 8192 = p.va / 2 ^ 21 then some (a.line / 256 % 32) else none
/-- Where a line of the range lies once pages below `n` have moved. -/
def Promotion.move (p : Promotion) (n : Nat) (a : LineId) (v : Attr) : Attr :=
  match p.pageOf a with
  | some j => if j < n ∧ v.tier = 0 ∧ v.home = p.tower then { v with pa := (p.target + j) * 65536 + v.pa % 65536 } else v
  | none => v
/-- A home's entry moves with its page; what is recorded under other addresses stays. -/
def Promotion.moveEntry (p : Promotion) (n : Nat) (l : Line) : List Line :=
  let inside := l.kids.filter fun k => p.move n k.a l.attr != l.attr
  match inside with
  | [] => [l]
  | k :: _ =>
    let v := p.move n k.a l.attr
    let rest := l.kids.filter fun q => !inside.contains q
    { l with a := v.place.key, attr := v, kids := inside } :: (if rest = [] then [] else [{ l with kids := rest }])
/-- Attributes in messages move as those in caches do. -/
def Promotion.moveBody (p : Promotion) (n : Nat) : Body → Body
  | .data a f t r val v => .data a f t r val (p.move n a v)
  | .dataX a f t r val m d v => .dataX a f t r val m d (p.move n a v)
  | b => b

/-- The banks of the source and the target frames are free. -/
def State.promBanks (s : State) (p : Promotion) : Bool :=
  (List.range 32).all fun j => (List.range 32).all fun c =>
    !s.bankHeld p.tower (p.source j * 65536 + 256 * c) && !s.bankHeld p.tower ((p.target + j) * 65536 + 256 * c)
/-- Accesses already translated have performed (R127). -/
def State.promQuiet (s : State) (p : Promotion) : Bool :=
  !(s.mem.txns.any fun t => match t.node, t.attr with
    | .home h, some v => h == p.tower && v.tier == 0 && (List.range 32).any fun j => v.pa / 65536 == p.source j || v.pa / 65536 == p.target + j
    | _, _ => false) &&
  !(s.cores.any fun k => k.cq.any fun c => c.state == .active && (match s.task? c.g.tid with
    | some t => t.asid == p.asid && (List.range 8192).any fun i => c.holds (p.va / 256 + i)
    | none => false))

/-- Copy one page: tower-cache lines of the source are written back and dropped, and the page is written to its target
in DRAM. -/
def State.promPage (s : State) (p : Promotion) (j : Nat) : State :=
  (List.range 256).foldl (fun s i =>
    let src := p.source j * 65536 + 256 * i
    let dst := (p.target + j) * 65536 + 256 * i
    let s := (s.mapMem fun x => x.tcDrop p.tower (src / 256)).homeClear ⟨0, p.tower, dst⟩
    s.mapMem fun x =>
      let x := x.tcDrop p.tower (dst / 256)
      { x with dram := x.dram.putLine (p.tower * towerSpan + dst) (x.dram.line (p.tower * towerSpan + src)) lineFull }) s

/-- Swap entries from `j` up, each from the value read in step 1 (R127): the state, and the first whose swap fails. -/
def State.promSwap (s : State) (p : Promotion) : Nat → Nat → State × Nat
  | 0, j => (s, j)
  | fuel + 1, j =>
    let at' := p.tabPa + 8 * j
    if s.mem.readTower p.tabTower at' 8 = (p.entries.getD j 0).toNat then
      State.promSwap (s.putTower p.tabTower at' 8 (p.entryOn j true)) p fuel (j + 1)
    else (s, j)
/-- Entries below `n` become base entries on their new frames. -/
def State.promUndo (s : State) (p : Promotion) (n : Nat) : State :=
  (List.range n).foldl (fun s j => s.putTower p.tabTower (p.tabPa + 8 * j) 8 (p.entryOn j false)) s

/-- What the directories, the caches and the lost-line table hold of the pages below `n` names their new frames. -/
def State.promMoved (s : State) (p : Promotion) (n : Nat) : State :=
  s.mapMem fun x => { x with
    lines := x.lines.flatMap fun l => match l.node with
      | .home _ => p.moveEntry n l
      | _ => [{ l with attr := p.move n l.a l.attr }]
    txns := x.txns.map fun t => { t with attr := t.attr.map fun v => p.move n t.a v }
    net := x.net.map fun m => { m with body := p.moveBody n m.body }
    lost := x.lost ++ (List.range n).flatMap fun j => x.lost.filterMap fun l =>
      match l.phys with
      | some q => if l.tower = p.tower ∧ q / 256 = p.source j then some { l with phys := some ((p.target + j) * 256 + q % 256) } else none
      | none => none
    marks := x.marks ++ (List.range n).filterMap fun j =>
      if x.marks.contains (p.tower, p.source j) ∧ !(x.marks.contains (p.tower, p.target + j)) then some (p.tower, p.target + j) else none }

/-- PROMOTION_COMPLETE (R127): the pages are copied and the entries swapped; the stall is lifted and a notice is
queued. When a swap fails, the pages below it become base pages on their new frames. -/
def execPromotionComplete (tower : Nat) (s : State) : Out :=
  match s.mem.promos.find? fun p => p.tower == tower with
  | none => s.stays
  | some p =>
    if s.siteRuns (.tower tower) = false ∨ s.mem.failedTowers.contains tower = true ∨ s.promQuiet p = false ∨ s.promBanks p = false then
      s.stays
    else
      let s := (List.range 32).foldl (fun s j => s.promPage p j) s
      let (s, n) := s.promSwap p 32 0
      let s := if n < 32 then s.promUndo p n else s
      let s := (s.promMoved p n).mapMem fun x => { x with promos := x.promos.erase p }
      let (fid, s) := s.takeFid
      let status := if n < 32 then 1 else 0
      let notice : FaultRec := ⟨fid, noTask, if bit p.va 56 then p.va + ones 7 * 2 ^ 57 else p.va, p.asid, status, 0x80, 1, if n < 32 then n else 0, tower⟩
      .next ((State.promLast { s with faults := s.faults ++ [notice] } tower status))

end Sys2Proof.Machine
end

