-- ==== Sys2Proof/Machine/Post.lean ====
section
/-! DEFINITION. Posting fault records (R128, R130) and error records (R202, R203) to their rings in tower memory. -/

namespace Sys2Proof.Machine

/-- Where a ring register that holds a tower and an address points. -/
def ringTower (v : Nat) : Nat := bits v 46 40
def ringAddr (v : Nat) : Nat := bits v 35 5 * 32

/-! ### The fault queue (R130) -/

/-- The bytes of a fault record. -/
def FaultRec.bytes (r : FaultRec) : List (BitVec 8) :=
  leBytes 4 r.fid ++ leBytes 4 r.tid ++ leBytes 8 r.va ++ leBytes 2 r.asid ++ leBytes 1 r.code ++ leBytes 1 r.kind ++
    leBytes 1 r.npage ++ leBytes 1 r.idx ++ leBytes 2 r.site ++ leBytes 8 0
/-- The agent that posts a record: the tower for a mill and for a notice, otherwise the die (R128). -/
def FaultRec.agent (r : FaultRec) : Site := if bit r.kind 4 || bit r.kind 7 then .tower r.site else .die r.site
/-- Free places in the ring; none while it is off or LOG2N is out of range. -/
def State.faultRoom (s : State) : Nat :=
  let cfg := s.reg offFQCFG
  let n := bits cfg 19 16
  let used := (s.reg offFQTAIL + 2 ^ 32 - s.reg offFQHEAD) % 2 ^ 32
  if bit cfg 31 = false ∨ n < 4 ∨ 12 < n then 0 else 2 ^ n - used
/-- A posting whose ring filled part-way: its other records come next, so that a FID's records stand together. -/
def FaultRec.begun (r : FaultRec) : Bool := decide (1 < r.npage) && decide (0 < r.idx)
/-- Write one record, and advance TAIL. -/
def State.putFault (s : State) (r : FaultRec) : State :=
  let base := s.reg offFQBASE
  let tail := s.reg offFQTAIL
  let s := s.physWrite (ringTower base) (ringAddr base + 32 * (tail % 2 ^ bits (s.reg offFQCFG) 19 16)) r.bytes
  s.setReg offFQTAIL ((tail + 1) % 2 ^ 32)
/-- FAULT_RECORD_POST (R128, R130): the records of one FID are written as far as the ring has room, in the order of their
agent, and MSI-X is sent. -/
def execFaultRecordPost (fid : Nat) (s : State) : Out :=
  match s.faults.find? fun r => r.fid == fid with
  | none => s.stays
  | some r =>
    let before := s.faults.takeWhile fun x => x.fid != fid
    let room := s.faultRoom
    let other := match s.faults.find? fun x => x.begun && !(s.faults.any fun y => y.fid == x.fid && decide (y.idx < x.idx)) with
      | some x => x.fid != fid
      | none => false
    if room = 0 ∨ other = true ∨ (before.any fun x => x.agent == r.agent) = true ∨ s.siteRuns r.agent = false ∨
        s.mem.failedTowers.contains (ringTower (s.reg offFQBASE)) = true then s.stays
    else
      let mine := (s.faults.filter fun x => x.fid == fid).take room
      let s := mine.foldl State.putFault s
      let cfg := s.reg offFQCFG
      .next ({ s with faults := s.faults.filter fun x => !mine.contains x }.sendMsix (bits cfg 23 22) (bits cfg 10 0))

/-! ### The error log (R202, R203) -/

/-- The bytes of an error record. -/
def LogRec.bytes (r : LogRec) : List (BitVec 8) :=
  leBytes 1 r.kind ++ leBytes 1 r.sheet ++ leBytes 2 r.site ++ leBytes 4 r.tid ++ leBytes 8 r.time ++ leBytes 8 r.addr ++
    leBytes 4 r.aux ++ leBytes 4 r.unit
/-- A record can be written: posting is on, LOG2N is in range, and the ring is not full. -/
def State.logRoom (s : State) : Bool :=
  let cfg := s.reg offELCFG
  let n := bits cfg 20 16
  bit cfg 31 && decide (6 ≤ n) && decide (n ≤ 16) &&
    decide ((s.reg offELTAIL + 2 ^ 32 - s.reg offELHEAD) % 2 ^ 32 < 2 ^ n)
/-- Write one record, advance TAIL and send MSI-X. -/
def State.putLog (s : State) (r : LogRec) : State :=
  let base := s.reg offELBASE
  let tail := s.reg offELTAIL
  let cfg := s.reg offELCFG
  let s := s.physWrite (ringTower base) (ringAddr base + 32 * (tail % 2 ^ bits cfg 20 16)) r.bytes
  (s.setReg offELTAIL ((tail + 1) % 2 ^ 32)).sendMsix (bits cfg 23 22) (bits cfg 10 0)
/-- ERROR_RECORD_POST (R202, R203, R205): the oldest record of a running sheet is written, or counted as dropped; under
FRZLAST a record of kind LAST or RESID freezes the part. -/
def execErrorRecordPost (s : State) : Out :=
  match s.log.find? fun r => s.sheetRuns r.sheet with
  | none => s.stays
  | some r =>
    let s := { s with log := s.log.erase r }
    let s := if s.logRoom then s.putLog r else s.regCount offELDROP
    .next (if bit (s.reg offELCFG) 30 = true ∧ (r.kind = 0x02 ∨ r.kind = 0x04) then s.askFreeze else s)

end Sys2Proof.Machine
end

