-- ==== Sys2Proof/Machine/Fail.lean ====
section
/-! DEFINITION. Failed and resetting dies and towers (R31 to R33, R72, R83, R131, R133, R199). -/

namespace Sys2Proof.Machine

/-! ### Tasks that lose their state (R72, R83) -/

/-- A task goes to DONE with LOST. -/
def State.loseTask (s : State) (k : Task) : State :=
  (s.clearTask k.tid).setTask { k with st := .done, status := .lost, drainDies := []
                                       sets := k.sets.map fun x => { x with st := .exited, reserved := none } }
/-- A task has state on a die: teams that run or are being pre-empted there, or dirty lines of its write deckles (R72). -/
def State.runsOn (s : State) (k : Task) (die : Nat) : Bool :=
  (s.teams.any fun t => t.tid == k.tid && t.core.die == die && k.sets.any fun x => x.k == t.set &&
    (match x.st with | .running => true | .preempt _ => true | _ => false)) ||
  (k.dies.contains die && k.deckles.any fun d => d.w && !(s.dirtyLines k.asid die d.base (d.base + d.extent)).isEmpty)
/-- The sets of a task that are placed on a die and have not started there. -/
def State.placedOn (s : State) (k : Task) (die : Nat) : List Nat :=
  ((s.teams.filter fun t => t.tid == k.tid && t.core.die == die && !t.started).map fun t => t.set).eraseDups
/-- Placed sets of a task leave the die, and are placed again with every invalidation (R83). -/
def State.replaceSets (s : State) (k : Task) (sets : List Nat) : State :=
  if sets = [] then s
  else
    let back (x : TeamSet) : TeamSet :=
      if sets.contains x.k then { x with st := match x.st with | .placed _ true => .stabled | _ => .unplaced } else x
    let s := s.mapMem fun x => { x with net := x.net.map fun m => match m.body with
      | .couchData a tids v w t => { m with body := .couchData a (tids.filter fun i => i != k.tid) v w t }
      | _ => m }
    (s.without (sets.map fun x => (k.tid, x))).putTask { k with sets := k.sets.map back, couched := [] }

/-! ### A failed die (R131) -/

/-- The frames that the write deckles of a task cover: each page at its home, where it maps a frame. -/
def State.deckleFrames (s : State) (k : Task) : List (Nat × Nat) :=
  ((k.deckles.filter fun d => d.w).flatMap fun d =>
    if d.extent = 0 then []
    else (List.range ((d.base + d.extent - 1) / 65536 + 1 - d.base / 65536)).filterMap fun i =>
      match s.walk k.asid ((d.base / 65536 + i) * 65536) with
      | .leaf e level _ _ =>
        if pteTier e = 0 then
          let inner := match level with | 2 => (d.base / 65536 + i) % 1024 | 3 => (d.base / 65536 + i) % 2 ^ 20 | _ => 0
          some (frameTower (pteFrame e), bits (pteFrame e) 19 0 + inner)
        else none
      | .bad => none).eraseDups
/-- Mark frames lost. -/
def MemState.markAll (x : MemState) (fs : List (Nat × Nat)) : MemState :=
  { x with marks := x.marks ++ fs.filter fun f => !x.marks.contains f }
/-- Enter the undrained lines of a task's write deckles on a die into the lost-line table (R83). -/
def State.loseUndrained (s : State) (k : Task) (die : Nat) : State :=
  (k.deckles.filter fun d => d.w).foldl (fun s d =>
    (s.dirtyLines k.asid die d.base (d.base + d.extent)).foldl (fun s l =>
      s.mapMem fun x => x.lose l.attr.home (if l.attr.tier = 0 then some (l.attr.pa / 256) else none) l.a) s) s
/-- Write-backs of a task that have not left a die (R83). -/
def State.heldWrites (s : State) (tid die : Nat) : List LineId :=
  s.mem.net.filterMap fun m => match m.body with
    | .wbDirty a _ _ _ _ (.task t) => if t = tid ∧ m.src = .die die ∧ m.at' = .die die then some a else none
    | _ => none
/-- What a task loses with a die. -/
def State.dieTask (s : State) (die tid : Nat) : State :=
  match s.task? tid with
  | none => s
  | some k =>
    if k.st = .done then s
    else if k.st = .drain then
      (if k.drainDies.contains die || !(s.heldWrites tid die).isEmpty then (s.loseUndrained k die).loseTask k else s)
    else if s.runsOn k die then (s.mapMem fun x => x.markAll (s.deckleFrames k)).loseTask k
    else s.replaceSets k (s.placedOn k die)

/-- A line request of a level on a die, or a message that ends or waits there. A response on its way to the die is none: it
is dropped where it arrives (R32). -/
def Msg.ofDie (m : Msg) (die : Nat) : Bool :=
  (m.dst == .die die && m.cls != .rsp) ||
  (m.src == .die die && (m.at' == .die die || match m.body with
    | .getS _ _ _ => true | .getX _ _ _ => true | .upgr _ _ _ => true | .drain _ _ _ _ _ => true | _ => false))
/-- An owner's data for a read of a die that fails goes to the level that asked the owner for it. -/
def Msg.ownedBack (m : Msg) (die : Nat) : Msg :=
  match m.body with
  | .data _ frm dest _ _ _ => if m.dst = .die die ∧ nodeDepth frm < nodeDepth dest then { m with dst := nodeSite dest, at' := nodeSite dest } else m
  | _ => m
/-- A compute die fails: its tasks lose their state, its caches, queues and requests are gone, write-backs that have not left
it are lost (R83), and every slice begins its scan. -/
def State.failDie (s : State) (die : Nat) : State :=
  let s := (s.sched.tasks.map fun k => k.tid).foldl (fun s t => s.dieTask die t) s
  let mine (n : Node) : Bool := nodeDie n == some die
  let s := s.mem.net.foldl (fun s m => match m.body, m.dst with
    | .wbDirty a _ _ _ _ _, .tower h => if m.src = .die die ∧ m.at' = .die die then s.mapMem fun x => x.lose h none a else s
    | _, _ => s) s
  { s with
    cores := s.cores.map fun c => if c.id.die = die then { c with mq := [], cq := [], icache := [], l1 := [] } else c
    mem := { s.mem with
      failedDies := s.mem.failedDies ++ [die]
      scans := (s.mem.scans.filter fun c => c.2 != die) ++ (List.range 72).map fun j => (j, die)
      lines := s.mem.lines.filter fun l => !mine l.node
      txns := s.mem.txns.filter fun t => !mine t.node
      net := (s.mem.net.filter fun m => !m.ofDie die).map fun m => m.ownedBack die
      reqs := s.mem.reqs.filter fun r => r.site != .die die } }

/-- DIE_FAILURE (R131). -/
def execDieFailure (die : Nat) (s : State) : Out :=
  if 72 ≤ die then .fault .noSuchUnit
  else if s.mem.failedDies.contains die then s.stays
  else .next (s.failDie die)
/-- LINK_RETRAIN_FAIL (R199, R203): the link goes down, and the die at its end is taken out of service. -/
def execLinkRetrainFail (l : LinkId) (s : State) : Out :=
  if linkInPanel l = false then .fault .noSuchUnit
  else if s.linkSt l ≠ .retraining then s.stays
  else
    let s := (s.setLinkSt l .down).logDie 0x08 l.die noTask l.tower 0 0
    .next (if s.mem.failedDies.contains l.die then s else s.failDie l.die)

/-! ### The scan of a slice (R131) -/

/-- The record of a slice at its line's home follows what the slice still records. -/
def State.sliceKept (s : State) (e : Line) : State :=
  match s.mem.registered e.node e.a with
  | none => s
  | some h =>
    if e.kids = [] then
      let h' : Line := { h with kids := h.kids.filter fun q => !(q.node == e.node && q.a == e.a) }
      s.mapMem fun x => if h'.kids = [] then x.dropLine h.node h.a else x.setLine h'
    else if e.owners = [] then s.mapMem fun x => x.setLine (h.setKid e.node e.a .s)
    else s
/-- One entry of a slice: what names the die is removed, and a line that the die owned is lost. -/
def State.scanEntry (s : State) (die : Nat) (e : Line) : State :=
  let gone := e.kids.filter fun k => nodeDie k.node == some die
  if gone = [] then s
  else
    let lost := gone.any fun k => k.st.owner
    let rest := e.kids.filter fun k => !gone.contains k
    let e' : Line := { e with kids := rest, st := if lost then .s else e.st }
    let s := s.mapMem fun x => if rest = [] then x.dropLine e.node e.a else x.setLine e'
    let s := s.sliceKept e'
    if lost then s.mapMem fun x => x.lose e.attr.home (if e.attr.tier = 0 then some (e.attr.pa / 256) else none) e.a else s
/-- A transaction of a slice that waited for the die, or served it. -/
def State.scanTxn (s : State) (die : Nat) (lostLines : List LineId) (t : Txn) : State :=
  let left := t.waitFor.filter fun w => nodeDie w.1 != some die
  let served := match t.msg.body.child with | some (_, k, _) => nodeDie k == some die | none => false
  if t.landing && served then s.mapMem fun x => x.dropTxn t
  else if left.length = t.waitFor.length then s
  else match lostLines.contains t.a, t.msg.body.child with
  | true, some (_, k, r) => (s.mapMem fun x => x.dropTxn t).refuse t.msg t.a k r cLOSTLINE
  | _, _ =>
    let t' := { t with waitFor := left }
    (s.mapMem fun x => x.setTxn t t').settleTxn t'

/-- DIRECTORY_SCAN_COMPLETE (R131): a slice has scanned for a failed die: entries in S or E no longer name it, and lines
that it owned are in their home's lost-line table. -/
def execDirectoryScanComplete (tower die : Nat) (s : State) : Out :=
  if s.mem.scans.contains (tower, die) = false ∨ s.siteRuns (.tower tower) = false then s.stays
  else
    let es := s.mem.lines.filter fun l => l.node == .slice tower
    let lost := (es.filter fun e => e.kids.any fun k => nodeDie k.node == some die && k.st.owner).map fun e => e.a
    let s := s.mapMem fun x => { x with scans := x.scans.erase (tower, die) }
    let s := es.foldl (fun s e => s.scanEntry die e) s
    .next ((s.mem.txns.filter fun t => t.node == .slice tower).foldl (fun s t => s.scanTxn die lost t) s)

/-! ### A failed tower (R133) -/

/-- TOWER_FAILURE (R133): the tower answers nothing more, and the other towers of its sheet rebuild its slice. -/
def execTowerFailure (tower : Nat) (s : State) : Out :=
  if 72 ≤ tower then .fault .noSuchUnit
  else if s.mem.failedTowers.contains tower then s.stays
  else .next (s.mapMem fun x => { x with
    failedTowers := x.failedTowers ++ [tower]
    rebuilds := if x.rebuilds.contains tower then x.rebuilds else x.rebuilds ++ [tower] })
/-- SLICE_REBUILD_COMPLETE (R133): requests that waited for the slice proceed. -/
def execSliceRebuildComplete (tower : Nat) (s : State) : Out :=
  if s.mem.rebuilds.contains tower ∧ s.sheetRuns (towerSheet tower) = true then
    .next (s.mapMem fun x => { x with rebuilds := x.rebuilds.erase tower })
  else s.stays

/-! ### Resets (R31 to R33) -/

/-- DIE_RESET (R31, R32, R72, R131): a die that has not failed before loses what a failed die loses; its outstanding
requests fail, and its watermark advances. -/
def execDieReset (die : Nat) (s : State) : Out :=
  if 72 ≤ die then .fault .noSuchUnit
  else
    let s := if s.mem.failedDies.contains die then s else s.failDie die
    .next ((s.mapMem fun x => { x with failedDies := x.failedDies.erase die }).notifyReset (.die die))

/-- A stable block lies in a tower. -/
def State.blockIn (s : State) (tower asid : Nat) : BlockLoc → Bool
  | .none => false
  | .va a => s.mem.towerHome 19 asid a == some tower
  | .pool t _ _ => t == tower
/-- A task has mills on a tower, or state saved there (R72, R189). -/
def State.livesIn (s : State) (k : Task) (tower : Nat) : Bool :=
  (s.mills.any fun m => m.tid == k.tid && m.id.tower == tower) ||
  (s.sched.saved.any fun x => x.tid == k.tid && s.blockIn tower k.asid x.block) ||
  (s.sched.savedMills.any fun x => x.tid == k.tid && (x.tower == tower || s.blockIn tower k.asid x.block))
/-- A request that a tower's DRAM would have served, or an answer that its home awaited. -/
def Msg.ofHome (m : Msg) (tower : Nat) : Bool :=
  m.dst == .tower tower && (match m.body with
    | .getS _ k _ => nodeDepth k == 3 | .getX _ k _ => nodeDepth k == 3 | .upgr _ k _ => nodeDepth k == 3
    | .invAck _ _ p _ _ => nodeDepth p == 4 | .data _ _ t _ _ _ => nodeDepth t == 4 | .dataX _ _ t _ _ _ _ _ => nodeDepth t == 4
    | .homeAtomic _ _ _ _ => true | .nearRed _ _ _ _ => true | .millAcc _ _ _ _ _ => true | .wbDirty _ _ _ _ _ _ => true
    | _ => false)
/-- What a tower holds beside its slice is gone with a reset: its tower cache, its TLB, its home directory, its locks,
refreshes and promotions; every frame is marked (R133). -/
def MemState.resetTower (x : MemState) (tower : Nat) : MemState :=
  { x with
    failedTowers := x.failedTowers.erase tower
    tcache := x.tcache.filter fun t => t.tower != tower
    tlb := x.tlb.filter fun t => t.tower != tower
    lines := x.lines.filter fun l => l.node != .home tower
    txns := x.txns.filter fun t => t.node != .home tower
    locks := x.locks.filter fun l => l.tower != tower
    refreshing := x.refreshing.filter fun r => r.1 != tower
    promos := x.promos.filter fun p => p.tower != tower
    net := x.net.filter fun m => !m.ofHome tower
    marks := (x.marks.filter fun m => m.1 != tower) ++ (List.range towerFrames).map fun f => (tower, f) }

/-- TOWER_RESET (R31 to R33, R72, R133, R189): tasks with mills or saved state there are lost; the tower's outstanding
requests fail, every frame is marked, and its watermark advances. A slice that was not rebuilt before is rebuilt. -/
def execTowerReset (tower : Nat) (s : State) : Out :=
  if 72 ≤ tower then .fault .noSuchUnit
  else
    let s := (s.sched.tasks.filter fun k => k.st != .done && s.livesIn k tower).foldl State.loseTask s
    let own := s.mem.reqs.filter fun r => r.site == Site.tower tower
    let s := if s.mem.failedTowers.contains tower || s.mem.rebuilds.contains tower then s
      else s.mapMem fun x => { x with rebuilds := x.rebuilds ++ [tower] }
    let s := s.mapMem fun x => ({ x with reqs := x.reqs.filter fun (r : OutReq) => r.site != Site.tower tower }).resetTower tower
    let s := own.foldl (fun s r => s.failReq r cTIMEOUT) s
    let s := if bit (s.reg (offProm tower)) 31 then s.promLast tower 1 else s
    .next (s.notifyReset (.tower tower))

end Sys2Proof.Machine
end

