-- ==== Sys2Proof/Machine/Lanes.lean ====
section
/-! DEFINITION. The compare and mask words (R290 to R293), lane exchange, reductions and scans (R294 to
R298). -/

namespace Sys2Proof.Machine

/-- A compare writes one bit per lane, zero in a lane that is not enabled (R290). -/
def Group.compare (g : Group) (w k : Nat) (a b : Src) (holds : W32 → W32 → Bool) : Group :=
  g.setMask k (maskOf w fun i => g.enabled i && holds (g.laneSrc a i) (g.laneSrc b i))

/-- vcmp.s (R290): signed. -/
def execVcmpS (d : Code) (a b : Src) (c : Code) (s : State) : Out :=
  runPure (okCmpS d a b c) (max (a.vtop 1) (b.vtop 1)) (1 + a.nlit + b.nlit)
    (fun u => u.g.compare u.w c.val a b (cmpS d.val)) s

/-- vcmp.z (R290): unsigned. -/
def execVcmpZ (d : Code) (a b : Src) (c : Code) (s : State) : Out :=
  runPure (okCmpZ d a b c) (max (a.vtop 1) (b.vtop 1)) (1 + a.nlit + b.nlit)
    (fun u => u.g.compare u.w c.val a b (cmpZ d.val)) s

/-- vfcmp (R290, R291): FP32 by value. -/
def execVfcmp (d : Code) (a b : Src) (c : Code) (s : State) : Out :=
  runPure (okCmpF d a b c) (max (a.vtop 1) (b.vtop 1)) (1 + a.nlit + b.nlit)
    (fun u => u.g.compare u.w c.val a b (cmpF d.val)) s

/-- mand (R292). -/
def execMand (a b c : Code) (s : State) : Out :=
  runPure (okM3 a b c) 0 1 (fun u => u.g.setMask c.val (u.g.mask a.val &&& u.g.mask b.val)) s

/-- mor (R292). -/
def execMor (a b c : Code) (s : State) : Out :=
  runPure (okM3 a b c) 0 1 (fun u => u.g.setMask c.val (u.g.mask a.val ||| u.g.mask b.val)) s

/-- mxor (R292). -/
def execMxor (a b c : Code) (s : State) : Out :=
  runPure (okM3 a b c) 0 1 (fun u => u.g.setMask c.val (u.g.mask a.val ^^^ u.g.mask b.val)) s

/-- mnot (R292): over the W bits of the mask. -/
def execMnot (a c : Code) (s : State) : Out :=
  runPure (okM2 a c) 0 1 (fun u => u.g.setMask c.val (~~~(u.g.mask a.val) &&& maskOnes u.w)) s

/-- mtoex (R292): EXM := m[k]. -/
def execMtoex (c : Code) (s : State) : Out :=
  runPure (c.below 8) 0 1 (fun u => { u.g with exm := u.g.mask c.val }) s

/-- mfrex (R292): m[k] := EXM. -/
def execMfrex (c : Code) (s : State) : Out :=
  runPure (c.below 8) 0 1 (fun u => u.g.setMask c.val u.g.exm) s

/-- mpopc (R292). -/
def execMpopc (d : Dst) (c : Code) (s : State) : Out :=
  runPureTo d (okDM d c) 0 1 (fun u => u.g.setS d (BitVec.ofNat 64 (popcount 64 (u.g.mask c.val).toNat))) s

/-- mfirst (R292): W when the mask is empty. -/
def execMfirst (d : Dst) (c : Code) (s : State) : Out :=
  runPureTo d (okDM d c) 0 1 (fun u => u.g.setS d (BitVec.ofNat 64 (lowestBit u.w 0 (u.g.mask c.val).toNat))) s

/-- mfroms (R292): bits [W − 1:0] of a uniform value. -/
def execMfroms (a : Src) (c : Code) (s : State) : Out :=
  runPure (okMfroms a c) 0 (1 + a.nlit) (fun u => u.g.setMask c.val (u.g.scalar a &&& maskOnes u.w)) s

/-- mtos (R292). -/
def execMtos (d : Dst) (c : Code) (s : State) : Out :=
  runPureTo d (okDM d c) 0 1 (fun u => u.g.setS d (u.g.mask c.val)) s

/-- The lane that vshfl reads for lane i (R294). -/
def shflLane (w mode i n : Nat) : Nat :=
  match mode with
  | 0 => n % w
  | 1 => if n ≤ i then i - n else i
  | 2 => if i + n < w then i + n else i
  | _ => (i ^^^ n) % w

/-- vshfl (R294). -/
def execVshfl (d : Dst) (a b : Src) (c : Code) (s : State) : Out :=
  runPure (okVc4 d a b c) (vtop3 d a b) (1 + a.nlit + b.nlit) (fun u =>
    u.g.writeVec u.w d fun i => u.g.laneSrc a (shflLane u.w c.val i (u.g.laneSrc b i).toNat)) s

/-- The lane chosen by a uniform index (R295). -/
def Issuer.pick (u : Issuer) (a b : Src) : W32 :=
  u.g.laneSrc a (((u.g.scalar b).setWidth 32).toNat % u.w)

/-- vbcast (R295). -/
def execVbcast (d : Dst) (a b : Src) (s : State) : Out :=
  runPure (okBcast d a b) (vtop3 d a b) (1 + a.nlit + b.nlit) (fun u =>
    u.g.writeVec u.w d fun _ => u.pick a b) s

/-- vtos (R295): the chosen lane, zero-extended. -/
def execVtos (d : Dst) (a b : Src) (s : State) : Out :=
  runPureTo d (okVtos d a b) (max (a.vtop 1) (b.vtop 1)) (1 + a.nlit + b.nlit) (fun u =>
    u.g.setS d ((u.pick a b).setWidth 64)) s

/-- A reduction over the W lanes by the fixed tree; a disabled lane enters as the identity (R296, R261). -/
def reduction (d : Dst) (a : Src) (op : W32 → W32 → W32) (unit : W32) (ext : W32 → W64) : State → Out :=
  runPureTo d (okRed d a) (a.vtop 1) (1 + a.nlit) fun u =>
    u.g.setS d (ext (treeRed op (lanesLog u.w)
      ((List.range u.w).map fun i => if u.g.enabled i then u.g.laneSrc a i else unit)))

/-- vredadd.f32 (R296). -/
def execVredaddF32 (d : Dst) (a : Src) (s : State) : Out :=
  reduction d a f32Add 0x80000000#32 (·.setWidth 64) s

/-- vredadd.b32 (R296). -/
def execVredaddB32 (d : Dst) (a : Src) (s : State) : Out :=
  reduction d a (· + ·) 0#32 (·.setWidth 64) s

/-- vredmin.s (R296). -/
def execVredminS (d : Dst) (a : Src) (s : State) : Out :=
  reduction d a vminS 0x7FFFFFFF#32 (·.signExtend 64) s

/-- vredmax.s (R296). -/
def execVredmaxS (d : Dst) (a : Src) (s : State) : Out :=
  reduction d a vmaxS 0x80000000#32 (·.signExtend 64) s

/-- vredmin.f32 (R296). -/
def execVredminF32 (d : Dst) (a : Src) (s : State) : Out :=
  reduction d a f32Min 0x7F800000#32 (·.setWidth 64) s

/-- vredmax.f32 (R296). -/
def execVredmaxF32 (d : Dst) (a : Src) (s : State) : Out :=
  reduction d a f32Max 0xFF800000#32 (·.setWidth 64) s

/-- An inclusive scan over the W lanes; a disabled lane contributes the identity (R297, R262). -/
def scan (d : Dst) (a : Src) (op : W32 → W32 → W32) (unit : W32) : State → Out :=
  runPure (okV2 d a) (max (d.vtop 1) (a.vtop 1)) (1 + a.nlit) fun u =>
    let r := scanRed op ((List.range u.w).map fun i => if u.g.enabled i then u.g.laneSrc a i else unit)
    u.g.writeVec u.w d fun i => lane r i

/-- vscanadd.f32 (R297). -/
def execVscanaddF32 (d : Dst) (a : Src) (s : State) : Out :=
  scan d a f32Add 0x80000000#32 s

/-- vscanadd.b32 (R297). -/
def execVscanaddB32 (d : Dst) (a : Src) (s : State) : Out :=
  scan d a (· + ·) 0#32 s

end Sys2Proof.Machine
end

