-- ==== Sys2Proof/Machine/MillSched.lean ====
section
/-! DEFINITION. Mill tasks (R90, R187, R189, R190, R195): assignment, loading, pre-emption and restoring. -/

namespace Sys2Proof.Machine

/-! ### The state of a mill task (R72, R189) -/

/-- The state that its mills give a mill task: running while one is on a mill, in pre-emption while one is being saved, placed while it has
only mills that are being loaded. -/
def State.millTaskSt (s : State) (k : Task) : TaskSt :=
  let ms := s.mills.filter fun m => m.tid == k.tid
  if ms.any fun m => match m.st with | .save _ => true | _ => false then .preempt
  else if ms.any fun m => m.st != .halt && m.st != .load then .running
  else if !ms.isEmpty && ms.all fun m => m.st == .load then .placed
  else if ms.any fun m => m.st == .load then .running
  else if s.sched.savedMills.any fun x => x.tid == k.tid then .stabled
  else if k.millsLeft.isEmpty then .ready
  else .running
/-- Bring a mill task's state up to date. -/
def State.settleMills (s : State) (tid : Nat) : State :=
  match s.task? tid with
  | some k => s.putTask { k with st := match k.st with
      | .waitdep => .waitdep | .waithaz => .waithaz | .drain => .drain | .done => .done | _ => s.millTaskSt k }
  | none => s
/-- Mills of a task that have been assigned on a tower. -/
def Task.assigned (k : Task) (tower : Nat) : Nat := ((k.millsLeft.find? fun e => e.1 == tower).map fun e => e.2).getD 0
/-- A mill of a tower that holds nothing. -/
def State.millIdle (s : State) (r : MillRef) : Bool := decide (r.tower < 72) && decide (r.idx < 8) && !(s.mills.any fun m => m.id == r)
def State.idleMills (s : State) (tower : Nat) : Nat := ((List.range 8).filter fun i => s.millIdle ⟨tower, i⟩).length
/-- Mills that a task still needs on a tower: those it has not had yet, and those that are saved. -/
def State.millsWanted (s : State) (k : Task) (tower : Nat) : Nat :=
  (if bit k.launch.towmask tower then k.launch.nmill - k.assigned tower else 0) +
  (s.sched.savedMills.filter fun x => x.tid == k.tid && x.tower == tower).length
/-- A mill task that may be given mills. -/
def Task.millReady (k : Task) : Bool :=
  k.type == .mill && !k.faulted && (match k.st with | .ready => true | .placed => true | .running => true | .stabled => true | .preempt => true | _ => false)
/-- The mills a tower dispatcher starts together: all that the task wants there. -/
def State.millRoom (s : State) (k : Task) (tower : Nat) : Bool :=
  let partly := decide (0 < k.assigned tower) && decide (k.assigned tower < k.launch.nmill)
  decide (0 < s.millsWanted k tower) && (partly || decide (s.millsWanted k tower ≤ s.idleMills tower))
/-- No other mill task goes before a task on a tower (R86). -/
def State.millMayGo (s : State) (k : Task) (tower : Nat) : Bool :=
  let before := s.earlier k.tid
  s.sched.tasks.all fun j => j.tid == k.tid || !j.millReady || !s.millRoom j tower ||
    !(decide (s.effPrio k < s.effPrio j) || (s.effPrio j == s.effPrio k && before.any fun e => e.tid == j.tid))

/-! ### Assignment and loading (R90, R189) -/

/-- A mill that is being loaded: its local memory is zero. R189 zeroes its first LOCBYTES; that the bytes above them are zero too is the
model's choice (DESIGN CHOICE, log entry 123). -/
def Mill.loading (r : MillRef) (tid m : Nat) : Mill :=
  { id := r, tid := tid, m := m, st := .load, pc := 0, g := Vector.replicate 32 0, w := Vector.replicate 16 (List.replicate 16 0)
    k := Vector.replicate 4 0, loc := [], buf := [], bad := [], rowprog := 0, rowop := 0, rowa := 0, rowb := 0, rowd := 0, rowpc := 0
    rowBusy := [], rowOut := none, rowFault := none, relock := [], fetchBuf := [], wait := none, stall := MemStall.none
    faultVa := 0, since := 0, block := .none }

/-- MILL_ASSIGN (R63, R72, R90, R189): a tower dispatcher gives a task one of its idle mills. -/
def execMillAssign (tid : Nat) (r : MillRef) (s : State) : Out :=
  match s.task? tid with
  | none => s.stays
  | some k =>
    let n := k.assigned r.tower
    if k.millReady = false ∨ bit k.launch.towmask r.tower = false ∨ k.launch.nmill ≤ n ∨ s.millIdle r = false ∨
        s.millRoom k r.tower = false ∨ s.millMayGo k r.tower = false ∨ s.siteRuns (.tower r.tower) = false ∨
        s.mem.failedTowers.contains r.tower = true then s.stays
    else
      let s := { s with mills := s.mills ++ [Mill.loading r tid n] }
      .next ((s.setTask { k with millsLeft := (k.millsLeft.filter fun e => e.1 != r.tower) ++ [(r.tower, n + 1)] }).settleMills tid)
/-- MILL_LOAD_COMPLETE (R187, R189, R355): the mill runs, from CODE + ENTRY. -/
def execMillLoadComplete (r : MillRef) (s : State) : Out :=
  match s.mill? r with
  | none => s.stays
  | some m =>
    match s.task? m.tid with
    | none => s.stays
    | some k =>
      if m.st ≠ .load ∨ s.siteRuns (.tower r.tower) = false then s.stays
      else .next ((s.setMill { m with
        st := .run, pc := BitVec.ofNat 64 (k.launch.code + k.launch.entry), since := s.now (.tower r.tower) }).settleMills m.tid)

/-! ### Pre-emption (R91, R189, R190, R195) -/

/-- A task's mills on a tower that are not halted. -/
def State.towerMills (s : State) (tid tower : Nat) : List Mill := s.mills.filter fun m => m.tid == tid && m.id.tower == tower && m.st != .halt
/-- Blocks for a task's mills on a tower (R190). -/
def State.millBlocks (s : State) (k : Task) (ms : List Mill) : Option (List BlockLoc) :=
  if k.stable ≠ 0 then
    some (ms.map fun m =>
      let rank := ((List.range m.id.tower).filter fun j => bit k.launch.towmask j).length
      .va (k.stable + millBlockSize * (rank * k.launch.nmill + m.m)))
  else if ms.all fun m => m.block != .none then some (ms.map fun m => m.block)
  else s.takeBlocks millBlockSize ms.length s.poolTakes
/-- A task on a tower is placed and does not run yet: all of its mills there are being loaded, and there is nothing to save (R72). -/
def State.millPlaced (s : State) (k : Task) (tower : Nat) : Bool :=
  k.st == .placed && (s.towerMills k.tid tower).length == k.assigned tower && (s.towerMills k.tid tower).all fun m => m.st == .load
/-- A mill task's mills on a tower may be taken for a task of a base priority. -/
def State.millVictim (s : State) (prio : Nat) (k : Task) (tower : Nat) : Bool :=
  let ms := s.towerMills k.tid tower
  decide (k.prio + 2 ≤ prio) && !k.faulted && ms != [] && (s.millPlaced k tower ||
  (ms.all fun m => (match m.st with | .run => true | .park _ => true | _ => false) && decide (m.since + 100000 ≤ s.now (.tower tower))) &&
  (s.millBlocks k ms).isSome)
/-- Of two victims the one with the lower base priority, and then the one started last, goes first. -/
def State.millBefore (s : State) (tower : Nat) (a b : Task) : Bool :=
  let t (k : Task) : Nat := ((s.towerMills k.tid tower).map fun m => m.since).foldl max 0
  decide (a.prio < b.prio) || (a.prio == b.prio && decide (t b < t a))
/-- The pool has blocks for every mill that some victims have on a tower, together (R93, R190). -/
def State.millSpaceFor (s : State) (tower : Nat) (vs : List Task) : Bool :=
  let need := ((vs.filter fun k => k.stable == 0 && !s.millPlaced k tower).flatMap fun k => s.towerMills k.tid tower).filter fun m => m.block == .none
  (s.takeBlocks millBlockSize need.length s.poolTakes).isSome
/-- Some waiting task cannot have the mills it wants on a tower, and taking victims in order frees enough of them; the first is `v`. -/
def State.millNeed (s : State) (tower : Nat) (v : Task) : Bool :=
  s.sched.tasks.any fun k =>
    let vs := sortBy (fun a b => !s.millBefore tower b a) (s.sched.tasks.filter fun j => s.millVictim k.prio j tower)
    let free := s.idleMills tower + (s.mills.filter fun m => m.id.tower == tower && (match m.st with | .save _ => true | _ => false)).length
    let freed (n : Nat) : Nat := free + ((vs.take n).map fun j => (s.towerMills j.tid tower).length).sum
    k.millReady && (k.st == .ready || k.st == .stabled) && decide (free < s.millsWanted k tower) &&
    (match vs with | j :: _ => j.tid == v.tid | [] => false) &&
    (match (List.range (vs.length + 1)).find? fun n => decide (s.millsWanted k tower ≤ freed n) with
      | some n => s.millSpaceFor tower (vs.take n)
      | none => false)
/-- Choose all of a task's mills on a tower; those of a task that does not run yet are freed (R72). -/
def State.chooseMills (s : State) (k : Task) (tower : Nat) : State :=
  let ms := s.towerMills k.tid tower
  if s.millPlaced k tower then
    ({ s with mills := s.mills.filter fun m => !(m.tid == k.tid && m.id.tower == tower) }.setTask
      { k with millsLeft := k.millsLeft.filter fun e => e.1 != tower }).settleMills k.tid
  else match s.millBlocks k ms with
  | none => s
  | some bs =>
    ((ms.zip bs).foldl (fun s p => s.setMill { p.1 with
      st := .save (match p.1.st with | .park f => f | _ => 0), block := p.2 }) s).settleMills k.tid

/-- Write a mill's block: its locks are released, and the mill is free (R189, R190). A wait is abandoned, and its word
executes again on resumption. -/
def State.saveMill (s : State) (u : MillIssuer) : Out :=
  match s.blockWrite (s.towerHomeOf u.tower) u.k.asid u.m.block 0 (s.millBlock u) with
  | .busy => s.stays
  | .bad c s => .next (s.taskFault (towerSheet u.tower) (towerSite u.tower) u.k.tid c u.m.m)
  | .ok _ s =>
    let fid := match u.m.st with | .save f => f | _ => 0
    let x : SavedMill := ⟨u.k.tid, u.tower, u.m.m, u.m.block, fid, u.m.faultVa, u.m.bad⟩
    let s := s.releaseLocks u.m.id
    .next (State.settleMills { s with
      mills := s.mills.filter fun m => m.id != u.m.id
      sched := { s.sched with savedMills := s.sched.savedMills ++ [x] } } u.k.tid)

/-- A task's mills on a tower stand between two words: none has an access outside (R190). -/
def State.betweenWords (s : State) (k : Task) (tower : Nat) : Bool := (s.towerMills k.tid tower).all fun m => m.stall == MemStall.none
/-- MILL_PREEMPT (R72, R91, R92, R189, R190): a task's mills of the tower are chosen; then each is saved at its next
pre-emption point, when no step and no access of it is in flight. -/
def execMillPreempt (r : MillRef) (s : State) : Out :=
  match s.mill? r with
  | none => s.stays
  | some m =>
    match s.task? m.tid with
    | none => s.stays
    | some k =>
      if s.siteRuns (.tower r.tower) = false ∨ k.faulted = true then s.stays
      else match m.st with
      | .save _ => if m.rowBusy ≠ [] ∨ m.stall.sent = true then s.stays else s.saveMill ⟨m, k⟩
      | .load => if s.millPlaced k r.tower && s.millNeed r.tower k then .next (s.chooseMills k r.tower) else s.stays
      | .run => if s.betweenWords k r.tower && s.millNeed r.tower k then .next (s.chooseMills k r.tower) else s.stays
      | .park _ => if s.betweenWords k r.tower && s.millNeed r.tower k then .next (s.chooseMills k r.tower) else s.stays
      | _ => s.stays

/-- MILL_RESTORE (R94, R189, R190, R195): mill `m` of a task goes back on a mill of its tower; a replay or a cancel that
its block records is carried out. -/
def execMillRestore (tid rank : Nat) (r : MillRef) (s : State) : Out := s.happens <|
  match s.task? tid, s.sched.savedMills.find? fun x => x.tid == tid && x.tower == r.tower && x.m == rank with
  | some k, some x =>
    if k.millReady = false ∨ s.millIdle r = false ∨ s.millMayGo k r.tower = false ∨ s.siteRuns (.tower r.tower) = false then
      none
    else match s.blockRead (s.towerHomeOf r.tower) k.asid x.block 0 millBlockSize with
    | .busy => none
    | .bad c s => some (s.taskFault (towerSheet r.tower) (towerSite r.tower) tid c rank)
    | .ok b s =>
      let m := { x.restore r b with since := s.now (.tower r.tower) }
      let s := { s with mills := s.mills ++ [m], sched := { s.sched with savedMills := s.sched.savedMills.erase x } }
      let f := fld b 0x0A 2
      let s := if bit f 0 && bit f 4 then s.millTrap ⟨m, k⟩ cTRANSL (if m.rowNames m.faultVa.toNat then m.rowpc else m.pc) else s
      some (s.settleMills tid)
  | _, _ => none

end Sys2Proof.Machine
end

