-- ==== Sys2Proof/Machine/Scalar.lean ====
section
/-! DEFINITION. The scalar words (R269 to R275): one step per group, whatever EXM holds. -/

namespace Sys2Proof.Machine

/-- Write a scalar result and its flags (R270). -/
def Group.putS (g : Group) (d : Dst) (r : ScalarOut) : Group :=
  let g' := g.setS d r.1
  match r.2 with
  | some f => { g' with flags := f }
  | none => g'

/-- A scalar word of two uniform sources (R269, R270). -/
def scalar3 (d : Dst) (a b : Src) (f : W64 → W64 → ScalarOut) : State → Out :=
  runPureTo d (okS3 d a b) 0 (1 + a.nlit + b.nlit) fun u => u.g.putS d (f (u.g.scalar a) (u.g.scalar b))

/-- A scalar word of one uniform source. -/
def scalar2 (d : Dst) (a : Src) (f : W64 → ScalarOut) : State → Out :=
  runPureTo d (okS2 d a) 0 (1 + a.nlit) fun u => u.g.putS d (f (u.g.scalar a))

/-- A result with the flags of flags_logic (R271). -/
def logicOut (x : W64) : ScalarOut := (x, some (flagsLogic x))

/-- The old value of a scalar destination (R274). -/
def Group.oldS (g : Group) (d : Dst) : W64 :=
  match d with
  | .s n => g.s[n]
  | _ => 0

/-- nop (R269, R272): no effect. -/
def execNop (s : State) : Out := runPure true 0 1 (fun u => u.g) s

/-- sadd (R272): the sum, flags_add. -/
def execSadd (d : Dst) (a b : Src) (s : State) : Out :=
  scalar3 d a b (fun x y => (x + y, some (flagsAdd x y))) s

/-- ssub (R272): the difference, flags_sub. -/
def execSsub (d : Dst) (a b : Src) (s : State) : Out :=
  scalar3 d a b (fun x y => (x - y, some (flagsSub x y))) s

/-- smul (R272): the low product, flags_mul. -/
def execSmul (d : Dst) (a b : Src) (s : State) : Out :=
  scalar3 d a b (fun x y => (x * y, some (flagsMul x y))) s

/-- smulh.s (R272): the high signed product, flags_logic. -/
def execSmulhS (d : Dst) (a b : Src) (s : State) : Out :=
  scalar3 d a b (fun x y => logicOut (mulhS x y)) s

/-- smulh.z (R272): the high unsigned product, flags_logic. -/
def execSmulhZ (d : Dst) (a b : Src) (s : State) : Out :=
  scalar3 d a b (fun x y => logicOut (mulhZ x y)) s

/-- sdiv.s (R273). -/
def execSdivS (d : Dst) (a b : Src) (s : State) : Out :=
  scalar3 d a b (fun x y => divOut (divS x y)) s

/-- sdiv.z (R273). -/
def execSdivZ (d : Dst) (a b : Src) (s : State) : Out :=
  scalar3 d a b (fun x y => divOut (divZ x y)) s

/-- srem.s (R273). -/
def execSremS (d : Dst) (a b : Src) (s : State) : Out :=
  scalar3 d a b (fun x y => divOut (remS x y)) s

/-- srem.z (R273). -/
def execSremZ (d : Dst) (a b : Src) (s : State) : Out :=
  scalar3 d a b (fun x y => divOut (remZ x y)) s

/-- sand (R272), flags_logic. -/
def execSand (d : Dst) (a b : Src) (s : State) : Out :=
  scalar3 d a b (fun x y => logicOut (x &&& y)) s

/-- sor (R272), flags_logic. -/
def execSor (d : Dst) (a b : Src) (s : State) : Out :=
  scalar3 d a b (fun x y => logicOut (x ||| y)) s

/-- sxor (R272), flags_logic. -/
def execSxor (d : Dst) (a b : Src) (s : State) : Out :=
  scalar3 d a b (fun x y => logicOut (x ^^^ y)) s

/-- sshl (R274), flags_logic. -/
def execSshl (d : Dst) (a b : Src) (s : State) : Out :=
  scalar3 d a b (fun x y => logicOut (shl64 x y.toNat)) s

/-- sshr (R274), flags_logic. -/
def execSshr (d : Dst) (a b : Src) (s : State) : Out :=
  scalar3 d a b (fun x y => logicOut (shr64 x y.toNat)) s

/-- ssar (R274), flags_logic. -/
def execSsar (d : Dst) (a b : Src) (s : State) : Out :=
  scalar3 d a b (fun x y => logicOut (sar64 x y.toNat)) s

/-- smin.s (R272), flags_logic. -/
def execSminS (d : Dst) (a b : Src) (s : State) : Out :=
  scalar3 d a b (fun x y => logicOut (minS x y)) s

/-- smax.s (R272), flags_logic. -/
def execSmaxS (d : Dst) (a b : Src) (s : State) : Out :=
  scalar3 d a b (fun x y => logicOut (maxS x y)) s

/-- smin.z (R272), flags_logic. -/
def execSminZ (d : Dst) (a b : Src) (s : State) : Out :=
  scalar3 d a b (fun x y => logicOut (minZ x y)) s

/-- smax.z (R272), flags_logic. -/
def execSmaxZ (d : Dst) (a b : Src) (s : State) : Out :=
  scalar3 d a b (fun x y => logicOut (maxZ x y)) s

/-- scmp.s (R272): the sign of the comparison, flags of x − y. -/
def execScmpS (d : Dst) (a b : Src) (s : State) : Out :=
  scalar3 d a b (fun x y => (sign3 (decide (x.toInt < y.toInt)) (x == y), some (flagsSub x y))) s

/-- scmp.z (R272): the sign of the comparison, flags of x − y. -/
def execScmpZ (d : Dst) (a b : Src) (s : State) : Out :=
  scalar3 d a b (fun x y => (sign3 (decide (x.toNat < y.toNat)) (x == y), some (flagsSub x y))) s

/-- ssel (R272, R275): x when the condition holds, otherwise y; FLAGS unchanged. -/
def execSsel (d : Dst) (a b : Src) (c : Code) (s : State) : Out :=
  runPureTo d (okSsel d a b c) 0 (1 + a.nlit + b.nlit) (fun u =>
    u.g.putS d (if condHolds u.g.flags c.val then u.g.scalar a else u.g.scalar b, none)) s

/-- smov (R272): FLAGS unchanged. -/
def execSmov (d : Dst) (a : Src) (s : State) : Out :=
  scalar2 d a (fun x => (x, none)) s

/-- smovl (R272): the two literals, low word first; FLAGS unchanged. -/
def execSmovl (d : Dst) (lo hi : BitVec 32) (s : State) : Out :=
  runPureTo d d.isS 0 3 (fun u => u.g.putS d (hi ++ lo, none)) s

/-- sclz (R272): leading zero bits, flags_logic. -/
def execSclz (d : Dst) (a : Src) (s : State) : Out :=
  scalar2 d a (fun x => logicOut (BitVec.ofNat 64 (leadZeros 64 x.toNat))) s

/-- spopc (R272): one bits, flags_logic. -/
def execSpopc (d : Dst) (a : Src) (s : State) : Out :=
  scalar2 d a (fun x => logicOut (BitVec.ofNat 64 (popcount 64 x.toNat))) s

/-- sbfx (R274): a field of c bits (0 means 64) at position u(y), flags_logic. -/
def execSbfx (d : Dst) (a b : Src) (c : Code) (s : State) : Out :=
  runPureTo d (okSbf d a b) 0 (1 + a.nlit + b.nlit) (fun u =>
    u.g.putS d (logicOut (bfx64 (u.g.scalar a) (u.g.scalar b).toNat (fieldWidth 64 c.val)))) s

/-- sbfi (R274): a field of c bits (0 means 64) put into the old d at position u(y), flags_logic. -/
def execSbfi (d : Dst) (a b : Src) (c : Code) (s : State) : Out :=
  runPureTo d (okSbf d a b) 0 (1 + a.nlit + b.nlit) (fun u =>
    u.g.putS d (logicOut (bfi64 (u.g.oldS d) (u.g.scalar a) (u.g.scalar b).toNat (fieldWidth 64 c.val)))) s

/-- sexw (R272): the low word sign-extended, flags_logic. -/
def execSexw (d : Dst) (a : Src) (s : State) : Out :=
  scalar2 d a (fun x => logicOut ((x.setWidth 32).signExtend 64)) s

/-- szxw (R272): the low word zero-extended, flags_logic. -/
def execSzxw (d : Dst) (a : Src) (s : State) : Out :=
  scalar2 d a (fun x => logicOut ((x.setWidth 32).setWidth 64)) s

/-- smad (R272): x × y + z with one wrap, flags_logic. -/
def execSmad (d : Dst) (a b c : Src) (s : State) : Out :=
  runPureTo d (okS4 d a b c) 0 (1 + a.nlit + b.nlit + c.nlit) (fun u =>
    u.g.putS d (logicOut (u.g.scalar a * u.g.scalar b + u.g.scalar c))) s

end Sys2Proof.Machine
end

