-- ==== Sys2Proof/Machine/Dispatch.lean ====
section
/-! DEFINITION. The one dispatch from an instruction or event to its meaning. -/

namespace Sys2Proof.Machine

def exec (i : Instr) (s : State) : Host.Outcome State Fault Refusal :=
  match i with
  | .partReset => Sys2Proof.Machine.execPartReset s
  | .bootPhase r => Sys2Proof.Machine.execBootPhase r s
  | .bootPhaseLimitExpiry => Sys2Proof.Machine.execBootPhaseLimitExpiry s
  | .clockStretchChange sheet n => Sys2Proof.Machine.execClockStretchChange sheet n s
  | .freezeRequest => Sys2Proof.Machine.execFreezeRequest s
  | .debugFreezeRequest => Sys2Proof.Machine.execDebugFreezeRequest s
  | .sheetFreeze sheet => Sys2Proof.Machine.execSheetFreeze sheet s
  | .thaw => Sys2Proof.Machine.execThaw s
  | .frzctlReset => Sys2Proof.Machine.execFrzctlReset s
  | .readout1687 what => Sys2Proof.Machine.execReadout1687 what s
  | .debugGrant valid marker => Sys2Proof.Machine.execDebugGrant valid marker s
  | .farrierLost sheet => Sys2Proof.Machine.execFarrierLost sheet s
  | .linkFlitCrcFail l => Sys2Proof.Machine.execLinkFlitCrcFail l s
  | .linkRetrain l => Sys2Proof.Machine.execLinkRetrain l s
  | .linkRetrainFail l => Sys2Proof.Machine.execLinkRetrainFail l s
  | .routerForward k => Sys2Proof.Machine.execRouterForward k s
  | .opticalNak f => Sys2Proof.Machine.execOpticalNak f s
  | .fibreRetrain f good => Sys2Proof.Machine.execFibreRetrain f good s
  | .hashBucketMove b f => Sys2Proof.Machine.execHashBucketMove b f s
  | .opticalTransit p pkt => Sys2Proof.Machine.execOpticalTransit p pkt s
  | .routeEntryWrite p k v => Sys2Proof.Machine.execRouteEntryWrite p k v s
  | .responseArrival k => Sys2Proof.Machine.execResponseArrival k s
  | .watermarkNotice k => Sys2Proof.Machine.execWatermarkNotice k s
  | .requestTimeout site tag => Sys2Proof.Machine.execRequestTimeout site tag s
  | .xtocfgWrite site v => Sys2Proof.Machine.execXtocfgWrite site v s
  | .pkgnumWrite v => Sys2Proof.Machine.execPkgnumWrite v s
  | .lrbaseWrite r v => Sys2Proof.Machine.execLrbaseWrite r v s
  | .lrgrantWrite r g v => Sys2Proof.Machine.execLrgrantWrite r g v s
  | .grantWithdrawComplete r => Sys2Proof.Machine.execGrantWithdrawComplete r s
  | .poolAccess who region off acc => Sys2Proof.Machine.execPoolAccess who region off acc s
  | .compositionEntryWrite n v => Sys2Proof.Machine.execCompositionEntryWrite n v s
  | .cxlMemAccess port dpa acc => Sys2Proof.Machine.execCxlMemAccess port dpa acc s
  | .bar4Access port off acc => Sys2Proof.Machine.execBar4Access port off acc s
  | .registerWrite off v => Sys2Proof.Machine.execRegisterWrite off v s
  | .queueEnable q v => Sys2Proof.Machine.execQueueEnable q v s
  | .queueDisable q v => Sys2Proof.Machine.execQueueDisable q v s
  | .qstatClear q v => Sys2Proof.Machine.execQstatClear q v s
  | .tailWrite src q t => Sys2Proof.Machine.execTailWrite src q t s
  | .recordPull q ext => Sys2Proof.Machine.execRecordPull q ext s
  | .recordReadFail q => Sys2Proof.Machine.execRecordReadFail q s
  | .headShadowFail q => Sys2Proof.Machine.execHeadShadowFail q s
  | .taskAdmit q => Sys2Proof.Machine.execTaskAdmit q s
  | .admissionRetry q => Sys2Proof.Machine.execAdmissionRetry q s
  | .successorListRead tid => Sys2Proof.Machine.execSuccessorListRead tid s
  | .hazardRelease tid => Sys2Proof.Machine.execHazardRelease tid s
  | .taskPlace tid set spots cwbase => Sys2Proof.Machine.execTaskPlace tid set spots cwbase s
  | .ageingReserve tid set => Sys2Proof.Machine.execAgeingReserve tid set s
  | .edgeInvalidate tid die => Sys2Proof.Machine.execEdgeInvalidate tid die s
  | .teamStart tid set => Sys2Proof.Machine.execTeamStart tid set s
  | .preemptChoose tid victim set => Sys2Proof.Machine.execPreemptChoose tid victim set s
  | .preemptSequence tid set => Sys2Proof.Machine.execPreemptSequence tid set s
  | .preemptComplete tid set => Sys2Proof.Machine.execPreemptComplete tid set s
  | .taskResume tid set spots => Sys2Proof.Machine.execTaskResume tid set spots s
  | .taskDrain tid => Sys2Proof.Machine.execTaskDrain tid s
  | .edgeWriteback tid die => Sys2Proof.Machine.execEdgeWriteback tid die s
  | .taskDone tid => Sys2Proof.Machine.execTaskDone tid s
  | .taskFaultEnd tid => Sys2Proof.Machine.execTaskFaultEnd tid s
  | .completionStoreFail tid => Sys2Proof.Machine.execCompletionStoreFail tid s
  | .msixSend tid => Sys2Proof.Machine.execMsixSend tid s
  | .stablePoolWrite off v => Sys2Proof.Machine.execStablePoolWrite off v s
  | .millAssign tid m => Sys2Proof.Machine.execMillAssign tid m s
  | .millLoadComplete m => Sys2Proof.Machine.execMillLoadComplete m s
  | .millPreempt m => Sys2Proof.Machine.execMillPreempt m s
  | .millRestore tid rank m => Sys2Proof.Machine.execMillRestore tid rank m s
  | .ownerTableWrite die n v => Sys2Proof.Machine.execOwnerTableWrite die n v s
  | .homeTableWrite die n v => Sys2Proof.Machine.execHomeTableWrite die n v s
  | .towerHomeTableWrite tower n v => Sys2Proof.Machine.execTowerHomeTableWrite tower n v s
  | .gets k => Sys2Proof.Machine.execGets k s
  | .getx k => Sys2Proof.Machine.execGetx k s
  | .upgr k => Sys2Proof.Machine.execUpgr k s
  | .inv k => Sys2Proof.Machine.execInv k s
  | .fwds k => Sys2Proof.Machine.execFwds k s
  | .fwdx k => Sys2Proof.Machine.execFwdx k s
  | .recallMsg k => Sys2Proof.Machine.execRecallMsg k s
  | .drain k => Sys2Proof.Machine.execDrain k s
  | .drainack k => Sys2Proof.Machine.execDrainack k s
  | .data k => Sys2Proof.Machine.execData k s
  | .datax k => Sys2Proof.Machine.execDatax k s
  | .invack k => Sys2Proof.Machine.execInvack k s
  | .wbdirty k => Sys2Proof.Machine.execWbdirty k s
  | .wRegistrationTimer node asid line => Sys2Proof.Machine.execWRegistrationTimer node asid line s
  | .lineEviction node asid line ecc => Sys2Proof.Machine.execLineEviction node asid line ecc s
  | .towerCacheEviction tower line => Sys2Proof.Machine.execTowerCacheEviction tower line s
  | .pageWalk k => Sys2Proof.Machine.execPageWalk k s
  | .promreqWrite tower v => Sys2Proof.Machine.execPromreqWrite tower v s
  | .promotionComplete tower => Sys2Proof.Machine.execPromotionComplete tower s
  | .lostMarkClear tower v => Sys2Proof.Machine.execLostMarkClear tower v s
  | .faultRecordPost fid => Sys2Proof.Machine.execFaultRecordPost fid s
  | .dieFailure die => Sys2Proof.Machine.execDieFailure die s
  | .directoryScanComplete tower die => Sys2Proof.Machine.execDirectoryScanComplete tower die s
  | .towerFailure tower => Sys2Proof.Machine.execTowerFailure tower s
  | .sliceRebuildComplete tower => Sys2Proof.Machine.execSliceRebuildComplete tower s
  | .dieReset die => Sys2Proof.Machine.execDieReset die s
  | .towerReset tower => Sys2Proof.Machine.execTowerReset tower s
  | .loadResponse g ecc => Sys2Proof.Machine.execLoadResponse g ecc s
  | .matrixKStep c res => Sys2Proof.Machine.execMatrixKStep c res s
  | .copyStart c k => Sys2Proof.Machine.execCopyStart c k s
  | .copyUnitComplete c k ecc => Sys2Proof.Machine.execCopyUnitComplete c k ecc s
  | .tethcfgWrite t v => Sys2Proof.Machine.execTethcfgWrite t v s
  | .tethcntWrite t v => Sys2Proof.Machine.execTethcntWrite t v s
  | .tetherArrival tid team t => Sys2Proof.Machine.execTetherArrival tid team t s
  | .tetherRelease t => Sys2Proof.Machine.execTetherRelease t s
  | .exitComplete g => Sys2Proof.Machine.execExitComplete g s
  | .rowStepStart m c => Sys2Proof.Machine.execRowStepStart m c s
  | .rowStepComplete m c => Sys2Proof.Machine.execRowStepComplete m c s
  | .refresh tower ch bank => Sys2Proof.Machine.execRefresh tower ch bank s
  | .refreshComplete tower ch bank => Sys2Proof.Machine.execRefreshComplete tower ch bank s
  | .bankLockTaken m => Sys2Proof.Machine.execBankLockTaken m s
  | .bankLockForcedRelease m pair => Sys2Proof.Machine.execBankLockForcedRelease m pair s
  | .wfaWake g => Sys2Proof.Machine.execWfaWake g s
  | .mparkWake m => Sys2Proof.Machine.execMparkWake m s
  | .errorRecordPost => Sys2Proof.Machine.execErrorRecordPost s
  | .attestationGo v => Sys2Proof.Machine.execAttestationGo v s
  | .attestationDone => Sys2Proof.Machine.execAttestationDone s
  | .clauseHeader n cls mbw sdr cpw => Sys2Proof.Machine.execClauseHeader n cls mbw sdr cpw s
  | .nop => Sys2Proof.Machine.execNop s
  | .sadd d a b => Sys2Proof.Machine.execSadd d a b s
  | .ssub d a b => Sys2Proof.Machine.execSsub d a b s
  | .smul d a b => Sys2Proof.Machine.execSmul d a b s
  | .smulhS d a b => Sys2Proof.Machine.execSmulhS d a b s
  | .smulhZ d a b => Sys2Proof.Machine.execSmulhZ d a b s
  | .sdivS d a b => Sys2Proof.Machine.execSdivS d a b s
  | .sdivZ d a b => Sys2Proof.Machine.execSdivZ d a b s
  | .sremS d a b => Sys2Proof.Machine.execSremS d a b s
  | .sremZ d a b => Sys2Proof.Machine.execSremZ d a b s
  | .sand d a b => Sys2Proof.Machine.execSand d a b s
  | .sor d a b => Sys2Proof.Machine.execSor d a b s
  | .sxor d a b => Sys2Proof.Machine.execSxor d a b s
  | .sshl d a b => Sys2Proof.Machine.execSshl d a b s
  | .sshr d a b => Sys2Proof.Machine.execSshr d a b s
  | .ssar d a b => Sys2Proof.Machine.execSsar d a b s
  | .sminS d a b => Sys2Proof.Machine.execSminS d a b s
  | .smaxS d a b => Sys2Proof.Machine.execSmaxS d a b s
  | .sminZ d a b => Sys2Proof.Machine.execSminZ d a b s
  | .smaxZ d a b => Sys2Proof.Machine.execSmaxZ d a b s
  | .scmpS d a b => Sys2Proof.Machine.execScmpS d a b s
  | .scmpZ d a b => Sys2Proof.Machine.execScmpZ d a b s
  | .ssel d a b c => Sys2Proof.Machine.execSsel d a b c s
  | .smov d a => Sys2Proof.Machine.execSmov d a s
  | .smovl d lo hi => Sys2Proof.Machine.execSmovl d lo hi s
  | .sclz d a => Sys2Proof.Machine.execSclz d a s
  | .spopc d a => Sys2Proof.Machine.execSpopc d a s
  | .sbfx d a b c => Sys2Proof.Machine.execSbfx d a b c s
  | .sbfi d a b c => Sys2Proof.Machine.execSbfi d a b c s
  | .sexw d a => Sys2Proof.Machine.execSexw d a s
  | .szxw d a => Sys2Proof.Machine.execSzxw d a s
  | .smad d a b c => Sys2Proof.Machine.execSmad d a b c s
  | .vadd d a b => Sys2Proof.Machine.execVadd d a b s
  | .vsub d a b => Sys2Proof.Machine.execVsub d a b s
  | .vmul d a b => Sys2Proof.Machine.execVmul d a b s
  | .vmulhS d a b => Sys2Proof.Machine.execVmulhS d a b s
  | .vmulhZ d a b => Sys2Proof.Machine.execVmulhZ d a b s
  | .vmad d a b c => Sys2Proof.Machine.execVmad d a b c s
  | .vaddsS d a b => Sys2Proof.Machine.execVaddsS d a b s
  | .vsubsS d a b => Sys2Proof.Machine.execVsubsS d a b s
  | .vminS d a b => Sys2Proof.Machine.execVminS d a b s
  | .vmaxS d a b => Sys2Proof.Machine.execVmaxS d a b s
  | .vminZ d a b => Sys2Proof.Machine.execVminZ d a b s
  | .vmaxZ d a b => Sys2Proof.Machine.execVmaxZ d a b s
  | .vabsS d a => Sys2Proof.Machine.execVabsS d a s
  | .vand d a b => Sys2Proof.Machine.execVand d a b s
  | .vor d a b => Sys2Proof.Machine.execVor d a b s
  | .vxor d a b => Sys2Proof.Machine.execVxor d a b s
  | .vshl d a b => Sys2Proof.Machine.execVshl d a b s
  | .vshr d a b => Sys2Proof.Machine.execVshr d a b s
  | .vsar d a b => Sys2Proof.Machine.execVsar d a b s
  | .vclz d a => Sys2Proof.Machine.execVclz d a s
  | .vpopc d a => Sys2Proof.Machine.execVpopc d a s
  | .vbfx d a b c => Sys2Proof.Machine.execVbfx d a b c s
  | .vbfi d a b c => Sys2Proof.Machine.execVbfi d a b c s
  | .vsel d a b c => Sys2Proof.Machine.execVsel d a b c s
  | .vmov d a => Sys2Proof.Machine.execVmov d a s
  | .vfadd d a b => Sys2Proof.Machine.execVfadd d a b s
  | .vfsub d a b => Sys2Proof.Machine.execVfsub d a b s
  | .vfmul d a b => Sys2Proof.Machine.execVfmul d a b s
  | .vffma d a b c => Sys2Proof.Machine.execVffma d a b c s
  | .vfmin d a b => Sys2Proof.Machine.execVfmin d a b s
  | .vfmax d a b => Sys2Proof.Machine.execVfmax d a b s
  | .vfabs d a => Sys2Proof.Machine.execVfabs d a s
  | .vfneg d a => Sys2Proof.Machine.execVfneg d a s
  | .vfdiv d a b => Sys2Proof.Machine.execVfdiv d a b s
  | .vfsqrt d a => Sys2Proof.Machine.execVfsqrt d a s
  | .vfrcp d a => Sys2Proof.Machine.execVfrcp d a s
  | .vfrsq d a => Sys2Proof.Machine.execVfrsq d a s
  | .vfex2 d a => Sys2Proof.Machine.execVfex2 d a s
  | .vflg2 d a => Sys2Proof.Machine.execVflg2 d a s
  | .vfsinp d a => Sys2Proof.Machine.execVfsinp d a s
  | .vfcosp d a => Sys2Proof.Machine.execVfcosp d a s
  | .vfrnd d a c => Sys2Proof.Machine.execVfrnd d a c s
  | .vfcls d a => Sys2Proof.Machine.execVfcls d a s
  | .vcmpS d a b c => Sys2Proof.Machine.execVcmpS d a b c s
  | .vcmpZ d a b c => Sys2Proof.Machine.execVcmpZ d a b c s
  | .vfcmp d a b c => Sys2Proof.Machine.execVfcmp d a b c s
  | .mand a b c => Sys2Proof.Machine.execMand a b c s
  | .mor a b c => Sys2Proof.Machine.execMor a b c s
  | .mxor a b c => Sys2Proof.Machine.execMxor a b c s
  | .mnot a c => Sys2Proof.Machine.execMnot a c s
  | .mtoex c => Sys2Proof.Machine.execMtoex c s
  | .mfrex c => Sys2Proof.Machine.execMfrex c s
  | .mpopc d c => Sys2Proof.Machine.execMpopc d c s
  | .mfirst d c => Sys2Proof.Machine.execMfirst d c s
  | .mfroms a c => Sys2Proof.Machine.execMfroms a c s
  | .mtos d c => Sys2Proof.Machine.execMtos d c s
  | .vshfl d a b c => Sys2Proof.Machine.execVshfl d a b c s
  | .vbcast d a b => Sys2Proof.Machine.execVbcast d a b s
  | .vtos d a b => Sys2Proof.Machine.execVtos d a b s
  | .vredaddF32 d a => Sys2Proof.Machine.execVredaddF32 d a s
  | .vredaddB32 d a => Sys2Proof.Machine.execVredaddB32 d a s
  | .vredminS d a => Sys2Proof.Machine.execVredminS d a s
  | .vredmaxS d a => Sys2Proof.Machine.execVredmaxS d a s
  | .vredminF32 d a => Sys2Proof.Machine.execVredminF32 d a s
  | .vredmaxF32 d a => Sys2Proof.Machine.execVredmaxF32 d a s
  | .vscanaddF32 d a => Sys2Proof.Machine.execVscanaddF32 d a s
  | .vscanaddB32 d a => Sys2Proof.Machine.execVscanaddB32 d a s
  | .vcvtF32S32 d a c => Sys2Proof.Machine.execVcvtF32S32 d a c s
  | .vcvtF32Z32 d a c => Sys2Proof.Machine.execVcvtF32Z32 d a c s
  | .vcvtS32F32 d a c => Sys2Proof.Machine.execVcvtS32F32 d a c s
  | .vcvtZ32F32 d a c => Sys2Proof.Machine.execVcvtZ32F32 d a c s
  | .vcvtF16F32 d a c => Sys2Proof.Machine.execVcvtF16F32 d a c s
  | .vcvtBf16F32 d a c => Sys2Proof.Machine.execVcvtBf16F32 d a c s
  | .vcvtF32F16 d a c => Sys2Proof.Machine.execVcvtF32F16 d a c s
  | .vcvtF32Bf16 d a c => Sys2Proof.Machine.execVcvtF32Bf16 d a c s
  | .vcvtE8F32 d a b c => Sys2Proof.Machine.execVcvtE8F32 d a b c s
  | .vcvtF32E8 d a b c => Sys2Proof.Machine.execVcvtF32E8 d a b c s
  | .vcvtN4F32 d a b => Sys2Proof.Machine.execVcvtN4F32 d a b s
  | .vcvtF32N4 d a b c => Sys2Proof.Machine.execVcvtF32N4 d a b c s
  | .vmxscale d a c => Sys2Proof.Machine.execVmxscale d a c s
  | .ldB8 d base off m => Sys2Proof.Machine.execLdB8 d base off m s
  | .ldS8 d base off m => Sys2Proof.Machine.execLdS8 d base off m s
  | .ldB16 d base off m => Sys2Proof.Machine.execLdB16 d base off m s
  | .ldS16 d base off m => Sys2Proof.Machine.execLdS16 d base off m s
  | .ldB32 d base off m => Sys2Proof.Machine.execLdB32 d base off m s
  | .ldB64 d base off m => Sys2Proof.Machine.execLdB64 d base off m s
  | .ldB128 d base off m => Sys2Proof.Machine.execLdB128 d base off m s
  | .stB8 x base off m => Sys2Proof.Machine.execStB8 x base off m s
  | .stB16 x base off m => Sys2Proof.Machine.execStB16 x base off m s
  | .stB32 x base off m => Sys2Proof.Machine.execStB32 x base off m s
  | .stB64 x base off m => Sys2Proof.Machine.execStB64 x base off m s
  | .stB128 x base off m => Sys2Proof.Machine.execStB128 x base off m s
  | .stN4 x base off m => Sys2Proof.Machine.execStN4 x base off m s
  | .ldsB8 d base off m => Sys2Proof.Machine.execLdsB8 d base off m s
  | .ldsS8 d base off m => Sys2Proof.Machine.execLdsS8 d base off m s
  | .ldsB16 d base off m => Sys2Proof.Machine.execLdsB16 d base off m s
  | .ldsS16 d base off m => Sys2Proof.Machine.execLdsS16 d base off m s
  | .ldsB32 d base off m => Sys2Proof.Machine.execLdsB32 d base off m s
  | .ldsB64 d base off m => Sys2Proof.Machine.execLdsB64 d base off m s
  | .ldsB128 d base off m => Sys2Proof.Machine.execLdsB128 d base off m s
  | .stsB8 x base off m => Sys2Proof.Machine.execStsB8 x base off m s
  | .stsB16 x base off m => Sys2Proof.Machine.execStsB16 x base off m s
  | .stsB32 x base off m => Sys2Proof.Machine.execStsB32 x base off m s
  | .stsB64 x base off m => Sys2Proof.Machine.execStsB64 x base off m s
  | .stsB128 x base off m => Sys2Proof.Machine.execStsB128 x base off m s
  | .stsN4 x base off m => Sys2Proof.Machine.execStsN4 x base off m s
  | .ldcB8 d base off m => Sys2Proof.Machine.execLdcB8 d base off m s
  | .ldcS8 d base off m => Sys2Proof.Machine.execLdcS8 d base off m s
  | .ldcB16 d base off m => Sys2Proof.Machine.execLdcB16 d base off m s
  | .ldcS16 d base off m => Sys2Proof.Machine.execLdcS16 d base off m s
  | .ldcB32 d base off m => Sys2Proof.Machine.execLdcB32 d base off m s
  | .ldcB64 d base off m => Sys2Proof.Machine.execLdcB64 d base off m s
  | .ldcB128 d base off m => Sys2Proof.Machine.execLdcB128 d base off m s
  | .stcB8 x base off m => Sys2Proof.Machine.execStcB8 x base off m s
  | .stcB16 x base off m => Sys2Proof.Machine.execStcB16 x base off m s
  | .stcB32 x base off m => Sys2Proof.Machine.execStcB32 x base off m s
  | .stcB64 x base off m => Sys2Proof.Machine.execStcB64 x base off m s
  | .stcB128 x base off m => Sys2Proof.Machine.execStcB128 x base off m s
  | .lddB8 d base off m => Sys2Proof.Machine.execLddB8 d base off m s
  | .lddS8 d base off m => Sys2Proof.Machine.execLddS8 d base off m s
  | .lddB16 d base off m => Sys2Proof.Machine.execLddB16 d base off m s
  | .lddS16 d base off m => Sys2Proof.Machine.execLddS16 d base off m s
  | .lddB32 d base off m => Sys2Proof.Machine.execLddB32 d base off m s
  | .lddB64 d base off m => Sys2Proof.Machine.execLddB64 d base off m s
  | .lddB128 d base off m => Sys2Proof.Machine.execLddB128 d base off m s
  | .stdB8 x base off m => Sys2Proof.Machine.execStdB8 x base off m s
  | .stdB16 x base off m => Sys2Proof.Machine.execStdB16 x base off m s
  | .stdB32 x base off m => Sys2Proof.Machine.execStdB32 x base off m s
  | .stdB64 x base off m => Sys2Proof.Machine.execStdB64 x base off m s
  | .stdB128 x base off m => Sys2Proof.Machine.execStdB128 x base off m s
  | .ldpB8 d base off m => Sys2Proof.Machine.execLdpB8 d base off m s
  | .ldpS8 d base off m => Sys2Proof.Machine.execLdpS8 d base off m s
  | .ldpB16 d base off m => Sys2Proof.Machine.execLdpB16 d base off m s
  | .ldpS16 d base off m => Sys2Proof.Machine.execLdpS16 d base off m s
  | .ldpB32 d base off m => Sys2Proof.Machine.execLdpB32 d base off m s
  | .ldpB64 d base off m => Sys2Proof.Machine.execLdpB64 d base off m s
  | .ldpB128 d base off m => Sys2Proof.Machine.execLdpB128 d base off m s
  | .stpB8 x base off m => Sys2Proof.Machine.execStpB8 x base off m s
  | .stpB16 x base off m => Sys2Proof.Machine.execStpB16 x base off m s
  | .stpB32 x base off m => Sys2Proof.Machine.execStpB32 x base off m s
  | .stpB64 x base off m => Sys2Proof.Machine.execStpB64 x base off m s
  | .stpB128 x base off m => Sys2Proof.Machine.execStpB128 x base off m s
  | .sldB32 d base off m => Sys2Proof.Machine.execSldB32 d base off m s
  | .sldB64 d base off m => Sys2Proof.Machine.execSldB64 d base off m s
  | .sstB32 x base off m => Sys2Proof.Machine.execSstB32 x base off m s
  | .sstB64 x base off m => Sys2Proof.Machine.execSstB64 x base off m s
  | .sldsB64 d base off m => Sys2Proof.Machine.execSldsB64 d base off m s
  | .sstsB64 x base off m => Sys2Proof.Machine.execSstsB64 x base off m s
  | .atomAddB32 d base off m => Sys2Proof.Machine.execAtomAddB32 d base off m s
  | .atomAddF32 d base off m => Sys2Proof.Machine.execAtomAddF32 d base off m s
  | .atomMinS32 d base off m => Sys2Proof.Machine.execAtomMinS32 d base off m s
  | .atomMaxS32 d base off m => Sys2Proof.Machine.execAtomMaxS32 d base off m s
  | .atomMinZ32 d base off m => Sys2Proof.Machine.execAtomMinZ32 d base off m s
  | .atomMaxZ32 d base off m => Sys2Proof.Machine.execAtomMaxZ32 d base off m s
  | .atomAnd d base off m => Sys2Proof.Machine.execAtomAnd d base off m s
  | .atomOr d base off m => Sys2Proof.Machine.execAtomOr d base off m s
  | .atomXor d base off m => Sys2Proof.Machine.execAtomXor d base off m s
  | .atomXchg d base off m => Sys2Proof.Machine.execAtomXchg d base off m s
  | .atomCas d base off m => Sys2Proof.Machine.execAtomCas d base off m s
  | .atomAddB64 d base off m => Sys2Proof.Machine.execAtomAddB64 d base off m s
  | .atomCasB64 d base off m => Sys2Proof.Machine.execAtomCasB64 d base off m s
  | .atomsAddB32 d base off m => Sys2Proof.Machine.execAtomsAddB32 d base off m s
  | .atomsAddF32 d base off m => Sys2Proof.Machine.execAtomsAddF32 d base off m s
  | .atomsMinS32 d base off m => Sys2Proof.Machine.execAtomsMinS32 d base off m s
  | .atomsMaxS32 d base off m => Sys2Proof.Machine.execAtomsMaxS32 d base off m s
  | .atomsMinZ32 d base off m => Sys2Proof.Machine.execAtomsMinZ32 d base off m s
  | .atomsMaxZ32 d base off m => Sys2Proof.Machine.execAtomsMaxZ32 d base off m s
  | .atomsAnd d base off m => Sys2Proof.Machine.execAtomsAnd d base off m s
  | .atomsOr d base off m => Sys2Proof.Machine.execAtomsOr d base off m s
  | .atomsXor d base off m => Sys2Proof.Machine.execAtomsXor d base off m s
  | .atomsXchg d base off m => Sys2Proof.Machine.execAtomsXchg d base off m s
  | .atomsCas d base off m => Sys2Proof.Machine.execAtomsCas d base off m s
  | .atomsAddB64 d base off m => Sys2Proof.Machine.execAtomsAddB64 d base off m s
  | .atomsCasB64 d base off m => Sys2Proof.Machine.execAtomsCasB64 d base off m s
  | .satomAddB64 d base off m => Sys2Proof.Machine.execSatomAddB64 d base off m s
  | .satomCasB64 d base off m => Sys2Proof.Machine.execSatomCasB64 d base off m s
  | .redAddB32 x base off m => Sys2Proof.Machine.execRedAddB32 x base off m s
  | .redAddF32 x base off m => Sys2Proof.Machine.execRedAddF32 x base off m s
  | .redMinS32 x base off m => Sys2Proof.Machine.execRedMinS32 x base off m s
  | .redMaxS32 x base off m => Sys2Proof.Machine.execRedMaxS32 x base off m s
  | .redAnd x base off m => Sys2Proof.Machine.execRedAnd x base off m s
  | .redOr x base off m => Sys2Proof.Machine.execRedOr x base off m s
  | .redXor x base off m => Sys2Proof.Machine.execRedXor x base off m s
  | .homeAtomic k => Sys2Proof.Machine.execHomeAtomic k s
  | .nearMemoryReduction k => Sys2Proof.Machine.execNearMemoryReduction k s
  | .fence scope order => Sys2Proof.Machine.execFence scope order s
  | .pref base off scope nt => Sys2Proof.Machine.execPref base off scope nt s
  | .cwb base off scope => Sys2Proof.Machine.execCwb base off scope s
  | .cinv base off => Sys2Proof.Machine.execCinv base off s
  | .dkflush base => Sys2Proof.Machine.execDkflush base s
  | .cpy st desc srcsp dstsp vscope => Sys2Proof.Machine.execCpy st desc srcsp dstsp vscope s
  | .cpy2 st desc srcsp vscope => Sys2Proof.Machine.execCpy2 st desc srcsp vscope s
  | .cpyg st desc srcsp dstsp vscope => Sys2Proof.Machine.execCpyg st desc srcsp dstsp vscope s
  | .cpys st desc srcsp dstsp vscope => Sys2Proof.Machine.execCpys st desc srcsp dstsp vscope s
  | .cpym st desc srcsp vscope => Sys2Proof.Machine.execCpym st desc srcsp vscope s
  | .cpyr st desc srcsp dstsp vscope mode => Sys2Proof.Machine.execCpyr st desc srcsp dstsp vscope mode s
  | .cpyf st desc dstsp vscope => Sys2Proof.Machine.execCpyf st desc dstsp vscope s
  | .mred st desc srcsp vscope mode => Sys2Proof.Machine.execMred st desc srcsp vscope mode s
  | .mma t amap bmap fblk ra rb => Sys2Proof.Machine.execMma t amap bmap fblk ra rb s
  | .mmaz t amap bmap fblk ra rb => Sys2Proof.Machine.execMmaz t amap bmap fblk ra rb s
  | .mbatch d => Sys2Proof.Machine.execMbatch d s
  | .mwait a => Sys2Proof.Machine.execMwait a s
  | .mdrain d a c => Sys2Proof.Machine.execMdrain d a c s
  | .mdrainx d a b c => Sys2Proof.Machine.execMdrainx d a b c s
  | .mfill d a c => Sys2Proof.Machine.execMfill d a c s
  | .mzero d => Sys2Proof.Machine.execMzero d s
  | .mrdv d a b c => Sys2Proof.Machine.execMrdv d a b c s
  | .mwrv d a b c => Sys2Proof.Machine.execMwrv d a b c s
  | .mprog d a => Sys2Proof.Machine.execMprog d a s
  | .br o => Sys2Proof.Machine.execBr o s
  | .bcc f o => Sys2Proof.Machine.execBcc f o s
  | .bmz f o => Sys2Proof.Machine.execBmz f o s
  | .bmnz f o => Sys2Proof.Machine.execBmnz f o s
  | .bxz o => Sys2Proof.Machine.execBxz o s
  | .bxnz o => Sys2Proof.Machine.execBxnz o s
  | .call o => Sys2Proof.Machine.execCall o s
  | .callIndirect k => Sys2Proof.Machine.execCallIndirect k s
  | .ret => Sys2Proof.Machine.execRet s
  | .jmpi t => Sys2Proof.Machine.execJmpi t s
  | .exif f => Sys2Proof.Machine.execExif f s
  | .exelse => Sys2Proof.Machine.execExelse s
  | .exend => Sys2Proof.Machine.execExend s
  | .tbar f => Sys2Proof.Machine.execTbar f s
  | .tarr f => Sys2Proof.Machine.execTarr f s
  | .twait f => Sys2Proof.Machine.execTwait f s
  | .cbar f => Sys2Proof.Machine.execCbar f s
  | .tethArr f => Sys2Proof.Machine.execTethArr f s
  | .tethWait f => Sys2Proof.Machine.execTethWait f s
  | .tlaunch k => Sys2Proof.Machine.execTlaunch k s
  | .qtail k => Sys2Proof.Machine.execQtail k s
  | .exit => Sys2Proof.Machine.execExit s
  | .trap o => Sys2Proof.Machine.execTrap o s
  | .brk o => Sys2Proof.Machine.execBrk o s
  | .wfa k l => Sys2Proof.Machine.execWfa k l s
  | .rdsys d id => Sys2Proof.Machine.execRdsys d id s
  | .wrsys a id => Sys2Proof.Machine.execWrsys a id s
  | .topo d c => Sys2Proof.Machine.execTopo d c s
  | .tnow d c => Sys2Proof.Machine.execTnow d c s
  | .pmrd d c => Sys2Proof.Machine.execPmrd d c s
  | .fltack a c => Sys2Proof.Machine.execFltack a c s
  | .xlinv a b c => Sys2Proof.Machine.execXlinv a b c s
  | .dbgmk a => Sys2Proof.Machine.execDbgmk a s
  | .millAdd d a b => Sys2Proof.Machine.execMillAdd d a b s
  | .millSub d a b => Sys2Proof.Machine.execMillSub d a b s
  | .millMul d a b => Sys2Proof.Machine.execMillMul d a b s
  | .millMulh d a b => Sys2Proof.Machine.execMillMulh d a b s
  | .millAnd d a b => Sys2Proof.Machine.execMillAnd d a b s
  | .millOr d a b => Sys2Proof.Machine.execMillOr d a b s
  | .millXor d a b => Sys2Proof.Machine.execMillXor d a b s
  | .millShl d a b => Sys2Proof.Machine.execMillShl d a b s
  | .millShr d a b => Sys2Proof.Machine.execMillShr d a b s
  | .millSar d a b => Sys2Proof.Machine.execMillSar d a b s
  | .millSlt d a b => Sys2Proof.Machine.execMillSlt d a b s
  | .millSltz d a b => Sys2Proof.Machine.execMillSltz d a b s
  | .millMin d a b => Sys2Proof.Machine.execMillMin d a b s
  | .millMax d a b => Sys2Proof.Machine.execMillMax d a b s
  | .millAddi d a imm => Sys2Proof.Machine.execMillAddi d a imm s
  | .millAndi d a imm => Sys2Proof.Machine.execMillAndi d a imm s
  | .millOri d a imm => Sys2Proof.Machine.execMillOri d a imm s
  | .millXori d a imm => Sys2Proof.Machine.execMillXori d a imm s
  | .millShfi d a k n => Sys2Proof.Machine.execMillShfi d a k n s
  | .millLui d imm => Sys2Proof.Machine.execMillLui d imm s
  | .millLd64 d a imm => Sys2Proof.Machine.execMillLd64 d a imm s
  | .millSt64 d a imm => Sys2Proof.Machine.execMillSt64 d a imm s
  | .millLd32 d a imm => Sys2Proof.Machine.execMillLd32 d a imm s
  | .millSt32 d a imm => Sys2Proof.Machine.execMillSt32 d a imm s
  | .millLdt d a imm => Sys2Proof.Machine.execMillLdt d a imm s
  | .millStt d a imm => Sys2Proof.Machine.execMillStt d a imm s
  | .millBeq a b off => Sys2Proof.Machine.execMillBeq a b off s
  | .millBne a b off => Sys2Proof.Machine.execMillBne a b off s
  | .millBlt a b off => Sys2Proof.Machine.execMillBlt a b off s
  | .millBge a b off => Sys2Proof.Machine.execMillBge a b off s
  | .millJal d imm => Sys2Proof.Machine.execMillJal d imm s
  | .millJr d a => Sys2Proof.Machine.execMillJr d a s
  | .millWaddB32 d a b k => Sys2Proof.Machine.execMillWaddB32 d a b k s
  | .millWsubB32 d a b k => Sys2Proof.Machine.execMillWsubB32 d a b k s
  | .millWmulB32 d a b k => Sys2Proof.Machine.execMillWmulB32 d a b k s
  | .millWfadd d a b k => Sys2Proof.Machine.execMillWfadd d a b k s
  | .millWfmul d a b k => Sys2Proof.Machine.execMillWfmul d a b k s
  | .millWffma d a b c k => Sys2Proof.Machine.execMillWffma d a b c k s
  | .millWfmax d a b k => Sys2Proof.Machine.execMillWfmax d a b k s
  | .millWfmin d a b k => Sys2Proof.Machine.execMillWfmin d a b k s
  | .millWredaddF32 d a k => Sys2Proof.Machine.execMillWredaddF32 d a k s
  | .millWcmp kd a b k cond => Sys2Proof.Machine.execMillWcmp kd a b k cond s
  | .millWsel d a b kc k => Sys2Proof.Machine.execMillWsel d a b kc k s
  | .millWbcast d a b k => Sys2Proof.Machine.execMillWbcast d a b k s
  | .millWld w buf a imm => Sys2Proof.Machine.execMillWld w buf a imm s
  | .millWst w buf a imm => Sys2Proof.Machine.execMillWst w buf a imm s
  | .millRowcp m d src => Sys2Proof.Machine.execMillRowcp m d src s
  | .millRowzero m p => Sys2Proof.Machine.execMillRowzero m p s
  | .millRowbuf p idx => Sys2Proof.Machine.execMillRowbuf p idx s
  | .millBufrow p idx => Sys2Proof.Machine.execMillBufrow p idx s
  | .millRowmac o p m => Sys2Proof.Machine.execMillRowmac o p m s
  | .millBanklk p => Sys2Proof.Machine.execMillBanklk p s
  | .millBankul p => Sys2Proof.Machine.execMillBankul p s
  | .millRowinv m p => Sys2Proof.Machine.execMillRowinv m p s
  | .millRowwait => Sys2Proof.Machine.execMillRowwait s
  | .millMsync => Sys2Proof.Machine.execMillMsync s
  | .millMhalt => Sys2Proof.Machine.execMillMhalt s
  | .millMtrap imm => Sys2Proof.Machine.execMillMtrap imm s
  | .millMrdsr d id => Sys2Proof.Machine.execMillMrdsr d id s
  | .millMwrsr a id => Sys2Proof.Machine.execMillMwrsr a id s
  | .millMpark a limit => Sys2Proof.Machine.execMillMpark a limit s
  | .linkRetrainComplete l => Sys2Proof.Machine.execLinkRetrainComplete l s
  | .retiredTagRelease site tag => Sys2Proof.Machine.execRetiredTagRelease site tag s
  | .fibreComesBack f => Sys2Proof.Machine.execFibreComesBack f s
  | .backInvalidateResponse port => Sys2Proof.Machine.execBackInvalidateResponse port s
  | .millLdtSttAtHome k => Sys2Proof.Machine.execMillLdtSttAtHome k s
  | .clusterWindowAccess k => Sys2Proof.Machine.execClusterWindowAccess k s
  | .tnowRequestArrival k => Sys2Proof.Machine.execTnowRequestArrival k s

end Sys2Proof.Machine
end

