-- ==== Sys2Proof/Machine/Fetch.lean ====
section
/-! DEFINITION. Instruction fetch (R220, R234, R355): the bytes of a clause or of a mill word, and the instruction they
decode to. -/

namespace Sys2Proof.Machine

/-- What an agent's turn brings. -/
inductive Fetched
  /-- The word that issues. -/
  | word (i : Instr)
  /-- The fetch acted instead: it asked for a line, or raised a code. -/
  | act (s : State)
  /-- The agent waits for its fetch. -/
  | idle

/-- The fault code of a word that does not decode (R219, R222, R232, R233, R358). -/
def DecodeError.code : DecodeError → Nat
  | .illop => cILLOP
  | .illopnd => cILLOPND
  | .badclause => cBADCLAUSE
  | .truncated => cILLOPND

/-! ### Groups (R103, R220, R234) -/

/-- The word at an address in the group's instruction cache. -/
def State.textWord (s : State) (u : Issuer) (va : Nat) : Option W32 := cachedWord (s.core u.t.core).icache u.k.asid va
/-- N of the header at a group's PC, once it is here: 0 when none stands there. -/
def State.textN (s : State) (u : Issuer) : Nat :=
  match s.textWord u u.g.pc.toNat with
  | some h => if isHeader h then bits h.toNat 31 28 else 0
  | none => 0
/-- Addresses of the header at a group's PC and, once it is here, of the words that it counts. -/
def State.clauseWords (s : State) (u : Issuer) : List Nat :=
  (List.range (s.textN u + 1)).map fun i => (u.g.pc + BitVec.ofNat 64 (4 * i)).toNat
/-- Words of the clause that are not here. -/
def State.clauseMissing (s : State) (u : Issuer) : List Nat := (s.clauseWords u).filter fun a => (s.textWord u a).isNone
/-- The faults that lines of the clause raise against the attributes they were filled with (R103). -/
def State.textFaults (s : State) (u : Issuer) : List LineFault :=
  (s.clauseWords u).filterMap fun a =>
    ((s.core u.t.core).icache.find? fun l => l.asid == u.k.asid && l.line == a / 64).bind fun l =>
      (l.attr.refuses .fetch u.priv).map fun c => ⟨a / 256, a, c, false⟩

/-- A fetch fault is taken at the header, with WORD 0, or, where a group resumes within a clause, at the word that it has
not issued yet (R183, R220, R234; log entry 115). -/
def State.fetchFault (s : State) (u : Issuer) (fs : List LineFault) : State :=
  let u := { u with g := { u.g with stall := MemStall.none, wait := none } }
  match pickCode (fs.map fun f => ⟨0, f.code, f.va⟩) with
  | none => s
  | some (code, va, _) =>
    if code = cTRANSL then
      s.settle u 1 (u.transl s ((fs.filter fun f => f.code == cTRANSL).map fun f => (f.va, 2)) va 0)
    else s.takeFault u code va 0

/-- The fetch of a group that can issue: the header and every word of its clause are taken before the first word issues,
and the group keeps them until the clause ends. -/
noncomputable def State.fetchGroup (s : State) (u : Issuer) : Fetched :=
  match u.g.clause with
  | h :: ws =>
    let d : Dec :=
      if u.g.widx = 0 then decode .header [h]
      else match ClauseClass.ofCode (bits h.toNat 27 25) with
        | some c => decode (.clause c) ((h :: ws).drop u.g.widx)
        | none => .error .badclause
    match d with
    | .ok i _ => .word i
    | .error e => .act (s.takeFault u (DecodeError.code e) 0 0)
  | [] =>
    match s.clauseMissing u with
    | [] =>
      match s.textFaults u with
      | [] => .act (s.setGroup { u.g with clause := (s.clauseWords u).filterMap (s.textWord u) })
      | fs => .act (s.fetchFault u fs)
    | missing =>
      match u.g.stall.faults.filter fun f => missing.any fun a => a / 256 == f.line with
      | [] =>
        if missing.all fun a => u.g.stall.asked.contains (a / 256) then .idle
        else .act (s.settle u 1 (u.askAll s missing .fetch .getS))
      | fs => .act (s.fetchFault u fs)

/-! ### Mills (R188, R355, R366) -/

/-- The word at an address in a mill's fetch buffer. -/
def Mill.textWord (m : Mill) (asid va : Nat) : Option W32 := cachedWord m.fetchBuf asid va
/-- Bring the line at a mill's PC into its fetch buffer, by the path of ldt: `none` while it must wait. -/
def State.fillMill (s : State) (u : MillIssuer) : Option State :=
  let pc := u.m.pc.toNat
  if !canonical pc then some (s.millPark u pc 2)
  else match u.home s pc with
  | none => some (s.millTrap u cNOHOME u.m.pc)
  | some h =>
    if s.promoHeld h u.k.asid pc then none
    else match s.meet h u.k.asid pc 0 .fetch u.priv none with
    | (.error c, s) => some (if c = cTRANSL then s.millPark u pc 2 else s.millTrap u c u.m.pc)
    | (.ok v, s) =>
      if v.tier = 0 ∧ s.bankHeld v.home v.pa = true then none
      else if !v.dk && s.homeOwned v.place then (if s.homeQuiet v.place then some (s.recallOwners v) else none)
      else
        let val := if v.dk then s.mem.placeLine v.place else s.mem.newest v.place
        some ((s.touch v.place).setMill
          { u.m with fetchBuf := u.m.fetchBuf ++ [⟨u.k.asid, pc / 64, sectorOf val pc, v⟩] })
/-- The word at a mill's PC. -/
noncomputable def State.millWord (s : State) (u : MillIssuer) : Fetched :=
  match u.m.textWord u.k.asid u.m.pc.toNat with
  | some w =>
    match decode .mill [w] with
    | .ok i _ => .word i
    | .error e => .act (s.millTrap u (DecodeError.code e) u.m.pc)
  | none =>
    match s.fillMill u with
    | some s => .act s
    | none => .idle
/-- The fetch of a mill that can issue. A code that a slice of its row operation raised comes before its next word,
once the steps in flight have completed (R366). -/
noncomputable def State.fetchMill (s : State) (u : MillIssuer) : Fetched :=
  match u.m.rowFault with
  | some (code, _) =>
    if u.m.wait = some .mem then s.millWord u
    else if u.m.rowBusy = [] then .act (s.millTrap u code u.m.rowpc)
    else .idle
  | none => s.millWord u

/-- The turn of an agent. -/
noncomputable def State.fetch (s : State) (a : Agent) : Fetched :=
  match a with
  | .group r => match s.issuerOf r with | some u => s.fetchGroup u | none => .idle
  | .mill r => match s.millIssuerOf r with | some u => s.fetchMill u | none => .idle

end Sys2Proof.Machine
end

