-- ==== Sys2Proof/Machine/Next.lean ====
section
/-! DEFINITION. What the machine does of its own accord (log entry 23): the internal events that may happen, in the order in
which the model lets them happen, the passing of time, and whose turn it is to issue a word. -/

namespace Sys2Proof.Machine

/-! ### Time (R5, R16, R348) -/

/-- Time passes on every sheet that runs, by amounts that nothing constrains (log entry 10). -/
def State.tick (s : State) : State :=
  let b := s.boot
  let n := s.fresh
  let b :=
    if b.started then
      { b with
        time := Vector.ofFn fun i => if b.stopped[i] then b.time[i] else b.time[i] + Config.elapsed n i.val
        clocks := Vector.ofFn fun i => if b.stopped[i] then b.clocks[i] else b.clocks[i] + Config.elapsed n (4 + i.val) }
    else b
  let b := if b.ready || b.fail || s.frozen || b.phase == 0 then b else { b with timer := b.timer + Config.elapsed n 8 }
  { s with boot := b, fresh := n + 1 }

/-! ### Candidates -/

/-- A report of a phase that has passed, with every cluster good, every fibre up and the bands of R29 met (log
entry 24). -/
def State.goodReport (s : State) : BootReport where
  firmware := List.replicate 4 (true, s.boot.minVersion, [])
  sheets := 15
  trained := true
  towersGood := true
  goodClusters := List.replicate 72 (ones 24)
  offsets := [0, 0, 0, 0]
  cxlPorts := [false, false, false, false]
  fibresUp := List.range 64
  lbtab := [5, 7, 22, 30, 22, 30, 22, 30, 22, 30, 22, 30, 22, 30, 22, 30, 22, 30]

/-- The sheets. -/
def sheets : List (Fin 4) := [0, 1, 2, 3]

/-- Boot, and a freeze on its way (R20, R22). -/
noncomputable def State.bootEvents (s : State) : List Instr :=
  (if s.boot.ready || s.boot.fail then [] else [.bootPhaseLimitExpiry, .bootPhase s.goodReport]) ++
  (if s.boot.freezing then sheets.map fun q => .sheetFreeze q else [])

/-- The event in which a message that has arrived takes effect. -/
noncomputable def Body.event (k : Nat) : Body → List Instr
  | .getS _ _ _ => [.gets k, .pageWalk k]
  | .getX _ _ _ => [.getx k, .pageWalk k]
  | .upgr _ _ _ => [.upgr k]
  | .inv _ _ _ => [.inv k]
  | .fwdS _ _ _ => [.fwds k]
  | .fwdX _ _ _ => [.fwdx k]
  | .recall _ _ _ => [.recallMsg k]
  | .data _ _ _ _ _ _ => [.data k]
  | .dataX _ _ _ _ _ _ _ _ => [.datax k]
  | .refuse _ _ _ _ _ => [.responseArrival k]
  | .invAck _ _ _ _ _ => [.invack k]
  | .wbDirty _ _ _ _ _ _ => [.wbdirty k]
  | .drain _ _ _ _ _ => [.drain k]
  | .drainAck _ => [.drainack k]
  | .homeAtomic _ _ _ _ => [.homeAtomic k]
  | .nearRed _ _ _ _ => [.nearMemoryReduction k]
  | .homeRsp _ _ _ => [.responseArrival k]
  | .millAcc _ _ _ _ _ => [.millLdtSttAtHome k]
  | .millRsp _ _ _ _ => [.responseArrival k]
  | .window _ _ => [.clusterWindowAccess k]
  | .windowRsp _ _ => [.responseArrival k]
  | .copyUnit _ _ _ => []
  | .rowData _ _ => []
  | .recordRead _ => []
  | .couchData _ _ _ _ _ => [.wbdirty k]
  | .tnow _ _ => [.tnowRequestArrival k]
  | .tnowRsp _ _ => [.responseArrival k]
  | .tailWrite src q t => [.tailWrite src q t]
  | .watermark _ _ => [.watermarkNotice k]
/-- Lists of events, one after another. -/
def joined (xs : List (List Instr)) : List Instr := xs.flatten
/-- Messages, oldest first: those that have arrived take effect, the others move one hop. -/
noncomputable def State.netEvents (s : State) : List Instr :=
  (s.mem.net.mapIdx fun k m => if m.at' = m.dst then m.body.event k else [.routerForward k]).flatten

/-- Groups and cores (R112, R167, R170, R173, R179, R305). -/
noncomputable def State.coreEvents (s : State) : List Instr := joined [
  s.groups.flatMap fun g => joined [
    if g.stall.load.isSome then [.loadResponse g.id .clean] else [],
    if g.stat = .exiting then [.exitComplete g.id] else []],
  s.cores.flatMap fun c => joined [
    (c.cq.mapIdx fun k _ => [.copyStart c.id k, .copyUnitComplete c.id k .clean]).flatten,
    if c.mq = [] then [] else [.matrixKStep c.id .clean]],
  s.teams.flatMap fun t =>
    if (s.teamGroups t.tid t.team).all fun g => g.tethArr == 0 then []
    else (List.range 64).map fun n => .tetherArrival t.tid t.team n,
  if s.teams.all fun t => t.tethEnded == 0 then [] else (List.range 64).map fun n => .tetherRelease n]

/-- Mills (R187 to R195). -/
noncomputable def State.millEvents (s : State) : List Instr :=
  s.mills.flatMap fun m => joined [
    m.rowBusy.map fun r => .rowStepComplete m.id r.slice,
    match m.nextSlice with | some c => if m.inRow then [.rowStepStart m.id c] else [] | none => [],
    [.bankLockTaken m.id],
    match m.st with | .load => [.millLoadComplete m.id] | .save _ => [.millPreempt m.id] | _ => []]

/-- What the arbiter does with a task's state (R72 to R76). -/
noncomputable def Task.stateEvents (k : Task) : List Instr :=
  match k.st with
  | .waitdep => []
  | .waithaz => [.hazardRelease k.tid]
  | .done => if k.completed then [.successorListRead k.tid] else [.taskDone k.tid]
  | .drain => joined [k.drainDies.map fun d => .edgeWriteback k.tid d, [.taskDone k.tid]]
  | _ => [.taskFaultEnd k.tid, .taskDrain k.tid]
/-- What it does with a team set's state (R80, R92, R94). -/
noncomputable def Task.setEvents (k : Task) (x : TeamSet) : List Instr :=
  match x.st with
  | .placed ds _ => joined [ds.map fun d => .edgeInvalidate k.tid d, [.teamStart k.tid x.k]]
  | .preempt _ => [.preemptSequence k.tid x.k, .preemptComplete k.tid x.k]
  | _ => []
/-- The placement or the resumption of a task's next set, where there is room for it (R86, R94). -/
noncomputable def State.nextSetEvents (s : State) (k : Task) : List Instr :=
  match k.nextSet with
  | some x =>
    match x.st with
    | .stabled => (match s.findResume k x.k with | some ps => [.taskResume k.tid x.k ps] | none => [])
    | _ => (match s.findSpots k x.k with | some (ps, w) => [.taskPlace k.tid x.k ps w] | none => [])
  | none => []
/-- The arbiter on a task (R71 to R94). -/
noncomputable def State.taskEvents (s : State) (k : Task) : List Instr := joined [
  k.stateEvents, k.sets.flatMap k.setEvents,
  if k.placeable then joined [s.nextSetEvents k, k.sets.map fun x => .ageingReserve k.tid x.k,
    match s.victims k.prio with | (v, x) :: _ => [.preemptChoose k.tid v.tid x.k] | [] => []] else [],
  if k.millReady then
    ((List.range 72).filter fun j => bit k.launch.towmask j).flatMap fun j =>
      ((List.range 8).filter fun i => s.millIdle ⟨j, i⟩).flatMap fun i => joined [
        (s.sched.savedMills.filter fun x => x.tid == k.tid && x.tower == j).map fun x => .millRestore k.tid x.m ⟨j, i⟩,
        [.millAssign k.tid ⟨j, i⟩]]
  else []]
/-- The scheduler and the queues (R54 to R95). -/
noncomputable def State.schedEvents (s : State) : List Instr := joined [
  s.sched.admitting.map fun a => if a.paused then .admissionRetry a.q else .taskAdmit a.q,
  s.sched.tasks.flatMap s.taskEvents,
  if s.sched.tasks.any fun k => k.millReady then s.mills.map fun m => .millPreempt m.id else [],
  s.sched.irqs.map fun e => .msixSend e.tid,
  s.mgmt.flatMap fun e => match blockIndex e.1 0x00200000 0x40 256 with
    | some q => if e.1 % 0x40 = 8 ∧ s.qLoc q < 2 then [.recordPull q []] else []
    | none => []]

/-- Posts, registrations that are due, towers, promotions and the rest (R44, R111, R127, R130, R131, R133, R199, R202,
R209). -/
noncomputable def State.otherEvents (s : State) : List Instr := joined [
  (s.mem.lines.filter fun l => l.st == .w && decide (l.wSince + 50000 ≤ s.now (nodeSite l.node))).map fun l =>
    .wRegistrationTimer l.node l.a.asid l.a.line,
  s.faults.map fun r => .faultRecordPost r.fid,
  if s.log = [] then [] else [.errorRecordPost],
  s.mem.promos.map fun p => .promotionComplete p.tower,
  s.mem.scans.map fun c => .directoryScanComplete c.1 c.2,
  s.mem.rebuilds.map fun j => .sliceRebuildComplete j,
  s.link.links.filterMap fun l => if l.2 = .up 8 then some (.linkRetrain l.1) else none,
  s.mgmt.filterMap fun e => match blockIndex e.1 0x00750000 0x100 1024 with
    | some r => if e.1 % 0x100 = 0x88 then some (.grantWithdrawComplete r) else none
    | none => none,
  if s.boot.attBusy then [.attestationDone] else []]

/-- What waits for time to pass: last of all (R34, R35, R194, R195, R199). -/
noncomputable def State.timedEvents (s : State) : List Instr := joined [
  s.mem.refreshing.map fun r => .refreshComplete r.1 r.2.1 r.2.2,
  s.link.links.filterMap fun l => if l.2 = .retraining then some (.linkRetrainComplete l.1) else none,
  s.mem.reqs.map fun r => .requestTimeout r.site r.tag,
  s.mem.retired.map fun r => .retiredTagRelease r.site r.tag,
  s.mem.locks.map fun l => .bankLockForcedRelease l.holder l.pair]

/-- The first event of a list that can happen and changes something. -/
def State.first (s : State) : List Instr → Option State
  | [] => none
  | i :: is =>
    match exec i s with
    | .next t => if t = s then State.first s is else some t
    | _ => State.first s is
/-- The internal event that happens next, if one does (log entry 23). -/
noncomputable def State.internal (s : State) : Option State :=
  if s.frozen then none
  else s.first (joined [s.bootEvents, s.netEvents, s.coreEvents, s.millEvents, s.schedEvents, s.otherEvents, s.timedEvents])

/-! ### Turns -/

/-- A group that stands at a header which it has fetched. -/
def Group.atHeader (g : Group) : Bool := g.widx == 0 && !g.clause.isEmpty
/-- It is in a header wait (R164). -/
noncomputable def State.inHeaderWait (s : State) (u : Issuer) : Bool :=
  match decode .header (u.g.clause.take 1) with
  | .ok (.clauseHeader n cls mbw sdr cpw) _ => okHeader n cls && s.headerHeld u mbw.val sdr cpw
  | _ => false
/-- A group that is ready to start a clause (R164). -/
noncomputable def State.starter (s : State) (r : GroupRef) : Option Issuer :=
  (s.issuerOf r).bind fun u => if u.g.atHeader && !s.inHeaderWait u then some u else none
/-- Since when each group has been ready. -/
noncomputable def State.readied (s : State) : State :=
  { s with groups := s.groups.map fun g =>
    { g with ready := if (s.starter g.id).isSome then some (g.ready.getD (s.fresh, 0)) else none } }
/-- The order in which a core starts clauses (R164): a group that has seen 16 starts, a wheeler while fewer than two matrix operations
pend, the one that has been ready longest. The lower slot is the one that comes first in the list (log entry 138). -/
def State.startKey (s : State) (u : Issuer) : Nat × Nat × Nat :=
  let r := u.g.ready.getD (s.fresh, 0)
  (if 16 ≤ r.2 then 0 else 1, if u.k.launch.nlead ≤ u.g.id.grp ∧ (s.core u.t.core).mq.length < 2 then 0 else 1, r.1)
/-- One key comes before another. -/
def keyBefore (a b : Nat × Nat × Nat) : Bool :=
  decide (a.1 < b.1) || (a.1 == b.1 && (decide (a.2.1 < b.2.1) || (a.2.1 == b.2.1 && decide (a.2.2 < b.2.2))))
/-- The group that its core lets start a clause next. -/
noncomputable def State.nextStart (s : State) (c : CoreId) : Option GroupRef :=
  let us := (s.groups.filterMap fun g => s.starter g.id).filter fun u => u.t.core == c
  (us.find? fun u => us.all fun v => !keyBefore (s.startKey v) (s.startKey u)).map fun u => u.g.id
/-- An agent that can issue: a group at a header that it has fetched, when its core chooses it (R164). -/
noncomputable def State.able (s : State) : Agent → Bool
  | .group r =>
    match s.issuerOf r with
    | some u => !u.g.atHeader || s.nextStart u.t.core == some r
    | none => false
  | .mill r => (s.millIssuerOf r).isSome
/-- Every group and every mill, in order. -/
def State.agents (s : State) : List Agent := (s.groups.map fun g => .group g.id) ++ s.mills.map fun m => .mill m.id
/-- The agent that follows another in the order. -/
def State.after (s : State) (a : Agent) : List Agent :=
  (s.agents.dropWhile fun b => b != a).drop 1 ++ s.agents.takeWhile fun b => b != a
/-- Whose turn it is: the one in focus if it can issue, otherwise the next that can. -/
noncomputable def State.turn (s : State) : Option Agent :=
  match s.focus with
  | some a => if s.able a then some a else (s.after a).find? s.able
  | none => s.agents.find? s.able
/-- The turn passes to the next agent that can issue. -/
noncomputable def State.pass (s : State) (a : Agent) : State :=
  { s with focus := match (s.after a).find? s.able with | some b => some b | none => some a }

/-! ### A freeze (R23, R24, R59, R152) -/

/-- Accesses from outside that are held at the ports and in the crossings while the part is frozen. -/
def heldInFreeze : Instr → Bool
  | .tailWrite _ _ _ => true
  | .bar4Access _ _ _ => true
  | .poolAccess _ _ _ _ => true
  | .cxlMemAccess _ _ _ => true
  | .opticalTransit _ _ => true
  | .backInvalidateResponse _ => true
  | _ => false

end Sys2Proof.Machine
end

