-- ==== Sys2Proof/Machine/Load.lean ====
section
/-! DEFINITION. One word placed where the next step fetches it (log entry 25): the load that puts a program into the machine
stands for boot, a queue, a task record and a fetch. -/

namespace Sys2Proof.Machine

/-- A launch record of one group of 32 lanes at full budgets, whose code begins at 0. -/
def plainLaunch : Launch where
  code := 0
  entry := 0
  width := 32
  gx := 1
  gy := 1
  gz := 1
  ngrp := 1
  nlead := 1
  nwheel := 0
  lbud := 24
  wbud := 0
  nacc := 16
  tssize := 1
  coloc := 1
  spbytes := 262144
  privbytes := 0
  cwbytes := 0
  placemap := 0
  traph := 0
  argp := 0
  towmask := 1
  nmill := 1
  locbytes := 65536
/-- A running task of ASID 0, of one team or of one mill. -/
def plainTask (type : TaskType) : Task where
  tid := 0
  q := 0
  index := 0
  type := type
  prio := 0
  domain := 0
  depcnt := 0
  doomed := false
  sysEdge := false
  succAddr := 0
  succN := 0
  irq := false
  ivec := 0
  cscope := 4
  cwaddr := 0
  stable := 0
  asid := 0
  port := 0
  loc := 0
  ringPkg := 0
  deckles := []
  launch := plainLaunch
  pmap := []
  st := .running
  status := .ok
  fcode := 0
  waited := 0
  since := 0
  sets := if type = .core then [⟨0, .running, 0, none⟩] else []
  dies := [0]
  drainDies := []
  couchTo := []
  couchOf := none
  couched := []
  couchPlan := []
  millsLeft := [(0, 1)]
  halted := 0
  faulted := false
  completed := false
  succDone := false

/-- A word in a 64-byte line of instruction text. -/
def putText (ls : List ILine) (asid va : Nat) (w : W32) : List ILine :=
  (ls.filter fun x => !(x.asid == asid && x.line == va / 64)) ++
    [⟨asid, va / 64, BitVec.ofNat 512 (w.toNat * 2 ^ (8 * (va % 64))), ⟨false, true, false, false, 0, 0, va / 256 * 256⟩⟩]

/-- The machine is up, nothing is queued ahead, and an agent has the turn. -/
def State.ready (s : State) (a : Agent) : State :=
  { s with boot := { s.boot with ready := true }, agenda := [], focus := some a }
/-- A group to run the word: the one whose turn it is, or the one group of a plain task. -/
noncomputable def State.loadGroup (s : State) : State × GroupRef :=
  match s.turn with
  | some (.group r) => (s, r)
  | _ =>
    let c : CoreId := ⟨0, 0, 0⟩
    let t := (Team.reserved 0 0 0 ⟨c, 0⟩ (0, 0, 0) .none).begin plainLaunch s.fresh
    let r : GroupRef := ⟨0, 0, 0⟩
    ({ s with groups := s.groups ++ [Group.fresh r plainLaunch], teams := s.teams ++ [t]
              sched := { s.sched with tasks := s.sched.tasks ++ [plainTask .core] } }, r)
/-- A mill to run the word. -/
noncomputable def State.loadMill (s : State) : State × MillRef :=
  match s.turn with
  | some (.mill r) => (s, r)
  | _ =>
    let r : MillRef := ⟨0, 0⟩
    ({ s with mills := s.mills ++ [{ Mill.loading r 0 0 with st := .run }]
              sched := { s.sched with tasks := s.sched.tasks ++ [plainTask .mill] } }, r)

/-- Give a group a fetched clause, and make a word of it the next one. -/
noncomputable def State.placeClause (s : State) (ws : List W32) (widx : Nat) : State :=
  let (s, r) := s.loadGroup
  match s.group? r, s.team? r.tid r.team, s.task? r.tid with
  | some g, some _, some _ =>
    (s.setGroup { g with widx := widx, clause := ws, stat := .ready, wait := none, fence := none, stall := MemStall.none }).ready (.group r)
  | _, _, _ => s
/-- Put a word at a mill's PC. -/
noncomputable def State.placeMill (s : State) (w : W32) : State :=
  let (s, r) := s.loadMill
  match s.mill? r, (s.mill? r).bind fun m => s.task? m.tid with
  | some m, some k =>
    (s.setMill { m with fetchBuf := putText m.fetchBuf k.asid m.pc.toNat w, wait := none, stall := MemStall.none
                        rowFault := none }).ready (.mill r)
  | _, _ => s

/-- The code of a clause class in a header (R219). -/
def ClauseClass.code : ClauseClass → Nat | .alu => 0 | .mem => 1 | .mtx => 2 | .asy => 3 | .ctl => 4 | .sys => 5
/-- A header of `n` words of a class, which waits for nothing. -/
def plainHeader (c : ClauseClass) (n : Nat) : W32 := BitVec.ofNat 32 (n * 2 ^ 28 + ClauseClass.code c * 2 ^ 25 + 15 * 2 ^ 21 + 0xA5)
/-- A table word, followed by the zero literals that it takes, in the context the decoder reads it in (log entry 21). -/
noncomputable def State.placeWord (s : State) (w : W32) : State :=
  match tablePick w with
  | some (.header, _) => s.placeClause (w :: List.replicate 15 0) 0
  | some (.mill, _) => s.placeMill w
  | some (.clause c, i) => s.placeClause (plainHeader c i.words :: w :: List.replicate (i.words - 1) 0) 1
  | none => s.placeClause (plainHeader .alu 1 :: [w]) 1

end Sys2Proof.Machine
end

