-- ==== Sys2Proof/Machine/Outside.lean ====
section
/-! DEFINITION. What happens to the machine from outside that is no row of the opcode table (log entry 137): what hosts and other packages
do to their own memory and answer, and the acts that other files give a meaning. -/

namespace Sys2Proof.Machine

/-! ### Other machines (R43, R50, R58) -/

/-- A host writes its own memory. -/
def State.hostWrite (s : State) (port addr : Nat) (bytes : List (BitVec 8)) : State :=
  if port < 4 ∧ addr + bytes.length ≤ 2 ^ 64 then s.mapMem fun x => { x with host := x.host.write (port * 2 ^ 64 + addr) bytes } else s
/-- Another package writes a byte of a line that it lends: the homes of this package that have registered the line give their copies up
first. -/
def State.poolByte (s : State) (addr : Nat) (b : BitVec 8) : State :=
  let homes := (s.mem.lines.filter fun l => l.a == ⟨1, addr / 256⟩ && nodeDepth l.node == 4).filterMap fun l => match l.node with
    | .home t => some t
    | _ => none
  let val := linePlace (addr % 256) b.toNat
  let mask := lineMask (addr % 256) 1
  (homes.foldl (fun s t => s.homeWrite ⟨1, t, addr⟩ val mask) s).mapMem fun x => x.placeWrite ⟨1, 0, addr⟩ val mask
/-- Another package writes memory that it lends. -/
def State.poolWrite (s : State) (addr : Nat) (bytes : List (BitVec 8)) : State :=
  (bytes.zipIdx.foldl (fun s b => s.poolByte (addr + b.2) b.1) s)
/-- What another package answers from now on for one of its regions. -/
def State.setLender (s : State) (l : Lender) : State :=
  { s with link := { s.link with lenders := (s.link.lenders.filter fun x => !(x.pkg == l.pkg && x.region == l.region)) ++ [l] } }

/-! ### One act -/

/-- What an act does; one that names nothing the machine has does nothing. -/
def State.act (s : State) : Outside → State
  | .host port addr bytes => s.hostWrite port addr bytes
  | .pool addr bytes => s.poolWrite addr bytes
  | .lender x => s.setLender x
  | .flitAck f seq => s.flitAck f seq
  | .vectorMask port vec masked => if port < 4 ∧ vec < 2048 then s.maskVector port vec masked else s
  | .residue r => { s with residue := r }
  | .corrected u => s.corrected u
  | .broken u => s.broken u

end Sys2Proof.Machine
end

