-- ==== Sys2Proof/Machine/Step.lean ====
section
/-! DEFINITION. One step of the machine: the event that happens next, or the next word of the agent whose turn it is. -/

namespace Sys2Proof.Machine

/-- What follows an event or a word. -/
def afterwards (f : State → State) : Out → Out
  | .next s => .next (f s)
  | .fault r => .fault r
  | .refused r => .refused r

/-- A step: what the outside world has put first, if there is something (log entries 23, 137): an act, or an event (a word is none, and is
passed over); otherwise an event of the machine's own; otherwise the turn of an agent, which fetches a word and executes it. Time passes in
each. -/
noncomputable def step (s : State) : Out :=
  match s.agenda with
  | .act o :: rest => .next (State.tick (State.act { s with agenda := rest } o))
  | .event e :: rest =>
    if e.ctx.isSome then .next (State.tick { s with agenda := rest })
    else if s.frozen && heldInFreeze e then .next (State.tick { s with agenda := rest, held := s.held ++ [e] })
    else afterwards State.tick (exec e { s with agenda := rest })
  | [] =>
    match s.internal with
    | some t => .next t.tick
    | none =>
      let s := s.readied
      match s.turn with
      | none => .next s.tick
      | some a =>
        let s := { s with focus := some a }
        match s.fetch a with
        | .word i => afterwards (fun t => (t.pass a).tick) (exec i s)
        | .act t => .next (t.pass a).tick
        | .idle => .next (s.pass a).tick

/-- The machine with a table word stored where the next step fetches it (log entry 25). -/
noncomputable def State.withFetchWord (s : State) (_nbits w : Nat) : State := s.placeWord (BitVec.ofNat 32 w)

end Sys2Proof.Machine
end

