-- ==== Sys2Proof/Safety.lean ====
section
/-! DEFINITION. The terms that claims about the machine use: a word that nothing holds, the state after a word,
memories in canonical form, and what counts as a safe step. -/

namespace Sys2Proof.Machine

/-- Nothing holds the word that group `u` is about to issue: the group can issue, the word's named registers (`top` of
them) lie within its budget (R158, R232), its residue check is clean (R180), and no copy owns the scalar it writes
(R165). -/
def State.Ready (s : State) (u : Issuer) (top : Nat) (d : Dst) : Prop :=
  s.issuer = some u ∧ top ≤ u.budget ∧ s.residue = .clean ∧ s.ownedStatus u d = false

/-- The state after a word of `len` words has committed, leaving group `g` (R183, R220). -/
def State.committed (s : State) (u : Issuer) (len : Nat) (g : Group) : State := s.setGroup (u.g.advance len g)
/-- The state after a control transfer that is taken (R276). -/
def State.jumped (s : State) (g : Group) (target : W64) : State := s.setGroup (g.transfer target)

/-- The memories that stand in canonical form: DRAM, cluster windows, die scratchpads, the towers' region tables, host
memory, and lent memory of other packages. -/
def MemState.canonical (x : MemState) : Bool :=
  x.dram.wf && x.window.wf && x.dieSp.wf && x.towerTab.wf && x.host.wf && x.pool.wf
/-- The whole machine's memories are canonical. -/
def State.Canonical (s : State) : Prop := s.mem.canonical = true

/-- The management registers stand in canonical form: offsets rising, and no entry at its reset value. -/
def State.RegistersCanonical (s : State) : Prop :=
  (s.mgmt.map fun e => e.1).Pairwise (· < ·) ∧ ∀ e ∈ s.mgmt, e.2 ≠ regReset e.1
/-- What every step keeps: memories and registers that are equal are equal data. -/
def State.Inv (s : State) : Prop := s.Canonical ∧ s.RegistersCanonical

/-- A step is safe when it does not stop with a fault. -/
def State.Safe (s : State) : Prop := ∀ f, step s ≠ .fault f

/-- Everything of the machine but its groups is as it was. -/
def State.sameButGroups (s t : State) : Prop := t = { s with groups := t.groups }

end Sys2Proof.Machine
end

