-- ==== Sys2Proof/Certificates/Slice0/Obligations.lean ====
section
/-! DEFINITION. The statements for the provers. A statement that joins several claims is the conjunction of definitions of `Sys2Proof.Claims`. -/

open Sys2Proof Sys2Proof.Machine

/-- R139: how a word that commits group `g` over state `t` ends: it acquires when its order is 01. -/
def Sys2Proof.acquireEnd (t : State) (u : Issuer) (m : MemMods) (n : Nat) (g : Group) : State :=
  if m.order.val = 1 ∧ m.scope.val ≠ 0 then
    (t.sendDrain u.g.id u.t.core true m.scope.val).setGroup { u.g.advance n g with fence := some ⟨.acquire, m.scope.val⟩ }
  else t.setGroup (u.g.advance n g)

/-- The state after a mill word that completes, leaving `m`: the PC is 4 further (R355). -/
def Sys2Proof.millDone (s : State) (m : Mill) : State :=
  s.setMill { m with pc := m.pc + 4, wait := none, stall := MemStall.none }

/-- The state after a mill's transfer (R363). -/
def Sys2Proof.millGoto (s : State) (m : Mill) (target : W64) : State :=
  s.setMill { m with pc := target, wait := none, stall := MemStall.none }

/-- Writing a general register of a mill: g0 keeps nothing (R353). -/
def Sys2Proof.putG (m : Mill) (d : GReg) (x : W64) : Mill := if d = 0 then m else { m with g := m.g.set d x }

/-- R271: the result and the flags of the words that add, subtract, multiply, compare and combine bits. -/
def Obligations.ScalarFlags : Prop :=
  ∀ (n : SReg) (a b : Src) (s : State) (u : Issuer), a.isUni = true → b.isUni = true → s.Ready u 0 (.s n) →
    let x := u.g.scalar a
    let y := u.g.scalar b
    let big (v : Int) : Bool := decide (v < -(2 ^ 63)) || decide (v > 2 ^ 63 - 1)
    let put (r res : W64) (c v : Bool) : State := s.committed u (1 + a.nlit + b.nlit)
      { u.g with s := u.g.s.set n r, flags := ⟨decide (res = 0), res.getLsbD 63, c, v⟩ }
    exec (.sadd (.s n) a b) s = .next (put (x + y) (x + y) (decide (x.toNat + y.toNat ≥ 2 ^ 64)) (big (x.toInt + y.toInt))) ∧
    exec (.ssub (.s n) a b) s = .next (put (x - y) (x - y) (decide (x.toNat ≥ y.toNat)) (big (x.toInt - y.toInt))) ∧
    exec (.scmpS (.s n) a b) s = .next (put (if x.toInt < y.toInt then -1 else if x = y then 0 else 1) (x - y)
      (decide (x.toNat ≥ y.toNat)) (big (x.toInt - y.toInt))) ∧
    exec (.scmpZ (.s n) a b) s = .next (put (if x.toNat < y.toNat then -1 else if x = y then 0 else 1) (x - y)
      (decide (x.toNat ≥ y.toNat)) (big (x.toInt - y.toInt))) ∧
    exec (.smul (.s n) a b) s = .next (put (x * y) (x * y) (decide (x.toNat * y.toNat ≥ 2 ^ 64)) (big (x.toInt * y.toInt))) ∧
    exec (.sand (.s n) a b) s = .next (put (x &&& y) (x &&& y) false false) ∧
    exec (.smov (.s n) a) s = .next (s.committed u (1 + a.nlit) { u.g with s := u.g.s.set n x })

/-- R272, R274: the scalar words whose flags are those of flags_logic, and sbfx and sbfi at every width. -/
def Sys2Proof.Claims.ScalarLogicResults : Prop :=
  ∀ (n : SReg) (a b c : Src) (k : Code) (s : State) (u : Issuer), a.isUni = true → b.isUni = true → c.isUni = true →
    s.Ready u 0 (.s n) →
    let x := u.g.scalar a
    let y := u.g.scalar b
    let p := y.toNat
    let w := if k.val = 0 then 64 else k.val
    let put (len : Nat) (r : W64) : State := s.committed u len
      { u.g with s := u.g.s.set n r, flags := ⟨decide (r = 0), r.getLsbD 63, false, false⟩ }
    let two := 1 + a.nlit + b.nlit
    let mask : W64 := BitVec.ofNat 64 ((2 ^ w - 1) * 2 ^ p)
    exec (.sor (.s n) a b) s = .next (put two (x ||| y)) ∧
    exec (.sxor (.s n) a b) s = .next (put two (x ^^^ y)) ∧
    exec (.smulhS (.s n) a b) s = .next (put two (BitVec.ofInt 64 (x.toInt * y.toInt / 2 ^ 64))) ∧
    exec (.smulhZ (.s n) a b) s = .next (put two (BitVec.ofNat 64 (x.toNat * y.toNat / 2 ^ 64))) ∧
    exec (.sshl (.s n) a b) s = .next (put two (if p < 64 then BitVec.ofNat 64 (x.toNat * 2 ^ p) else 0)) ∧
    exec (.sshr (.s n) a b) s = .next (put two (if p < 64 then BitVec.ofNat 64 (x.toNat / 2 ^ p) else 0)) ∧
    exec (.ssar (.s n) a b) s = .next (put two (if p < 64 then BitVec.ofInt 64 (x.toInt / 2 ^ p)
      else if x.getLsbD 63 = false then 0 else -1)) ∧
    exec (.sminS (.s n) a b) s = .next (put two (if x.toInt ≤ y.toInt then x else y)) ∧
    exec (.smaxS (.s n) a b) s = .next (put two (if y.toInt ≤ x.toInt then x else y)) ∧
    exec (.sminZ (.s n) a b) s = .next (put two (if x.toNat ≤ y.toNat then x else y)) ∧
    exec (.smaxZ (.s n) a b) s = .next (put two (if y.toNat ≤ x.toNat then x else y)) ∧
    exec (.sclz (.s n) a) s = .next (put (1 + a.nlit) (BitVec.ofNat 64 (leadZeros 64 x.toNat))) ∧
    exec (.spopc (.s n) a) s = .next (put (1 + a.nlit) (BitVec.ofNat 64 (popcount 64 x.toNat))) ∧
    exec (.sexw (.s n) a) s = .next (put (1 + a.nlit) ((x.setWidth 32).signExtend 64)) ∧
    exec (.szxw (.s n) a) s = .next (put (1 + a.nlit) ((x.setWidth 32).setWidth 64)) ∧
    exec (.smad (.s n) a b c) s = .next (put (two + c.nlit) (x * y + u.g.scalar c)) ∧
    exec (.sbfx (.s n) a b k) s = .next (put two (if p < 64 then BitVec.ofNat 64 (x.toNat / 2 ^ p % 2 ^ w) else 0)) ∧
    exec (.sbfi (.s n) a b k) s = .next (put two (if p < 64 then
      (u.g.s[n] &&& ~~~mask) ||| (BitVec.ofNat 64 (x.toNat * 2 ^ p) &&& mask) else u.g.s[n]))

/-- R272: nop and smovl leave FLAGS as they are. -/
def Sys2Proof.Claims.ScalarMoves : Prop :=
  ∀ (n : SReg) (lo hi : W32) (s : State) (u : Issuer), s.Ready u 0 (.s n) →
    exec .nop s = .next (s.committed u 1 u.g) ∧
    exec (.smovl (.s n) lo hi) s = .next (s.committed u 3 { u.g with s := u.g.s.set n (BitVec.ofNat 64 (lo.toNat + 2 ^ 32 * hi.toNat)) })

/-- Each scalar word of R272 and R274 writes its result to its scalar with the flags of flags_logic; nop and smovl leave FLAGS; nothing else changes
but the PC. -/
def Obligations.ScalarResults : Prop :=
  Claims.ScalarLogicResults ∧ Claims.ScalarMoves

/-- R273: the four division words, in every case of the rule's table. -/
def Obligations.ScalarDivision : Prop :=
  ∀ (n : SReg) (a b : Src) (s : State) (u : Issuer), a.isUni = true → b.isUni = true → s.Ready u 0 (.s n) →
    let x := u.g.scalar a
    let y := u.g.scalar b
    let put (r : W64) (v : Bool) : State := s.committed u (1 + a.nlit + b.nlit)
      { u.g with s := u.g.s.set n r, flags := ⟨decide (r = 0), r.getLsbD 63, false, v⟩ }
    let overflows := x = BitVec.intMin 64 ∧ y = -1
    (y = 0 → exec (.sdivS (.s n) a b) s = .next (put (-1) true) ∧ exec (.sremS (.s n) a b) s = .next (put x true) ∧
      exec (.sdivZ (.s n) a b) s = .next (put (-1) true) ∧ exec (.sremZ (.s n) a b) s = .next (put x true)) ∧
    (overflows → exec (.sdivS (.s n) a b) s = .next (put (BitVec.intMin 64) true) ∧ exec (.sremS (.s n) a b) s = .next (put 0 true)) ∧
    (y ≠ 0 → ¬overflows → exec (.sdivS (.s n) a b) s = .next (put (BitVec.ofInt 64 (x.toInt.tdiv y.toInt)) false) ∧
      exec (.sremS (.s n) a b) s = .next (put (x - BitVec.ofInt 64 (x.toInt.tdiv y.toInt) * y) false)) ∧
    (y ≠ 0 → exec (.sdivZ (.s n) a b) s = .next (put (x / y) false) ∧
      exec (.sremZ (.s n) a b) s = .next (put (x - x / y * y) false))

/-- R275: bcc and ssel under every condition code, the codes that raise ILLOPND, and what the conditions say of x and y after the flags of
x − y. -/
def Obligations.ConditionCodes : Prop :=
  let big (v : Int) : Bool := decide (v < -(2 ^ 63)) || decide (v > 2 ^ 63 - 1)
  let holds (g : Flags) (k : Nat) : Bool := ([g.z, !g.z, g.n != g.v, g.z || g.n != g.v, !g.z && g.n == g.v, g.n == g.v, !g.c,
    !g.c || g.z, g.c && !g.z, g.c] : List Bool).getD k false
  (∀ (f : Code) (o : BitVec 18) (n : SReg) (a b : Src) (s : State) (u : Issuer), a.isUni = true → b.isUni = true → s.Ready u 0 (.s n) →
    (f.val < 10 → exec (.bcc f o) s = .next (if holds u.g.flags f.val then s.jumped u.g (u.g.pc + 4 * o.signExtend 64) else s.committed u 1 u.g) ∧
      exec (.ssel (.s n) a b f) s = .next (s.committed u (1 + a.nlit + b.nlit)
        { u.g with s := u.g.s.set n (if holds u.g.flags f.val then u.g.scalar a else u.g.scalar b) })) ∧
    (10 ≤ f.val → exec (.bcc f o) s = .next (s.takeFault u 0x02 0 0) ∧ exec (.ssel (.s n) a b f) s = .next (s.takeFault u 0x02 0 0))) ∧
  (∀ (x y : W64), let g : Flags := ⟨decide (x - y = 0), (x - y).getLsbD 63, decide (x.toNat ≥ y.toNat), big (x.toInt - y.toInt)⟩
    (List.range 10).map (holds g) = [decide (x = y), decide (x ≠ y), decide (x.toInt < y.toInt), decide (x.toInt ≤ y.toInt),
      decide (x.toInt > y.toInt), decide (x.toInt ≥ y.toInt), decide (x.toNat < y.toNat), decide (x.toNat ≤ y.toNat),
      decide (x.toNat > y.toNat), decide (x.toNat ≥ y.toNat)])

/-- R285: the vector integer words of two sources, by what they leave in a lane. -/
def Sys2Proof.Claims.VectorIntegerResults : Prop :=
  let clamp (v : Int) : W32 := BitVec.ofInt 32 (max (-(2 ^ 31)) (min v (2 ^ 31 - 1)))
  let rows : List ((Dst → Src → Src → Instr) × (W32 → W32 → W32)) :=
    [(.vadd, fun x y => x + y), (.vsub, fun x y => x - y), (.vmul, fun x y => x * y),
     (.vmulhS, fun x y => BitVec.ofInt 32 (x.toInt * y.toInt / 2 ^ 32)),
     (.vmulhZ, fun x y => BitVec.ofNat 32 (x.toNat * y.toNat / 2 ^ 32)),
     (.vaddsS, fun x y => clamp (x.toInt + y.toInt)), (.vsubsS, fun x y => clamp (x.toInt - y.toInt)),
     (.vminS, fun x y => if x.toInt ≤ y.toInt then x else y), (.vmaxS, fun x y => if y.toInt ≤ x.toInt then x else y),
     (.vminZ, fun x y => if x.toNat ≤ y.toNat then x else y), (.vmaxZ, fun x y => if y.toNat ≤ x.toNat then x else y),
     (.vand, fun x y => x &&& y), (.vor, fun x y => x ||| y), (.vxor, fun x y => x ^^^ y),
     (.vshl, fun x y => if y.toNat < 32 then BitVec.ofNat 32 (x.toNat * 2 ^ y.toNat) else 0),
     (.vshr, fun x y => if y.toNat < 32 then BitVec.ofNat 32 (x.toNat / 2 ^ y.toNat) else 0),
     (.vsar, fun x y => if y.toNat < 32 then BitVec.ofInt 32 (x.toInt / 2 ^ y.toNat)
       else if x.getLsbD 31 = false then 0 else 0xFFFFFFFF)]
  ∀ r ∈ rows, ∀ (d : Dst) (a b : Src) (s : State) (u : Issuer), d.isVec = true → a.isSrc = true → b.isSrc = true →
    s.Ready u (vtop3 d a b) .push →
    exec (r.1 d a b) s = .next (s.committed u (1 + a.nlit + b.nlit)
      (u.g.writeVec u.w d fun i => r.2 (u.g.laneSrc a i) (u.g.laneSrc b i)))

/-- R285, R286: the vector integer words of one or three sources, the bit fields at every width, and vsel. -/
def Sys2Proof.Claims.VectorFieldResults : Prop :=
  ∀ (d : Dst) (a b c : Src) (k : Code) (s : State) (u : Issuer), d.isVec = true → a.isSrc = true → b.isSrc = true →
    c.isSrc = true → s.Ready u (max (vtop3 d a b) (c.vtop 1)) .push →
    let x := u.g.laneSrc a
    let y := u.g.laneSrc b
    let n (i : Nat) : Nat := (y i).toNat
    let w := if k.val = 0 then 32 else k.val
    let mask (i : Nat) : W32 := BitVec.ofNat 32 ((2 ^ w - 1) * 2 ^ n i)
    let old := u.g.oldLane d
    let one (f : Nat → W32) : Out := .next (s.committed u (1 + a.nlit) (u.g.writeVec u.w d f))
    let two (f : Nat → W32) : Out := .next (s.committed u (1 + a.nlit + b.nlit) (u.g.writeVec u.w d f))
    exec (.vabsS d a) s = one (fun i => if x i = BitVec.intMin 32 then x i else if (x i).toInt < 0 then -x i else x i) ∧
    exec (.vclz d a) s = one (fun i => BitVec.ofNat 32 (leadZeros 32 (x i).toNat)) ∧
    exec (.vpopc d a) s = one (fun i => BitVec.ofNat 32 (popcount 32 (x i).toNat)) ∧
    exec (.vmov d a) s = one x ∧
    exec (.vmad d a b c) s = .next (s.committed u (1 + a.nlit + b.nlit + c.nlit)
      (u.g.writeVec u.w d fun i => x i * y i + u.g.laneSrc c i)) ∧
    (k.val ≤ 32 → exec (.vbfx d a b k) s = two (fun i => if n i < 32 then BitVec.ofNat 32 ((x i).toNat / 2 ^ n i % 2 ^ w) else 0)) ∧
    (k.val ≤ 32 → exec (.vbfi d a b k) s = two (fun i =>
      if n i < 32 then (old i &&& ~~~mask i) ||| (BitVec.ofNat 32 ((x i).toNat * 2 ^ n i) &&& mask i) else old i)) ∧
    (k.val < 8 → exec (.vsel d a b k) s = two (fun i => if (u.g.mask k.val).getLsbD i then x i else y i))

/-- R287 to R289 with R250, R251 and R263: the FP32 vector words apply the model's FP32 operations lane by lane. -/
def Sys2Proof.Claims.VectorFloatResults : Prop :=
  let twos : List ((Dst → Src → Src → Instr) × (W32 → W32 → W32)) :=
    [(.vfadd, f32Add), (.vfsub, f32Sub), (.vfmul, f32Mul), (.vfmin, f32Min), (.vfmax, f32Max), (.vfdiv, f32Div)]
  let ones : List ((Dst → Src → Instr) × (W32 → W32)) :=
    [(.vfabs, f32Abs), (.vfneg, f32Neg), (.vfsqrt, f32Sqrt), (.vfrcp, f32Rcp), (.vfrsq, f32Rsq), (.vfex2, f32Ex2),
     (.vflg2, f32Lg2), (.vfsinp, f32SinP), (.vfcosp, f32CosP), (.vfcls, f32Class)]
  ∀ (d : Dst) (a b c : Src) (k : Code) (s : State) (u : Issuer), d.isVec = true → a.isSrc = true → b.isSrc = true →
    c.isSrc = true → s.Ready u (max (vtop3 d a b) (c.vtop 1)) .push →
    let x := u.g.laneSrc a
    let y := u.g.laneSrc b
    (∀ r ∈ twos, exec (r.1 d a b) s = .next (s.committed u (1 + a.nlit + b.nlit) (u.g.writeVec u.w d fun i => r.2 (x i) (y i)))) ∧
    (∀ r ∈ ones, exec (r.1 d a) s = .next (s.committed u (1 + a.nlit) (u.g.writeVec u.w d fun i => r.2 (x i)))) ∧
    exec (.vffma d a b c) s = .next (s.committed u (1 + a.nlit + b.nlit + c.nlit)
      (u.g.writeVec u.w d fun i => f32Fma (x i) (y i) (u.g.laneSrc c i))) ∧
    (k.val < 4 → exec (.vfrnd d a k) s = .next (s.committed u (1 + a.nlit)
      (u.g.writeVec u.w d fun i => f32Rnd (rmodeOf k.val).dir (x i))))

/-- Every integer and FP32 vector word commits the lane results its table gives; bit-field words at every width, vsel, vfrnd in every mode. -/
def Obligations.VectorResults : Prop :=
  Claims.VectorIntegerResults ∧ Claims.VectorFieldResults ∧ Claims.VectorFloatResults

/-- R251: the minimum and the maximum of two FP32 values as numbers: a NaN gives way to the other operand, two give the canonical NaN, and −0
counts as less than +0. -/
def Obligations.MinimumAndMaximumNumbers : Prop :=
  ∀ (x y : W32),
    let mag (v : W32) : Int := v.toNat % 2 ^ 31
    let nan (v : W32) : Prop := mag v > 0x7F800000
    let place (v : W32) : Int := if v.getLsbD 31 then -mag v - 1 else mag v
    (nan x → nan y → f32Min x y = 0x7FC00000 ∧ f32Max x y = 0x7FC00000) ∧
    (nan x → ¬nan y → f32Min x y = y ∧ f32Max x y = y) ∧
    (¬nan x → nan y → f32Min x y = x ∧ f32Max x y = x) ∧
    (¬nan x → ¬nan y → f32Min x y = (if place x ≤ place y then x else y) ∧ f32Max x y = if place x ≤ place y then y else x) ∧
    f32Min x y = f32Min y x ∧ f32Max x y = f32Max y x

/-- R289: vfcls sets the one bit of each lane's class. -/
def Obligations.FloatClasses : Prop :=
  ∀ (d : Dst) (a : Src) (s : State) (u : Issuer), d.isVec = true → a.isSrc = true → s.Ready u (max (d.vtop 1) (a.vtop 1)) .push →
    let bitOfClass (x : W32) : Nat :=
      let e := x.toNat / 2 ^ 23 % 2 ^ 8
      let f := x.toNat % 2 ^ 23
      if e = 255 then (if f ≠ 0 then 0 else if x.getLsbD 31 then 1 else 8)
      else if e ≠ 0 then (if x.getLsbD 31 then 2 else 7)
      else if f ≠ 0 then (if x.getLsbD 31 then 3 else 6)
      else if x.getLsbD 31 then 4 else 5
    exec (.vfcls d a) s = .next (s.committed u (1 + a.nlit) (u.g.writeVec u.w d fun i => BitVec.ofNat 32 (2 ^ bitOfClass (u.g.laneSrc a i))))

/-- R284 with R162: what a vector result leaves in the queue, in the named registers, and elsewhere. -/
def Sys2Proof.Claims.VectorWritePushes : Prop :=
  ∀ (g : Group) (w : Nat) (d : Dst) (r : Nat → W32), d.isVec = true →
    let h := g.writeVec w d r
    let out : Lanes := h.q[0]
    out.length = w ∧
    (∀ i, i < w → lane out i = if g.exm.getLsbD i then r i else match d with | .v n => lane g.v[n] i | _ => 0) ∧
    (∀ i : Fin 15, h.q[i.val + 1] = g.q[i.val]) ∧
    (∀ n : Fin 24, h.v[n] = if d = .v n then out else g.v[n]) ∧
    h.s = g.s ∧ h.m = g.m ∧ h.exm = g.exm ∧ h.flags = g.flags ∧ h.mstack = g.mstack ∧ h.msdepth = g.msdepth ∧
    h.trap = g.trap ∧ h.pc = g.pc ∧ h.widx = g.widx ∧ h.batch = g.batch ∧ h.id = g.id ∧ h.stat = g.stat

/-- R305: the words of a loaded value are pushed lowest first, a lane that is not enabled keeping the named register's old word. -/
def Sys2Proof.Claims.LoadedWordsPushInOrder : Prop :=
  ∀ (g : Group) (w n : Nat) (d : Dst) (val : Nat → Nat), d.isVec = true → n ≤ 4 →
    (∀ k, d = .v k → k.val + n ≤ 24) →
    let h := g.pushWords w d n val
    let word (j i : Nat) : W32 :=
      if g.exm.getLsbD i then BitVec.ofNat 32 (val i / 2 ^ (32 * j)) else match d with | .v k => lane (g.v.getD (k.val + j) []) i | _ => 0
    (∀ j, j < n → ∀ i, i < w → lane (h.q.toList.getD (n - 1 - j) []) i = word j i) ∧
    (∀ k j, d = .v k → j < n → ∀ i, i < w → lane (h.v.toList.getD (k.val + j) []) i = word j i) ∧
    (∀ j, n ≤ j → j < 16 → h.q.toList.getD j [] = g.q.toList.getD (j - n) []) ∧
    (∀ j, (∀ k, d = .v k → j < k.val ∨ k.val + n ≤ j) → h.v.toList.getD j [] = g.v.toList.getD j []) ∧
    h.s = g.s ∧ h.m = g.m ∧ h.exm = g.exm ∧ h.flags = g.flags ∧ h.mstack = g.mstack ∧ h.msdepth = g.msdepth ∧ h.trap = g.trap

/-- A vector result pushes one queue entry and writes its named register, disabled lanes keeping the old value; a loaded value pushes its words lowest
first; no other register changes. -/
def Obligations.ResultsArePushed : Prop :=
  Claims.VectorWritePushes ∧ Claims.LoadedWordsPushInOrder

/-- R290: a compare writes one mask: a bit for each enabled lane where the comparison holds, and zero elsewhere. -/
def Sys2Proof.Claims.CompareWritesMask : Prop :=
  ∀ (d : Code) (a b : Src) (c : Code) (s : State) (u : Issuer), a.isSrc = true → b.isSrc = true → c.val < 8 →
    s.Ready u (max (a.vtop 1) (b.vtop 1)) .push →
    let done (holds : W32 → W32 → Bool) (o : Out) : Prop := ∃ m : W64,
      o = .next (s.committed u (1 + a.nlit + b.nlit) { u.g with m := u.g.m.setIfInBounds c.val m }) ∧
      ∀ i, m.getLsbD i = (decide (i < u.w) && u.g.exm.getLsbD i && holds (u.g.laneSrc a i) (u.g.laneSrc b i))
    (d.val < 6 → done (fun x y => ([x == y, x != y, decide (x.toInt < y.toInt), decide (x.toInt ≤ y.toInt),
      decide (x.toInt > y.toInt), decide (x.toInt ≥ y.toInt)] : List Bool).getD d.val false) (exec (.vcmpS d a b c) s)) ∧
    (d.val < 2 ∨ 6 ≤ d.val ∧ d.val < 10 → done (fun x y => ([x == y, x != y, false, false, false, false, decide (x.toNat < y.toNat),
      decide (x.toNat ≤ y.toNat), decide (x.toNat > y.toNat), decide (x.toNat ≥ y.toNat)] : List Bool).getD d.val false)
      (exec (.vcmpZ d a b c) s)) ∧
    (d.val < 8 → done (cmpF d.val) (exec (.vfcmp d a b c) s))

/-- R292: the mask words. -/
def Sys2Proof.Claims.MaskWords : Prop :=
  ∀ (n : SReg) (i j k : Code) (a : Src) (s : State) (u : Issuer), i.val < 8 → j.val < 8 → k.val < 8 → a.isUni = true →
    s.Ready u 0 (.s n) →
    let mi := u.g.m.getD i.val 0
    let mj := u.g.m.getD j.val 0
    let mk := u.g.m.getD k.val 0
    let full : W64 := BitVec.ofNat 64 (2 ^ u.w - 1)
    let mask (x : W64) : State := s.committed u 1 { u.g with m := u.g.m.setIfInBounds k.val x }
    let put (x : W64) : State := s.committed u 1 { u.g with s := u.g.s.set n x }
    exec (.mand i j k) s = .next (mask (mi &&& mj)) ∧
    exec (.mor i j k) s = .next (mask (mi ||| mj)) ∧
    exec (.mxor i j k) s = .next (mask (mi ^^^ mj)) ∧
    exec (.mnot i k) s = .next (mask (~~~mi &&& full)) ∧
    exec (.mtoex k) s = .next (s.committed u 1 { u.g with exm := mk }) ∧
    exec (.mfrex k) s = .next (mask u.g.exm) ∧
    exec (.mpopc (.s n) k) s = .next (put (BitVec.ofNat 64 (popcount 64 mk.toNat))) ∧
    exec (.mtos (.s n) k) s = .next (put mk) ∧
    exec (.mfroms a k) s = .next (s.committed u (1 + a.nlit) { u.g with m := u.g.m.setIfInBounds k.val (u.g.scalar a &&& full) }) ∧
    ∃ f : Nat, exec (.mfirst (.s n) k) s = .next (put (BitVec.ofNat 64 f)) ∧ f ≤ u.w ∧ (f < u.w → mk.getLsbD f = true) ∧
      ∀ i, i < f → mk.getLsbD i = false

/-- A compare writes one bit per lane that is enabled and where its comparison holds; the mask words act on all W bits. -/
def Obligations.MasksAreWritten : Prop :=
  Claims.CompareWritesMask ∧ Claims.MaskWords

/-- R294, R295: exchanges between lanes, from a lane that is enabled or not. -/
def Sys2Proof.Claims.LaneExchange : Prop :=
  ∀ (d : Dst) (n : SReg) (a b : Src) (c : Code) (s : State) (u : Issuer), d.isVec = true → a.isSrc = true → b.isSrc = true →
    s.issuer = some u → vtop3 d a b ≤ u.budget → s.residue = .clean → s.ownedStatus u (.s n) = false →
    let x := u.g.laneSrc a
    let j (i : Nat) : Nat :=
      let k := (u.g.laneSrc b i).toNat
      if c.val = 0 then k % u.w else if c.val = 1 then (if k ≤ i then i - k else i)
      else if c.val = 2 then (if i + k < u.w then i + k else i) else (i ^^^ k) % u.w
    let p := ((u.g.scalar b).setWidth 32).toNat % u.w
    (c.val < 4 → exec (.vshfl d a b c) s = .next (s.committed u (1 + a.nlit + b.nlit) (u.g.writeVec u.w d fun i => x (j i)))) ∧
    (b.isUni = true → exec (.vbcast d a b) s = .next (s.committed u (1 + a.nlit + b.nlit) (u.g.writeVec u.w d fun _ => x p))) ∧
    (b.isUni = true → exec (.vtos (.s n) a b) s = .next (s.committed u (1 + a.nlit + b.nlit)
      { u.g with s := u.g.s.set n ((x p).setWidth 64) }))

/-- R296, R297: reductions by the fixed tree and inclusive scans, a disabled lane giving the identity. -/
def Sys2Proof.Claims.ReductionsAndScans : Prop :=
  let reds : List ((Dst → Src → Instr) × (W32 → W32 → W32) × W32 × (W32 → W64)) :=
    [(.vredaddF32, f32Add, 0x80000000, fun x => x.setWidth 64), (.vredaddB32, fun x y => x + y, 0, fun x => x.setWidth 64),
     (.vredminS, fun x y => if x.toInt ≤ y.toInt then x else y, 0x7FFFFFFF, fun x => x.signExtend 64),
     (.vredmaxS, fun x y => if y.toInt ≤ x.toInt then x else y, 0x80000000, fun x => x.signExtend 64),
     (.vredminF32, f32Min, 0x7F800000, fun x => x.setWidth 64), (.vredmaxF32, f32Max, 0xFF800000, fun x => x.setWidth 64)]
  let scans : List ((Dst → Src → Instr) × (W32 → W32 → W32) × W32) :=
    [(.vscanaddF32, f32Add, 0x80000000), (.vscanaddB32, fun x y => x + y, 0)]
  ∀ (n : SReg) (d : Dst) (a : Src) (s : State) (u : Issuer), d.isVec = true → a.isSrc = true →
    s.issuer = some u → max (d.vtop 1) (a.vtop 1) ≤ u.budget → s.residue = .clean → s.ownedStatus u (.s n) = false →
    let xs (unit : W32) : Lanes := (List.range u.w).map fun i => if u.g.exm.getLsbD i then u.g.laneSrc a i else unit
    (∀ r ∈ reds, exec (r.1 (.s n) a) s = .next (s.committed u (1 + a.nlit)
      { u.g with s := u.g.s.set n (r.2.2.2 (treeRed r.2.1 (lanesLog u.w) (xs r.2.2.1))) })) ∧
    (∀ r ∈ scans, exec (r.1 d a) s = .next (s.committed u (1 + a.nlit)
      (u.g.writeVec u.w d fun i => lane (scanRed r.2.1 (xs r.2.2)) i)))

/-- vshfl, vbcast and vtos read the lane their page names, enabled or not; reductions and scans combine the enabled lanes by the fixed tree, a
disabled lane giving the identity. -/
def Obligations.LanesCombine : Prop :=
  Claims.LaneExchange ∧ Claims.ReductionsAndScans

/-- R299 to R302: the conversions, lane by lane, through the model's conversion functions. -/
def Obligations.Conversions : Prop :=
  ∀ (d : Dst) (a b : Src) (c : Code) (s : State) (u : Issuer), d.isVec = true → a.isSrc = true → b.isSrc = true →
    s.Ready u (vtop3 d a b) .push →
    let one (f : W32 → W32) : Out := .next (s.committed u (1 + a.nlit) (u.g.writeVec u.w d fun i => f (u.g.laneSrc a i)))
    let two (f : Nat → W32 → W32) : Out := .next (s.committed u (1 + a.nlit + b.nlit)
      (u.g.writeVec u.w d fun i => f ((u.g.laneSrc b i).toNat % 256) (u.g.laneSrc a i)))
    let md := rmodeOf c.val
    (okCvt d a c = true →
      exec (.vcvtF32S32 d a c) s = one (fun x => f32OfInt md x.toInt) ∧
      exec (.vcvtF32Z32 d a c) s = one (fun x => f32OfInt md x.toNat) ∧
      exec (.vcvtS32F32 d a c) s = one (f32ToInt md.dir (-(2 ^ 31)) (2 ^ 31 - 1)) ∧
      exec (.vcvtZ32F32 d a c) s = one (f32ToInt md.dir 0 (2 ^ 32 - 1)) ∧
      exec (.vcvtF16F32 d a c) s = one (fun x => BitVec.ofNat 32 (narrow fp16 md x)) ∧
      exec (.vcvtBf16F32 d a c) s = one (fun x => BitVec.ofNat 32 (narrow bf16 md x))) ∧
    (c.val < 2 →
      exec (.vcvtF32F16 d a c) s = one (fun x => widen fp16 (x.toNat / 2 ^ (16 * c.val) % 2 ^ 16)) ∧
      exec (.vcvtF32Bf16 d a c) s = one (fun x => widen bf16 (x.toNat / 2 ^ (16 * c.val) % 2 ^ 16))) ∧
    (okE8 d a b c = true → exec (.vcvtE8F32 d a b c) s = two (toE8 md)) ∧
    (c.val < 4 → exec (.vcvtF32E8 d a b c) s = two (fromE8 c.val)) ∧
    exec (.vcvtN4F32 d a b) s = two toN4 ∧
    (c.val < 8 → exec (.vcvtF32N4 d a b c) s = two (fromN4 c.val)) ∧
    (okScale d a c = true → exec (.vmxscale d a c) s = .next (s.committed u (1 + a.nlit) (u.g.writeVec u.w d fun i =>
      BitVec.ofNat 32 (mxScale (mxSetOf c.val) ((List.range 32).map fun j =>
        if u.g.exm.getLsbD (32 * (i / 32) + j) then u.g.laneSrc a (32 * (i / 32) + j) else 0)))))

/-- R183, R220: where a committed word leaves the PC and the word index, and what it leaves alone. -/
def Sys2Proof.Claims.CommitAdvancesThePc : Prop :=
  ∀ (u : Issuer) (len : Nat) (g : Group),
    let h := u.g.advance len g
    let n := u.g.clauseN
    (u.g.widx + len ≤ n → h.pc = g.pc ∧ h.widx = u.g.widx + len ∧ h.clause = g.clause) ∧
    (n < u.g.widx + len → h.pc = u.g.pc + 4 * BitVec.ofNat 64 (n + 1) ∧ h.widx = 0 ∧ h.clause = []) ∧
    h.wordsIssued = g.wordsIssued + 1 ∧ h.wait = none ∧ h.fence = none ∧
    h = { g with pc := h.pc, widx := h.widx, clause := h.clause, wordsIssued := h.wordsIssued, wait := none, fence := none, stall := MemStall.none }

/-- R219, R220, R164, R167: a header that waits for nothing starts its clause, and the groups of its core that are ready have seen one
start more; a malformed one raises BADCLAUSE. -/
def Sys2Proof.Claims.ClauseHeaderStarts : Prop :=
  ∀ (n : Fin 16) (cls : Fin 8) (mbw : Fin 16) (sdr cpw : Bool) (s : State) (u : Issuer), s.issuer = some u → u.g.widx = 0 →
    (okHeader n cls = false → exec (.clauseHeader n cls mbw sdr cpw) s = .next (s.takeFault u 0x03 0 0)) ∧
    (okHeader n cls = true → u.g.lateFault = none → ((s.core u.t.core).cq.all fun c => c.g != u.g.id) = true →
      (sdr = true → s.owesWrites u.g.id = false) → (mbw.val ≠ 15 → (u.outstanding s).length ≤ mbw.val) →
      exec (.clauseHeader n cls mbw sdr cpw) s = .next (State.setGroup
        { s with groups := s.groups.map fun g =>
          if ((s.team? g.id.tid g.id.team).map fun t => t.core) = some u.t.core then { g with ready := g.ready.map fun r => (r.1, r.2 + 1) } else g }
        { u.g with wait := none, widx := 1, ready := none, clauseStarts := u.g.clauseStarts + 1 }))

/-- A header that waits for nothing starts its clause and a malformed one raises BADCLAUSE; a committed word leaves the word index at the next word,
or PC at the next header. -/
def Obligations.ClausesAdvance : Prop :=
  Claims.CommitAdvancesThePc ∧ Claims.ClauseHeaderStarts

/-- R275 to R277: when each relative transfer is taken, where it goes, and that it falls through otherwise. -/
def Sys2Proof.Claims.BranchOutcomes : Prop :=
  ∀ (f : Code) (o : BitVec 18) (s : State) (u : Issuer), s.Ready u 0 .push →
    let go := Host.Outcome.next (s.jumped u.g (u.g.pc + 4 * o.signExtend 64))
    let fall := Host.Outcome.next (s.committed u 1 u.g)
    let g := u.g.flags
    let m := u.g.m.getD f.val 0
    let holds : Bool := ([g.z, !g.z, g.n != g.v, g.z || g.n != g.v, !g.z && g.n == g.v, g.n == g.v, !g.c,
      !g.c || g.z, g.c && !g.z, g.c] : List Bool).getD f.val false
    let zero (x : W64) : Prop := ∀ i, i < u.w → x.getLsbD i = false
    exec (.br o) s = go ∧
    (f.val < 10 → exec (.bcc f o) s = if holds then go else fall) ∧
    (f.val < 8 → zero m → exec (.bmz f o) s = go ∧ exec (.bmnz f o) s = fall) ∧
    (f.val < 8 → ¬zero m → exec (.bmz f o) s = fall ∧ exec (.bmnz f o) s = go) ∧
    (zero u.g.exm → exec (.bxz o) s = go ∧ exec (.bxnz o) s = fall) ∧
    (¬zero u.g.exm → exec (.bxz o) s = fall ∧ exec (.bxnz o) s = go)

/-- R278: calls, ret and jmpi, the link they leave, and the ALIGN that a misaligned target raises. -/
def Sys2Proof.Claims.CallsAndReturns : Prop :=
  ∀ (k : SReg) (t : Src) (o : BitVec 18) (s : State) (u : Issuer), s.Ready u 0 (.s 15) → okJmpi t = true →
    let link := { u.g with s := u.g.s.set 15 (u.g.pc + 4 * BitVec.ofNat 64 (u.g.clauseN + 1)) }
    let dest (g : Group) (x : W64) : Out := if x.toNat % 4 = 0 then .next (s.jumped g x) else .next (s.takeFault u 0x05 x 0)
    exec (.call o) s = .next (s.jumped link (u.g.pc + 4 * o.signExtend 64)) ∧
    exec (.callIndirect k) s = dest link u.g.s[k] ∧
    exec .ret s = dest u.g u.g.s[15] ∧
    exec (.jmpi t) s = dest u.g (u.g.scalar t)

/-- R280: the mask stack, at every depth. -/
def Sys2Proof.Claims.MaskStack : Prop :=
  ∀ (f : Code) (s : State) (u : Issuer), s.Ready u 0 .push → f.val < 8 →
    let d := u.g.msdepth
    let stackFault := Host.Outcome.next (s.takeFault u 0x0F 0 0)
    (d = 16 → exec (.exif f) s = stackFault) ∧
    (d < 16 → exec (.exif f) s = .next (s.committed u 1 { u.g with
      mstack := u.g.mstack.setIfInBounds d u.g.exm, msdepth := d + 1, exm := u.g.exm &&& u.g.m.getD f.val 0 })) ∧
    (d = 0 → exec .exelse s = stackFault ∧ exec .exend s = stackFault) ∧
    (0 < d → exec .exelse s = .next (s.committed u 1 { u.g with exm := u.g.mstack.getD (d - 1) 0 &&& ~~~u.g.exm })) ∧
    (0 < d → exec .exend s = .next (s.committed u 1 { u.g with exm := u.g.mstack.getD (d - 1) 0, msdepth := d - 1 }))

/-- Each transfer is taken exactly when its row says and goes where it says; calls link s15; a misaligned target raises ALIGN; exif, exelse and exend
work the mask stack, with STACK at its ends. -/
def Obligations.ControlWords : Prop :=
  Claims.BranchOutcomes ∧ Claims.CallsAndReturns ∧ Claims.MaskStack

/-- R177: what a group's entry to its trap handler writes, and what it leaves unchanged. -/
def Sys2Proof.Claims.TrapHandlerEntry : Prop :=
  ∀ (s : State) (u : Issuer) (code : Nat) (va lanes : W64), code ≠ 0x12 → u.g.trap.active = false →
    u.k.launch.traph ≠ 0 → s.group? u.g.id = some u.g →
    let t := s.takeFault u code va lanes
    let h : Group := { u.g with
      trap := ⟨true, u.g.widx, code, u.g.pc, u.g.pc + 4 * BitVec.ofNat 64 (u.g.clauseN + 1), va, lanes, u.g.exm⟩
      exm := BitVec.ofNat 64 (2 ^ u.w - 1), pc := u.k.launch.traph, clause := [], widx := 0, wait := none, fence := none
      stall := MemStall.none }
    t.group? u.g.id = some h ∧ (∀ r, r ≠ u.g.id → t.group? r = s.group? r) ∧ t = { s with groups := t.groups }

/-- R342: trap and brk raise their codes. -/
def Sys2Proof.Claims.TrapAndBreak : Prop :=
  ∀ (o : BitVec 18) (s : State) (u : Issuer), s.Ready u 0 .push →
    exec (.trap o) s = .next (s.takeFault u 0x10 0 0) ∧ exec (.brk o) s = .next (s.takeFault u 0x11 0 0)

/-- R73, R175, R178: a fault that no handler takes, or that meets a running handler, ends the task: its first code is kept,
NESTED in a handler, and logged with the group's place. -/
def Sys2Proof.Claims.UnhandledFaultEndsTask : Prop :=
  ∀ (s : State) (u : Issuer) (code : Nat) (va lanes : W64), s.task? u.k.tid = some u.k → u.k.faulted = false →
    (u.g.trap.active = true ∨ u.k.launch.traph = 0 ∨ code = 0x12) →
    let t := s.takeFault u code va lanes
    let c := if code ≠ 0x12 ∧ u.g.trap.active = true then 0x13 else code
    t.task? u.k.tid = some { u.k with faulted := true, fcode := c } ∧
    t.log = s.log ++ [⟨0x06, dieSheet u.t.core.die, u.t.core.die, u.k.tid, s.boot.time.getD (dieSheet u.t.core.die) 0, u.g.pc.toNat,
      c + u.g.widx * 2 ^ 8 + u.g.id.grp * 2 ^ 12, u.t.team⟩] ∧
    t.mem = s.mem ∧ t.teams = s.teams ∧ t.cores = s.cores ∧ t.mills = s.mills ∧
    (∀ r, r ≠ u.g.id → t.group? r = s.group? r)

/-- With a handler, a fault writes the trap registers, sets EXM to all ones and goes to TRAPH with everything else unchanged; without one, or inside
one, it ends the task under its code or NESTED and is logged; trap and brk raise their codes. -/
def Obligations.FaultsAreTaken : Prop :=
  Claims.TrapHandlerEntry ∧ Claims.TrapAndBreak ∧ Claims.UnhandledFaultEndsTask

/-- R174, R232: a word of a clause whose operands its page does not allow takes ILLOPND and does nothing else. -/
def Obligations.BadOperandsTakeIllopnd : Prop :=
  ∀ (i : Instr) (c : ClauseClass) (s : State) (u : Issuer), i.ctx = some (.clause c) → i.wf = false → s.issuer = some u →
    exec i s = .next (s.takeFault u 0x02 0 0)

/-- R171, R339: the barrier words complete when their generation has ended, and tarr when the group has not arrived yet. -/
def Sys2Proof.Claims.BarriersComplete : Prop :=
  ∀ (f : Code) (s : State) (u : Issuer), s.Ready u 0 .push → f.val < 16 →
    let here := u.arrived f.val
    let s' := s.arrive u.g.id f.val
    (here = false → exec (.tarr f) s = .next (s'.setGroup (u.g.advance 1 u.g))) ∧
    (here = false → exec (.twait f) s = .next (s.committed u 1 u.g)) ∧
    (here = true → exec (.tarr f) s = .next (s.setGroup { u.g with wait := some (.tarr f.val) }) ∧
      exec (.twait f) s = .next (s.setGroup { u.g with wait := some (.twait f.val) })) ∧
    (here = false → u.g.wait = some (.tbar f.val) → exec (.tbar f) s = .next (s.committed u 1 u.g)) ∧
    (here = false → u.g.wait = none → u.g.fence = none → s.owesWrites u.g.id = false →
      ∀ t, s'.team? u.t.tid u.t.team = some t →
      exec (.tbar f) s = .next (if bit (t.barriers.getD f.val ⟨0, false⟩).arrived u.g.id.grp
        then s'.setGroup { u.g with wait := some (.tbar f.val) } else s'.setGroup (u.g.advance 1 u.g))) ∧
    (f.val < 8 → u.g.wait = some (.cbar f.val) → bit u.g.cbarArr f.val = false → u.k.launch.coloc ≠ 0 →
      exec (.cbar f) s = .next ((s.sendDrain u.g.id u.t.core true u.k.launch.coloc).setGroup
        { u.g.advance 1 u.g with fence := some ⟨.acquire, u.k.launch.coloc⟩ }))

/-- R171: a barrier's generation ends exactly when every group of the team that has not exited has arrived. -/
def Sys2Proof.Claims.BarrierGenerationEnds : Prop :=
  ∀ (b : Barrier) (gs : List Group), b.arrived ≠ 0 →
    let all := ∀ g ∈ gs, g.stat ≠ .exited → bit b.arrived g.id.grp = true
    (all → b.settle gs = ⟨0, !b.gen⟩) ∧ (¬all → b.settle gs = b)

/-- R172, R173, R339: arriving at a tether and waiting for it; PROT where the group may not use it. -/
def Sys2Proof.Claims.TethersComplete : Prop :=
  ∀ (f : Code) (s : State) (u : Issuer), s.Ready u 0 .push →
    let t : W64 := BitVec.ofNat 64 (2 ^ f.val)
    (s.tethOpen f.val u.k.asid = false →
      (u.g.wait ≠ some (.tethArr f.val) → exec (.tethArr f) s = .next (s.takeFault u 0x07 0 0)) ∧
      (u.g.wait ≠ some (.tethWait f.val) → exec (.tethWait f) s = .next (s.takeFault u 0x07 0 0))) ∧
    (s.tethOpen f.val u.k.asid = true →
      (u.g.tethArr.getLsbD f.val = false → exec (.tethArr f) s = .next (s.committed u 1
        { u.g with tethArr := u.g.tethArr ||| t, tethLatched := u.g.tethLatched &&& ~~~t })) ∧
      (u.g.tethLatched.getLsbD f.val = true →
        exec (.tethWait f) s = .next (s.committed u 1 { u.g with tethLatched := u.g.tethLatched &&& ~~~t })) ∧
      (u.g.tethLatched.getLsbD f.val = false → u.g.tethArr.getLsbD f.val = false →
        exec (.tethWait f) s = .next (s.committed u 1 u.g)))

/-- The barrier and tether words arrive, wait and complete as their generations end; a generation ends exactly when every group that has not exited
has arrived; a tether the task may not use raises PROT. -/
def Obligations.BarriersAndTethers : Prop :=
  Claims.BarriersComplete ∧ Claims.BarrierGenerationEnds ∧ Claims.TethersComplete

/-- R340, R341: once its release has completed, tlaunch sends the tail write that its scalar names, and qtail sends one without a
release; a foreign queue raises PROT, at tlaunch's first check, and reserved bits ILLOPND. -/
def Obligations.TailWrites : Prop :=
  ∀ (k : SReg) (s : State) (u : Issuer), s.Ready u 0 .push →
    let x := u.g.s[k].toNat
    let q := x / 2 ^ 32 % 256
    let barred := bits (s.reg (offQCFG q)) 15 0 ≠ u.k.asid ∧ u.k.asid ≠ 0
    let sent (src : TailSource) : Out := .next
      ((s.send .ctl (.die u.t.core.die) (.tower 19) (.tailWrite src q (u.g.s[k].setWidth 32))).setGroup (u.g.advance 1 u.g))
    (x / 2 ^ 40 ≠ 0 → exec (.tlaunch k) s = .next (s.takeFault u 0x02 0 0)) ∧
    (x / 2 ^ 40 = 0 → barred → u.g.fence = none → u.g.stall.sent = false → exec (.tlaunch k) s = .next (s.takeFault u 0x07 0 0)) ∧
    (x / 2 ^ 40 = 0 → barred → exec (.qtail k) s = .next (s.takeFault u 0x07 0 0)) ∧
    (x / 2 ^ 40 = 0 → u.g.fence = some ⟨.released, 4⟩ → exec (.tlaunch k) s = sent .device) ∧
    (x / 2 ^ 40 = 0 → ¬barred → exec (.qtail k) s = sent .device) ∧
    (x / 2 ^ 51 ≠ 0 ∨ x / 2 ^ 50 = 0 ∧ x / 2 ^ 40 ≠ 0 → exec (.qtail k) s = .next (s.takeFault u 0x02 0 0)) ∧
    (x / 2 ^ 50 = 1 → x / 2 ^ 40 % 1024 = s.pkgNum → exec (.qtail k) s = sent (.remote s.pkgNum 0)) ∧
    (x / 2 ^ 50 = 1 → x / 2 ^ 40 % 1024 ≠ s.pkgNum → exec (.qtail k) s = .next
      (State.setGroup (match s.sendPacket (s.ownPacket .ctl (x / 2 ^ 40 % 1024) 0) with
        | some t => { t with out := t.out ++ [Output.remoteTail (x / 2 ^ 40 % 1024) q (u.g.s[k].setWidth 32 : W32).toNat] }
        | none => s) (u.g.advance 1 u.g)))

/-- R179, R342: exit takes a group with no copy in error into the exit stall. -/
def Sys2Proof.Claims.ExitStalls : Prop :=
  ∀ (s : State) (u : Issuer), s.Ready u 0 .push → ((s.core u.t.core).cq.all fun c => c.g != u.g.id || c.state != .err) = true →
    exec .exit s = .next (s.setGroup { u.g with stat := .exiting, wait := some .exit, wordsIssued := u.g.wordsIssued + 1 })

/-- R343: a wfa that waits ends when its limit has passed, or its core's copy of the line has gone; WFA_WAKE ends it for any cause. -/
def Sys2Proof.Claims.WaitForChangeEnds : Prop :=
  ∀ (k : SReg) (l : BitVec 18) (s : State) (u : Issuer) (a : LineId) (val : BitVec 2048) (deadline : Nat),
    s.Ready u 0 .push → u.g.wait = some (.wfa a val deadline) →
    ((deadline ≤ s.sheetNow u.sheet ∨ s.mem.line? (.l1 u.t.core) a = none) → exec (.wfa k l) s = .next (s.committed u 1 u.g)) ∧
    exec (.wfaWake u.g.id) s = .next (s.committed u 1 u.g)

/-- R24, R171, R173, R179: the last arrival of a tether ends its generation, a release is latched on the running sheets for the groups that were
counted, and a group whose copies have ended leaves its exit stall; a team's last group takes the team with it. -/
def Sys2Proof.Claims.TethersAndExits : Prop :=
  ∀ (tid team n : Nat) (x : Team) (r : GroupRef) (g : Group) (k : Task) (s : State),
    (n < 64 → s.team? tid team = some x → s.tethDue x n = true → s.sheetRuns (dieSheet x.core.die) = true → s.sheetRuns 0 = true →
      (s.mgmt.map fun e => e.1).Pairwise (· < ·) →
      ∃ t : State, exec (.tetherArrival tid team n) s = .next t ∧ t.groups = s.groups ∧
        (s.tethArrived n + 1 < s.tethCount n → t.tethArrived n = s.tethArrived n + 1 ∧ t.tethGen n = s.tethGen n) ∧
        (s.tethCount n ≤ s.tethArrived n + 1 → t.tethArrived n = 0 ∧ t.tethGen n = (s.tethGen n + 1) % 2 ^ 16)) ∧
    (let lands (y : Team) : Bool := y.tethEnded.getLsbD n && s.sheetRuns (dieSheet y.core.die)
     let b : W64 := BitVec.ofNat 64 (2 ^ n)
     n < 64 → s.teams.any lands = true → exec (.tetherRelease n) s = .next { s with
      groups := s.groups.map fun h => match s.team? h.id.tid h.id.team with
        | some y => if lands y && h.tethArr.getLsbD n then { h with tethArr := h.tethArr &&& ~~~b, tethLatched := h.tethLatched ||| b } else h
        | none => h
      teams := s.teams.map fun y => if lands y then
        { y with tethEnded := y.tethEnded &&& ~~~b, tethCounted := y.tethCounted &&& ~~~b, tethLatched := y.tethLatched ||| b } else y }) ∧
    (s.group? r = some g → s.team? r.tid r.team = some x → s.task? r.tid = some k → g.stat = .exiting → s.siteRuns (.die x.core.die) = true →
      (∀ c ∈ (s.core x.core).cq, c.g = r → c.state = .done) →
      let others := s.groups.filter fun h => h.id.tid == r.tid && h.id.team == r.team && h.stat != .exited
      (1 < others.length → (∀ h ∈ s.groups, h.id = r → h.stat = .exiting) →
        ∃ t : State, exec (.exitComplete r) s = .next t ∧ ∀ h ∈ t.groups, h.id = r → h.stat = .exited) ∧
      (others.length = 1 → (∀ o ∈ (s.core x.core).mq, o.g.tid = r.tid → o.g.team ≠ r.team) → s.multicastTo x k = false →
        ∃ t : State, exec (.exitComplete r) s = .next t ∧ (∀ h ∈ t.groups, h.id.tid = r.tid → h.id.team ≠ r.team) ∧
          ∀ y ∈ t.teams, y.tid = r.tid → y.team ≠ r.team))

/-- exit enters its stall, a group leaves it when its copies have ended and the last group takes its team; wfa ends by its limit or a change; tether
generations end and are latched. -/
def Obligations.WaitsAndExits : Prop :=
  Claims.ExitStalls ∧ Claims.WaitForChangeEnds ∧ Claims.TethersAndExits

/-- R344, R345, R348: reading system registers, the topology, time and counters; PRIV at user level. -/
def Sys2Proof.Claims.SystemReads : Prop :=
  ∀ (n : SReg) (id : BitVec 12) (c : Code) (s : State) (u : Issuer), s.Ready u 0 (.s n) →
    let put (x : Nat) : Out := .next (s.committed u 1 { u.g with s := u.g.s.set n (BitVec.ofNat 64 x) })
    (okRdsys (.s n) id = true → id.toNat < 0x40 ∨ u.k.asid = 0 → exec (.rdsys (.s n) id) s = put (u.sysReg s id.toNat)) ∧
    (okRdsys (.s n) id = true → 0x40 ≤ id.toNat → u.k.asid ≠ 0 → exec (.rdsys (.s n) id) s = .next (s.takeFault u 0x04 0 0)) ∧
    (okTopo (.s n) c = true → exec (.topo (.s n) c) s = put (u.topoVal s c.val)) ∧
    exec (.tnow (.s n) 0) s = put (s.sheetNow u.sheet) ∧
    (∀ x xs, 0x10 ≤ c.val → c.val < 0x14 → u.g.stall.result = some (x :: xs) → exec (.tnow (.s n) c) s = put x) ∧
    (c.val < 8 → exec (.pmrd (.s n) c) s = put (u.counter s c.val))

/-- R163, R177, R345: wrsys writes FLAGS, the ACTIVE bit of TRCODE, or TREXM, and nothing else. -/
def Sys2Proof.Claims.SystemWrites : Prop :=
  ∀ (a : Src) (s : State) (u : Issuer), a.isUni = true → s.Ready u 0 .push →
    let x := u.g.scalar a
    let put (g : Group) : Out := .next (s.committed u (1 + a.nlit) g)
    exec (.wrsys a 0x10) s = put { u.g with flags := ⟨x.getLsbD 0, x.getLsbD 1, x.getLsbD 2, x.getLsbD 3⟩ } ∧
    exec (.wrsys a 0x12) s = put { u.g with trap := { u.g.trap with active := x.getLsbD 31 } } ∧
    exec (.wrsys a 0x17) s = put { u.g with trap := { u.g.trap with exm := x } }

/-- R129, R344, R349: fltack at privileged level ends every park under its FID; at user level it raises PRIV. -/
def Sys2Proof.Claims.FaultAcknowledgement : Prop :=
  ∀ (a : Src) (c : Code) (s : State) (u : Issuer), a.isUni = true → c.val < 2 → s.Ready u 0 .push →
    let fid := (u.g.scalar a).toNat % 2 ^ 32
    fid ≠ 0 →
    (u.k.asid ≠ 0 → exec (.fltack a c) s = .next (s.takeFault u 0x04 0 0)) ∧
    (u.k.asid = 0 → (s.sched.saved.all fun x => !x.fids.contains fid) = true → (s.sched.savedMills.all fun x => x.fid != fid) = true →
      ∃ t : State, exec (.fltack a c) s = .next t ∧ (∀ g ∈ t.groups, g.stat ≠ .parked fid) ∧ ∀ k ∈ t.cores, ∀ q ∈ k.cq, q.state ≠ .parked fid)

/-- R350: xlinv at privileged level removes the range's TLB entries; with no copy of data on a die and nothing in flight it completes with
that and the removal of the range's instruction lines. A length of 0 acts on nothing. At user level it raises PRIV. -/
def Sys2Proof.Claims.TranslationRemoval : Prop :=
  ∀ (a b c : Src) (s : State) (u : Issuer), a.isUni = true → b.isUni = true → c.isUni = true → s.Ready u 0 .push →
    let start := (u.g.scalar a).toNat
    let len := (u.g.scalar b).toNat
    let asid := (u.g.scalar c).toNat % 2 ^ 16
    let lo := start / 65536
    let hi := (start + len - 1) / 65536
    let n := 1 + a.nlit + b.nlit + c.nlit
    (u.k.asid ≠ 0 → exec (.xlinv a b c) s = .next (s.takeFault u 0x04 0 0)) ∧
    (u.k.asid = 0 → len = 0 → exec (.xlinv a b c) s = .next (s.committed u n u.g)) ∧
    (u.k.asid = 0 → 0 < len → start + len ≤ 2 ^ 56 → s.mem.net = [] → s.mem.txns = [] → s.mem.promos = [] →
      (s.groups.all fun g => g.stall.pinned.isEmpty) = true →
      (s.mem.lines.all fun l => nodeDepth l.node == 4 || !lineIn asid lo hi l.a) = true →
      exec (.xlinv a b c) s = .next (State.setGroup
        { s with
          mem := { s.mem with tlb := s.mem.tlb.filter fun t =>
            !(t.asid == asid && decide (t.page ≤ hi % 2 ^ 41) && decide (lo % 2 ^ 41 < t.page + t.pages)) }
          cores := s.cores.map fun k => { k with icache := k.icache.filter fun l => !lineIn asid lo hi ⟨l.asid, l.line / 4⟩ } }
        (u.g.advance n u.g)))

/-- rdsys, topo, tnow and pmrd read what they name; wrsys writes only its fields; fltack and xlinv act at privileged level and raise PRIV at user
level. -/
def Obligations.SystemWords : Prop :=
  Claims.SystemReads ∧ Claims.SystemWrites ∧ Claims.FaultAcknowledgement ∧ Claims.TranslationRemoval

/-- R206, R348, R351: dbgmk is counted, and asks for a freeze exactly when a debug grant is in force and it meets the marker. -/
def Obligations.DebugMarker : Prop :=
  ∀ (a : Src) (s : State) (u : Issuer), a.isUni = true → s.Ready u 0 .push →
    let g := { u.g with dbgmks := u.g.dbgmks + 1 }
    (s.boot.granted = true ∧ s.boot.marker = some (u.g.scalar a) →
      exec (.dbgmk a) s = .next ({ s with boot := { s.boot with freezing := true } }.setGroup (u.g.advance (1 + a.nlit) g))) ∧
    (¬(s.boot.granted = true ∧ s.boot.marker = some (u.g.scalar a)) → exec (.dbgmk a) s = .next (s.committed u (1 + a.nlit) g))

/-- R112, R138, R139, R313: a fence waits for its release, and goes on to its acquire; at .cr, with nothing owed, it completes at once. -/
def Sys2Proof.Claims.FencesComplete : Prop :=
  ∀ (scope : Fin 8) (order : Fin 4) (s : State) (u : Issuer), okFence scope order = true → s.Ready u 0 .push →
    let relDone := u.g.fence = some ⟨.released, scope.val⟩
    let acquiring := Host.Outcome.next ((s.sendDrain u.g.id u.t.core true scope.val).setGroup
      { u.g.advance 1 u.g with fence := some ⟨.acquire, scope.val⟩ })
    (scope.val = 0 → s.owesWrites u.g.id = false → u.g.fence = none → exec (.fence scope order) s = .next (s.committed u 1 u.g)) ∧
    (scope.val ≠ 0 → order.val = 1 → exec (.fence scope order) s = acquiring) ∧
    (order.val = 2 → relDone → exec (.fence scope order) s = .next (s.committed u 1 u.g)) ∧
    (scope.val ≠ 0 → order.val = 3 → relDone → exec (.fence scope order) s = acquiring) ∧
    (scope.val ≠ 0 → order.val ≠ 1 → u.g.fence = none → exec (.fence scope order) s =
      .next ((s.sendDrain u.g.id u.t.core false scope.val).setGroup
        { u.g with fence := some ⟨.release, scope.val⟩, wait := some .mem }))

/-- R112, R138, R139: a release or an acquire climbs from the L1 to the level of its scope and is acknowledged there; a release first
registers the W lines of each level below its scope; beyond the L2 it goes to the slices and homes of its drain set. The acknowledgement ends
it, and an acquire at .di or wider then removes the core's deckled L1 lines. A host answers a Back-Invalidate. -/
def Sys2Proof.Claims.DrainsAreAcknowledged : Prop :=
  ∀ (j scope port : Nat) (m : Msg) (r : GroupRef) (g : Group) (c : CoreId) (acq : Bool) (n : Node) (s t : State),
    (s.takeMsg j = some (m, t) → t.coreOf r = some c → m.body = .drain r n acq scope none →
      let todo := t.toRegister n c.die none
      let can := todo.filter fun l => t.canRegister l.node l.a
      let ack (x : State) : Prop := exec (.drain j) s = .next (x.respond m .rsp (.drainAck r))
      let within (n' : Node) : Prop := exec (.drain j) s = .next (t.passOn m m.dst (.drain r n' acq scope none))
      (acq = false → nodeDepth n < scope → can ≠ [] → exec (.drain j) s = .next ((can.foldl (fun x l => x.register l.node l.a) t).putBack j m)) ∧
      (t.invOut c n = false → acq = true ∨ scope ≤ nodeDepth n ∨ todo = [] → m.dst = .die c.die →
        (n = .l1 c → (scope = 0 → ack t) ∧ (1 ≤ scope → within (.hub c.die c.cluster))) ∧
        (n = .hub c.die c.cluster → (scope = 1 → ack t) ∧ (2 ≤ scope → within (.l2 c.die))) ∧
        (n = .l2 c.die → (scope = 2 → ack t) ∧
          ((∀ x, t.drains c acq none x = false) → (3 ≤ scope → scope < 5 ∨ acq = true → ack t) ∧ (scope = 5 → acq = false → ack (t.flushHost c.die))) ∧
          (∀ k, 3 ≤ scope → k ∈ sheetTowers (dieSheet c.die) → (∀ x, t.drains c acq none (.slice x) = true ↔ x = k) →
            exec (.drain j) s = .next (t.request .fwd m.dst (.tower k) (.drain r (.slice k) acq scope none)))))) ∧
    (∀ u, s.takeMsg j = some (m, t) → m.body = .drainAck r → t.group? r = some g → t.coreOf r = some c → t.accept m = (true, u) →
      (g.fence = some ⟨.release, scope⟩ → t.owesPath r scope = false → (scope = 5 → t.mem.backInv = []) →
        exec (.drainack j) s = .next (u.setGroup { g with fence := some ⟨.released, scope⟩ })) ∧
      (g.fence = some ⟨.acquire, scope⟩ → t.invToward c scope = false → (scope = 5 → t.mem.backInv = []) →
        exec (.drainack j) s = .next (let w := u.setGroup { g with fence := none }
          let w := if 2 ≤ scope then w.mapMem fun x => { x with lines := x.lines.filter fun l => !(l.node == .l1 c && l.attr.dk) } else w
          if scope = 5 then w.dropHost c.die else w))) ∧
    (s.mem.backInv.contains port = true → exec (.backInvalidateResponse port) s =
      .next (s.mapMem fun x => { x with backInv := x.backInv.erase port }))

/-- A fence releases, then acquires, at its scope; a drain climbs to the level of its scope and is acknowledged, and an acquire then drops the deckled
L1 lines. -/
def Obligations.FencesAndDrains : Prop :=
  Claims.FencesComplete ∧ Claims.DrainsAreAcknowledged

/-- R303, R305, R98 to R100: a vector load from an SRAM space whose lanes raise no code commits what each enabled lane reads. -/
def Sys2Proof.Claims.SramLoadsComplete : Prop :=
  let rows : List ((Dst → Src → Src → MemMods → Instr) × Space × Nat × Bool) :=
    [(.ldsB8, .sp, 1, false), (.ldsS8, .sp, 1, true), (.ldsB16, .sp, 2, false), (.ldsS16, .sp, 2, true), (.ldsB32, .sp, 4, false),
     (.ldsB64, .sp, 8, false), (.ldsB128, .sp, 16, false),
     (.ldcB8, .cw, 1, false), (.ldcS8, .cw, 1, true), (.ldcB16, .cw, 2, false), (.ldcS16, .cw, 2, true), (.ldcB32, .cw, 4, false),
     (.ldcB64, .cw, 8, false), (.ldcB128, .cw, 16, false),
     (.lddB8, .ds, 1, false), (.lddS8, .ds, 1, true), (.lddB16, .ds, 2, false), (.lddS16, .ds, 2, true), (.lddB32, .ds, 4, false),
     (.lddB64, .ds, 8, false), (.lddB128, .ds, 16, false),
     (.ldpB8, .priv, 1, false), (.ldpS8, .priv, 1, true), (.ldpB16, .priv, 2, false), (.ldpS16, .priv, 2, true),
     (.ldpB32, .priv, 4, false), (.ldpB64, .priv, 8, false), (.ldpB128, .priv, 16, false)]
  ∀ r ∈ rows, ∀ (d : Dst) (base off : Src) (m : MemMods) (s : State) (u : Issuer),
    (r.1 d base off m).wf = true → s.Ready u (max (d.vtop (max 1 (r.2.2.1 / 4))) (max (base.vtop 1) (off.vtop 1))) .push →
    (r.2.1 = .cw → u.windowLocal = true) → u.sramCodes s r.2.1 (u.addrs false base off) r.2.2.1 true false = [] →
    let n := 1 + base.nlit + off.nlit
    let g := u.g.pushWords u.w d (max 1 (r.2.2.1 / 4)) fun i =>
      extend r.2.2.1 r.2.2.2 (u.readSram s r.2.1 i (u.g.addrPart base i + u.g.addrPart off i).toNat r.2.2.1)
    (m.order.val = 0 ∨ m.scope.val = 0 → exec (r.1 d base off m) s = .next (s.committed u n g)) ∧
    (m.order.val = 1 → m.scope.val ≠ 0 → exec (r.1 d base off m) s = .next ((s.sendDrain u.g.id u.t.core true m.scope.val).setGroup
      { u.g.advance n g with fence := some ⟨.acquire, m.scope.val⟩ }))

/-- R102, R174, R303, R305: a load from global memory whose lines are in the core's L1, and whose lanes raise no code, takes those lines
and commits what each enabled lane reads there. -/
def Sys2Proof.Claims.GlobalLoadsComplete : Prop :=
  let rows : List ((Dst → Src → Src → MemMods → Instr) × Nat × Bool) :=
    [(.ldB8, 1, false), (.ldS8, 1, true), (.ldB16, 2, false), (.ldS16, 2, true), (.ldB32, 4, false), (.ldB64, 8, false), (.ldB128, 16, false)]
  ∀ r ∈ rows, ∀ (d : Dst) (base off : Src) (m : MemMods) (s : State) (u : Issuer),
    (r.1 d base off m).wf = true → s.Ready u (max (d.vtop (max 1 (r.2.1 / 4))) (max (base.vtop 1) (off.vtop 1))) .push →
    u.gate s (u.addrs false base off) r.2.1 .read false = none →
    let n := 1 + base.nlit + off.nlit
    let t := (u.touchAll s ((u.addrs false base off).map fun a => vaOf a.2)).trimL1 u.t.core
    let g := u.g.pushWords u.w d (max 1 (r.2.1 / 4)) fun i =>
      extend r.2.1 r.2.2 (u.readL1 (u.touchAll s ((u.addrs false base off).map fun a => vaOf a.2))
        (vaOf (u.g.addrPart base i + u.g.addrPart off i)) r.2.1)
    (m.order.val = 0 ∨ m.scope.val = 0 → exec (r.1 d base off m) s = .next (t.setGroup (u.g.advance n g))) ∧
    (m.order.val = 1 → m.scope.val ≠ 0 → exec (r.1 d base off m) s = .next ((t.sendDrain u.g.id u.t.core true m.scope.val).setGroup
      { u.g.advance n g with fence := some ⟨.acquire, m.scope.val⟩ }))

/-- Every load form commits what each enabled lane reads, in an SRAM space or in the L1, extended as its word says, and acquires when its order is 01.
-/
def Obligations.LoadsComplete : Prop :=
  Claims.SramLoadsComplete ∧ Claims.GlobalLoadsComplete

/-- R96, R97, R100, R198: no lane of an SRAM access raises a code when every lane is aligned, lies in its space, may touch the die
scratchpad, and reads no bad word. -/
def Sys2Proof.Claims.SramAccessAllowed : Prop :=
  ∀ (s : State) (u : Issuer) (space : Space) (addrs : List LaneAddr) (bytes : Nat) (reads writes : Bool), 0 < bytes →
    u.sramCodes s space addrs bytes reads writes = [] ↔
      ∀ a ∈ addrs, a.2 % (bytes : Int) = 0 ∧ ((u.range space).1 : Int) ≤ a.2 ∧ a.2 + bytes ≤ ((u.range space).2 : Int) ∧
        (space = .ds → u.dieAllowed s a.2.toNat writes = true) ∧ (reads = true → u.badWord s space a.2.toNat bytes = none)

/-- R97, R110, R121: a word may read its global lines at once when every lane is canonical and aligned, its line is here, and the
line's attributes and the task's deckles allow the read. -/
def Sys2Proof.Claims.GlobalReadAllowed : Prop :=
  ∀ (s : State) (u : Issuer) (addrs : List LaneAddr) (bytes : Nat), u.g.stall.faults = [] →
    (∀ a ∈ addrs, a.2 % (bytes : Int) = 0 ∧ -(2 ^ 56) ≤ a.2 ∧ a.2 < 2 ^ 56 ∧ u.ready s (vaOf a.2 / 256) = true ∧
      ∃ l, u.l1 s (vaOf a.2 / 256) = some l ∧ l.attr.refuses .read u.priv = none ∧
        (l.attr.dk = true → u.k.declares (vaOf a.2) bytes true false = true)) →
    u.gate s addrs bytes .read false = none

/-- No lane raises a code when every lane is aligned, in its space, permitted and reads no bad word; a global read may go at once when its lines are
here and allow it. -/
def Obligations.AccessesAllowed : Prop :=
  Claims.SramAccessAllowed ∧ Claims.GlobalReadAllowed

/-- R306, R307, R98 to R100: a store to an SRAM space whose lanes raise no code writes each enabled lane's bytes, in ascending order. -/
def Sys2Proof.Claims.SramStoresComplete : Prop :=
  let rows : List ((Src → Src → Src → MemMods → Instr) × Space × Nat) :=
    [(.stsB8, .sp, 1), (.stsB16, .sp, 2), (.stsB32, .sp, 4), (.stsB64, .sp, 8), (.stsB128, .sp, 16),
     (.stcB8, .cw, 1), (.stcB16, .cw, 2), (.stcB32, .cw, 4), (.stcB64, .cw, 8), (.stcB128, .cw, 16),
     (.stdB8, .ds, 1), (.stdB16, .ds, 2), (.stdB32, .ds, 4), (.stdB64, .ds, 8), (.stdB128, .ds, 16),
     (.stpB8, .priv, 1), (.stpB16, .priv, 2), (.stpB32, .priv, 4), (.stpB64, .priv, 8), (.stpB128, .priv, 16)]
  ∀ (x base off : Src) (m : MemMods) (s : State) (u : Issuer), (m.order.val = 1 → u.release s m.scope.val = none) →
    let n := 1 + base.nlit + off.nlit + x.nlit
    let done (space : Space) (xs : List LaneStore) : Out := .next ((xs.foldl (fun s e => u.writeSram s space e) s).setGroup (u.g.advance n u.g))
    (∀ r ∈ rows, (r.1 x base off m).wf = true → s.Ready u (max (x.vtop (max 1 (r.2.2 / 4))) (max (base.vtop 1) (off.vtop 1))) .push →
      (r.2.1 = .cw → u.windowLocal = true) → u.sramCodes s r.2.1 (u.addrs false base off) r.2.2 false true = [] →
      exec (r.1 x base off m) s = done r.2.1 (u.stores x base off r.2.2 false)) ∧
    ((Instr.stsN4 x base off m).wf = true → s.Ready u (max (x.vtop 1) (max (base.vtop 1) (off.vtop 1))) .push →
      u.sramCodes s .sp (u.nibAddrs base off) 1 false true = [] → exec (.stsN4 x base off m) s = done .sp (u.nibStores x base off))

/-- R102, R110, R138, R306, R307: a store to global memory whose lines are in the core's L1 takes those lines and writes them there; a
release store at .sy then flushes its die's host lines. -/
def Sys2Proof.Claims.GlobalStoresComplete : Prop :=
  let rows : List ((Src → Src → Src → MemMods → Instr) × Nat) := [(.stB8, 1), (.stB16, 2), (.stB32, 4), (.stB64, 8), (.stB128, 16)]
  ∀ (x base off : Src) (m : MemMods) (s : State) (u : Issuer), (m.order.val = 1 → u.release s m.scope.val = none) →
    let n := 1 + base.nlit + off.nlit + x.nlit
    let up (xs : List LaneStore) : Prop := m.order.val = 1 → u.registerUp s (xs.map fun e => vaOf e.addr) m.scope.val = none
    let done (xs : List LaneStore) : Out :=
      let t := u.inL1 s (xs.map fun e => vaOf e.addr) fun s => xs.foldl (fun s e => u.storeL1 s e) s
      .next ((if m.order.val = 1 ∧ m.scope.val = 5 then t.flushHost u.die else t).setGroup (u.g.advance n u.g))
    (∀ r ∈ rows, (r.1 x base off m).wf = true → s.Ready u (max (x.vtop (max 1 (r.2 / 4))) (max (base.vtop 1) (off.vtop 1))) .push →
      u.gate s (u.addrs false base off) r.2 .write true = none → up (u.stores x base off r.2 false) →
      exec (r.1 x base off m) s = done (u.stores x base off r.2 false)) ∧
    ((Instr.stN4 x base off m).wf = true → s.Ready u (max (x.vtop 1) (max (base.vtop 1) (off.vtop 1))) .push →
      u.gate s (u.nibAddrs base off) 1 .write true = none → up (u.nibStores x base off) →
      exec (.stN4 x base off m) s = done (u.nibStores x base off))

/-- Every store form writes the bytes of each enabled lane, in ascending lane order, at the address of that lane; nothing else changes but the PC. -/
def Obligations.StoresComplete : Prop :=
  Claims.SramStoresComplete ∧ Claims.GlobalStoresComplete

/-- R306: the bytes of a team's scratchpad after a whole-byte store there: the highest enabled lane that stores to a byte gives it, and
every other byte reads as before. -/
def Sys2Proof.Claims.ScratchpadStoreBytes : Prop :=
  ∀ (x base off : Src) (k : Fin 5) (s : State) (u : Issuer), s.team? u.t.tid u.t.team = some u.t →
    let bytes := 2 ^ k.val
    let a (i : Nat) : Nat := (u.g.addrPart base i + u.g.addrPart off i).toNat
    let on (i : Nat) : Prop := i < u.w ∧ u.g.exm.getLsbD i = true
    (∀ i, on i → 0 ≤ u.g.addrPart base i + u.g.addrPart off i) →
    let t := (u.stores x base off bytes false).foldl (fun s e => u.writeSram s .sp e) s
    t = { s with teams := t.teams } ∧
    ∃ u', t.team? u.t.tid u.t.team = some u' ∧ u'.epoch = u.t.epoch ∧
      (∀ p, (∀ i, on i → p < a i ∨ a i + bytes ≤ p) → undefRead u'.sp u'.epoch p = undefRead u.t.sp u.t.epoch p) ∧
      (∀ i j, on i → j < bytes → (∀ i', on i' → i < i' → a i + j < a i' ∨ a i' + bytes ≤ a i + j) →
        undefRead u'.sp u'.epoch (a i + j) = BitVec.ofNat 8 (u.storeData x bytes i false / 2 ^ (8 * j)))

/-- R102, R110, R113, R306: what one lane's store leaves in the bytes it writes (the reserved bits of the home region table excepted, which stay
0), and that every other byte of global memory, of the window, of the
die scratchpad and of the lane-private memories reads as before. -/
def Sys2Proof.Claims.StoresTouchOnlyTheirBytes : Prop :=
  ∀ (s : State) (u : Issuer) (e : LaneStore), s.Canonical → e.mask = 2 ^ (8 * e.bytes) - 1 → e.val < 2 ^ (8 * e.bytes) →
    let at' := vaOf e.addr
    let a := e.addr.toNat
    let cw := (u.t.cwDie * 32 + u.t.cwCluster) * 2 ^ 21 + a
    let ds := u.t.core.die * 2 ^ 24 + a
    let outside (b p : Nat) : Prop := p < b ∨ b + e.bytes ≤ p
    let g := u.storeL1 s e
    let w := u.writeSram s .cw e
    let d := u.writeSram s .ds e
    let p := u.writeSram s .priv e
    (at' % 256 + e.bytes ≤ 256 → (∀ v, outside at' v → u.readL1 g v 1 = u.readL1 s v 1) ∧
      ((u.l1 s (at' / 256)).isSome = true → u.readL1 g at' e.bytes = e.val)) ∧
    ((∀ v, outside cw v → w.mem.window.byte v = s.mem.window.byte v) ∧ w.mem.window.nat cw e.bytes = e.val ∧ w.mem.dieSp = s.mem.dieSp ∧
      w.mem.dram = s.mem.dram ∧ w.mem.lines = s.mem.lines ∧ w.teams = s.teams ∧ w.groups = s.groups) ∧
    ((∀ v, outside ds v → d.mem.dieSp.byte v = s.mem.dieSp.byte v) ∧ (a < 0xF11000 → ∀ j, j < e.bytes →
      d.mem.dieSp.byte (ds + j) = BitVec.ofNat 8 (e.val / 2 ^ (8 * j)) &&& (if 0xF00000 ≤ a + j ∧ a + j < 0xF10000 then
        BitVec.ofNat 8 (maskHome / 2 ^ (8 * ((a + j) % 16))) else BitVec.allOnes 8)) ∧
      (0xF11000 ≤ a → d = s) ∧ d.mem.window = s.mem.window ∧ d.mem.dram = s.mem.dram ∧ d.mem.lines = s.mem.lines ∧ d.teams = s.teams) ∧
    (p.mem = s.mem ∧ p.groups = s.groups ∧ ∀ t x, s.team? u.t.tid u.t.team = some t → p.team? u.t.tid u.t.team = some x →
      x.sp = t.sp ∧ x.tiles = t.tiles ∧ ∀ v, (∀ j, j < e.bytes → v ≠ u.privOff e.lane (a + j)) →
        (x.priv.find? fun c => c.1 == v) = t.priv.find? fun c => c.1 == v)

/-- The bytes stored hold the stored value, the highest lane winning, and every byte outside them reads as before, in every space. -/
def Obligations.StoredBytes : Prop :=
  Claims.ScratchpadStoreBytes ∧ Claims.StoresTouchOnlyTheirBytes

/-- R102, R138, R308: scalar loads and stores, executed once for the group whatever EXM holds. -/
def Obligations.ScalarMemoryComplete : Prop :=
  ∀ (k : SReg) (x base off : Src) (m : MemMods) (s : State) (u : Issuer), m.ok = true →
    x.isUni = true → base.isUni = true → off.isUni = true → s.Ready u 0 (.s k) → (m.order.val = 1 → u.release s m.scope.val = none) →
    let a := u.g.addrPart base 0 + u.g.addrPart off 0
    (m.order.val = 1 → u.registerUp s [vaOf a] m.scope.val = none) →
    let n := 1 + base.nlit + off.nlit
    let t := u.touchAll s [vaOf a]
    let put (s' : State) (v : Nat) : Out := .next (acquireEnd s' u m n { u.g with s := u.g.s.set k (BitVec.ofNat 64 v) })
    let done (t : State) : Out := .next (t.setGroup (u.g.advance (n + x.nlit) u.g))
    let glob (e : LaneStore) : Out :=
      let t := u.inL1 s [vaOf a] fun s => u.storeL1 s e
      done (if m.order.val = 1 ∧ m.scope.val = 5 then t.flushHost u.die else t)
    let st (bytes : Nat) : LaneStore := ⟨0, a, bytes, (u.g.scalar x).toNat % 2 ^ (8 * bytes), 2 ^ (8 * bytes) - 1⟩
    (u.gate s [(0, a)] 4 .read false = none → exec (.sldB32 (.s k) base off m) s = put (t.trimL1 u.t.core) (u.readL1 t (vaOf a) 4)) ∧
    (u.gate s [(0, a)] 8 .read false = none → exec (.sldB64 (.s k) base off m) s = put (t.trimL1 u.t.core) (u.readL1 t (vaOf a) 8)) ∧
    (u.sramCodes s .sp [(0, a)] 8 true false = [] → exec (.sldsB64 (.s k) base off m) s = put s (u.readSram s .sp 0 a.toNat 8)) ∧
    (u.gate s [(0, a)] 4 .write true = none → exec (.sstB32 x base off m) s = glob (st 4)) ∧
    (u.gate s [(0, a)] 8 .write true = none → exec (.sstB64 x base off m) s = glob (st 8)) ∧
    (u.sramCodes s .sp [(0, a)] 8 false true = [] → exec (.sstsB64 x base off m) s = done (u.writeSram s .sp (st 8)))

/-- R145, R309 to R312: an atomic or a reduction below the home is performed lane by lane in the core's L1, or for a deckled line in the
L2, once its lines are registered and no home works on one of them for an agent of its sheet; one at the home commits what the home
answered. -/
def Sys2Proof.Claims.AtomicsComplete : Prop :=
  let atoms : List ((Dst → Src → Src → MemMods → Instr) × AtomOp) :=
    [(.atomAddB32, .addB32), (.atomAddF32, .addF32), (.atomMinS32, .minS32), (.atomMaxS32, .maxS32), (.atomMinZ32, .minZ32),
     (.atomMaxZ32, .maxZ32), (.atomAnd, .and), (.atomOr, .or), (.atomXor, .xor), (.atomXchg, .xchg), (.atomCas, .cas),
     (.atomAddB64, .addB64), (.atomCasB64, .casB64)]
  let scalars : List ((Dst → Src → Src → MemMods → Instr) × AtomOp) := [(.satomAddB64, .addB64), (.satomCasB64, .casB64)]
  ∀ (d : Dst) (base off : Src) (m : MemMods) (s : State) (u : Issuer), (m.order.val = 1 → u.release s m.scope.val = none) →
    let n := 1 + base.nlit + off.nlit
    let near (i : Instr) (op : AtomOp) (sc : Bool) : Prop :=
      let xs := u.atoms op d base off sc
      let held := xs.filter fun e => !u.deckled s e.addr
      m.scope.val < 4 → (m.scope.val = 3 → (xs.all fun e => !u.deckled s e.addr) = true) → u.g.stall.homing = false →
      u.gate s (xs.map fun e => (e.lane, e.addr)) op.bytes .atomic true = none →
      u.registerUp s (held.map fun e => vaOf e.addr) m.scope.val = none →
      (1 ≤ m.scope.val → (held.any fun e => u.homeWorks s ⟨u.k.asid, vaOf e.addr / 256⟩) = false) →
      let r := u.atomNear s op m.scope.val xs
      exec i s = .next (acquireEnd r.2 u m n (u.atomed op d sc r.1))
    let far (i : Instr) (op : AtomOp) (sc : Bool) : Prop :=
      let xs := u.atoms op d base off sc
      ∀ vals, 4 ≤ m.scope.val → (xs.all fun e => decide (e.addr % (op.bytes : Int) = 0) && inGlobal e.addr) = true → xs = [] ∨ u.g.stall.result = some vals → exec i s = .next (acquireEnd s u m n (u.atomed op d sc ((xs.map fun e => e.lane).zip vals)))
    (∀ r ∈ atoms, (r.1 d base off m).wf = true → s.Ready u (max (d.vtop r.2.regs) (max (base.vtop 1) (off.vtop 1))) .push →
      near (r.1 d base off m) r.2 false ∧ far (r.1 d base off m) r.2 false) ∧
    (∀ r ∈ scalars, (r.1 d base off m).wf = true → s.Ready u 0 d →
      near (r.1 d base off m) r.2 true ∧ far (r.1 d base off m) r.2 true)

/-- R309 to R311: an atomic on the core scratchpad is performed lane by lane at its bank. -/
def Sys2Proof.Claims.ScratchpadAtomicsComplete : Prop :=
  let rows : List ((Dst → Src → Src → MemMods → Instr) × AtomOp) :=
    [(.atomsAddB32, .addB32), (.atomsAddF32, .addF32), (.atomsMinS32, .minS32), (.atomsMaxS32, .maxS32), (.atomsMinZ32, .minZ32),
     (.atomsMaxZ32, .maxZ32), (.atomsAnd, .and), (.atomsOr, .or), (.atomsXor, .xor), (.atomsXchg, .xchg), (.atomsCas, .cas),
     (.atomsAddB64, .addB64), (.atomsCasB64, .casB64)]
  ∀ r ∈ rows, ∀ (d : Dst) (base off : Src) (m : MemMods) (s : State) (u : Issuer), (r.1 d base off m).wf = true →
    s.Ready u (max (d.vtop r.2.regs) (max (base.vtop 1) (off.vtop 1))) .push → (m.order.val = 1 → u.release s m.scope.val = none) →
    let op := r.2
    let xs := u.atoms op d base off false
    u.sramCodes s .sp (xs.map fun e => (e.lane, e.addr)) op.bytes true true = [] →
    let out := atomFold op (fun s e => match s.team? u.t.tid u.t.team with
        | some t => { u with t := t }.readSram s .sp e.lane e.addr.toNat op.bytes
        | none => 0)
      (fun s e v => u.writeSram s .sp ⟨e.lane, e.addr, op.bytes, v, ones (8 * op.bytes)⟩) xs s
    exec (r.1 d base off m) s = .next (acquireEnd out.2 u m (1 + base.nlit + off.nlit) (u.atomed op d false out.1))

/-- R145, R197, R312: a reduction returns nothing; below .sh it is performed in the core's L1, or for a deckled line in the L2, and from
.sh up it commits once the home has answered. -/
def Sys2Proof.Claims.ReductionsToMemoryComplete : Prop :=
  let rows : List ((Src → Src → Src → MemMods → Instr) × AtomOp) :=
    [(.redAddB32, .addB32), (.redAddF32, .addF32), (.redMinS32, .minS32), (.redMaxS32, .maxS32), (.redAnd, .and), (.redOr, .or),
     (.redXor, .xor)]
  ∀ r ∈ rows, ∀ (x base off : Src) (m : MemMods) (s : State) (u : Issuer), (r.1 x base off m).wf = true →
    s.Ready u (max (x.vtop 1) (max (base.vtop 1) (off.vtop 1))) .push → (m.order.val = 1 → u.release s m.scope.val = none) →
    let op := r.2
    let xs : List LaneAtom := (u.addrs false base off).map fun a => ⟨a.1, a.2, (u.g.laneSrc x a.1).toNat, 0⟩
    let n := 1 + base.nlit + off.nlit + x.nlit
    let held := xs.filter fun e => !u.deckled s e.addr
    (m.scope.val < 3 → u.g.stall.homing = false → u.gate s (xs.map fun e => (e.lane, e.addr)) 4 .red true = none →
      u.registerUp s (held.map fun e => vaOf e.addr) m.scope.val = none →
      (1 ≤ m.scope.val → (held.any fun e => u.homeWorks s ⟨u.k.asid, vaOf e.addr / 256⟩) = false) →
      exec (r.1 x base off m) s = .next ((u.atomNear s op m.scope.val xs).2.setGroup (u.g.advance n u.g))) ∧
    (∀ vals, 3 ≤ m.scope.val → (xs.all fun e => decide (e.addr % 4 = 0) && inGlobal e.addr) = true → xs = [] ∨ u.g.stall.result = some vals → exec (r.1 x base off m) s = .next (s.committed u n u.g))

/-- Atomics and reductions are performed lane by lane in the core, at the scratchpad, or commit what the home answered. -/
def Obligations.AtomicWords : Prop :=
  Claims.AtomicsComplete ∧ Claims.ScratchpadAtomicsComplete ∧ Claims.ReductionsToMemoryComplete

/-- R314 to R318: prefetch, cwb, cinv and dkflush, with the codes that a bad range or an undeclared deckle raises. -/
def Obligations.CacheMaintenanceCompletes : Prop :=
  ∀ (base off : Src) (scope : Fin 8) (nt : Bool) (s : State) (u : Issuer),
    s.Ready u (max (base.vtop 1) (off.vtop 1)) .push →
    let n := 1 + base.nlit + off.nlit
    let r := rangeOf (u.g.scalar base) (u.g.scalar off)
    let space := Host.Outcome.next (s.takeFault u 0x06 (rangeEdge (u.g.scalar base)) 0)
    let moved (o : Out) : Prop := ∃ t : State, o = .next (t.setGroup (u.g.advance n u.g)) ∧ t.groups = s.groups ∧ t.teams = s.teams
    (okPref base off scope = true → moved (exec (.pref base off scope nt) s)) ∧
    (okCwb base off scope = true → r = none → exec (.cwb base off scope) s = space) ∧
    (okCinv base off = true → u.g.stall.sent = false → r = none → exec (.cinv base off) s = space) ∧
    (∀ p, okCwb base off scope = true → r = some p → u.undeclared (u.inRange s p) p.1 (fun d => d.w) = none →
      moved (exec (.cwb base off scope) s)) ∧
    (okCinv base off = true → u.g.stall.sent = true → s.owesWrites u.g.id = false →
      exec (.cinv base off) s = .next (s.committed u n u.g)) ∧
    (∀ p, okCinv base off = true → u.g.stall.sent = false → r = some p →
      u.undeclared (u.inRange s p) p.1 (fun d => d.r || d.w) = none → u.fillsIn s p = false →
      let t := ((u.inRange s p).filter fun l => l.attr.dk && nodeDepth l.node == 2).foldl
        (fun s l => s.flushDie u.die l.a l.attr.home (.group u.g.id)) s
      (t.owesWrites u.g.id = false → exec (.cinv base off) s = .next (t.setGroup (u.g.advance n u.g))) ∧
      (t.owesWrites u.g.id = true → exec (.cinv base off) s = .next (t.setGroup
        { u.g with wait := some .mem, stall := { u.g.stall with sent := true } }))) ∧
    (base.isUni = true → u.k.deckles[(u.g.scalar base).toNat]? = none → exec (.dkflush base) s = .next (s.takeFault u 0x0A 0 0)) ∧
    (∀ d, base.isUni = true → u.k.deckles[(u.g.scalar base).toNat]? = some d → d.w = true →
      let todo := s.dirtyLines u.k.asid u.die (if u.g.cursor = 0 then d.base else u.g.cursor) (d.base + d.extent)
      (todo = [] → s.owesWrites u.g.id = false → exec (.dkflush base) s = .next (s.committed u (1 + base.nlit) { u.g with cursor := 0 })) ∧
      (∀ l rest, todo = l :: rest → exec (.dkflush base) s = .next ((u.cleanLine s l).setGroup
        { u.g with wait := some .dkflush, cursor := (l.a.line + 1) * 256 })))

/-- R321, R322: each copy word. With no rows it completes at once, showing DONE; otherwise, once the checks of R321 have passed and the
destination's lines are taken, the copy enters its core's queue and its status scalar becomes 0. -/
def Obligations.CopiesEnterTheQueue : Prop :=
  ∀ (st desc : SReg) (sp dp vs md : Fin 8) (s : State) (u : Issuer), s.Ready u 0 .push →
    let rows : List (Instr × CopyOp × Nat × Nat × Nat) :=
      [(.cpy st desc sp dp vs, .cpy, sp.val, dp.val, 0), (.cpy2 st desc sp vs, .cpy2, sp.val, 1, 0), (.cpyg st desc sp dp vs, .cpyg, sp.val, dp.val, 0),
       (.cpys st desc sp dp vs, .cpys, sp.val, dp.val, 0), (.cpym st desc sp vs, .cpym, sp.val, 1, 0),
       (.cpyr st desc sp dp vs md, .cpyr, sp.val, dp.val, md.val), (.cpyf st desc dp vs, .cpyf, 0, dp.val, 0),
       (.mred st desc sp vs md, .mred, sp.val, 0, md.val)]
    let at' := u.g.s[desc].toNat
    let lo := u.t.spbase
    let hi := u.t.spbase + u.k.launch.spSize
    let queue := (s.core u.t.core).cq
    queue.length < 16 → (queue.all fun c => !(c.g == u.g.id && c.st == st && c.pending)) = true →
    ∀ r ∈ rows, r.1.wf = true →
      (at' % 32 ≠ 0 → exec r.1 s = .next (s.takeFault u 0x05 u.g.s[desc] 0)) ∧
      (at' % 32 = 0 → (at' < lo ∨ hi < at' + 32) → exec r.1 s = .next (s.takeFault u 0x06 u.g.s[desc] 0)) ∧
      (at' % 32 = 0 → lo ≤ at' → at' + 32 ≤ hi → u.badWord s .sp at' 32 = none →
        let c : Copy := ⟨u.g.id, r.2.1, st, r.2.2.1, r.2.2.2.1, vs.val, r.2.2.2.2,
          r.2.1.code * 2 ^ 24 + (0x28 + st.val) * 2 ^ 18 + (0x28 + desc.val) * 2 ^ 12 + r.2.2.1 * 2 ^ 9 + r.2.2.2.1 * 2 ^ 6 + vs.val * 2 ^ 3 + r.2.2.2.2,
          u.spBytes at' 32, [], .queued, 0, 0, 0, false⟩
        (c.descr.rows = 0 ∨ c.descr.rowb = 0 →
          exec r.1 s = .next (s.committed u 1 { u.g with s := u.g.s.set st 0x80000000 })) ∧
        (∀ s1 s2, c.descr.rows ≠ 0 → c.descr.rowb ≠ 0 → c.badFields = false →
          (∀ a, c.listAt = some a → a % 4 = 0 ∧ lo ≤ a ∧ a + 4 * c.descr.rows ≤ hi ∧ (c.op = .cpys → u.badWord s .sp a (4 * c.descr.rows) = none)) →
          let c' := if c.op = .cpys then { c with index := (List.range c.descr.rows).map fun i => leNat (u.spBytes (c.descr.dstr + 4 * i) 4) } else c
          u.boundCodes s c' = [] → u.rowsStall s c' = false → u.sideCodes s c' = ([], s1) → u.takeLines s1 c' = (true, s2) →
          exec r.1 s = .next ((s2.setCore { s2.core u.t.core with cq := (s2.core u.t.core).cq ++ [c'] }).setGroup
            (u.g.advance 1 { u.g with s := u.g.s.set st 0 }))))

/-- R169, R170, R198, R322: the engine takes the oldest queued copy, and counts a unit of an active copy that has been read and written, what
it finds in the storage it reads having had its effect; the last unit makes it DONE. -/
def Sys2Proof.Claims.CopyEngineRuns : Prop :=
  ∀ (c : CoreId) (k : Nat) (q : Copy) (s : State), (s.core c).cq[k]? = some q → s.siteRuns (.die c.die) = true →
    (q.state = .queued → (∀ e ∈ (s.core c).cq.take k, e.state ≠ .queued) →
      exec (.copyStart c k) s = .next (s.putCopy c k { q with state := .active })) ∧
    (∀ u ecc q' t, q.state = .active → s.copyIssuer q = some u → u.unitStep (s.found ecc (u.copyUnit s q)) q = (q', .ok () t) →
      let d := { q' with units := q'.units + 1, index := if q'.op = .cpyg ∧ (q'.units + 1) % q'.descr.perRow = 0 then [] else q'.index }
      exec (.copyUnitComplete c k ecc) s = .next (t.putCopy c k (if d.units = q'.descr.units then { d with state := .done } else d)))

/-- R168, R330: the oldest operation of a core's matrix queue runs one step on its tile, and leaves the queue when it is complete. -/
def Sys2Proof.Claims.MatrixStepRuns : Prop :=
  ∀ (c : CoreId) (o : MatOp) (rest : List MatOp) (t : Team) (s : State), (s.core c).mq = o :: rest →
    s.team? o.g.tid o.g.team = some t → s.siteRuns (.die c.die) = true → s.matHeld o = false → t.spBad = [] →
    let r := o.run t (t.tiles.getD o.tile [])
    let o' := { o with progress := o.progress + r.2.1 / 1024, zeroed := o.zeroed || o.kind == .mmaz }
    exec (.matrixKStep c .clean) s = .next ((s.setTeam { t with tiles := t.tiles.set o.tile r.1 }).setCore
      { s.core c with mq := if r.2.2 then rest else o' :: rest, macs := (s.core c).macs + r.2.1 })

/-- The copy engine starts the oldest copy and counts its units to DONE; the matrix unit runs the oldest operation step by step. -/
def Obligations.EnginesRun : Prop :=
  Claims.CopyEngineRuns ∧ Claims.MatrixStepRuns

/-- R166, R330, R333, R335: an operation on a tile enters the matrix queue with what it captures at issue, once its checks pass and an
entry is free; a tile at or above NACC raises ILLOPND. -/
def Obligations.MatrixOperationsEnter : Prop :=
  ∀ (t : Fin 16) (ra rb rf : SReg) (ka kb : Bool) (a b : Src) (c : Code) (d : Code) (s : State) (u : Issuer), d.val = t.val →
    a.isSrc = true → b.isUni = true → c.val < 2 → s.Ready u (a.vtop 1) .push →
    let enter (n : Nat) (o : MatOp) : Out := .next
      ((s.setCore { s.core u.t.core with mq := (s.core u.t.core).mq ++ [o] }).setGroup (u.g.advance n u.g))
    let op (k : MatKind) : MatOp := ⟨u.g.id, k, t.val, u.g.batch, 0, false, false, false, 0, 0, [], [], [], 0, [], 0, 0, false⟩
    let at' := u.g.s[rf].toNat
    let fmt := u.t.spBytes at' 16
    let f := FmtBlock.ofBytes fmt
    let mul (k : MatKind) : MatOp := { op k with
      ra := ka, rb := kb, amap := u.g.s[ra], bmap := u.g.s[rb], fmt := fmt
      ascale := if f.acode = 0x10 ∨ f.acode = 0x20 then u.t.spBytes f.ascale 32 else []
      bscale := if f.bcode = 0x10 ∨ f.bcode = 0x20 then u.t.spBytes f.bscale 32 else [] }
    (u.k.launch.nacc ≤ t.val → exec (.mma t ra rb rf ka kb) s = .next (s.takeFault u 0x02 0 0) ∧
      exec (.mmaz t ra rb rf ka kb) s = .next (s.takeFault u 0x02 0 0) ∧ exec (.mzero d) s = .next (s.takeFault u 0x02 0 0)) ∧
    (t.val < u.k.launch.nacc → u.queueFull s t.val = false →
      (u.mmaCodes s (OpMap.ofWord u.g.s[ra]) (OpMap.ofWord u.g.s[rb]) at' = [] →
        exec (.mma t ra rb rf ka kb) s = enter 1 (mul .mma) ∧ exec (.mmaz t ra rb rf ka kb) s = enter 1 (mul .mmaz)) ∧
      exec (.mzero d) s = enter 1 (op .mzero) ∧
      (∀ e : Code, okFill d b e = true → u.mapCodes (OpMap.ofWord (u.g.scalar b)) (convLen e.val) = [] →
        exec (.mfill d b e) s = enter (1 + b.nlit) { op .mfill with amap := u.g.scalar b, c := e.val }) ∧
      exec (.mwrv d a b c) s = enter (1 + a.nlit + b.nlit) { op .mwrv with
        exm := u.g.exm, src := (List.range u.w).map (u.g.laneSrc a), n := (u.g.scalar b).toNat % 2 ^ 32 % 32, dir := c.val == 1 })

/-- R167, R332, R336: batches are closed and waited for, and mprog reads a tile's operations without waiting. -/
def Obligations.MatrixBatches : Prop :=
  ∀ (n : SReg) (a : Src) (t : Code) (s : State) (u : Issuer), a.isUni = true → t.val < 16 → s.Ready u 0 (.s n) →
    let put (x : Nat) (g : Group) : State := s.committed u 1 { g with s := g.s.set n (BitVec.ofNat 64 x) }
    let open' := (s.core u.t.core).mq.filter fun o => o.g == u.g.id && o.batch != u.g.batch
    let mine := (s.core u.t.core).mq.filter fun o => o.g.tid == u.g.id.tid && o.g.team == u.g.id.team && o.tile == t.val
    ((u.outstanding s).length < 15 → exec (.mbatch (.s n)) s =
      .next (put u.g.batch { u.g with batch := if u.g.batch = 2 ^ 32 - 1 then 1 else u.g.batch + 1 })) ∧
    (open' = [] → exec (.mwait a) s = .next (s.committed u (1 + a.nlit) u.g)) ∧
    (u.k.launch.nacc ≤ t.val → exec (.mprog (.s n) t) s = .next (s.takeFault u 0x02 0 0)) ∧
    (t.val < u.k.launch.nacc → exec (.mprog (.s n) t) s = .next (put (match mine with
      | [] => 0
      | o :: _ => 2 ^ 8 + o.progress % 32 + mine.length * 2 ^ 32) u.g))

/-- R333 to R335, R337: a tile with no operation on it is drained to the scratchpad, or read as lanes. -/
def Obligations.TileReadsComplete : Prop :=
  ∀ (t : Code) (d : Dst) (a b : Src) (c : Code) (s : State) (u : Issuer), t.val < u.k.launch.nacc → u.onTile s t.val = [] →
    a.isUni = true → b.isUni = true → d.isVec = true → s.Ready u (d.vtop 1) .push →
    let p := OpMap.ofWord (u.g.scalar a)
    let n := (u.g.scalar b).toNat % 2 ^ 32 % 32
    let at' := (u.g.scalar b).toNat
    let row (r : Nat) : List W32 := (List.range 32).map fun j => if p.ord = 0 then u.t.tileAt t.val r j else u.t.tileAt t.val j r
    let scales := (List.range 32).map fun r => mxScale (mxSetOf c.val) (row r)
    (okDrain t a c = true → u.mapCodes p (convLen c.val) = [] → exec (.mdrain t a c) s =
      .next ((u.drainTo s p ((List.range 32).map fun r => (row r).flatMap (drainBytes c.val)) []).setGroup (u.g.advance (1 + a.nlit) u.g))) ∧
    (okDrainx t a b c = true → u.mapCodes p (if c.val / 16 = 1 then 32 else 16) = [] → u.rangeCodes s at' 32 false = [] →
      exec (.mdrainx t a b c) s = .next ((u.drainTo s p
        ((List.range 32).map fun r => mxBytes (mxSetOf c.val) ((row r).map (mxElement (mxSetOf c.val) (scales.getD r 0))))
        (scales.mapIdx fun j x => (at' + j, BitVec.ofNat 8 x))).setGroup (u.g.advance (1 + a.nlit + b.nlit) u.g))) ∧
    (t.val < 16 → c.val < 2 → exec (.mrdv d t b c) s = .next (s.committed u (1 + b.nlit) (u.g.writeVec u.w d fun i =>
      if c.val = 1 then u.t.tileAt t.val (i % 32) ((n + i / 32) % 32) else u.t.tileAt t.val ((n + i / 32) % 32) (i % 32))))

/-- R353, R359: the register words of a mill; g0 reads 0 and a write to it is discarded. -/
def Sys2Proof.Claims.MillRegisterWords : Prop :=
  let rows : List ((GReg → GReg → GReg → Instr) × (W64 → W64 → W64)) :=
    [(.millAdd, fun x y => x + y), (.millSub, fun x y => x - y), (.millMul, fun x y => x * y),
     (.millMulh, fun x y => BitVec.ofInt 64 (x.toInt * y.toInt / 2 ^ 64)),
     (.millAnd, fun x y => x &&& y), (.millOr, fun x y => x ||| y), (.millXor, fun x y => x ^^^ y),
     (.millShl, fun x y => if y.toNat < 64 then BitVec.ofNat 64 (x.toNat * 2 ^ y.toNat) else 0),
     (.millShr, fun x y => if y.toNat < 64 then BitVec.ofNat 64 (x.toNat / 2 ^ y.toNat) else 0),
     (.millSar, fun x y => if y.toNat < 64 then BitVec.ofInt 64 (x.toInt / 2 ^ y.toNat) else if x.getLsbD 63 = false then 0 else -1),
     (.millSlt, fun x y => if x.toInt < y.toInt then 1 else 0), (.millSltz, fun x y => if x.toNat < y.toNat then 1 else 0),
     (.millMin, fun x y => if x.toInt ≤ y.toInt then x else y), (.millMax, fun x y => if y.toInt ≤ x.toInt then x else y)]
  ∀ r ∈ rows, ∀ (d a b : GReg) (s : State) (u : MillIssuer), s.millIssuer = some u →
    let x : W64 := if a = 0 then 0 else u.m.g[a]
    let y : W64 := if b = 0 then 0 else u.m.g[b]
    exec (r.1 d a b) s = .next (millDone s (putG u.m d (r.2 x y)))

/-- R353, R360: the words with an immediate. -/
def Sys2Proof.Claims.MillImmediateWords : Prop :=
  ∀ (d a : GReg) (imm : BitVec 16) (n : Code) (s : State) (u : MillIssuer), s.millIssuer = some u →
    let x : W64 := if a = 0 then 0 else u.m.g[a]
    let put (v : W64) : Out := .next (millDone s (putG u.m d v))
    exec (.millAddi d a imm) s = put (x + imm.signExtend 64) ∧
    exec (.millAndi d a imm) s = put (x &&& imm.setWidth 64) ∧
    exec (.millOri d a imm) s = put (x ||| imm.setWidth 64) ∧
    exec (.millXori d a imm) s = put (x ^^^ imm.setWidth 64) ∧
    exec (.millShfi d a .shl n) s = put (BitVec.ofNat 64 (x.toNat * 2 ^ n.val)) ∧
    exec (.millShfi d a .shr n) s = put (BitVec.ofNat 64 (x.toNat / 2 ^ n.val)) ∧
    exec (.millShfi d a .sar n) s = put (BitVec.ofInt 64 (x.toInt / 2 ^ n.val)) ∧
    exec (.millLui d imm) s = put (BitVec.ofInt 64 (imm.toInt * 2 ^ 16))

/-- R363: the transfers of a mill, and the ALIGN of a misaligned jr. -/
def Sys2Proof.Claims.MillTransfers : Prop :=
  ∀ (d a b : GReg) (o : BitVec 16) (s : State) (u : MillIssuer), s.millIssuer = some u →
    let x : W64 := if a = 0 then 0 else u.m.g[a]
    let y : W64 := if b = 0 then 0 else u.m.g[b]
    let t := u.m.pc + 4 * o.signExtend 64
    let br (h : Bool) : Out := .next (if h then millGoto s u.m t else millDone s u.m)
    exec (.millBeq a b o) s = br (decide (x = y)) ∧
    exec (.millBne a b o) s = br (decide (x ≠ y)) ∧
    exec (.millBlt a b o) s = br (decide (x.toInt < y.toInt)) ∧
    exec (.millBge a b o) s = br (decide (x.toInt ≥ y.toInt)) ∧
    exec (.millJal d o) s = .next (millGoto s (putG u.m d (u.m.pc + 4)) t) ∧
    (x.toNat % 4 = 0 → exec (.millJr d a) s = .next (millGoto s (putG u.m d (u.m.pc + 4)) x)) ∧
    (x.toNat % 4 ≠ 0 → exec (.millJr d a) s = .next (s.millTrap u 0x05 u.m.pc))

/-- The register, immediate and transfer words of a mill; g0 reads 0 and keeps no write; a misaligned jr raises ALIGN. -/
def Obligations.MillScalarWords : Prop :=
  Claims.MillRegisterWords ∧ Claims.MillImmediateWords ∧ Claims.MillTransfers

/-- R361, R365: mill loads and stores in local memory and the row buffer; ALIGN and SPACE where the address is misaligned or outside. -/
def Sys2Proof.Claims.MillLocalAccesses : Prop :=
  ∀ (d a : GReg) (w : Fin 16) (buf : Bool) (imm : BitVec 16) (s : State) (u : MillIssuer), s.millIssuer = some u → u.m.bad = [] → u.m.inRow = false →
    let x : Int := (if a = 0 then 0 else u.m.g[a] : W64).toInt + imm.toInt
    let y : W64 := if d = 0 then 0 else u.m.g[d]
    let top (b : Bool) : Int := if b then 2048 else u.k.launch.locbytes
    let mem := if buf then u.m.buf else u.m.loc
    let fit (n : Int) (b : Bool) (i : Instr) (t : Mill) : Prop :=
      (x % n ≠ 0 → exec i s = .next (s.millTrap u 0x05 u.m.pc)) ∧
      (x % n = 0 → (x < 0 ∨ top b < x + n) → exec i s = .next (s.millTrap u 0x06 u.m.pc)) ∧
      (x % n = 0 → 0 ≤ x → x + n ≤ top b → exec i s = .next (millDone s t))
    fit 8 false (.millLd64 d a imm) (putG u.m d (BitVec.ofNat 64 (u.m.loc.nat x.toNat 8))) ∧
    fit 4 false (.millLd32 d a imm) (putG u.m d (BitVec.ofNat 64 (u.m.loc.nat x.toNat 4))) ∧
    fit 8 false (.millSt64 d a imm) { u.m with loc := u.m.loc.putNat x.toNat 8 y.toNat } ∧
    fit 4 false (.millSt32 d a imm) { u.m with loc := u.m.loc.putNat x.toNat 4 (y.toNat % 2 ^ 32) } ∧
    fit 64 buf (.millWld w buf a imm) { u.m with
      w := u.m.w.set w ((List.range 16).map fun i => BitVec.ofNat 32 (mem.nat (x.toNat + 4 * i) 4)) } ∧
    fit 64 buf (.millWst w buf a imm) ((List.range 16).foldl (fun m i => m.writeLocal buf (x.toNat + 4 * i) 4 (lane u.m.w[w] i).toNat) u.m)

/-- R364: the vector words of a mill; a lane that its mask leaves out keeps its value, and k0 enables all. -/
def Sys2Proof.Claims.MillVectorWords : Prop :=
  let rows : List ((Fin 16 → Fin 16 → Fin 16 → Fin 4 → Instr) × (W32 → W32 → W32)) :=
    [(.millWaddB32, fun x y => x + y), (.millWsubB32, fun x y => x - y), (.millWmulB32, fun x y => x * y), (.millWfadd, f32Add),
     (.millWfmul, f32Mul), (.millWfmax, f32Max), (.millWfmin, f32Min)]
  ∀ (d a b c : Fin 16) (k kc kd : Fin 4) (cond : Fin 16) (s : State) (u : MillIssuer), s.millIssuer = some u →
    let on (k : Fin 4) (i : Nat) : Bool := if k = 0 then decide (i < 16) else (u.m.k[k] : BitVec 16).getLsbD i
    let x := lane u.m.w[a]
    let y := lane u.m.w[b]
    let put (f : Nat → W32) : Out := .next (millDone s { u.m with
      w := u.m.w.set d ((List.range 16).map fun i => if on k i then f i else lane u.m.w[d] i) })
    (∀ r ∈ rows, exec (r.1 d a b k) s = put (fun i => r.2 (x i) (y i))) ∧
    exec (.millWffma d a b c k) s = put (fun i => f32Fma (x i) (y i) (lane u.m.w[c] i)) ∧
    exec (.millWsel d a b kc k) s = put (fun i => if on kc i then x i else y i) ∧
    exec (.millWbcast d a b k) s = put (fun _ => x b.val) ∧
    exec (.millWredaddF32 d a k) s = .next (millDone s { u.m with w := u.m.w.set d (List.replicate 16
      (treeRed f32Add 4 ((List.range 16).map fun i => if on k i then x i else 0x80000000))) }) ∧
    (kd ≠ 0 → cond.val ≤ 10 → ∃ r : BitVec 16, exec (.millWcmp kd a b k cond) s = .next (millDone s { u.m with k := u.m.k.set kd r }) ∧
      ∀ i, i < 16 → r.getLsbD i = (on k i && wcmpHolds cond.val (x i) (y i)))

/-- Mill loads and stores in local memory and the row buffer with ALIGN and SPACE, and the lane-masked vector words. -/
def Obligations.MillLocalAndVectorWords : Prop :=
  Claims.MillLocalAccesses ∧ Claims.MillVectorWords

/-- R151, R188, R362, R371: ldt, stt and mpark send one request to the home and complete with its answer; a misaligned address traps. -/
def Obligations.MillTowerAccesses : Prop :=
  ∀ (d a : GReg) (imm lim : BitVec 16) (s : State) (u : MillIssuer), s.millIssuer = some u → u.m.inRow = false → u.m.stall.faults = [] →
    let va : Int := (if a = 0 then 0 else u.m.g[a] : W64).toInt + imm.toInt
    let y : W64 := if d = 0 then 0 else u.m.g[d]
    let asked (wr : Option Nat) (h : Nat) : Out := .next
      ((s.request .req (.tower u.m.id.tower) (.tower h) (.millAcc u.m.id u.k.asid u.priv (vaOf va) wr)).setMill
        { u.m with wait := some .mem, stall := { u.m.stall with sent := true } })
    (va % 8 ≠ 0 → exec (.millLdt d a imm) s = .next (s.millTrap u 0x05 u.m.pc) ∧ exec (.millStt d a imm) s = .next (s.millTrap u 0x05 u.m.pc)) ∧
    (va % 8 = 0 → inGlobal va = true →
      (∀ h, u.m.stall.result = none → u.m.stall.sent = false → u.home s (vaOf va) = some h →
        exec (.millLdt d a imm) s = asked none h ∧ exec (.millStt d a imm) s = asked (some y.toNat) h) ∧
      (∀ v vs, u.m.stall.result = some (v :: vs) → exec (.millLdt d a imm) s = .next (millDone s (putG u.m d (BitVec.ofNat 64 v))) ∧
        exec (.millStt d a imm) s = .next (millDone s u.m))) ∧
    (∀ tier tower pa val limit, u.m.wait = some (.mpark tier tower pa val limit) →
      (s.mem.watched.contains (u.m.id, (⟨tier, tower, pa⟩ : Place).watch) = false ∨ s.mem.newest ⟨tier, tower, pa⟩ ≠ val ∨
        limit ≤ s.now (.tower u.m.id.tower)) → exec (.millMpark a lim) s = .next (millDone s u.m))

/-- R354, R370: msync, mhalt, mtrap and the system registers of a mill; a register that does not exist, or is read only, traps. -/
def Sys2Proof.Claims.MillSystemWords : Prop :=
  ∀ (d a : GReg) (imm id : BitVec 16) (k : Fin 4) (s : State) (u : MillIssuer), s.millIssuer = some u →
    let x : W64 := if a = 0 then 0 else u.m.g[a]
    (u.m.inRow = false → exec .millMsync s = .next (millDone s u.m)) ∧
    (u.m.inRow = false → exec .millMhalt s = .next
      (((millDone s { u.m with st := .halt }).mapMem fun y => { y with locks := y.locks.filter fun l => l.holder != u.m.id }).setTask
        { u.k with halted := u.k.halted + 1 })) ∧
    exec (.millMtrap imm) s = .next (s.millTrap u 0x10 u.m.pc) ∧
    (millReadable id = true → exec (.millMrdsr d id) s = .next (millDone s (putG u.m d (BitVec.ofNat 64 (u.sysReg s id.toNat))))) ∧
    (millReadable id = false → exec (.millMrdsr d id) s = .next (s.millTrap u 0x02 u.m.pc)) ∧
    (k ≠ 0 → exec (.millMwrsr a (BitVec.ofNat 16 (0x10 + k.val))) s = .next (millDone s { u.m with k := u.m.k.set k (x.setWidth 16) }))

/-- R358, R73, R189: a trap stops the mill, frees its locks, and, when its task has no fault yet, sets the task's code and is logged with
the word's address. -/
def Sys2Proof.Claims.MillTrapEndsTask : Prop :=
  ∀ (s : State) (u : MillIssuer) (code : Nat) (addr : W64), s.task? u.k.tid = some u.k → u.k.faulted = false → s.mill? u.m.id = some u.m →
    let t := s.millTrap u code addr
    t.mill? u.m.id = some { u.m with st := .trapped code, wait := none, rowBusy := [] } ∧
    t.task? u.k.tid = some { u.k with faulted := true, fcode := code } ∧
    (∀ l ∈ t.mem.locks, l.holder ≠ u.m.id) ∧ t.mem.dram = s.mem.dram ∧ t.groups = s.groups ∧
    t.log = s.log ++ [⟨0x06, towerSheet u.m.id.tower, u.m.id.tower + 2 ^ 15, u.k.tid, s.boot.time.getD (towerSheet u.m.id.tower) 0,
      addr.toNat, code, u.m.m⟩]

/-- msync, mhalt, mtrap, mrdsr, mwrsr; a trap stops the mill, frees its locks and ends the task. -/
def Obligations.MillSystemAndTraps : Prop :=
  Claims.MillSystemWords ∧ Claims.MillTrapEndsTask

/-- R366, R367, R369: a row word is captured, and the mill goes on; a mask of 0 completes at once; a bad mask or index raises ILLOPND and a
misaligned page ALIGN. -/
def Sys2Proof.Claims.MillRowWordsIssue : Prop :=
  ∀ (d a b : GReg) (s : State) (u : MillIssuer), s.millIssuer = some u → u.m.inRow = false →
    let g (r : GReg) : W64 := if r = 0 then 0 else u.m.g[r]
    let word (op : Nat) (x y z : GReg) : Mill := { u.m with
      rowop := BitVec.ofNat 32 (op * 2 ^ 26 + x.val * 2 ^ 21 + y.val * 2 ^ 16 + z.val * 2 ^ 11), rowa := g y, rowb := g z, rowd := g x
      rowpc := u.m.pc, rowprog := 0, rowBusy := [], rowOut := none, rowFault := none }
    let masked (op : Nat) (i : Instr) (z : GReg) : Prop :=
      ((g d).toNat < 2 ^ 32 → (g a).toNat % 65536 = 0 → (g z).toNat % 65536 = 0 →
        exec i s = .next (millDone s (if g d = 0 then u.m else word op d a z))) ∧
      (2 ^ 32 ≤ (g d).toNat → exec i s = .next (s.millTrap u 0x02 u.m.pc)) ∧
      ((g d).toNat < 2 ^ 32 → (g a).toNat % 65536 ≠ 0 → exec i s = .next (s.millTrap u 0x05 u.m.pc))
    let indexed (op : Nat) (i : Instr) : Prop :=
      ((g b).toNat < 32 → (g a).toNat % 65536 = 0 → exec i s = .next (millDone s (word op 0 a b))) ∧
      (32 ≤ (g b).toNat → exec i s = .next (s.millTrap u 0x02 u.m.pc))
    masked 0x20 (.millRowcp d a b) b ∧ masked 0x21 (.millRowzero d a) 0 ∧ masked 0x27 (.millRowinv d a) 0 ∧
    indexed 0x22 (.millRowbuf a b) ∧ indexed 0x23 (.millBufrow a b) ∧
    exec .millRowwait s = .next (millDone s u.m)

/-- R195, R196, R367, R368: rowmac issues when the mill holds its page's bank pair; banklk and bankul complete on a pair that is held
already, or free; a misaligned page raises ALIGN. -/
def Sys2Proof.Claims.MillBankWords : Prop :=
  ∀ (o p m : GReg) (v : Attr) (s t : State) (u : MillIssuer), s.millIssuer = some u → u.m.inRow = false →
    let g (r : GReg) : W64 := if r = 0 then 0 else u.m.g[r]
    let pair := pairOf v.pa
    ((g p).toNat % 65536 ≠ 0 → exec (.millBanklk p) s = .next (s.millTrap u 0x05 u.m.pc) ∧
      exec (.millBankul p) s = .next (s.millTrap u 0x05 u.m.pc)) ∧
    ((g p).toNat % 65536 = 0 → u.pageStalls s (g p).toNat = false → u.frame s (g p).toNat .read true = .at v t →
      (t.holdsLock u.m.id pair = true → exec (.millBanklk p) s = .next (millDone t u.m)) ∧
      (∀ t', t.holdsLock u.m.id pair = false → (t.mem.locks.filter fun l => l.holder == u.m.id).length < 4 →
        (t.mem.locks.filter fun l => l.tower == u.m.id.tower).length < 16 → t.tryLock u.m pair = some (true, t') →
        exec (.millBanklk p) s = .next (millDone t' u.m)) ∧
      exec (.millBankul p) s = .next (millDone (t.mapMem fun x => { x with
        locks := x.locks.filter fun l => !(l.tower == u.m.id.tower && l.pair == pair && l.holder == u.m.id) }) u.m) ∧
      ((g m).toNat < 2 ^ 32 → (g o).toNat % 4 = 0 →
        (g o).toNat + 4 * popcount 32 (g m).toNat ≤ u.k.launch.locbytes → t.holdsLock u.m.id pair = true →
        exec (.millRowmac o p m) s = .next (millDone t (if g m = 0 then u.m else { u.m with
          rowop := BitVec.ofNat 32 (0x24 * 2 ^ 26 + o.val * 2 ^ 21 + p.val * 2 ^ 16 + m.val * 2 ^ 11), rowa := g p, rowb := g m, rowd := g o
          rowpc := u.m.pc, rowprog := 0, rowBusy := [], rowOut := some ((g o).toNat, 4 * popcount 32 (g m).toNat), rowFault := none }))))

/-- R191, R194, R195: the steps of a row operation start and end, banks are refreshed, and a bank pair is taken, or released by force after its limit
with a TIMEOUT trap of its holder. -/
def Sys2Proof.Claims.RowStepsRun : Prop :=
  ∀ (r : MillRef) (m : Mill) (k : Task) (x : RowStep) (c tower ch bank pair : Nat) (s t : State),
    (∀ u, s.millIssuerOf r = some u → u.m.inRow = true → u.m.rowFault = none → u.m.nextSlice = some c → u.pageStalls s u.m.rowa.toNat = false →
      (u.m.rowCode = 0x20 → u.pageStalls s u.m.rowb.toNat = false) → u.prepare s c = .step x t → t.mayStep x = true →
      exec (.rowStepStart r c) s = .next (t.setMill { u.m with rowBusy := u.m.rowBusy ++ [x] })) ∧
    (s.mill? r = some m → s.task? m.tid = some k → (m.rowBusy.find? fun y => y.slice == c) = some x → m.rowCode = 0x21 → x.src = none →
      s.rowHeld r x.dst = false → s.rowQuiet x.dst x.dstDk = true → s.recallRow x.dst x.dstDk = none →
      ∃ (u : State) (n : Mill), exec (.rowStepComplete r c) s = .next u ∧ u.mill? r = some n ∧
        n.rowprog = m.rowprog ||| BitVec.ofNat 32 (2 ^ c) ∧ n.rowBusy = m.rowBusy.erase x ∧ n.loc = m.loc ∧ n.g = m.g ∧ n.w = m.w) ∧
    (tower < 72 → ch < 64 → bank < 32 →
      (s.mem.refreshing.contains (tower, ch, bank) = false → (∀ y ∈ s.mills, y.rowBusy = []) → exec (.refresh tower ch bank) s =
        .next (s.mapMem fun y => { y with refreshing := y.refreshing ++ [(tower, ch, bank)] })) ∧
      (s.mem.refreshing.contains (tower, ch, bank) = true → exec (.refreshComplete tower ch bank) s =
        .next (s.mapMem fun y => { y with refreshing := y.refreshing.erase (tower, ch, bank) }))) ∧
    (s.mill? r = some m → m.st = .run → s.siteRuns (.tower r.tower) = true → m.relock = [] → m.wait = some (.banklk pair) →
      s.towerLocks r.tower < 16 → s.tryLock m pair = some (true, t) →
      exec (.bankLockTaken r) s = .next (t.setMill { m with pc := m.pc + 4, wait := none, stall := MemStall.none })) ∧
    (∀ l, (s.mem.locks.find? fun y => y.holder == r && y.pair == pair) = some l → s.mill? r = some m → s.task? m.tid = some k →
      s.siteRuns (.tower r.tower) = true → l.since + l.limit ≤ s.now (.tower r.tower) → exec (.bankLockForcedRelease r pair) s =
        .next (((s.mapMem fun y => { y with locks := y.locks.erase l }).logTower 0x0E r.tower m.tid pair m.m 0).millTrap ⟨m, k⟩ 0x0C m.pc))

/-- Row words are captured or trap; banklk, bankul and rowmac work on bank pairs; steps start and end; banks refresh; locks are taken and forced free.
-/
def Obligations.MillRowOperations : Prop :=
  Claims.MillRowWordsIssue ∧ Claims.MillBankWords ∧ Claims.RowStepsRun

/-- R19, R20, R48, R59: a part reset stops everything, returns every management register to its reset value, keeps DRAM, the memories
outside the part and the watermarks, marks the frames of the lent regions, and begins boot. -/
def Sys2Proof.Claims.PartResetRestarts : Prop :=
  ∀ (s : State), ∃ t : State, exec .partReset s = .next t ∧ t.groups = [] ∧ t.teams = [] ∧ t.cores = [] ∧ t.mills = [] ∧ t.sched = SchedState.reset ∧
    t.mgmt = [] ∧ t.log = [] ∧ t.faults = [] ∧ t.held = [] ∧ t.mem.lines = [] ∧ t.mem.net = [] ∧ t.mem.tlb = [] ∧ t.mem.tcache = [] ∧
    t.mem.dram = s.mem.dram ∧ t.mem.host = s.mem.host ∧ t.mem.pool = s.mem.pool ∧ t.link.wms = s.link.wms ∧
    t.mem.marks = s.mem.marks ++ s.lentFrames.filter (fun f => !s.mem.marks.contains f) ∧
    t.boot = { BootState.reset with phase := 1, gradeA := s.boot.gradeA, minVersion := s.boot.minVersion } ∧
    (s.frozen = true → exec .frzctlReset s = .next t) ∧ (s.frozen = false → exec .frzctlReset s = .next s)

/-- R13, R16, R19, R20, R204, R208: how a boot phase ends: past its limit, or with a failure, boot stops with the FAILCODE; otherwise the next
phase begins, and the eighth makes the part ready. -/
def Sys2Proof.Claims.BootPhasesAdvance : Prop :=
  ∀ (r : BootReport) (s : State), s.boot.ready = false → s.boot.fail = false → s.frozen = false →
    let p := s.boot.phase
    let stop (c : Nat) : Out := .next { s with boot := { s.boot with fail := true, failCode := c } }
    (p = 0 → exec (.bootPhase r) s = .next { s with boot := { s.boot with phase := 1, timer := 0 } }) ∧
    (p ≠ 0 → phaseLimit p < s.boot.timer → exec .bootPhaseLimitExpiry s = stop 3 ∧ exec (.bootPhase r) s = stop 3) ∧
    (p ≠ 0 → s.boot.timer ≤ phaseLimit p →
      (∀ c, s.phaseEnd r = .failed c → exec (.bootPhase r) s = stop c) ∧
      (s.phaseEnd r = .goesOn → exec (.bootPhase r) s =
        .next (if p = 2 then { s with boot := { s.boot with sheetsUp := r.sheets % 16 } } else s)) ∧
      (s.phaseEnd r = .passed → p < 8 → ∃ t : State, exec (.bootPhase r) s = .next t ∧ t.boot.phase = p + 1 ∧ t.boot.timer = 0 ∧
        t.boot.fail = false ∧ t.boot.ready = false ∧
        (p = 2 → t.boot.started = true ∧ t.boot.sheetsUp = 15 ∧ ∀ i : Fin 4, t.boot.time[i] = r.offsets.getD i.val 0)) ∧
      (s.phaseEnd r = .passed → p = 8 → ∃ t : State, exec (.bootPhase r) s = .next t ∧ t.boot.ready = true ∧ t.boot.fail = false)) ∧
    (p = 1 → r.firmware.length = 4 → ((∃ f ∈ r.firmware, f.1 = false) → s.phaseEnd r = .failed 1) ∧
      ((∀ f ∈ r.firmware, f.1 = true) → ((∃ f ∈ r.firmware, f.2.1 < s.boot.minVersion) → s.phaseEnd r = .failed 2) ∧
        ((∀ f ∈ r.firmware, s.boot.minVersion ≤ f.2.1) → s.phaseEnd r = .passed))) ∧
    (p = 3 → s.phaseEnd r = if r.trained then .passed else .failed 4) ∧ (p = 4 → s.phaseEnd r = if r.towersGood then .passed else .failed 5) ∧
    (p = 5 → s.phaseEnd r = if (goodPositions r.goodClusters).length < s.boot.clusters then .failed 6 else .passed)

/-- A part reset stops everything and keeps DRAM; boot phases pass, fail, or expire, and the eighth makes the part ready. -/
def Obligations.ResetAndBoot : Prop :=
  Claims.PartResetRestarts ∧ Claims.BootPhasesAdvance

/-- R22, R23, R205: a freeze is asked for, stops sheet after sheet, and a thaw lets every sheet go on, what was held coming first. -/
def Sys2Proof.Claims.FreezeAndThaw : Prop :=
  ∀ (q : Fin 4) (s : State),
    let asked : State := { s with boot := { s.boot with freezing := true } }
    (s.frozen = false → exec .freezeRequest s = .next asked ∧ exec .debugFreezeRequest s = .next asked ∧ exec .thaw s = .next s) ∧
    (s.frozen = true → exec .freezeRequest s = .next s ∧ exec .debugFreezeRequest s = .next s ∧
      exec .thaw s = .next { s with
        boot := { s.boot with stopped := Vector.replicate 4 false }, agenda := s.held.map .event ++ s.agenda, held := [] }) ∧
    (s.boot.freezing = true → s.boot.stopped[q] = false → ∃ t : State, exec (.sheetFreeze q) s = .next t ∧
      t.boot.stopped = s.boot.stopped.set q true ∧ t.boot.time = s.boot.time ∧ t.boot.freezing = !t.frozen ∧
      t = { s with boot := t.boot })

/-- R17, R206 to R209, R351: clock stretching, debug grants, readout, the loss of a farrier, and attestation. -/
def Sys2Proof.Claims.PartServices : Prop :=
  ∀ (q : Fin 4) (n : Nat) (what : ReadTarget) (m : Option (BitVec 64)) (v : BitVec 32) (s : State),
    (n ≤ 128 → s.boot.stopped[q] = false →
      exec (.clockStretchChange q n) s = .next { s with boot := { s.boot with stretch := s.boot.stretch.set q n } }) ∧
    exec (.debugGrant true m) s = .next { s with boot := { s.boot with granted := true, marker := m } } ∧
    exec (.debugGrant false m) s = .next s ∧
    exec (.readout1687 what) s = .next (match s.readout what with
      | some x => { s with out := s.out ++ [.readout x] }
      | none => s) ∧
    (s.boot.granted = false → (∀ k, what ≠ .errorLog k) → (∀ a k, what ≠ .register a k) → s.readout what = none) ∧
    (s.boot.ready = true → exec (.farrierLost q) s = .next { s with
      log := s.log ++ [⟨0x07, if q.val = 0 then 1 else 0, towerSite (farrierTower q.val), noTask,
        s.boot.time.getD (if q.val = 0 then 1 else 0) 0, 0, 0, 0⟩]
      boot := { s.boot with freezing := true } }) ∧
    (s.boot.ready = false → s.boot.fail = false →
      exec (.farrierLost q) s = .next { s with boot := { s.boot with fail := true, failCode := 7 } }) ∧
    (v.getLsbD 0 = true → s.boot.attBusy = false → exec (.attestationGo v) s = .next { s with boot := { s.boot with
      attBusy := true, attDone := false, attNonce := (List.range 8).flatMap fun i => leBytes 8 (s.reg (offATT + 0x100 + 8 * i)) } }) ∧
    (v.getLsbD 0 = false ∨ s.boot.attBusy = true → exec (.attestationGo v) s = .next s) ∧
    (s.boot.attBusy = true → s.boot.stopped[(0 : Fin 4)] = false → exec .attestationDone s =
      .next { s with boot := { s.boot with attBusy := false, attDone := true, attReport := s.attReportBytes } })

/-- Freezes stop sheet after sheet and a thaw resumes; stretching, grants, readout, farrier loss and attestation. -/
def Obligations.FreezeAndServices : Prop :=
  Claims.FreezeAndThaw ∧ Claims.PartServices

/-- R26, R28, R34, R198, R199, R201: messages hop along their route, and a link replays, retrains, comes back or fails with its die; the
third correction of a link within 1 s is a lasting one. -/
def Sys2Proof.Claims.PanelLinks : Prop :=
  ∀ (l : LinkId) (k : Nat) (m : Msg) (s : State),
    let next := siteAt (nextHop (siteXY m.at') (siteXY m.dst))
    let fixes := s.link.fixes.filter fun f => f.1 == .link l && decide (s.now (.die l.die) < f.2 + 1000000000)
    let c := s.correct (.link l) (.die l.die) noTask l.tower
    let failed : State := (s.setLinkSt l .down).logDie 0x08 l.die noTask l.tower 0 0
    (linkInPanel l = true →
      (∀ n, s.linkSt l = .up n → exec (.linkFlitCrcFail l) s = .next (c.2.setLinkSt l (.up (if 2 ≤ fixes.length then 8 else min 8 (n + 1)))) ∧
        c.2.log = s.log ++ [⟨if 2 ≤ fixes.length then 0x02 else 0x01, siteSheet (.die l.die), l.die, noTask, s.now (.die l.die), l.tower, 0, 0⟩]) ∧
      (s.linkSt l = .up 8 → exec (.linkRetrain l) s = .next ((s.setLinkSt l .retraining).logDie 0x08 l.die noTask l.tower 0 0)) ∧
      (s.linkSt l = .retraining → exec (.linkRetrainComplete l) s = .next (s.setLinkSt l (.up 0)) ∧
        exec (.linkRetrainFail l) s = .next (if s.mem.failedDies.contains l.die then failed else failed.failDie l.die))) ∧
    (∀ x j, (s.setLinkSt l x).linkSt j = if j = l then x else s.linkSt j) ∧
    (∀ n, s.mem.net[k]? = some m → m.at' ≠ m.dst → linkBetween m.at' next = some l → s.linkSt l = .up n → n < 8 →
      s.siteRuns m.at' = true → s.siteRuns next = true →
      ((s.mem.net.take k).all fun e => !(e.cls == m.cls && e.src == m.src && e.dst == m.dst && e.at' == m.at')) = true →
      exec (.routerForward k) s = .next (s.mapMem fun x =>
        { (if m.at' = m.src then x.departed m (s.now m.src) else x) with net := x.net.set k { m with at' := next } }))

/-- R38 to R42: a fibre replays from the flit that failed, retrains and comes back, buckets move once their flits are acknowledged, and a
packet is forwarded as a flit of its bucket's fibre, or dropped and logged on its fifth hop or without a fibre. -/
def Sys2Proof.Claims.OpticalFibres : Prop :=
  ∀ (f good b p : Nat) (x : Fibre) (pkt : Packet) (s : State),
    (f < 64 → s.fibre? f = some x → x.up = true →
      (∀ seq, (∃ y ∈ x.flits.take 512, y.seq = seq) → exec (.opticalNak ⟨f, seq⟩) s =
        .next { s.setFibre { x with flits := x.flits.map fun y => if y.seq = seq then y.replayed (s.now (.tower (portTower (f / 4)))) else y } with
          out := s.out ++ ((x.flits.take 512).filter fun y => decide (seq ≤ y.seq)).map fun y => .packet f y.seq y.pkt }) ∧
      ((∃ y ∈ x.flits, 16 ≤ y.replays) → good ≤ x.waves → ∃ t : State, exec (.fibreRetrain f good) s = .next t ∧
        t.fibre? f = some { x with waves := good, up := decide (4 ≤ good), flits := x.flits.map fun y => { y with replays := 0 } } ∧
        t.log.length = s.log.length + (x.waves - good) + (if good < 4 then 1 else 0))) ∧
    (f < 64 → s.fibre? f = some x → x.up = false → exec (.fibreComesBack f) s = .next (s.setFibre { x with up := true, waves := 16 })) ∧
    (∀ old, (s.link.buckets.find? fun e => e.1 == b) = some (b, old) → (s.fibresTo (b % 1024)).contains f = true → s.bucketHeld b old = false →
      exec (.hashBucketMove b f) s = .next { s with link := { s.link with buckets := (s.link.buckets.filter fun e => e.1 != b) ++ [(b, f)] } }) ∧
    (p < 16 → pkt.dst ≠ s.pkgNum → s.siteRuns (.tower (portTower p)) = true →
      let drop : State := { s with log := s.log ++ [⟨0x09, towerSheet (portTower p), towerSite (portTower p), noTask,
        s.boot.time.getD (towerSheet (portTower p)) 0, pkt.addr, pkt.dst, 0⟩] }
      (4 ≤ pkt.hops → exec (.opticalTransit p pkt) s = .next drop) ∧
      (pkt.hops < 4 → let q : Packet := { pkt with hops := pkt.hops + 1 }
        (s.fibreFor q = none → exec (.opticalTransit p pkt) s = .next drop) ∧
        (∀ g y, s.fibreFor q = some g → s.fibre? g = some y → ∃ t : State, exec (.opticalTransit p pkt) s = .next t ∧ t.log = s.log ∧
          t.fibre? g = some { y with next := y.next + 1, flits := y.flits ++ [⟨y.next, q, 0, 0⟩] } ∧
          t.out = s.out ++ (if y.flits.length < 512 then [.packet g y.next q] else []))))

/-- Messages hop along their route; links and fibres replay, retrain, fail and come back; packets are forwarded or dropped. -/
def Obligations.LinksAndFibres : Prop :=
  Claims.PanelLinks ∧ Claims.OpticalFibres

/-- R31 to R33, R131, R133: dies and towers fail and are reset; a slice's scan and rebuild end. -/
def Obligations.FailuresAndResets : Prop :=
  ∀ (i : Nat) (s : State), i < 72 →
    (s.mem.failedDies.contains i = false → ∃ t : State, exec (.dieFailure i) s = .next t ∧ t.mem.failedDies = s.mem.failedDies ++ [i] ∧
      (∀ j < 72, (j, i) ∈ t.mem.scans) ∧
      (t.mem.lines.all fun l => nodeDie l.node != some i) = true ∧ (t.mem.reqs.all fun r => r.site != .die i) = true) ∧
    (s.mem.failedTowers.contains i = false → exec (.towerFailure i) s = .next (s.mapMem fun x => { x with
      failedTowers := x.failedTowers ++ [i], rebuilds := if x.rebuilds.contains i then x.rebuilds else x.rebuilds ++ [i] })) ∧
    (s.mem.rebuilds.contains i = true → s.sheetRuns (towerSheet i) = true →
      exec (.sliceRebuildComplete i) s = .next (s.mapMem fun x => { x with rebuilds := x.rebuilds.erase i })) ∧
    (∀ d, s.mem.scans.contains (i, d) = true → s.siteRuns (.tower i) = true →
      ∃ t : State, exec (.directoryScanComplete i d) s = .next t ∧ t.mem.scans = s.mem.scans.erase (i, d)) ∧
    (∃ t : State, exec (.dieReset i) s = .next t ∧ t.wm (.die i) = (s.wm (.die i) + 1) % 2 ^ 16) ∧
    (∃ t : State, exec (.towerReset i) s = .next t ∧ t.wm (.tower i) = (s.wm (.tower i) + 1) % 2 ^ 16)

/-- R31 to R35, R347: answers reach the agent that waits, or are dropped and counted; requests fail by time or by a new watermark; retired
tags become free. -/
def Obligations.ResponsesAndTimeouts : Prop :=
  ∀ (k : Nat) (m : Msg) (s t : State) (site : Site) (tag : Nat),
    (s.takeMsg k = some (m, t) →
      let landed (f : State → State) : Prop := exec (.responseArrival k) s = .next (if (t.accept m).1 then f (t.accept m).2 else (t.accept m).2)
      (∀ g vals fs, m.body = .homeRsp g vals fs → landed fun u => u.stallGroup g fun x =>
        if fs = [] then { x with sent := false, result := some vals } else { x with sent := false, faults := x.faults ++ fs }) ∧
      (∀ g vals, m.body = .windowRsp g vals → landed fun u => u.stallGroup g fun x => { x with sent := false, result := some vals }) ∧
      (∀ g ns, m.body = .tnowRsp g ns → landed fun u => u.stallGroup g fun x => { x with sent := false, result := some [ns] }) ∧
      (∀ r v c w, m.body = .millRsp r v c w → landed fun u => u.stallMill r fun x =>
        if c = 0 then { x with sent := false, result := some [v] } else { x with sent := false, faults := x.faults ++ [⟨0, 0, c, false⟩] }) ∧
      (∀ a n r c dk, m.body = .refuse a n r c dk → landed fun u => u.refuseAt a n r c dk) ∧
      (∀ x v, m.body = .watermark x v → let late : OutReq → Bool := fun r => r.site == m.dst && r.responder == x && r.respWm != v
        exec (.watermarkNotice k) s = .next ((t.mem.reqs.filter late).foldl (fun u r => u.failReq r 0x0C)
          (t.mapMem fun y => { y with reqs := y.reqs.filter fun r => !late r }))) ∧
      (∀ g q, m.body = .tnow g q → exec (.tnowRequestArrival k) s = .next (t.respond m .rsp (.tnowRsp g (t.now m.dst))))) ∧
    (s.wm m.dst ≠ m.reqWm → s.accept m = (false, s.regCount (offLink m.dst + 4))) ∧
    (s.wm m.dst = m.reqWm → m.tag ≠ 0 → (s.mem.reqs.all fun r => !(r.site == m.dst && r.tag == m.tag)) = true →
      s.accept m = (false, s.regCount (offLink m.dst + 8))) ∧
    (∀ r since, (s.mem.reqs.find? fun q => q.site == site && q.tag == tag) = some r → s.siteRuns site = true → r.sentAt = some since →
      r.limit ≤ s.now site - since → exec (.requestTimeout site tag) s = .next ((s.mapMem fun x => { x with
        reqs := x.reqs.erase r, retired := x.retired ++ [⟨site, tag, s.now site, r.limit⟩] }).failReq r 0x0C)) ∧
    (∀ r, (s.mem.retired.find? fun q => q.site == site && q.tag == tag) = some r → s.siteRuns site = true → 2 * r.xto ≤ s.now site - r.since →
      exec (.retiredTagRelease site tag) s = .next (s.mapMem fun x => { x with retired := x.retired.erase r }))

/-- R36, R42, R52: the registers of the links and of the package's number. -/
def Sys2Proof.Claims.LinkRegisters : Prop :=
  ∀ (site : Site) (p n : Nat) (v : BitVec 32) (s : State),
    (siteInPanel site = true → exec (.xtocfgWrite site v) s = .next (s.setReg (offLink site) (min 100000 (max 100 (v.toNat % 2 ^ 24))))) ∧
    (p < 16 → n < 1024 → exec (.routeEntryWrite p n v) s = .next (s.regWrite (0x00740000 + 0x1000 * p + 4 * n) v.toNat 0x80000003)) ∧
    exec (.pkgnumWrite v) s = .next (if s.boot.pkgLocked then s else s.setReg 0x8 (v.toNat % 2 ^ 10))

/-- R4, R51, R52, R101, R113, R115, R126, R132, R172, R188: writes of the window and of its tables. -/
def Sys2Proof.Claims.TableWrites : Prop :=
  ∀ (i n port : Nat) (v : BitVec 32) (w : BitVec 128) (x : BitVec 64) (s : State), i < 72 → port < 4 →
    (n < 240 → exec (.ownerTableWrite i n v) s = .next (s.regWrite (0x00500000 + 0x400 * i + 4 * n) v.toNat (2 ^ 17 - 1))) ∧
    (n < 4096 → exec (.homeTableWrite i n w) s = .next (s.mapMem fun y => { y with
      dieSp := y.dieSp.putNat (i * 2 ^ 24 + 0xF00000 + 16 * n) 16 (w.toNat &&& maskHome) })) ∧
    (n < 4096 → exec (.towerHomeTableWrite i n w) s = .next (s.mapMem fun y => { y with
      towerTab := y.towerTab.putNat (i * 2 ^ 16 + 16 * n) 16 (w.toNat &&& maskHome) })) ∧
    (let f := v.toNat % 2 ^ 20
     exec (.lostMarkClear i v) s = .next (s.mapMem fun y => { y with
        lost := y.lost.filter fun l => !(l.tower == i && (match l.phys with | some p => p / 256 == f | none => false))
        marks := y.marks.filter fun m => m != (i, f) })) ∧
    (n < 64 → s.tethArrived n ≠ 0 → exec (.tethcfgWrite n v) s = .next s ∧ exec (.tethcntWrite n v) s = .next s) ∧
    (n < 64 → s.tethArrived n = 0 →
      exec (.tethcfgWrite n v) s = .next (let t := s.regWrite (0x00600000 + 0x10 * n) v.toNat 0x8000FFFF
        if s.tethEn n = false ∧ v.getLsbD 31 = true then t.setReg (0x00600000 + 0x10 * n + 8) 0 else t) ∧
      exec (.tethcntWrite n v) s = .next (s.regWrite (0x00600000 + 0x10 * n + 4) v.toNat 0xFFFF)) ∧
    (∀ size, (size ≠ 4 ∧ size ≠ 8) ∨ n % size ≠ 0 →
      exec (.registerWrite ⟨port, n, size⟩ x) s = .next { s with out := s.out ++ [.unsupported port] }) ∧
    ((blockIndex n 0x00200000 0x40 256).isNone = true ∨ n % 0x40 ≠ 8 →
      (n % 8 = 0 → wideAt n = true →
        (s.regKind n = .ignores → exec (.registerWrite ⟨port, n, 8⟩ x) s = .next s) ∧
        (∀ mask, s.regKind n = .stores mask → exec (.registerWrite ⟨port, n, 8⟩ x) s = .next (s.regWrite n x.toNat mask))) ∧
      (n % 4 = 0 → n % 8 = 0 ∨ wideAt (n - 4) = false →
        (s.regKind n = .ignores → exec (.registerWrite ⟨port, n, 4⟩ x) s = .next s) ∧
        (∀ mask, s.regKind n = .stores mask →
          exec (.registerWrite ⟨port, n, 4⟩ x) s = .next (s.regWrite n (x.toNat % 2 ^ 32) (mask % 2 ^ 32)))) ∧
      (n % 8 = 4 → wideAt (n - 4) = true → ∀ mask, s.regKind (n - 4) = .stores mask →
        exec (.registerWrite ⟨port, n, 4⟩ x) s = .next (s.regWrite (n - 4) (x.toNat % 2 ^ 32 * 2 ^ 32) (mask / 2 ^ 32 * 2 ^ 32))))

/-- R4, R52: reading a management register after a masked write of it, and every other one. -/
def Sys2Proof.Claims.RegisterReadBack : Prop :=
  ∀ (s : State) (a b v mask i : Nat),
    (s.mgmt.map fun e => e.1).Pairwise (· < ·) → v < 2 ^ 64 → mask < 2 ^ 64 → s.reg a < 2 ^ 64 →
    let t := s.regWrite a v mask
    (t.reg a).testBit i = (if mask.testBit i then v.testBit i else (s.reg a).testBit i) ∧ (b ≠ a → t.reg b = s.reg b) ∧
      (t.mgmt.map fun e => e.1).Pairwise (· < ·) ∧ t = { s with mgmt := t.mgmt }

/-- R44: writes of the loan table, and the end of a withdrawal, after which no lapsed grantee is registered. -/
def Sys2Proof.Claims.LoanTable : Prop :=
  ∀ (r g : Nat) (v : BitVec 64) (s : State), r < 1024 → g < 16 →
    let old := s.reg (0x00750000 + 0x100 * r)
    let new := v.toNat &&& maskLRBASE
    let top := bits new 35 26 * 2 ^ 26 + (bits new 5 0 + 1) * 2 ^ 26
    let put : Out := .next (s.setReg (0x00750000 + 0x100 * r) new)
    let grant (k : Nat) : Nat := s.reg (0x00750000 + 0x100 * r + 0x08 + 8 * k)
    (bit old 63 = true → new % 2 ^ 63 ≠ old % 2 ^ 63 → exec (.lrbaseWrite r v) s = .next s) ∧
    (bit old 63 = true → new % 2 ^ 63 = old % 2 ^ 63 →
      (bit new 63 = false → (∃ k < 16, bit (grant k) 63 = true) → exec (.lrbaseWrite r v) s = .next s) ∧
      (bit new 63 = true ∨ (∀ k < 16, bit (grant k) 63 = false) → exec (.lrbaseWrite r v) s = put)) ∧
    (bit old 63 = false →
      (bit new 63 = true → dramTop < top ∨ s.loanOverlap r new = true → exec (.lrbaseWrite r v) s = .next s) ∧
      (bit new 63 = false ∨ (bits new 54 48 < 72 ∧ top ≤ dramTop ∧ s.loanOverlap r new = false) → exec (.lrbaseWrite r v) s = put)) ∧
    exec (.lrgrantWrite r g v) s = .next (
      let t := s.setReg (0x00750000 + 0x100 * r + 0x08 + 8 * g) (v.toNat &&& maskLRGRANT)
      if bit (grant g) 63 = true ∧ v.getLsbD 63 = false then t.setReg (offLRSTAT r) (2 ^ 63) else t) ∧
    (bit (s.reg (offLRSTAT r)) 63 = true → (∀ l ∈ s.mem.lines, s.homeQuiet l.attr.place = true) →
      ∃ t : State, exec (.grantWithdrawComplete r) s = .next (t.setReg (offLRSTAT r) 0) ∧
        (t.mem.borrowed.all fun b => !s.lapsed r b) = true)

/-- R19, R40, R43 to R48, R51, R85, R132, R152: the pool, CXL.mem and the aperture of BAR4. -/
def Sys2Proof.Claims.OutsideAccesses : Prop :=
  ∀ (r n port dpa off hops : Nat) (v : BitVec 64) (who : Grantee) (acc : ExtAccess) (s : State), n < 16384 → port < 4 → s.frozen = false →
    let put (o : List Output) (t : State) : Out := .next { t with out := t.out ++ o }
    let data (bs : List (BitVec 8)) : List Output := match acc with | .read _ => [.readData port bs] | .write _ => []
    let miss : Out := .next { s with
      log := s.log ++ [⟨0x0F, towerSheet 19, towerSite 19, noTask, s.boot.time.getD (towerSheet 19) 0, dpa, 0, 0⟩]
      out := s.out ++ (match acc with | .read k => [.readData port (List.replicate k 0xFF)] | .write _ => []) ++ [.aer port] }
    exec (.compositionEntryWrite n v) s = .next (s.setReg (0x00700000 + 8 * n) (v.toNat &&& maskComp)) ∧
    (s.boot.ready = false → exec (.cxlMemAccess port dpa acc) s = put [.unsupported port] s ∧
      exec (.bar4Access port off acc) s = put [.unsupported port] s ∧ exec (.poolAccess ⟨who, hops⟩ r off acc) s = .next s) ∧
    (s.boot.ready = true →
      (hops < 5 → (∀ bs t, s.loanAccess r off who acc = .ok bs t → exec (.poolAccess ⟨who, hops⟩ r off acc) s = put [.poolData who bs] t) ∧
        (∀ c, s.loanAccess r off who acc = .refused c → exec (.poolAccess ⟨who, hops⟩ r off acc) s = put [.refused who c] s)) ∧
      (5 ≤ hops → ∃ t : State, exec (.poolAccess ⟨who, hops⟩ r off acc) s = .next t ∧ t.mem = s.mem ∧ t.out = s.out ∧ t.log.length = s.log.length + 1) ∧
      (s.boot.cxl.getD port false = false → exec (.cxlMemAccess port dpa acc) s = put [.unsupported port] s) ∧
      (s.boot.cxl.getD port false = true →
        let e := s.reg (0x00700000 + 8 * (dpa / 2 ^ 26))
        let byte := bits e 5 0 * 2 ^ 26 + dpa % 2 ^ 26
        let pkg := bits e 41 32
        let out := if pkg = s.pkgNum then s.loanAccess (bits e 21 12) byte (.host pkg port) acc
          else s.farAccess port pkg (bits e 21 12) byte acc
        (2 ^ 40 ≤ dpa ∨ bit e 63 = false → exec (.cxlMemAccess port dpa acc) s = miss) ∧
        (dpa < 2 ^ 40 → bit e 63 = true →
          (∀ bs t, out = .ok bs t → exec (.cxlMemAccess port dpa acc) s = put (data bs) t) ∧
          (out = .refused 0x0B → exec (.cxlMemAccess port dpa acc) s = put [.abort port, .aer port] s) ∧
          (∀ c, out = .refused c → c ≠ 0x0B → exec (.cxlMemAccess port dpa acc) s = miss))) ∧
      (s.aperture off = none → exec (.bar4Access port off acc) s = put [.unsupported port] s) ∧
      (∀ va asid, s.aperture off = some (va, asid) →
        (∀ k, acc = .read k → (∀ bs t, s.ownRead s.arbHome asid va k = .ok bs t → exec (.bar4Access port off acc) s = put [.readData port bs] t) ∧
          (∀ c t, s.ownRead s.arbHome asid va k = .bad c t → exec (.bar4Access port off acc) s = put [.abort port, .aer port] t)) ∧
        (∀ xs, acc = .write xs → (∀ u t, s.ownWrite s.arbHome asid va xs = .ok u t → exec (.bar4Access port off acc) s = .next t) ∧
          (∀ c t, s.ownWrite s.arbHome asid va xs = .bad c t → exec (.bar4Access port off acc) s = put [.aer port] t))))

/-- Register and table writes keep exactly the bits their masks let through; loans, the pool, CXL.mem and BAR4 reach memory. -/
def Obligations.OutsideReachesIn : Prop :=
  Claims.LinkRegisters ∧ Claims.TableWrites ∧ Claims.RegisterReadBack ∧ Claims.LoanTable ∧ Claims.OutsideAccesses

/-- R54, R56: enabling and disabling a queue and clearing its status, in the order of the register's own bits; and what each row of
R56's table does with a tail write of a host or of another package; a host's write before READY, or of another size than 4 or 8 bytes,
completes with Unsupported Request (R19, R51). -/
def Obligations.QueueRegisters : Prop :=
  ∀ (q port size pkg : Nat) (v : BitVec 32) (s : State), q < 256 → (s.mgmt.map fun e => e.1).Pairwise (· < ·) →
    let off := 0x00200000 + 0x40 * q
    let cfg := s.reg (off + 0x08)
    let head := s.reg (off + 0x10)
    let tail := s.reg (off + 0x14)
    let stat := s.reg (off + 0x20)
    let log := v.toNat / 2 ^ 16 % 32
    (v.getLsbD 31 = true → bit cfg 31 = false → (∀ a ∈ s.sched.admitting, a.q ≠ q) → ∃ t : State, exec (.queueEnable q v) s = .next t ∧
      (2 < v.toNat / 2 ^ 24 % 8 ∨ log < 4 ∨ 16 < log → t.qEn q = false ∧ t.reg (off + 0x20) = stat ||| 2 ^ 28 ∧
        t.qHead q = head ∧ t.qTail q = tail) ∧
      (v.toNat / 2 ^ 24 % 8 ≤ 2 → 4 ≤ log → log ≤ 16 → t.qEn q = true ∧ t.qHead q = 0 ∧ t.qTail q = 0 ∧ t.qStop q = false ∧
        t.boot.pkgLocked = true)) ∧
    (v.getLsbD 31 = true → bit cfg 31 = false → (∃ a ∈ s.sched.admitting, a.q = q) → exec (.queueEnable q v) s =
      .next { s with sched := { s.sched with heldEnable := s.sched.heldEnable ++ [(q, v)] } }) ∧
    (v.getLsbD 31 = false → bit cfg 31 = true → ∃ t : State, exec (.queueDisable q v) s = .next t ∧ t.reg (off + 0x08) = cfg - 2 ^ 31 ∧
      t.sched.pending = (s.sched.pending.filter fun p => p.q != q) ∧ t.sched.tasks = s.sched.tasks) ∧
    (∃ t : State, exec (.qstatClear q v) s = .next t ∧ t = { s with mgmt := t.mgmt } ∧
      (∀ i, 27 ≤ i → i ≤ 30 → bit (t.reg (off + 0x20)) i = (bit stat i && !v.getLsbD i)) ∧
      t.qStop q = (bit stat 31 && !((bit stat 29 || bit stat 30) && !bit (t.reg (off + 0x20)) 29 && !bit (t.reg (off + 0x20)) 30))) ∧
    (s.arbRuns = true →
      let d := (v.toNat + 2 ^ 32 - tail) % 2 ^ 32
      let h := (v.toNat + 2 ^ 32 - head) % 2 ^ 32
      let rmt := s.reg (off + 0x28)
      let row : State :=
        if d = 0 then s
        else if 2 ^ 31 ≤ d then s.setReg (off + 0x20) (setBits stat 15 0 (min 0xFFFF (bits stat 15 0 + 1)))
        else if 2 ^ bits cfg 20 16 < h then s.setReg (off + 0x20) (stat ||| (2 ^ 31 + 2 ^ 30))
        else s.setReg (off + 0x14) v.toNat
      ((∀ m ∈ s.mem.net, m.body ≠ .tailWrite (.host port size) q v) →
        (s.boot.ready = true → size = 4 ∨ size = 8 → exec (.tailWrite (.host port size) q v) s = .next (if bit cfg 31 then row else s)) ∧
        (s.boot.ready = false ∨ (size ≠ 4 ∧ size ≠ 8) →
          exec (.tailWrite (.host port size) q v) s = .next { s with out := s.out ++ [.unsupported port] })) ∧
      (∀ hops, hops < 5 → (∀ m ∈ s.mem.net, m.body ≠ .tailWrite (.remote pkg hops) q v) → s.boot.ready = true →
        exec (.tailWrite (.remote pkg hops) q v) s = .next (if bit cfg 31 = false then s
          else if bit rmt 31 = true ∧ bits rmt 9 0 = pkg then row
          else { s with log := s.log ++ [⟨0x0C, 0, towerSite 19, 0xFFFFFFFF, s.boot.time.getD 0 0, q * 2 ^ 32 + v.toNat,
            pkg % 2 ^ 10 + (if bit rmt 31 then 0 else 2 ^ 31), 0⟩] })))

/-- R34, R54, R55, R57, R59: a record in host memory is copied into admission as it stands, and HEAD advances; a read that times out is
logged and sets PULLERR and STOP; a head-shadow store that times out sets HSHERR and is logged. -/
def Sys2Proof.Claims.RecordsArePulled : Prop :=
  ∀ (q : Nat) (s : State), q < 256 → s.boot.ready = true → s.arbRuns = true →
    let off := 0x00200000 + 0x40 * q
    let cfg := s.reg (off + 0x08)
    let head := s.reg (off + 0x10)
    let base := s.reg off
    let stat := s.reg (off + 0x20)
    let shadow := s.reg (off + 0x18)
    (bit cfg 31 = true → bit stat 31 = false → head ≠ s.reg (off + 0x14) → (∀ a ∈ s.sched.admitting, a.q ≠ q) →
      (∀ ext, bits cfg 26 24 = 1 → shadow = 0 → (s.mgmt.map fun e => e.1).Pairwise (· < ·) → exec (.recordPull q ext) s =
        .next { s with
          mgmt := (s.setReg (off + 0x10) ((head + 1) % 2 ^ 32)).mgmt
          sched := { s.sched with admitting := s.sched.admitting ++ [⟨q, head,
            s.mem.host.read (bits cfg 23 22 * 2 ^ 64 + base + 256 * (head % 2 ^ bits cfg 20 16)) 256, bits cfg 15 0, bits cfg 23 22, 1,
            bits base 57 48, false⟩] } }) ∧
      exec (.recordReadFail q) s =
        .next ((s.logArbiter 0x07 0xFFFFFFFF (q * 2 ^ 32 + head) 0).setReg (off + 0x20) (stat ||| (2 ^ 31 + 2 ^ 29)))) ∧
    (shadow ≠ 0 → head ≠ 0 → exec (.headShadowFail q) s =
      .next ((s.setReg (off + 0x20) (stat ||| 2 ^ 27)).logArbiter 0x11 0xFFFFFFFF shadow (0x0C * 2 ^ 16)))

/-- R67, R71, R72, R74, R79: a record that passes its checks, with room in the hazard table, becomes a task under the next TASKID, its count
reduced by its pending entries; without room it waits. An owed MSI-X message is sent, or is held pending while its vector is masked (R49). -/
def Sys2Proof.Claims.RecordsAreAdmitted : Prop :=
  ∀ (q tid : Nat) (s : State), s.arbRuns = true →
    (∀ a rest p t, s.sched.admitting = a :: rest → a.q = q → a.check s = .ok p t → t.sched.heldEnable = [] →
      let i : Instr := if a.paused then .admissionRetry q else .taskAdmit q
      let mine := t.sched.pending.filter fun e => e.q == q && e.index == a.index
      (t.activeDeckles + p.deckles.length ≤ 4096 → ∃ (u : State) (k : Task), exec i s = .next u ∧ k ∈ u.sched.tasks ∧ k.tid = t.sched.nextTid ∧
        k.q = q ∧ k.index = a.index ∧ k.deckles = p.deckles ∧ k.launch = p.launch ∧ k.depcnt = fld a.bytes 4 4 - mine.length ∧
        (k.depcnt ≠ 0 → k.st = .waitdep) ∧ (k.depcnt = 0 → k.doomed = false → k.st = .waithaz) ∧
        (k.depcnt = 0 → k.doomed = true → k.st = .done ∧ k.status = .abandoned) ∧
        u.sched.nextTid = (if 0xFFFFFFFE ≤ t.sched.nextTid then 0 else t.sched.nextTid + 1)) ∧
      (4096 < t.activeDeckles + p.deckles.length → a.paused = false → exec i s = .next { t with sched := { t.sched with
        admitting := t.sched.admitting.map fun x => if x = a then { a with paused := true } else x } })) ∧
    (∀ e, (s.sched.irqs.find? fun x => x.tid == tid) = some e → (e.after = none → s.mem.backInv = []) → (∀ r, e.after = some r → r ∉ s.log) →
      let t : State := { s with sched := { s.sched with irqs := s.sched.irqs.erase e } }
      (s.link.msixOpen.contains (e.port, e.vec) = true → exec (.msixSend tid) s = .next { t with out := s.out ++ [.msix e.port e.vec] }) ∧
      (s.link.msixOpen.contains (e.port, e.vec) = false → s.link.msixPending.contains (e.port, e.vec) = false → exec (.msixSend tid) s =
        .next { t with link := { s.link with msixPending := s.link.msixPending ++ [(e.port, e.vec)] } }))

/-- Records are pulled as they stand and admitted as tasks. -/
def Obligations.RecordsEnter : Prop :=
  Claims.RecordsArePulled ∧ Claims.RecordsAreAdmitted

/-- R72, R76: a task leaves WAITHAZ when no earlier task holds it: a read or a write after a write waits for the end of the write-back, a
write after a read until the reader has entered DRAIN. A marker is done. -/
def Sys2Proof.Claims.HazardsAreReleased : Prop :=
  ∀ (tid : Nat) (k : Task) (s : State), s.task? tid = some k → k.st = .waithaz → s.arbRuns = true →
    (∀ e ∈ s.sched.tasks.takeWhile fun j => j.tid != tid,
      (e.st = .done ∨ (e.st = .drain ∧ e.drainDies = [] ∧ s.taskWrites e.tid = false)) ∨
      ((∀ a ∈ e.deckles, ∀ b ∈ k.deckles, a.w = true → a.overlap b = none) ∧
        (e.st = .drain ∨ ∀ a ∈ e.deckles, ∀ b ∈ k.deckles, b.w = true → a.overlap b = none))) →
    exec (.hazardRelease tid) s = .next (s.setTask
      (if k.type = .marker then { k with st := .done } else { k with st := .ready, since := s.boot.time.getD 0 0 }))

/-- R72, R86, R88, R89, R94: a set whose places are free gets them, and enters PLACED; a set that has been stabled gets cores again. -/
def Sys2Proof.Claims.SetsArePlaced : Prop :=
  ∀ (tid set : Nat) (spots : List TeamSpot) (cwbase : Nat) (k : Task) (x : TeamSet) (s : State), s.task? tid = some k → s.arbRuns = true →
    k.placeable = true → s.mayGo k = true → k.nextSet = some x → x.k = set →
    let placed (i : Instr) (t : State) (resume : Bool) : Prop :=
      exec i s = .next t ∧ t.teams.length = s.teams.length + spots.length ∧ t.mem = s.mem ∧ t.groups = s.groups ∧
      ∃ k', t.task? tid = some k' ∧ k'.st.waits = false ∧ ∀ y ∈ k'.sets, y.k = set → y.st = .placed (spotDies spots) resume ∧ y.reserved = none
    (x.st = .unplaced → ∀ t, s.place k set spots cwbase = some t → placed (.taskPlace tid set spots cwbase) t false) ∧
    (x.st = .stabled → ∀ t, s.resumeAt k set spots = some t → placed (.taskResume tid set spots) t true)

/-- R86: a task that has waited more than 4 ms at effective priority 7 has a place reserved for each team of its next set, on cores that take
teams. -/
def Sys2Proof.Claims.LongWaitsReserveCores : Prop :=
  ∀ (tid set : Nat) (k : Task) (x : TeamSet) (s : State), s.task? tid = some k → s.arbRuns = true → k.placeable = true →
    (k.sets.find? fun y => y.st.off && s.unreserved y) = some x → x.k = set → (11 - k.prio) * 1000000 < s.waitedNow k →
    let h := k.hint set
    (∃ u ∈ (if h.strict then s.namedUnits k.launch.coloc h else s.units k.launch.coloc), (s.reserveIn k set u).isSome = true) →
    ∃ (t : State) (r : Reserve), exec (.ageingReserve tid set) s = .next t ∧ t = { s with sched := t.sched } ∧
      t.task? tid = some { k with sets := k.sets.map fun y => if y.k = set then { y with reserved := some r } else y } ∧
      r.spots.length = (if s.savedOf tid set = [] then (k.launch.setTeams set).length else (s.savedOf tid set).length) ∧
      ∀ p ∈ r.spots, s.coreOpen p.core = true

/-- Tasks leave WAITHAZ, sets are placed or resumed, long waiters reserve cores. -/
def Obligations.SetsAreScheduled : Prop :=
  Claims.HazardsAreReleased ∧ Claims.SetsArePlaced ∧ Claims.LongWaitsReserveCores

/-- R80: an edge invalidation leaves the die no copy of a deckled line of the task, but for those it received by couch. -/
def Sys2Proof.Claims.EdgesAreInvalidated : Prop :=
  ∀ (tid die : Nat) (k : Task) (s : State), s.task? tid = some k → s.siteRuns (.die die) = true → s.fillsInto k die = false →
    (∃ x ∈ k.sets, ∃ ds r, x.st = .placed ds r ∧ die ∈ ds) →
    ∃ t : State, exec (.edgeInvalidate tid die) s = .next t ∧
      t.task? tid = some { k with sets := k.sets.map fun x => match x.st with
        | .placed ds r => { x with st := .placed (ds.erase die) r }
        | _ => x } ∧
      ∀ l ∈ t.mem.lines, nodeDie l.node = some die → l.a.asid = k.asid → l.attr.dk = true →
        (∃ d ∈ k.deckles, d.base < (l.a.line + 1) * 256 ∧ l.a.line * 256 < d.base + d.extent) → (die, l.a.line) ∈ k.couched

/-- R159, R234: when the invalidations of a set have ended, its teams start: every group at CODE + ENTRY with all its lanes enabled, tiles
at +0.0, and barriers at generation 0. -/
def Sys2Proof.Claims.TeamsStart : Prop :=
  ∀ (tid set : Nat) (k : Task) (x : TeamSet) (s : State), s.task? tid = some k → (k.sets.find? fun y => y.k == set) = some x →
    x.st = .placed [] false → k.faulted = false → k.couchOf = none → s.taskWrites tid = false → s.couching tid = false →
    (k.sysEdge = true → s.mem.backInv = []) →
    let ts := s.teams.filter fun t => t.tid == tid && t.set == set
    (ts.any fun t => s.invToward t.core 4) = false → (ts.all fun t => s.siteRuns (.die t.core.die) && s.roomFor ts t.core) = true →
    ∃ u : State, exec (.teamStart tid set) s = .next u ∧
      (∀ t ∈ ts, ∀ n, n < k.launch.ngrp → ∃ g ∈ u.groups, g.id = ⟨tid, t.team, n⟩ ∧
        g.pc = BitVec.ofNat 64 (k.launch.code + k.launch.entry) ∧ g.widx = 0 ∧ g.exm = BitVec.ofNat 64 (2 ^ k.launch.lanes - 1) ∧
        g.msdepth = 0 ∧ g.flags = ⟨false, false, false, false⟩ ∧ g.batch = 1 ∧ g.trap.active = false ∧ g.stat = .ready ∧ g.wait = none) ∧
      (∀ t ∈ u.teams, t.tid = tid → t.set = set → t.started = true ∧ t.tiles = List.replicate k.launch.nacc (List.replicate 1024 0)) ∧
      (∀ t ∈ ts, ∀ l ∈ (u.core t.core).icache, l.asid ≠ k.asid)

/-- R63, R90, R94, R187, R189, R190: a mill is assigned with its local memory zero, runs from CODE + ENTRY when it is loaded, is saved to its block
with its locks released, and is restored. -/
def Sys2Proof.Claims.MillsComeAndGo : Prop :=
  ∀ (tid rank : Nat) (r : MillRef) (k : Task) (m : Mill) (s : State), s.siteRuns (.tower r.tower) = true →
    (s.task? tid = some k → k.millReady = true → bit k.launch.towmask r.tower = true → k.assigned r.tower < k.launch.nmill →
      s.millIdle r = true → s.millRoom k r.tower = true → s.millMayGo k r.tower = true → s.mem.failedTowers.contains r.tower = false →
      ∃ (t : State) (n : Mill), exec (.millAssign tid r) s = .next t ∧ t.mills = s.mills ++ [n] ∧ n.id = r ∧ n.tid = tid ∧ n.m = k.assigned r.tower ∧
        n.st = .load ∧ n.loc = [] ∧ n.buf = [] ∧ t.mem = s.mem) ∧
    (s.mill? r = some m → s.task? m.tid = some k → m.st = .load → exec (.millLoadComplete r) s = .next ((s.setMill { m with
      st := .run, pc := BitVec.ofNat 64 (k.launch.code + k.launch.entry), since := s.now (.tower r.tower) }).settleMills m.tid)) ∧
    (∀ fid t, s.mill? r = some m → s.task? m.tid = some k → k.faulted = false → m.st = .save fid → m.rowBusy = [] → m.stall.sent = false →
      s.blockWrite (s.towerHomeOf m.id.tower) k.asid m.block 0 (s.millBlock ⟨m, k⟩) = .ok () t →
      ∃ u : State, exec (.millPreempt r) s = .next u ∧ u.mills = (t.mills.filter fun x => x.id != m.id) ∧ (∀ l ∈ u.mem.locks, l.holder ≠ m.id) ∧
        u.sched.savedMills = t.sched.savedMills ++ [⟨k.tid, m.id.tower, m.m, m.block, fid, m.faultVa, m.bad⟩]) ∧
    (∀ x b t, s.task? tid = some k → k.millReady = true → s.millIdle r = true → s.millMayGo k r.tower = true →
      (s.sched.savedMills.find? fun y => y.tid == tid && y.tower == r.tower && y.m == rank) = some x →
      s.blockRead (s.towerHomeOf r.tower) k.asid x.block 0 131072 = .ok b t → bit (fld b 0x0A 2) 0 = false ∨ bit (fld b 0x0A 2) 4 = false →
      ∃ u : State, exec (.millRestore tid rank r) s = .next u ∧ u.mills = t.mills ++ [{ x.restore r b with since := t.now (.tower r.tower) }] ∧
        u.sched.savedMills = t.sched.savedMills.erase x)

/-- Edges are invalidated, teams start, mills are assigned, saved and restored. -/
def Obligations.TeamsAndMillsStart : Prop :=
  Claims.EdgesAreInvalidated ∧ Claims.TeamsStart ∧ Claims.MillsComeAndGo

/-- R72, R91, R92: the first victim in the order of R91 is taken when that frees enough; the sequence then goes from step to step, and ends
with the set stabled and its resources free. -/
def Obligations.PreemptionRuns : Prop :=
  ∀ (tid vtid vset : Nat) (k v : Task) (x : TeamSet) (rest : List (Task × TeamSet)) (s : State), s.task? vtid = some v →
    (v.sets.find? fun y => y.k == vset) = some x → v.st = .running ∨ v.st = .preempt ∨ v.st = .placed → s.arbRuns = true →
    let now (t : State) (n : SetSt) : Prop := ∃ v', t.task? vtid = some v' ∧ ∀ y ∈ v'.sets, y.k = vset → y.st = n
    let gs := s.setGroups vtid vset
    let ts := s.teams.filter fun t => t.tid == vtid && t.set == vset
    (s.task? tid = some k → k.st = .ready → k.placeable = true → s.victims k.prio = (v, x) :: rest →
      (s.without s.leaving).canPlace k = false → (s.without (s.leaving ++ [(vtid, vset)])).canPlace k = true → s.spaceFor [(v, x)] = true →
      (∀ bs, x.st = .running → s.stableSpace v vset = some bs →
        ∃ t : State, exec (.preemptChoose tid vtid vset) s = .next t ∧ now t (.preempt 1) ∧ t.mem = s.mem ∧ t.groups = s.groups) ∧
      (∀ ds r, x.st = .placed ds r →
        ∃ t : State, exec (.preemptChoose tid vtid vset) s = .next t ∧ now t (if r then .stabled else .unplaced) ∧
          ∀ u ∈ t.teams, u.tid = vtid → u.set ≠ vset)) ∧
    (v.faulted = false → (ts.all fun t => s.siteRuns (.die t.core.die)) = true →
      (x.st = .preempt 1 → (∀ g ∈ gs, g.midWord = false ∧ g.stat ≠ .exiting ∧ ∀ a b c, g.wait ≠ some (.wfa a b c)) →
        ∃ t : State, exec (.preemptSequence vtid vset) s = .next t ∧ now t (.preempt 2) ∧ t.groups = s.groups ∧ t.mem = s.mem ∧
          ∀ u ∈ t.teams, u.tid = vtid → u.set = vset → u.started = false) ∧
      (x.st = .preempt 2 → (∀ c ∈ s.cores, ∀ q ∈ c.cq, q.g.tid = vtid → q.state ≠ .queued ∧ q.state ≠ .active) →
        ∃ t : State, exec (.preemptSequence vtid vset) s = .next t ∧ now t (.preempt 3) ∧ t = { s with sched := t.sched }) ∧
      (x.st = .preempt 5 → ∃ t : State, exec (.preemptSequence vtid vset) s = .next t ∧ now t (.preempt 6) ∧ t.groups = s.groups)) ∧
    (x.st = .preempt 6 → (∀ m ∈ s.mem.net, ∀ a n b c d o, m.body = .wbDirty a n b c d o → o = .none) →
      ∃ t : State, exec (.preemptComplete vtid vset) s = .next t ∧ now t .stabled ∧ t.mem = s.mem ∧
        ∀ u ∈ t.teams, u.tid = vtid → u.set ≠ vset)

/-- R72, R73, R80: a task whose every team has exited enters DRAIN; a die of it whose dirty lines are home leaves the drain; a task that
has faulted is taken off its cores and mills. -/
def Sys2Proof.Claims.TasksDrain : Prop :=
  ∀ (tid die : Nat) (k : Task) (s : State), s.task? tid = some k →
    (k.st = .running → k.faulted = false → s.arbRuns = true → s.finished k = true → k.succN = 0 → k.couchTo = [] → (k.type = .mill → k.sysDone = false) →
      ∃ t : State, exec (.taskDrain tid) s = .next t ∧ t.task? tid = some { k with st := .drain, drainDies := k.dies, couchPlan := [] } ∧
        t.mem = s.mem ∧
        ∀ m ∈ t.mills, m.tid ≠ tid) ∧
    (k.st = .drain → die ∈ k.drainDies → s.siteRuns (.die die) = true → s.wLines k.asid die = [] →
      (s.nibblesOut die fun a => a.asid == k.asid) = false → k.sysDone = false →
      (∀ d ∈ k.deckles, d.couch = false) →
      ∃ t : State, exec (.edgeWriteback tid die) s = .next t ∧ t.task? tid = some { k with drainDies := k.drainDies.erase die } ∧
        ∀ l ∈ t.mem.lines, l.node = .l2 die → l.a.asid = k.asid → l.attr.dk = true →
          (∃ d ∈ k.deckles, d.w = true ∧ d.base < (l.a.line + 1) * 256 ∧ l.a.line * 256 < d.base + d.extent) → l.dirty = 0) ∧
    (k.faulted = true → k.st = .running → s.ended k = false → s.frozen = false → s.millBusy tid = false → s.hostsRun tid = true →
      (∀ g ∈ s.groups, g.id.tid = tid → g.midWord = false) →
      (∀ c ∈ s.cores, ∀ q ∈ c.cq, q.g.tid = tid → q.state ≠ .queued ∧ q.state ≠ .active) →
      ∃ t : State, exec (.taskFaultEnd tid) s = .next t ∧ (∀ g ∈ t.groups, g.id.tid ≠ tid) ∧ (∀ x ∈ t.teams, x.tid ≠ tid) ∧
        (∀ m ∈ t.mills, m.tid ≠ tid) ∧ t.mem.dram = s.mem.dram ∧
        t.task? tid = some { k with sets := k.sets.map fun x => { x with st := .exited, reserved := none } })

/-- R66, R74, R75, R416: a task's end stores its completion word, or logs that it could not; then its successors are decremented, or doomed,
and the arbiter forgets it. The stable pool's registers take a write while no block of it is allocated. -/
def Sys2Proof.Claims.TasksComplete : Prop :=
  ∀ (tid off : Nat) (v : BitVec 64) (k : Task) (s : State), s.task? tid = some k → s.arbRuns = true →
    let ok := (match k.status with | .ok => !k.faulted | _ => false)
    let st := (match k.status with | .ok => if k.faulted then TStatus.fault else .ok | x => x)
    let done (t : State) : State := (t.setTask { k with st := .done, status := st, completed := true }).freeTargets tid ok
    (s.mayEnd k = true →
      (∀ t, k.cwaddr % 8 = 0 → k.irq = false → k.loc ≠ 2 →
        s.ownWrite s.arbHome k.asid k.cwaddr
          (leBytes 8 (tid * 2 ^ 32 + (if st = .fault then k.fcode * 2 ^ 16 else 0) + st.code * 2 ^ 8 + 1)) = .ok () t →
        exec (.taskDone tid) s = .next (done (if k.cscope = 5 then t.sendBackInv else t))) ∧
      (tid ≠ 0xFFFFFFFF → k.irq = false → exec (.completionStoreFail tid) s = .next (done (s.logArbiter 0x11 tid k.cwaddr
        ((if st = .fault then k.fcode else 0) + st.code * 2 ^ 8 + 0x0C * 2 ^ 16))))) ∧
    (k.st = .done → k.completed = true → s.sched.pending.length ≤ 16384 → k.succN = 0 →
      exec (.successorListRead tid) s = .next { s with sched := { s.sched with tasks := s.sched.tasks.filter fun j => j.tid != tid } }) ∧
    (∀ e j t, k.st = .done → k.completed = true → k.couchTo = [] → s.readList k.asid k.succAddr k.succN = .ok [e] t →
      t.sched.pending.length ≤ 16384 → e < 2 ^ 40 →
      (t.sched.known.find? fun x => x.q == bits e 39 32 && x.index == bits e 31 0) = some ⟨bits e 39 32, bits e 31 0, some j.tid⟩ →
      t.task? j.tid = some j → j.tid ≠ tid → j.st = .waitdep → 1 < j.depcnt →
      ∃ u : State, exec (.successorListRead tid) s = .next u ∧ u.task? tid = none ∧
        u.task? j.tid = some { j with depcnt := j.depcnt - 1, doomed := j.doomed || k.status != .ok, sysEdge := j.sysEdge || k.cscope == 5 }) ∧
    (off = 0x00400020 ∨ off = 0x00400028 →
      (s.poolTakes = [] → exec (.stablePoolWrite off v) s = .next
        (s.regWrite off v.toNat (if off = 0x00400020 then (2 ^ 7 - 1) * 2 ^ 40 + (2 ^ 20 - 1) * 2 ^ 16 else 2 ^ 32 - 1))) ∧
      (s.poolTakes ≠ [] → exec (.stablePoolWrite off v) s = .next s))

/-- Finished tasks drain, complete, release their successors and are forgotten; faulted tasks are taken off. -/
def Obligations.TasksEnd : Prop :=
  Claims.TasksDrain ∧ Claims.TasksComplete

/-- R107, R110, R111: what a level of the hierarchy does with a request of a child when it has the line and no other child holds it: a read
is answered with Data and the child is recorded in S, a write or a registration makes the child the one holder, in M; a deckled line is
answered without a record, and a refused access with its code. -/
def Obligations.LevelsAnswerRequests : Prop :=
  ∀ (j d : Nat) (m : Msg) (a : LineId) (k : Node) (r : Req) (e : Line) (s t : State), s.takeMsg j = some (m, t) →
    parentNode k a m.dst = .l2 d → t.mem.line? (.l2 d) a = some e → t.lineBusy (.l2 d) k a none = false → t.lineBusy (.l2 d) k a (some e.attr.place) = false →
    t.dieFailed (nodeSite k) = false → (∀ q ∈ e.kids, q.node = k ∧ q.a = a) →
    let asked (b : Body) (i : Instr) : Prop := m.body = b →
      (∀ c, e.attr.refuses r.acc r.priv = some c → exec i s = .next (t.respond m .rsp (.refuse a k r c false))) ∧
      (e.attr.refuses r.acc r.priv = none → e.attr.dk = true → exec i s = .next (t.respond m .rsp (.data a (.l2 d) k r e.val e.attr)))
    let held (b : Body) (i : Instr) (st : LState) : Prop := m.body = b → ∃ (u : State) (l : Line), exec i s = .next u ∧ u.mem.line? (.l2 d) a = some l ∧
      l.kids = [⟨k, a, st⟩] ∧ l.val = e.val ∧ l.dirty = e.dirty ∧ (st = .m → l.st = (match e.st with | .s => .w | .e => .m | x => x)) ∧
      ∃ n ∈ u.mem.net, n.cls = .rsp ∧ n.dst = m.src ∧ n.tag = m.tag ∧ (match n.body with
        | .data b f dest q v at' => st = .s ∧ b = a ∧ f = .l2 d ∧ dest = k ∧ q = r ∧ v = e.val ∧ at' = e.attr
        | .dataX b f dest q v mask _ at' => st = .m ∧ b = a ∧ f = .l2 d ∧ dest = k ∧ q = r ∧ at' = e.attr ∧ lineMerge 0 v mask = lineMerge 0 e.val mask
        | _ => False)
    asked (.getS a k r) (.gets j) ∧ asked (.getX a k r) (.getx j) ∧
    (e.attr.refuses r.acc r.priv = none → e.attr.dk = false →
      held (.getS a k r) (.gets j) .s ∧ (e.st ≠ .o → held (.getX a k r) (.getx j) .m) ∧
      (e.st ≠ .o → e.kids ≠ [] → held (.upgr a k r) (.upgr j) .m))

/-- R109, R110, R414: what an L1 does with a forward, a recall or an invalidation: FwdS leaves an owner in O and sends its data to the requester, FwdX and
Recall take the line with its nibbles, a copy in E sending none, and Inv takes it with the nibbles of a copy in W and with none of a copy
in S or E. Every other answer goes to the sender and echoes what its message bears. -/
def Sys2Proof.Claims.HoldersAnswerForwards : Prop :=
  ∀ (j : Nat) (c : CoreId) (m : Msg) (a : LineId) (par : Node) (r : Req) (e : Line) (s t : State), s.takeMsg j = some (m, t) →
    t.mem.line? (.l1 c) a = some e → e.kids = [] → t.mem.txnsAt (.l1 c) a = [] → t.mem.filling (.l1 c) a = false → t.pins (.l1 c) a = false →
    let up := parentNode (.l1 c) a m.src
    let site := if t.dieFailed (nodeSite r.node) then m.src else nodeSite r.node
    let sent (b : Body) (i : Instr) (keeps : Option Line) (answer : Body) : Prop := m.body = b →
      ∃ u : State, exec i s = .next u ∧ u.mem.line? (.l1 c) a = keeps ∧
        u.mem.net = t.mem.net ++ [⟨.rsp, m.dst, m.src, m.dst, m.tag, m.reqWm, t.wm m.dst, answer⟩]
    (e.st = .m ∨ e.st = .o →
      (m.body = .fwdS a (.l1 c) r → ∃ u : State, exec (.fwds j) s = .next u ∧ u.mem.line? (.l1 c) a = some { e with st := .o } ∧
        u.mem.net = t.mem.net ++ [⟨.rsp, m.dst, site, m.dst, 0, t.wm site, t.wm m.dst, .data a (.l1 c) up r e.val e.attr⟩]) ∧
      sent (.fwdX a (.l1 c) r) (.fwdx j) none (.dataX a (.l1 c) up r e.val lineFull e.dirty e.attr) ∧
      sent (.recall a (.l1 c) par) (.recallMsg j) none (.dataX a (.l1 c) up (ownReq (.l1 c) a) e.val lineFull e.dirty e.attr)) ∧
    (e.st = .e → e.dirty = 0 →
      sent (.fwdX a (.l1 c) r) (.fwdx j) none (.dataX a (.l1 c) up r e.val 0 0 e.attr) ∧
      sent (.recall a (.l1 c) par) (.recallMsg j) none (.dataX a (.l1 c) up (ownReq (.l1 c) a) e.val 0 0 e.attr)) ∧
    (e.st = .s ∨ e.st = .e → sent (.inv a (.l1 c) par) (.inv j) none (.invAck a (.l1 c) par 0 0)) ∧
    (e.st = .w → sent (.inv a (.l1 c) par) (.inv j) none (.invAck a (.l1 c) par e.val e.dirty))

/-- R32, R110: Data fills an L1 in S and DataX in M; an acknowledgement is one less to wait for. -/
def Sys2Proof.Claims.AnswersLand : Prop :=
  ∀ (j : Nat) (c : CoreId) (m : Msg) (a : LineId) (frm : Node) (r : Req) (val dirty : BitVec 2048) (v : Attr) (s t : State),
    s.takeMsg j = some (m, t) → (t.accept m).1 = true →
    (t.mem.txns = [] → t.mem.line? (.l1 c) a = none → r.acc ≠ .fetch → r.acc ≠ .pref →
      (m.body = .data a frm (.l1 c) r val v → ∃ u : State, exec (.data j) s = .next u ∧
        u.mem.line? (.l1 c) a = some ⟨.l1 c, a, .s, [], val, 0, v, t.now (.die c.die)⟩) ∧
      (r.acc ≠ .writeback → m.body = .dataX a frm (.l1 c) r val lineFull dirty v → ∃ u : State, exec (.datax j) s = .next u ∧
        u.mem.line? (.l1 c) a = some ⟨.l1 c, a, .m, [], val, dirty, v, t.now (.die c.die)⟩)) ∧
    (∀ k par x, m.body = .invAck a k par val dirty → (t.mem.txns.find? fun y => y.node == par && y.waitFor.contains (k, a)) = some x →
      (x.waitFor.filter fun w => w != (k, a)) ≠ [] → ∃ u : State, exec (.invack j) s = .next u ∧
        { x.takeLoose val dirty with waitFor := x.waitFor.filter fun w => w != (k, a) } ∈ u.mem.txns ∧ u.mem.dram = t.mem.dram)

/-- R103, R104, R110, R111, R121, R186, R198: a write-back merges its nibbles at the home; a copy in W registers; a clean line of an L1 leaves
without a message, and a line that its L2 includes hands its dirty nibbles to it, but for a copy in W beside a registered holder, whose
nibbles go home (log entry 33); a tower-cache line leaves; a walk that ends in a code
refuses the request that waited for it. -/
def Sys2Proof.Claims.LinesLeave : Prop :=
  ∀ (j h line : Nat) (m : Msg) (a : LineId) (n : Node) (c : CoreId) (val mask : BitVec 2048) (o : WbOwner) (v : Attr) (l : Line) (s t t' : State),
    (s.takeMsg j = some (m, t) → m.body = .wbDirty a n val mask false o → m.dst = .tower h → t.homeStalls h a.asid (a.line * 256) = false →
      t.translateNow h a.asid (a.line * 256) .writeback true = (.ok v, t') → (v.tier = 0 → t'.bankHeld v.home v.pa = false) →
      (∀ d e, nodeDie n = some d → t'.mem.line? (.slice (sliceOf (dieSheet d) a.line)) a = some e → e.st ≠ .w) →
      exec (.wbdirty j) s = .next (((t'.toLender v.place .wb).mapMem fun x => x.forget n a).mapMem fun x => x.placeWrite v.place val mask)) ∧
    (s.canRegister (.l1 c) a = true → s.siteRuns (.die c.die) = true → exec (.wRegistrationTimer (.l1 c) a.asid a.line) s =
      .next (s.send .req (.die c.die) (.die c.die) (.upgr a (.l1 c) ⟨.l1 c, .write, true, a.line * 256, none⟩))) ∧
    (s.mem.line? (.l1 c) a = some l → s.canEvict (.l1 c) a = true →
      (l.dirty = 0 → l.st = .s ∨ l.st = .e → exec (.lineEviction (.l1 c) a.asid a.line .clean) s = .next (s.mapMem fun x => x.dropLine (.l1 c) a)) ∧
      (∀ e, s.mem.line? (.l2 c.die) a = some e → e.attr.dk = false → l.attr.dk = false → l.dirty ≠ 0 →
        ∃ (u : State) (e' : Line), exec (.lineEviction (.l1 c) a.asid a.line .clean) s = .next u ∧ u.mem.line? (.l1 c) a = none ∧
          u.mem.line? (.l2 c.die) a = some e' ∧ u.mem.dram = s.mem.dram ∧
          (s.unshared c l = false → e'.val = lineMerge e.val l.val l.dirty ∧ e'.dirty = e.dirty ||| l.dirty) ∧
          (s.unshared c l = true → e'.val = e.val ∧ e'.dirty = e.dirty)) ∧
      (∀ ecc u, ecc ≠ .clean → s.evictLine (.l1 c) a.asid a.line = some u →
        let t := s.found ecc (some (.line (.l1 c) a))
        exec (.lineEviction (.l1 c) a.asid a.line ecc) s = .next ((t.evictLine (.l1 c) a.asid a.line).getD t))) ∧
    (∀ x, (s.mem.tcSet h line).getLast? = some x → x.line = line → s.bankHeld h (line * 256) = false → s.siteRuns (.tower h) = true →
      exec (.towerCacheEviction h line) s = .next (s.mapMem fun y => y.tcDrop h line)) ∧
    (∀ i r, s.mem.net[j]? = some m → m.body = .getS a (.slice i) r → m.dst = .tower h → m.at' = m.dst → s.siteRuns m.dst = true →
      s.homeStalls h a.asid (a.line * 256) = false → s.translate h a.asid (a.line * 256) r.acc r.priv = .walk →
      (s.walkFor h a.asid (a.line * 256) r.acc r.priv = (none, t) → exec (.pageWalk j) s = .next t) ∧
      (∀ code, s.walkFor h a.asid (a.line * 256) r.acc r.priv = (some code, t) → exec (.pageWalk j) s =
        .next ((t.mapMem fun x => { x with net := x.net.erase m }).respond m .rsp (.refuse a (.slice i) r (t.mem.lostFirst h a code) false))))

/-- What an L1 does with forwards, recalls, invalidations and answers, and how lines leave. -/
def Obligations.LinesMove : Prop :=
  Claims.HoldersAnswerForwards ∧ Claims.AnswersLand ∧ Claims.LinesLeave

/-- R99, R145, R151, R197, R198, R305, R311, R362: a load commits when its data has come, what it finds in the line having had its effect; an atomic, a reduction and an ldt or stt are performed at the
home, whose copy no owner holds any more, and an access of another cluster at the hub, and each is answered with the value it read. -/
def Obligations.HomesPerform : Prop :=
  ∀ (j h : Nat) (m : Msg) (g : GroupRef) (c : CoreId) (asid : Nat) (p : Bool) (o : LaneOp) (v : Attr) (s t t' : State),
    (∀ (u' u : Issuer) (w : LoadWord) (ecc : Ecc), s.issuerOf g = some u' → u'.g.stall.load = some w → u'.g.stall.asked = [] →
      u'.g.stall.sent = false → w.space = .glob → w.scalar = false → w.m.order.val = 0 →
      let y := s.found ecc (u'.loadUnit w)
      y.issuerOf g = some u → u.g = u'.g → u.gate y (u.addrs false w.base w.off) w.bytes .read false = none →
      let x := u.touchAll y ((u.addrs false w.base w.off).map fun a => vaOf a.2)
      exec (.loadResponse g ecc) s = .next ((x.trimL1 u.t.core).committed u (1 + w.base.nlit + w.off.nlit)
        (u.g.pushWords u.w w.d (max 1 (w.bytes / 4)) fun i =>
          extend w.bytes w.sext (u.readL1 x (vaOf (u.g.addrPart w.base i + u.g.addrPart w.off i)) w.bytes)))) ∧
    (s.takeMsg j = some (m, t) → t.coreOf g = some c → t.mem.dieHome c.die asid o.addr = some h → t.homeStalls h asid o.addr = false →
      (∀ acc, t.homeLanes c.die asid p (t.task? g.tid) acc [o] = ([(o, v)], [], t') → (v.tier = 0 → t'.bankHeld v.home v.pa = false) →
        (v.dk = false → t'.copyHolds v.place = false ∧ t'.homeQuiet v.place = true ∧ t'.homeOwned v.place = false) →
        let x := (if v.dk then t' else t'.homeClear v.place).touch v.place
        let old := lineNat (x.mem.placeLine v.place) (o.addr % 256) o.bytes
        let y := match o.op with
          | some (some op) => (match atomNew op old o.x o.y with
            | some n => x.mapMem fun z => z.placeWrite v.place (linePlace (o.addr % 256) n) (lineMask (o.addr % 256) o.bytes)
            | none => x)
          | _ => x
        (acc = .atomic → m.body = .homeAtomic g asid p [o] → exec (.homeAtomic j) s = .next (y.respond m .rsp (.homeRsp g [old] []))) ∧
        (acc = .red → m.body = .nearRed g asid p [o] → exec (.nearMemoryReduction j) s = .next (y.respond m .rsp (.homeRsp g [old] []))))) ∧
    (∀ x, s.takeMsg j = some (m, t) → m.body = .window g [o] → t.team? g.tid g.team = some x →
      let at' := (x.cwDie * 32 + x.cwCluster) * 2 ^ 21 + o.addr
      let old := t.mem.window.nat at' o.bytes
      (o.op ≠ some none → exec (.clusterWindowAccess j) s = .next (t.respond m .rsp (.windowRsp g [old]))) ∧
      (o.op = some none → exec (.clusterWindowAccess j) s = .next ((t.mapMem fun y => { y with
        window := y.window.write at' (mergeBytes old o.x o.nibs o.bytes)
        winBad := clearBad y.winBad at' o.bytes }).respond m .rsp (.windowRsp g [old])))) ∧
    (∀ (r : MillRef) (va : Nat) (wr : Option Nat), s.takeMsg j = some (m, t) → m.body = .millAcc r asid p va wr → m.dst = .tower h →
      t.homeStalls h asid va = false → t.ownLock r h asid va p wr.isSome = false →
      t.meet h asid va 8 (if wr.isSome then .write else .read) p ((t.mill? r).bind fun x => t.task? x.tid) = (.ok v, t') →
      (v.tier = 0 → t'.bankHeld v.home v.pa = false) → t'.rowNames r asid v.place = false →
      (v.dk = false → t'.copyHolds v.place = false ∧ t'.homeQuiet v.place = true ∧ t'.homeOwned v.place = false) →
      let u := t'.touch v.place
      let val := if v.dk then u.mem.placeLine v.place else u.mem.newest v.place
      (wr = none → exec (.millLdtSttAtHome j) s = .next (u.respond m .rsp (.millRsp r (lineNat val (va % 256) 8) 0 false))) ∧
      (∀ x, wr = some x →
        let w := if v.dk then u.mapMem fun y => y.placeWrite v.place (linePlace (va % 256) x) (lineMask (va % 256) 8)
          else u.homeWrite v.place (linePlace (va % 256) x) (lineMask (va % 256) 8)
        exec (.millLdtSttAtHome j) s = .next (w.respond m .rsp (.millRsp r 0 0 true)))) ∧
    (∀ (r : MillRef) (u : MillIssuer) tier tower pa val limit, s.millIssuerOf r = some u → u.m.wait = some (.mpark tier tower pa val limit) →
      exec (.mparkWake r) s = .next (s.setMill { u.m with pc := u.m.pc + 4, wait := none, stall := MemStall.none }))

/-- R67, R126, R127, R128, R130, R202, R203: a promotion is ignored, refused or accepted, and ends with a notice; fault records and error records go
to their rings with an MSI-X message, or are counted as dropped. -/
def Obligations.PostsAndPromotions : Prop :=
  ∀ (tower : Nat) (v : BitVec 64) (f : FaultRec) (l : LogRec) (p : Promotion) (s : State), (s.mgmt.map fun e => e.1).Pairwise (· < ·) →
    let off := 0x00410000 + 0x100 * tower
    let notified (o : Nat) (t : State) : Prop :=
      let w := (bits (s.reg o) 23 22, bits (s.reg o) 10 0)
      if s.link.msixOpen.contains w then t.out = s.out ++ [.msix w.1 w.2] else t.out = s.out ∧ w ∈ t.link.msixPending
    let cfg := s.reg off
    let tgt := s.reg (off + 8)
    let va := bits v.toNat 56 21 * 2 ^ 21
    let full := if bit v.toNat 56 then va + (2 ^ 7 - 1) * 2 ^ 57 else va
    (tower < 72 → (bit cfg 31 = true ∨ bit tgt 63 = false → exec (.promreqWrite tower v) s = .next s) ∧
      (bit cfg 31 = false → bit tgt 63 = true → s.siteRuns (.tower tower) = true →
        (s.promEntries tower (bits cfg 15 0) full = none → ∃ t : State, exec (.promreqWrite tower v) s = .next t ∧ bits (t.reg off) 30 28 = 2 ∧
          t = { s with mgmt := t.mgmt }) ∧
        (∀ tt pa es, s.promEntries tower (bits cfg 15 0) full = some (tt, pa, es) → ∃ t : State, exec (.promreqWrite tower v) s = .next t ∧
          bit (t.reg off) 31 = true ∧ bit (t.reg (off + 8)) 63 = false ∧
          t.mem.promos = s.mem.promos ++ [⟨tower, bits cfg 15 0, va, bits tgt 19 0, tt, pa, es⟩]))) ∧
    ((s.mem.promos.find? fun q => q.tower == tower) = some p → s.siteRuns (.tower tower) = true → s.mem.failedTowers.contains tower = false →
      s.promQuiet p = true → s.promBanks p = true → ∃ (t : State) (n : FaultRec), exec (.promotionComplete tower) s = .next t ∧ t.mem.promos = s.mem.promos.erase p ∧
        t.faults = s.faults ++ [n] ∧ n.tid = 0xFFFFFFFF ∧ n.kind = 0x80 ∧ n.code ≤ 1 ∧ n.site = tower) ∧
    (s.mem.borrowed = [] →
      (s.faults = [f] → f.npage = 1 → s.faultRoom ≠ 0 → s.siteRuns f.agent = true → s.mem.failedTowers.contains (ringTower (s.reg 0x00400008)) = false →
        ∃ t : State, exec (.faultRecordPost f.fid) s = .next t ∧ t.faults = [] ∧ t.reg 0x0040001C = (s.reg 0x0040001C + 1) % 2 ^ 32 ∧
          notified 0x00400010 t) ∧
      (∀ rest, s.log = l :: rest → s.sheetRuns l.sheet = true → bit (s.reg 0x00800008) 30 = false →
        (s.logRoom = true → ∃ t : State, exec .errorRecordPost s = .next t ∧ t.log = rest ∧ t.reg 0x00800014 = (s.reg 0x00800014 + 1) % 2 ^ 32 ∧
          notified 0x00800008 t) ∧
        (s.logRoom = false → exec .errorRecordPost s = .next
          ({ s with log := rest }.setReg 0x00800018 (min (2 ^ 32 - 1) (s.reg 0x00800018 + 1))))))

/-- R268, R284, R287: a word of the ALU class changes nothing but its own group, and at most its task's fault. -/
def Obligations.AluWordsKeepTheRest : Prop :=
  ∀ (i : Instr) (s t : State) (u : Issuer), i.ctx = some (.clause .alu) → s.issuer = some u → s.residue = .clean → exec i s = .next t →
    t.mem = s.mem ∧ t.teams = s.teams ∧ t.cores = s.cores ∧ t.mills = s.mills ∧ t.mgmt = s.mgmt ∧ t.link = s.link ∧ t.boot = s.boot ∧
    t.out = s.out ∧ (∀ r, r ≠ u.g.id → t.group? r = s.group? r) ∧ ∀ n, n ≠ u.k.tid → t.task? n = s.task? n

/-- Every well-formed word decodes from its own encoding, alone and, where it need not stand last, followed by any other words; an ALU word
does so in every class whose own map does not list its opcode. -/
def Obligations.DecodeReadsEveryEncoding : Prop :=
  ∀ (i : Instr) (c : Ctx) (rest : List W32), i.ctx = some c → i.wf = true →
    let last := c = .clause .ctl ∧ isTransferOp (((i.encode).headD 0).toNat / 2 ^ 24) = true
    decode c i.encode = .ok i [] ∧
    (¬last → decode c (i.encode ++ rest) = .ok i rest) ∧
    ∀ k : ClauseClass, c = .clause .alu → k.map (((i.encode).headD 0).toNat / 2 ^ 24) = none →
      k ≠ .ctl ∨ isTransferOp (((i.encode).headD 0).toNat / 2 ^ 24) = false → decode (.clause k) (i.encode ++ rest) = .ok i rest

/-- R219, R220, R223 to R228, R276, R327, R339, R356, R357: words written out in the spec's own examples decode to the instructions they stand for. -/
def Obligations.WrittenWordsDecode : Prop :=
  let is (c : Ctx) (ws : List W32) (i : Instr) : Prop := decode c ws = .ok i []
  let cr : MemMods := ⟨0, 0, false⟩
  is .header [0x33E000A5] (.clauseHeader 3 1 15 false false) ∧
  is .header [0x13E800A5] (.clauseHeader 1 1 15 false true) ∧
  is .header [0x45E000A5] (.clauseHeader 4 2 15 false false) ∧
  is (.clause .alu) [0x01AAAE80, 0x80] (.sadd (.s 2) (.s 2) (.lit 128)) ∧
  is (.clause .alu) [0x09AA8A40] (.sremZ (.s 2) (.s 0) (.s 1)) ∧
  is (.clause .asy) [0x18C7AE80, 0x00808400, 4] (.smovl (.s 9) 0x00808400 4) ∧
  is (.clause .mem) [0x4D5404C0] (.vand (.v 5) (.q 0) (.v 3)) ∧
  is (.clause .alu) [0x81194E83, 0x64] (.vcmpZ 6 (.v 4) (.lit 100) 3) ∧
  is (.clause .alu) [0x93C90000] (.vredaddF32 (.s 10) (.v 0)) ∧
  is (.clause .alu) [0xAB6DA640] (.vcvtF32N4 (.v 11) (.v 10) (.v 9) 0) ∧
  is (.clause .mem) [0x0452A400] (.ldB32 (.v 4) (.s 2) (.v 0) cr) ∧
  is (.clause .mem) [0x0A02E400] (.stB32 (.q 0) (.s 6) (.v 0) cr) ∧
  is (.clause .mem) [0x52CAACC0] (.sstB32 (.s 10) (.s 2) (.s 11) cr) ∧
  is (.clause .mem) [0x9000001E] (.fence 3 3) ∧
  is (.clause .mem) [0x9202AAE0] (.cwb (.s 2) (.s 3) 4) ∧
  is (.clause .asy) [0x00B2D210] (.cpy 4 5 1 0 2) ∧
  is (.clause .asy) [0x02B2D040] (.cpyg 4 5 0 1 0) ∧
  is (.clause .mtx) [0x010C31C8] (.mmaz 0 8 9 10 false false) ∧
  is (.clause .mtx) [0x05035D90] (.mdrainx 0 (.s 13) (.s 14) 16) ∧
  is (.clause .ctl) [0x0107FFF6] (.bcc 1 0x3FFF6) ∧
  is (.clause .ctl) [0x09040000] (.exif 1) ∧
  is (.clause .ctl) [0x0C0C0000] (.tbar 3) ∧
  is (.clause .ctl) [0x10140000] (.tethArr 5) ∧
  is (.clause .sys) [0x00AC000B] (.rdsys (.s 3) 0x00B) ∧
  is (.clause .sys) [0x02B00001] (.topo (.s 4) 1) ∧
  is .mill [0x00611000] (.millAdd 3 1 2) ∧
  is .mill [0x4485FFFD] (.millBne 4 5 0xFFFD) ∧
  is .mill [0x60C49105] (.millWffma 3 1 2 4 1)

/-- R164, R220, R222, R355: with nothing else due, a step runs the word that stands where its agent is: the header of the clause that a group has
fetched from its PC, the next word of that clause in the clause's class, or the word at a mill's PC. A group whose clause is in the
instruction cache takes it whole. What the outside world has put first happens first, an access that a freeze holds excepted. -/
def Obligations.StepRunsTheWord : Prop :=
  ∀ (s : State) (e : Instr) (o : Outside) (rest : List Input) (i : Instr) (ws : List W32),
    let after (a : Agent) (o : Out) : Out := match o with
      | .next t => .next (t.pass a).tick
      | .fault f => .fault f
      | .refused r => .refused r
    (s.agenda = .event e :: rest → e.ctx = none → s.frozen = false ∨ heldInFreeze e = false → step s = (match exec e { s with agenda := rest } with
      | .next t => .next t.tick
      | .fault f => .fault f
      | .refused r => .refused r)) ∧
    (s.agenda = .act o :: rest → step s = .next (State.act { s with agenda := rest } o).tick) ∧
    (∀ t, s.agenda = [] → s.internal = some t → step s = .next t.tick) ∧
    (∀ r u, s.agenda = [] → s.internal = none → s.readied.turn = some (.group r) →
      let s' := { s.readied with focus := some (.group r) }
      s'.issuerOf r = some u →
      (∀ h cs, u.g.clause = h :: cs →
        (u.g.widx = 0 → decode .header [h] = .ok i ws → step s = after (.group r) (exec i s')) ∧
        (∀ c, u.g.widx ≠ 0 → ClauseClass.ofCode (bits h.toNat 27 25) = some c → decode (.clause c) ((h :: cs).drop u.g.widx) = .ok i ws →
          step s = after (.group r) (exec i s'))) ∧
      (u.g.clause = [] → s'.clauseMissing u = [] → s'.textFaults u = [] →
        step s = after (.group r) (.next (s'.setGroup { u.g with clause := (s'.clauseWords u).filterMap (s'.textWord u) })))) ∧
    (∀ r u w, s.agenda = [] → s.internal = none → s.readied.turn = some (.mill r) →
      let s' := { s.readied with focus := some (.mill r) }
      s'.millIssuerOf r = some u → u.m.rowFault = none → u.m.textWord u.k.asid u.m.pc.toNat = some w → decode .mill [w] = .ok i ws →
      step s = after (.mill r) (exec i s'))

/-- Every step keeps the memories and the registers in their canonical form. -/
def Obligations.StepsKeepCanonicalForm : Prop := ∀ s t : State, s.Inv → step s = .next t → t.Inv

/-- R19, R22, R31, R36, R53, R71, R130, R202: what the part holds after reset; and the invariant holds there. -/
def Obligations.ResetLeaves : Prop :=
  let s := State.reset
  s.Inv ∧ s.boot.ready = false ∧ s.boot.fail = false ∧ s.boot.phase = 0 ∧ s.boot.sheetsUp = 0 ∧ s.boot.failCode = 0 ∧ s.sched.nextTid = 1 ∧
  (∀ i, i < 72 → s.reg (0x00100000 + 0x100 * i) = 1000 ∧ s.reg (0x00110000 + 0x100 * i) = 1000 ∧ s.reg (0x00100004 + 0x100 * i) = 0) ∧
  (∀ q, q < 256 → s.qEn q = false ∧ s.qLog q = 4 ∧ s.qHead q = 0 ∧ s.qTail q = 0 ∧ s.qStop q = false) ∧
  s.reg 0x00400010 = 4 * 2 ^ 16 ∧ s.reg 0x00800008 = 6 * 2 ^ 16 ∧ s.reg 0x8 = 0
end

