-- ==== Sys2Proof/Laws/Memory.lean ====
section
/-! SUPPORT. The laws of sparse memory: every operation keeps the canonical form, a read after a write gives what was
written, and a write leaves every other byte alone. -/

namespace Sys2Proof.Machine

/-- A lower bound on a memory's addresses that an address meets. -/
def Mem.above (lo : Option Nat) (x : Nat) : Prop := ∀ l, lo = some l → l < x

theorem Mem.wfFrom_cons {lo : Option Nat} {a : Nat} {b : BitVec 8} {m : Mem} :
    Mem.wfFrom lo ((a, b) :: m) = true ↔ Mem.above lo a ∧ b ≠ memUnlisted ∧ Mem.wfFrom (some a) m = true := by
  cases lo <;> simp [Mem.wfFrom, Mem.above, and_assoc]

theorem Mem.wfFrom_mono {lo lo' : Option Nat} {m : Mem} (h : Mem.wfFrom lo m = true) (hl : ∀ x, Mem.above lo x → Mem.above lo' x) :
    Mem.wfFrom lo' m = true := by
  cases m with
  | nil => rfl
  | cons c m => obtain ⟨a, b⟩ := c; rw [Mem.wfFrom_cons] at *; exact ⟨hl a h.1, h.2⟩

/-- Writing a byte keeps the canonical form. -/
theorem Mem.wfFrom_put {m : Mem} : ∀ {lo : Option Nat} {x : Nat} {v : BitVec 8}, Mem.wfFrom lo m = true → Mem.above lo x →
    Mem.wfFrom lo (m.put x v) = true := by
  induction m with
  | nil =>
    intro lo x v _ hx
    unfold Mem.put; split
    · rfl
    · rename_i hv; rw [Mem.wfFrom_cons]; exact ⟨hx, hv, rfl⟩
  | cons c m ih =>
    obtain ⟨a, b⟩ := c
    intro lo x v h hx
    have h' := Mem.wfFrom_cons.mp h
    unfold Mem.put; split
    · rename_i hlt
      split
      · exact h
      · rename_i hv; rw [Mem.wfFrom_cons]
        exact ⟨hx, hv, Mem.wfFrom_cons.mpr ⟨fun l hl => by cases hl; exact hlt, h'.2⟩⟩
    · split
      · split
        · exact Mem.wfFrom_mono h'.2.2 fun y hy l hl => Nat.lt_trans (h'.1 l hl) (hy a rfl)
        · rename_i hv; rw [Mem.wfFrom_cons]; exact ⟨h'.1, hv, h'.2.2⟩
      · rename_i hlt hne
        rw [Mem.wfFrom_cons]
        exact ⟨h'.1, h'.2.1, ih h'.2.2 fun l hl => by cases hl; omega⟩

theorem Mem.wf_put {m : Mem} (h : m.wf = true) (x : Nat) (v : BitVec 8) : (m.put x v).wf = true :=
  Mem.wfFrom_put h nofun

theorem Mem.byte_eq_of_above {m : Mem} {a x : Nat} (h : Mem.wfFrom (some a) m = true) (hx : x ≤ a) : m.byte x = memUnlisted := by
  cases m with
  | nil => rfl
  | cons c m =>
    obtain ⟨a', b⟩ := c
    have := (Mem.wfFrom_cons.mp h).1 a rfl
    unfold Mem.byte
    rw [if_neg (by omega), if_pos (by omega)]

/-- What a byte reads as after one is written. -/
theorem Mem.byte_putFrom {m : Mem} : ∀ {lo : Option Nat}, Mem.wfFrom lo m = true → ∀ (a x : Nat) (v : BitVec 8),
    (m.put a v).byte x = if x = a then v else m.byte x := by
  induction m with
  | nil =>
    intro _ _ a x v
    unfold Mem.put; split
    · rename_i hv; simp [Mem.byte, hv]
    · by_cases h : x = a
      · simp [Mem.byte, h]
      · simp only [Mem.byte, if_neg h, if_neg (Ne.symm h), ite_self]
  | cons c m ih =>
    obtain ⟨a', b⟩ := c
    intro lo h a x v
    have h' := Mem.wfFrom_cons.mp h
    unfold Mem.put; split
    · rename_i hlt
      split
      · rename_i hv
        split
        · rename_i hx; subst hx; unfold Mem.byte; rw [if_neg (by omega), if_pos hlt, hv]
        · rfl
      · by_cases hx : x = a
        · simp [Mem.byte, hx]
        · conv => lhs; unfold Mem.byte
          rw [if_neg (Ne.symm hx), if_neg hx]
          split
          · unfold Mem.byte; rw [if_neg (by omega), if_pos (by omega)]
          · rfl
    · split
      · rename_i hnlt heq
        subst heq
        by_cases hx : x = a
        · subst hx
          rw [if_pos rfl]; split
          · rename_i hv; rw [hv]; exact Mem.byte_eq_of_above h'.2.2 (Nat.le_refl _)
          · simp [Mem.byte]
        · rw [if_neg hx]; split
          · conv => rhs; unfold Mem.byte
            rw [if_neg (Ne.symm hx)]; split
            · exact Mem.byte_eq_of_above h'.2.2 (by omega)
            · rfl
          · unfold Mem.byte; rw [if_neg (Ne.symm hx), if_neg (Ne.symm hx)]
      · rename_i hnlt hne
        have hi := ih h'.2.2 a x v
        conv => lhs; unfold Mem.byte
        conv => rhs; rhs; unfold Mem.byte
        by_cases h1 : a' = x
        · rw [if_pos h1, if_neg (by omega), if_pos h1]
        · rw [if_neg h1, if_neg h1]
          by_cases h2 : x < a'
          · rw [if_pos h2, if_pos h2, if_neg (by omega)]
          · rw [if_neg h2, if_neg h2, hi]

theorem Mem.byte_put {m : Mem} (h : m.wf = true) (a x : Nat) (v : BitVec 8) : (m.put a v).byte x = if x = a then v else m.byte x :=
  Mem.byte_putFrom h a x v

/-- Writing bytes keeps the canonical form. -/
theorem Mem.wf_write {m : Mem} (h : m.wf = true) (a : Nat) (bs : List (BitVec 8)) : (m.write a bs).wf = true := by
  induction bs generalizing m a with
  | nil => exact h
  | cons b bs ih => exact ih (Mem.wf_put h a b) (a + 1)

/-- What a byte reads as after several are written. -/
theorem Mem.byte_write {m : Mem} (h : m.wf = true) (a x : Nat) (bs : List (BitVec 8)) :
    (m.write a bs).byte x = if a ≤ x then bs.getD (x - a) (m.byte x) else m.byte x := by
  induction bs generalizing m a with
  | nil => simp [Mem.write]
  | cons b bs ih =>
    rw [Mem.write, ih (Mem.wf_put h a b), Mem.byte_put h]
    by_cases h1 : x = a
    · subst h1; rw [if_neg (by omega)]; simp
    · by_cases h2 : a ≤ x
      · obtain ⟨k, rfl⟩ : ∃ k, x = a + 1 + k := ⟨x - (a + 1), by omega⟩
        rw [if_pos (by omega), if_pos h2, if_neg h1, show a + 1 + k - (a + 1) = k by omega, show a + 1 + k - a = k + 1 by omega]
        simp
      · rw [if_neg (by omega), if_neg h2, if_neg h1]

/-- A write leaves every byte outside it alone. -/
theorem Mem.byte_write_outside {m : Mem} (h : m.wf = true) {a x : Nat} {bs : List (BitVec 8)} (hx : x < a ∨ a + bs.length ≤ x) :
    (m.write a bs).byte x = m.byte x := by
  rw [Mem.byte_write h]
  split
  · rw [List.getD_eq_getElem?_getD, List.getElem?_eq_none (by omega), Option.getD_none]
  · rfl

theorem Mem.wf_putNat {m : Mem} (h : m.wf = true) (a n x : Nat) : (m.putNat a n x).wf = true := Mem.wf_write h _ _

theorem leBytes_length (n x : Nat) : (leBytes n x).length = n := by
  induction n generalizing x with
  | zero => rfl
  | succ n ih => simp [leBytes, ih]

theorem leNat_leBytes (n x : Nat) : leNat (leBytes n x) = x % 2 ^ (8 * n) := by
  induction n generalizing x with
  | zero => simp [leBytes, leNat, Nat.mod_one]
  | succ n ih =>
    rw [leBytes, leNat, ih, BitVec.toNat_ofNat, show 8 * (n + 1) = 8 + 8 * n by omega, Nat.pow_add, Nat.mod_mul]

theorem Mem.read_write {m : Mem} (h : m.wf = true) (a : Nat) (bs : List (BitVec 8)) : (m.write a bs).read a bs.length = bs := by
  apply List.ext_getElem
  · simp [Mem.read]
  · intro i h1 h2
    simp [Mem.read, Mem.byte_write h, h2]

/-- A little-endian number is read back after it is written. -/
theorem Mem.nat_putNat {m : Mem} (h : m.wf = true) (a n x : Nat) : (m.putNat a n x).nat a n = x % 2 ^ (8 * n) := by
  have := Mem.read_write h a (leBytes n x)
  rw [leBytes_length] at this
  rw [Mem.nat, Mem.putNat, this, leNat_leBytes]

theorem Mem.wf_foldl {α : Type} {f : Mem → α → Mem} (hf : ∀ m x, m.wf = true → (f m x).wf = true) (xs : List α) {m : Mem}
    (h : m.wf = true) : (xs.foldl f m).wf = true := by
  induction xs generalizing m with
  | nil => exact h
  | cons x xs ih => exact ih (hf m x h)

/-- Writing a line keeps the canonical form. -/
theorem Mem.wf_putLine {m : Mem} (h : m.wf = true) (base : Nat) (val mask : BitVec 2048) : (m.putLine base val mask).wf = true :=
  Mem.wf_foldl (fun m i hm => by dsimp only; split; exact hm; exact Mem.wf_put hm _ _) _ h

/-- Dropping entries keeps the canonical form. -/
theorem Mem.wfFrom_filter (p : Nat × BitVec 8 → Bool) {m : Mem} : ∀ {lo : Option Nat}, Mem.wfFrom lo m = true →
    Mem.wfFrom lo (m.filter p) = true := by
  induction m with
  | nil => intro _ h; exact h
  | cons c m ih =>
    obtain ⟨a, b⟩ := c
    intro lo h
    have h' := Mem.wfFrom_cons.mp h
    rw [List.filter_cons]; split
    · rw [Mem.wfFrom_cons]; exact ⟨h'.1, h'.2.1, ih h'.2.2⟩
    · exact ih (Mem.wfFrom_mono h'.2.2 fun y hy l hl => Nat.lt_trans (h'.1 l hl) (hy a rfl))

theorem Mem.wf_filter (p : Nat × BitVec 8 → Bool) {m : Mem} (h : m.wf = true) : Mem.wf (m.filter p) = true := Mem.wfFrom_filter p h

/-- A byte of an undefined memory after one is written (R159). -/
theorem undefRead_put (m : Mem) (epoch a x : Nat) (v : BitVec 8) : undefRead (undefPut m a v) epoch x =
    if x = a then v else undefRead m epoch x := by
  induction m with
  | nil =>
    by_cases h : x = a
    · simp [undefPut, undefRead, h]
    · have : (a == x) = false := by simp [Ne.symm h]
      simp [undefPut, undefRead, this, h]
  | cons c m ih =>
    obtain ⟨a', b⟩ := c
    unfold undefPut; split
    · by_cases h : x = a
      · simp [undefRead, h]
      · have : (a == x) = false := by simp [Ne.symm h]
        simp [undefRead, this, h]
    · split
      · rename_i h1; subst h1
        by_cases h : x = a
        · simp [undefRead, h]
        · have : (a == x) = false := by simp [Ne.symm h]
          simp [undefRead, this, h]
      · rename_i h1
        by_cases h : a' = x
        · subst h; rw [if_neg (Ne.symm h1)]; simp [undefRead]
        · have h3 : (a' == x) = false := by simp [h]
          simp only [undefRead, List.find?_cons, h3] at ih ⊢
          exact ih

end Sys2Proof.Machine
end

