-- ==== Sys2Proof/Laws/Registers.lean ====
section
/-! SUPPORT. The laws of the management registers: a register reads what was written to it, every other one reads as
before, and the canonical form is kept. -/

namespace Sys2Proof.Machine

/-- Offsets rising, and no entry at its reset value. -/
def RegsOk (l : List (Nat × Nat)) : Prop := (l.map fun e => e.1).Pairwise (· < ·) ∧ ∀ e ∈ l, e.2 ≠ regReset e.1

theorem regInsert_offsets (l : List (Nat × Nat)) (off v : Nat) : ∀ e ∈ regInsert l off v, e.1 = off ∨ e ∈ l := by
  induction l with
  | nil =>
    intro e; unfold regInsert; split
    · exact nofun
    · intro h; exact .inl (by rw [List.mem_singleton.mp h])
  | cons c l ih =>
    obtain ⟨o, w⟩ := c
    intro e; unfold regInsert
    split
    · split
      · exact fun h => .inr h
      · intro h; rcases List.mem_cons.mp h with rfl | h
        · exact .inl rfl
        · exact .inr h
    · split
      · split
        · exact fun h => .inr (List.mem_cons_of_mem _ h)
        · intro h; rcases List.mem_cons.mp h with rfl | h
          · exact .inl rfl
          · exact .inr (List.mem_cons_of_mem _ h)
      · intro h; rcases List.mem_cons.mp h with rfl | h
        · exact .inr (List.mem_cons_self ..)
        · exact (ih e h).imp id (List.mem_cons_of_mem _)

/-- Setting a register keeps the offsets rising. -/
theorem regInsert_rising {l : List (Nat × Nat)} (h : (l.map fun e => e.1).Pairwise (· < ·)) (off v : Nat) :
    ((regInsert l off v).map fun e => e.1).Pairwise (· < ·) := by
  induction l with
  | nil => unfold regInsert; split <;> simp
  | cons c l ih =>
    obtain ⟨o, w⟩ := c
    rw [List.map_cons, List.pairwise_cons] at h
    unfold regInsert
    split
    · rename_i hlt
      split
      · exact List.pairwise_cons.mpr h
      · rw [List.map_cons, List.pairwise_cons]
        refine ⟨fun x hx => ?_, List.pairwise_cons.mpr h⟩
        rcases List.mem_cons.mp hx with rfl | hx
        · exact hlt
        · exact Nat.lt_trans hlt (h.1 x hx)
    · split
      · split
        · exact h.2
        · rename_i heq _; subst heq; exact List.pairwise_cons.mpr h
      · rename_i h1 h2
        rw [List.map_cons, List.pairwise_cons]
        refine ⟨fun x hx => ?_, ih h.2⟩
        obtain ⟨e, he, rfl⟩ := List.mem_map.mp hx
        rcases regInsert_offsets l off v e he with h3 | h3
        · show o < e.1; omega
        · exact h.1 _ (List.mem_map_of_mem h3)

theorem regInsert_ok {l : List (Nat × Nat)} (h : RegsOk l) (off v : Nat) : RegsOk (regInsert l off v) := by
  refine ⟨regInsert_rising h.1 off v, ?_⟩
  have h2 := h.2
  clear h
  induction l with
  | nil => unfold regInsert; split <;> simp; assumption
  | cons c l ih =>
    obtain ⟨o, w⟩ := c
    have hw := h2 (o, w) (List.mem_cons_self ..)
    have hl : ∀ e ∈ l, e.2 ≠ regReset e.1 := fun e he => h2 e (List.mem_cons_of_mem _ he)
    unfold regInsert
    split
    · split
      · exact h2
      · rename_i hv
        intro e he; rcases List.mem_cons.mp he with rfl | he
        · exact hv
        · exact h2 e he
    · split
      · split
        · exact hl
        · rename_i hv
          intro e he; rcases List.mem_cons.mp he with rfl | he
          · exact hv
          · exact hl e he
      · intro e he; rcases List.mem_cons.mp he with rfl | he
        · exact hw
        · exact ih hl e he

theorem regFind_none {l : List (Nat × Nat)} {o b : Nat} (h : (l.map fun e => e.1).Pairwise (· < ·)) (hl : ∀ x ∈ l.map (fun e => e.1), o < x)
    (hb : b ≤ o) : regFind l b = none := by
  cases l with
  | nil => rfl
  | cons c l =>
    obtain ⟨o', w⟩ := c
    have := hl o' (by simp)
    unfold regFind; rw [if_neg (by omega), if_pos (by omega)]

theorem regFind_insert {l : List (Nat × Nat)} (h : (l.map fun e => e.1).Pairwise (· < ·)) (a b v : Nat) :
    (regFind (regInsert l a v) b).getD (regReset b) = if b = a then v else (regFind l b).getD (regReset b) := by
  induction l with
  | nil =>
    unfold regInsert; split
    · rename_i hv; split
      · rename_i hb; subst hb; simp [regFind, hv]
      · rfl
    · by_cases hb : b = a
      · subst hb; simp [regFind]
      · rw [if_neg hb]; unfold regFind; rw [if_neg (Ne.symm hb)]; split <;> rfl
  | cons c l ih =>
    obtain ⟨o, w⟩ := c
    rw [List.map_cons, List.pairwise_cons] at h
    unfold regInsert; split
    · rename_i hlt
      split
      · rename_i hv; split
        · rename_i hb; subst hb; unfold regFind; rw [if_neg (by omega), if_pos hlt, hv]; rfl
        · rfl
      · by_cases hb : b = a
        · subst hb; simp [regFind]
        · rw [if_neg hb]; conv => lhs; unfold regFind
          rw [if_neg (Ne.symm hb)]; split
          · unfold regFind; rw [if_neg (by omega), if_pos (by omega)]
          · rfl
    · split
      · rename_i hnl heq; subst heq
        by_cases hb : b = a
        · subst hb; rw [if_pos rfl]; split
          · rename_i hv; rw [regFind_none h.2 h.1 (Nat.le_refl _), hv]; rfl
          · simp [regFind]
        · rw [if_neg hb]; split
          · conv => rhs; unfold regFind
            rw [if_neg (Ne.symm hb)]; split
            · rw [regFind_none h.2 h.1 (by omega)]
            · rfl
          · unfold regFind; rw [if_neg (Ne.symm hb), if_neg (Ne.symm hb)]
      · rename_i h1 h2
        conv => lhs; unfold regFind
        conv => rhs; rhs; unfold regFind
        by_cases h3 : o = b
        · subst h3; rw [if_pos rfl, if_pos rfl, if_neg (Ne.symm h2)]
        · rw [if_neg h3, if_neg h3]
          by_cases h4 : b < o
          · rw [if_pos h4, if_pos h4, if_neg (by omega)]
          · rw [if_neg h4, if_neg h4]; exact ih h.2

/-- What a management register reads as after one is set. -/
theorem State.reg_setReg {s : State} (h : (s.mgmt.map fun e => e.1).Pairwise (· < ·)) (a b v : Nat) :
    (s.setReg a v).reg b = if b = a then v else s.reg b := regFind_insert h a b v

theorem State.registers_setReg {s : State} (h : s.RegistersCanonical) (a v : Nat) : (s.setReg a v).RegistersCanonical :=
  regInsert_ok h a v
theorem State.registers_regWrite {s : State} (h : s.RegistersCanonical) (a v mask : Nat) : (s.regWrite a v mask).RegistersCanonical :=
  regInsert_ok h a _
theorem State.registers_regCount {s : State} (h : s.RegistersCanonical) (a : Nat) : (s.regCount a).RegistersCanonical :=
  regInsert_ok h a _

end Sys2Proof.Machine
end

