-- ==== Sys2Proof/Laws/State.lean ====
section
/-! SUPPORT. What each update of the state leaves in each field, and finding a part after one has been replaced. -/

namespace Sys2Proof.Machine

variable (s : State)

@[simp] theorem State.setGroup_groups (g : Group) : (s.setGroup g).groups = s.groups.map fun h => if h.id = g.id then g else h := rfl
@[simp] theorem State.setGroup_teams (g : Group) : (s.setGroup g).teams = s.teams := rfl
@[simp] theorem State.setGroup_cores (g : Group) : (s.setGroup g).cores = s.cores := rfl
@[simp] theorem State.setGroup_mills (g : Group) : (s.setGroup g).mills = s.mills := rfl
@[simp] theorem State.setGroup_mem (g : Group) : (s.setGroup g).mem = s.mem := rfl
@[simp] theorem State.setGroup_sched (g : Group) : (s.setGroup g).sched = s.sched := rfl
@[simp] theorem State.setGroup_link (g : Group) : (s.setGroup g).link = s.link := rfl
@[simp] theorem State.setGroup_boot (g : Group) : (s.setGroup g).boot = s.boot := rfl
@[simp] theorem State.setGroup_mgmt (g : Group) : (s.setGroup g).mgmt = s.mgmt := rfl
@[simp] theorem State.setGroup_log (g : Group) : (s.setGroup g).log = s.log := rfl
@[simp] theorem State.setGroup_faults (g : Group) : (s.setGroup g).faults = s.faults := rfl
@[simp] theorem State.setGroup_nextFid (g : Group) : (s.setGroup g).nextFid = s.nextFid := rfl
@[simp] theorem State.setGroup_out (g : Group) : (s.setGroup g).out = s.out := rfl
@[simp] theorem State.setGroup_focus (g : Group) : (s.setGroup g).focus = s.focus := rfl
@[simp] theorem State.setGroup_residue (g : Group) : (s.setGroup g).residue = s.residue := rfl
@[simp] theorem State.setGroup_agenda (g : Group) : (s.setGroup g).agenda = s.agenda := rfl
@[simp] theorem State.setGroup_held (g : Group) : (s.setGroup g).held = s.held := rfl
@[simp] theorem State.setGroup_fresh (g : Group) : (s.setGroup g).fresh = s.fresh := rfl

@[simp] theorem State.setTeam_teams (t : Team) : (s.setTeam t).teams = s.teams.map fun u => if u.tid = t.tid ∧ u.team = t.team then t else u := rfl
@[simp] theorem State.setTeam_groups (t : Team) : (s.setTeam t).groups = s.groups := rfl
@[simp] theorem State.setTeam_cores (t : Team) : (s.setTeam t).cores = s.cores := rfl
@[simp] theorem State.setTeam_mills (t : Team) : (s.setTeam t).mills = s.mills := rfl
@[simp] theorem State.setTeam_mem (t : Team) : (s.setTeam t).mem = s.mem := rfl
@[simp] theorem State.setTeam_sched (t : Team) : (s.setTeam t).sched = s.sched := rfl
@[simp] theorem State.setTeam_link (t : Team) : (s.setTeam t).link = s.link := rfl
@[simp] theorem State.setTeam_boot (t : Team) : (s.setTeam t).boot = s.boot := rfl
@[simp] theorem State.setTeam_mgmt (t : Team) : (s.setTeam t).mgmt = s.mgmt := rfl
@[simp] theorem State.setTeam_log (t : Team) : (s.setTeam t).log = s.log := rfl
@[simp] theorem State.setTeam_faults (t : Team) : (s.setTeam t).faults = s.faults := rfl
@[simp] theorem State.setTeam_nextFid (t : Team) : (s.setTeam t).nextFid = s.nextFid := rfl
@[simp] theorem State.setTeam_out (t : Team) : (s.setTeam t).out = s.out := rfl
@[simp] theorem State.setTeam_focus (t : Team) : (s.setTeam t).focus = s.focus := rfl
@[simp] theorem State.setTeam_residue (t : Team) : (s.setTeam t).residue = s.residue := rfl
@[simp] theorem State.setTeam_agenda (t : Team) : (s.setTeam t).agenda = s.agenda := rfl
@[simp] theorem State.setTeam_held (t : Team) : (s.setTeam t).held = s.held := rfl
@[simp] theorem State.setTeam_fresh (t : Team) : (s.setTeam t).fresh = s.fresh := rfl

@[simp] theorem State.setTask_sched (k : Task) : (s.setTask k).sched = s.sched.setTask k := rfl
@[simp] theorem State.setTask_groups (k : Task) : (s.setTask k).groups = s.groups := rfl
@[simp] theorem State.setTask_teams (k : Task) : (s.setTask k).teams = s.teams := rfl
@[simp] theorem State.setTask_cores (k : Task) : (s.setTask k).cores = s.cores := rfl
@[simp] theorem State.setTask_mills (k : Task) : (s.setTask k).mills = s.mills := rfl
@[simp] theorem State.setTask_mem (k : Task) : (s.setTask k).mem = s.mem := rfl
@[simp] theorem State.setTask_link (k : Task) : (s.setTask k).link = s.link := rfl
@[simp] theorem State.setTask_boot (k : Task) : (s.setTask k).boot = s.boot := rfl
@[simp] theorem State.setTask_mgmt (k : Task) : (s.setTask k).mgmt = s.mgmt := rfl
@[simp] theorem State.setTask_log (k : Task) : (s.setTask k).log = s.log := rfl
@[simp] theorem State.setTask_faults (k : Task) : (s.setTask k).faults = s.faults := rfl
@[simp] theorem State.setTask_nextFid (k : Task) : (s.setTask k).nextFid = s.nextFid := rfl
@[simp] theorem State.setTask_out (k : Task) : (s.setTask k).out = s.out := rfl
@[simp] theorem State.setTask_focus (k : Task) : (s.setTask k).focus = s.focus := rfl
@[simp] theorem State.setTask_residue (k : Task) : (s.setTask k).residue = s.residue := rfl
@[simp] theorem State.setTask_agenda (k : Task) : (s.setTask k).agenda = s.agenda := rfl
@[simp] theorem State.setTask_held (k : Task) : (s.setTask k).held = s.held := rfl
@[simp] theorem State.setTask_fresh (k : Task) : (s.setTask k).fresh = s.fresh := rfl

@[simp] theorem State.setMill_mills (m : Mill) : (s.setMill m).mills = s.mills.map fun h => if h.id = m.id then m else h := rfl
@[simp] theorem State.setMill_groups (m : Mill) : (s.setMill m).groups = s.groups := rfl
@[simp] theorem State.setMill_teams (m : Mill) : (s.setMill m).teams = s.teams := rfl
@[simp] theorem State.setMill_cores (m : Mill) : (s.setMill m).cores = s.cores := rfl
@[simp] theorem State.setMill_mem (m : Mill) : (s.setMill m).mem = s.mem := rfl
@[simp] theorem State.setMill_sched (m : Mill) : (s.setMill m).sched = s.sched := rfl
@[simp] theorem State.setMill_link (m : Mill) : (s.setMill m).link = s.link := rfl
@[simp] theorem State.setMill_boot (m : Mill) : (s.setMill m).boot = s.boot := rfl
@[simp] theorem State.setMill_mgmt (m : Mill) : (s.setMill m).mgmt = s.mgmt := rfl
@[simp] theorem State.setMill_log (m : Mill) : (s.setMill m).log = s.log := rfl
@[simp] theorem State.setMill_faults (m : Mill) : (s.setMill m).faults = s.faults := rfl
@[simp] theorem State.setMill_nextFid (m : Mill) : (s.setMill m).nextFid = s.nextFid := rfl
@[simp] theorem State.setMill_out (m : Mill) : (s.setMill m).out = s.out := rfl
@[simp] theorem State.setMill_focus (m : Mill) : (s.setMill m).focus = s.focus := rfl
@[simp] theorem State.setMill_residue (m : Mill) : (s.setMill m).residue = s.residue := rfl
@[simp] theorem State.setMill_agenda (m : Mill) : (s.setMill m).agenda = s.agenda := rfl
@[simp] theorem State.setMill_held (m : Mill) : (s.setMill m).held = s.held := rfl
@[simp] theorem State.setMill_fresh (m : Mill) : (s.setMill m).fresh = s.fresh := rfl

@[simp] theorem State.setCore_groups (k : Core) : (s.setCore k).groups = s.groups := by unfold State.setCore; split <;> rfl
@[simp] theorem State.setCore_teams (k : Core) : (s.setCore k).teams = s.teams := by unfold State.setCore; split <;> rfl
@[simp] theorem State.setCore_mills (k : Core) : (s.setCore k).mills = s.mills := by unfold State.setCore; split <;> rfl
@[simp] theorem State.setCore_mem (k : Core) : (s.setCore k).mem = s.mem := by unfold State.setCore; split <;> rfl
@[simp] theorem State.setCore_sched (k : Core) : (s.setCore k).sched = s.sched := by unfold State.setCore; split <;> rfl
@[simp] theorem State.setCore_link (k : Core) : (s.setCore k).link = s.link := by unfold State.setCore; split <;> rfl
@[simp] theorem State.setCore_boot (k : Core) : (s.setCore k).boot = s.boot := by unfold State.setCore; split <;> rfl
@[simp] theorem State.setCore_mgmt (k : Core) : (s.setCore k).mgmt = s.mgmt := by unfold State.setCore; split <;> rfl
@[simp] theorem State.setCore_log (k : Core) : (s.setCore k).log = s.log := by unfold State.setCore; split <;> rfl
@[simp] theorem State.setCore_faults (k : Core) : (s.setCore k).faults = s.faults := by unfold State.setCore; split <;> rfl
@[simp] theorem State.setCore_nextFid (k : Core) : (s.setCore k).nextFid = s.nextFid := by unfold State.setCore; split <;> rfl
@[simp] theorem State.setCore_out (k : Core) : (s.setCore k).out = s.out := by unfold State.setCore; split <;> rfl
@[simp] theorem State.setCore_focus (k : Core) : (s.setCore k).focus = s.focus := by unfold State.setCore; split <;> rfl
@[simp] theorem State.setCore_residue (k : Core) : (s.setCore k).residue = s.residue := by unfold State.setCore; split <;> rfl
@[simp] theorem State.setCore_agenda (k : Core) : (s.setCore k).agenda = s.agenda := by unfold State.setCore; split <;> rfl
@[simp] theorem State.setCore_held (k : Core) : (s.setCore k).held = s.held := by unfold State.setCore; split <;> rfl
@[simp] theorem State.setCore_fresh (k : Core) : (s.setCore k).fresh = s.fresh := by unfold State.setCore; split <;> rfl

@[simp] theorem State.mapMem_mem (f : MemState → MemState) : (s.mapMem f).mem = f s.mem := rfl
@[simp] theorem State.mapMem_groups (f : MemState → MemState) : (s.mapMem f).groups = s.groups := rfl
@[simp] theorem State.mapMem_teams (f : MemState → MemState) : (s.mapMem f).teams = s.teams := rfl
@[simp] theorem State.mapMem_cores (f : MemState → MemState) : (s.mapMem f).cores = s.cores := rfl
@[simp] theorem State.mapMem_mills (f : MemState → MemState) : (s.mapMem f).mills = s.mills := rfl
@[simp] theorem State.mapMem_sched (f : MemState → MemState) : (s.mapMem f).sched = s.sched := rfl
@[simp] theorem State.mapMem_link (f : MemState → MemState) : (s.mapMem f).link = s.link := rfl
@[simp] theorem State.mapMem_boot (f : MemState → MemState) : (s.mapMem f).boot = s.boot := rfl
@[simp] theorem State.mapMem_mgmt (f : MemState → MemState) : (s.mapMem f).mgmt = s.mgmt := rfl
@[simp] theorem State.mapMem_log (f : MemState → MemState) : (s.mapMem f).log = s.log := rfl
@[simp] theorem State.mapMem_faults (f : MemState → MemState) : (s.mapMem f).faults = s.faults := rfl
@[simp] theorem State.mapMem_nextFid (f : MemState → MemState) : (s.mapMem f).nextFid = s.nextFid := rfl
@[simp] theorem State.mapMem_out (f : MemState → MemState) : (s.mapMem f).out = s.out := rfl
@[simp] theorem State.mapMem_focus (f : MemState → MemState) : (s.mapMem f).focus = s.focus := rfl
@[simp] theorem State.mapMem_residue (f : MemState → MemState) : (s.mapMem f).residue = s.residue := rfl
@[simp] theorem State.mapMem_agenda (f : MemState → MemState) : (s.mapMem f).agenda = s.agenda := rfl
@[simp] theorem State.mapMem_held (f : MemState → MemState) : (s.mapMem f).held = s.held := rfl
@[simp] theorem State.mapMem_fresh (f : MemState → MemState) : (s.mapMem f).fresh = s.fresh := rfl

@[simp] theorem State.setReg_mgmt (off v : Nat) : (s.setReg off v).mgmt = regInsert s.mgmt off v := rfl
@[simp] theorem State.setReg_groups (off v : Nat) : (s.setReg off v).groups = s.groups := rfl
@[simp] theorem State.setReg_teams (off v : Nat) : (s.setReg off v).teams = s.teams := rfl
@[simp] theorem State.setReg_cores (off v : Nat) : (s.setReg off v).cores = s.cores := rfl
@[simp] theorem State.setReg_mills (off v : Nat) : (s.setReg off v).mills = s.mills := rfl
@[simp] theorem State.setReg_mem (off v : Nat) : (s.setReg off v).mem = s.mem := rfl
@[simp] theorem State.setReg_sched (off v : Nat) : (s.setReg off v).sched = s.sched := rfl
@[simp] theorem State.setReg_link (off v : Nat) : (s.setReg off v).link = s.link := rfl
@[simp] theorem State.setReg_boot (off v : Nat) : (s.setReg off v).boot = s.boot := rfl
@[simp] theorem State.setReg_log (off v : Nat) : (s.setReg off v).log = s.log := rfl
@[simp] theorem State.setReg_faults (off v : Nat) : (s.setReg off v).faults = s.faults := rfl
@[simp] theorem State.setReg_nextFid (off v : Nat) : (s.setReg off v).nextFid = s.nextFid := rfl
@[simp] theorem State.setReg_out (off v : Nat) : (s.setReg off v).out = s.out := rfl
@[simp] theorem State.setReg_focus (off v : Nat) : (s.setReg off v).focus = s.focus := rfl
@[simp] theorem State.setReg_residue (off v : Nat) : (s.setReg off v).residue = s.residue := rfl
@[simp] theorem State.setReg_agenda (off v : Nat) : (s.setReg off v).agenda = s.agenda := rfl
@[simp] theorem State.setReg_held (off v : Nat) : (s.setReg off v).held = s.held := rfl
@[simp] theorem State.setReg_fresh (off v : Nat) : (s.setReg off v).fresh = s.fresh := rfl

@[simp] theorem State.regWrite_groups (off v mask : Nat) : (s.regWrite off v mask).groups = s.groups := rfl
@[simp] theorem State.regWrite_teams (off v mask : Nat) : (s.regWrite off v mask).teams = s.teams := rfl
@[simp] theorem State.regWrite_cores (off v mask : Nat) : (s.regWrite off v mask).cores = s.cores := rfl
@[simp] theorem State.regWrite_mills (off v mask : Nat) : (s.regWrite off v mask).mills = s.mills := rfl
@[simp] theorem State.regWrite_mem (off v mask : Nat) : (s.regWrite off v mask).mem = s.mem := rfl
@[simp] theorem State.regWrite_sched (off v mask : Nat) : (s.regWrite off v mask).sched = s.sched := rfl
@[simp] theorem State.regWrite_link (off v mask : Nat) : (s.regWrite off v mask).link = s.link := rfl
@[simp] theorem State.regWrite_boot (off v mask : Nat) : (s.regWrite off v mask).boot = s.boot := rfl
@[simp] theorem State.regWrite_log (off v mask : Nat) : (s.regWrite off v mask).log = s.log := rfl
@[simp] theorem State.regWrite_faults (off v mask : Nat) : (s.regWrite off v mask).faults = s.faults := rfl
@[simp] theorem State.regWrite_nextFid (off v mask : Nat) : (s.regWrite off v mask).nextFid = s.nextFid := rfl
@[simp] theorem State.regWrite_out (off v mask : Nat) : (s.regWrite off v mask).out = s.out := rfl
@[simp] theorem State.regWrite_focus (off v mask : Nat) : (s.regWrite off v mask).focus = s.focus := rfl
@[simp] theorem State.regWrite_residue (off v mask : Nat) : (s.regWrite off v mask).residue = s.residue := rfl
@[simp] theorem State.regWrite_agenda (off v mask : Nat) : (s.regWrite off v mask).agenda = s.agenda := rfl
@[simp] theorem State.regWrite_held (off v mask : Nat) : (s.regWrite off v mask).held = s.held := rfl
@[simp] theorem State.regWrite_fresh (off v mask : Nat) : (s.regWrite off v mask).fresh = s.fresh := rfl

@[simp] theorem State.logAdd_log (kind sheet site tid addr aux unit : Nat) : (s.logAdd kind sheet site tid addr aux unit).log = s.log ++ [⟨kind, sheet, site, tid, s.boot.time.getD sheet 0, addr, aux, unit⟩] := rfl
@[simp] theorem State.logAdd_groups (kind sheet site tid addr aux unit : Nat) : (s.logAdd kind sheet site tid addr aux unit).groups = s.groups := rfl
@[simp] theorem State.logAdd_teams (kind sheet site tid addr aux unit : Nat) : (s.logAdd kind sheet site tid addr aux unit).teams = s.teams := rfl
@[simp] theorem State.logAdd_cores (kind sheet site tid addr aux unit : Nat) : (s.logAdd kind sheet site tid addr aux unit).cores = s.cores := rfl
@[simp] theorem State.logAdd_mills (kind sheet site tid addr aux unit : Nat) : (s.logAdd kind sheet site tid addr aux unit).mills = s.mills := rfl
@[simp] theorem State.logAdd_mem (kind sheet site tid addr aux unit : Nat) : (s.logAdd kind sheet site tid addr aux unit).mem = s.mem := rfl
@[simp] theorem State.logAdd_sched (kind sheet site tid addr aux unit : Nat) : (s.logAdd kind sheet site tid addr aux unit).sched = s.sched := rfl
@[simp] theorem State.logAdd_link (kind sheet site tid addr aux unit : Nat) : (s.logAdd kind sheet site tid addr aux unit).link = s.link := rfl
@[simp] theorem State.logAdd_boot (kind sheet site tid addr aux unit : Nat) : (s.logAdd kind sheet site tid addr aux unit).boot = s.boot := rfl
@[simp] theorem State.logAdd_mgmt (kind sheet site tid addr aux unit : Nat) : (s.logAdd kind sheet site tid addr aux unit).mgmt = s.mgmt := rfl
@[simp] theorem State.logAdd_faults (kind sheet site tid addr aux unit : Nat) : (s.logAdd kind sheet site tid addr aux unit).faults = s.faults := rfl
@[simp] theorem State.logAdd_nextFid (kind sheet site tid addr aux unit : Nat) : (s.logAdd kind sheet site tid addr aux unit).nextFid = s.nextFid := rfl
@[simp] theorem State.logAdd_out (kind sheet site tid addr aux unit : Nat) : (s.logAdd kind sheet site tid addr aux unit).out = s.out := rfl
@[simp] theorem State.logAdd_focus (kind sheet site tid addr aux unit : Nat) : (s.logAdd kind sheet site tid addr aux unit).focus = s.focus := rfl
@[simp] theorem State.logAdd_residue (kind sheet site tid addr aux unit : Nat) : (s.logAdd kind sheet site tid addr aux unit).residue = s.residue := rfl
@[simp] theorem State.logAdd_agenda (kind sheet site tid addr aux unit : Nat) : (s.logAdd kind sheet site tid addr aux unit).agenda = s.agenda := rfl
@[simp] theorem State.logAdd_held (kind sheet site tid addr aux unit : Nat) : (s.logAdd kind sheet site tid addr aux unit).held = s.held := rfl
@[simp] theorem State.logAdd_fresh (kind sheet site tid addr aux unit : Nat) : (s.logAdd kind sheet site tid addr aux unit).fresh = s.fresh := rfl

@[simp] theorem State.sendMsg_groups (m : Msg) : (s.sendMsg m).groups = s.groups := rfl
@[simp] theorem State.sendMsg_teams (m : Msg) : (s.sendMsg m).teams = s.teams := rfl
@[simp] theorem State.sendMsg_cores (m : Msg) : (s.sendMsg m).cores = s.cores := rfl
@[simp] theorem State.sendMsg_mills (m : Msg) : (s.sendMsg m).mills = s.mills := rfl
@[simp] theorem State.sendMsg_sched (m : Msg) : (s.sendMsg m).sched = s.sched := rfl
@[simp] theorem State.sendMsg_link (m : Msg) : (s.sendMsg m).link = s.link := rfl
@[simp] theorem State.sendMsg_boot (m : Msg) : (s.sendMsg m).boot = s.boot := rfl
@[simp] theorem State.sendMsg_mgmt (m : Msg) : (s.sendMsg m).mgmt = s.mgmt := rfl
@[simp] theorem State.sendMsg_log (m : Msg) : (s.sendMsg m).log = s.log := rfl
@[simp] theorem State.sendMsg_faults (m : Msg) : (s.sendMsg m).faults = s.faults := rfl
@[simp] theorem State.sendMsg_nextFid (m : Msg) : (s.sendMsg m).nextFid = s.nextFid := rfl
@[simp] theorem State.sendMsg_out (m : Msg) : (s.sendMsg m).out = s.out := rfl
@[simp] theorem State.sendMsg_focus (m : Msg) : (s.sendMsg m).focus = s.focus := rfl
@[simp] theorem State.sendMsg_residue (m : Msg) : (s.sendMsg m).residue = s.residue := rfl
@[simp] theorem State.sendMsg_agenda (m : Msg) : (s.sendMsg m).agenda = s.agenda := rfl
@[simp] theorem State.sendMsg_held (m : Msg) : (s.sendMsg m).held = s.held := rfl
@[simp] theorem State.sendMsg_fresh (m : Msg) : (s.sendMsg m).fresh = s.fresh := rfl

@[simp] theorem State.send_groups (cls : MClass) (src dst : Site) (body : Body) : (s.send cls src dst body).groups = s.groups := by simp [State.send]
@[simp] theorem State.send_teams (cls : MClass) (src dst : Site) (body : Body) : (s.send cls src dst body).teams = s.teams := by simp [State.send]
@[simp] theorem State.send_cores (cls : MClass) (src dst : Site) (body : Body) : (s.send cls src dst body).cores = s.cores := by simp [State.send]
@[simp] theorem State.send_mills (cls : MClass) (src dst : Site) (body : Body) : (s.send cls src dst body).mills = s.mills := by simp [State.send]
@[simp] theorem State.send_sched (cls : MClass) (src dst : Site) (body : Body) : (s.send cls src dst body).sched = s.sched := by simp [State.send]
@[simp] theorem State.send_link (cls : MClass) (src dst : Site) (body : Body) : (s.send cls src dst body).link = s.link := by simp [State.send]
@[simp] theorem State.send_boot (cls : MClass) (src dst : Site) (body : Body) : (s.send cls src dst body).boot = s.boot := by simp [State.send]
@[simp] theorem State.send_mgmt (cls : MClass) (src dst : Site) (body : Body) : (s.send cls src dst body).mgmt = s.mgmt := by simp [State.send]
@[simp] theorem State.send_log (cls : MClass) (src dst : Site) (body : Body) : (s.send cls src dst body).log = s.log := by simp [State.send]
@[simp] theorem State.send_faults (cls : MClass) (src dst : Site) (body : Body) : (s.send cls src dst body).faults = s.faults := by simp [State.send]
@[simp] theorem State.send_nextFid (cls : MClass) (src dst : Site) (body : Body) : (s.send cls src dst body).nextFid = s.nextFid := by simp [State.send]
@[simp] theorem State.send_out (cls : MClass) (src dst : Site) (body : Body) : (s.send cls src dst body).out = s.out := by simp [State.send]
@[simp] theorem State.send_focus (cls : MClass) (src dst : Site) (body : Body) : (s.send cls src dst body).focus = s.focus := by simp [State.send]
@[simp] theorem State.send_residue (cls : MClass) (src dst : Site) (body : Body) : (s.send cls src dst body).residue = s.residue := by simp [State.send]
@[simp] theorem State.send_agenda (cls : MClass) (src dst : Site) (body : Body) : (s.send cls src dst body).agenda = s.agenda := by simp [State.send]
@[simp] theorem State.send_held (cls : MClass) (src dst : Site) (body : Body) : (s.send cls src dst body).held = s.held := by simp [State.send]
@[simp] theorem State.send_fresh (cls : MClass) (src dst : Site) (body : Body) : (s.send cls src dst body).fresh = s.fresh := by simp [State.send]

@[simp] theorem State.respond_groups (m : Msg) (cls : MClass) (body : Body) : (s.respond m cls body).groups = s.groups := by simp [State.respond]
@[simp] theorem State.respond_teams (m : Msg) (cls : MClass) (body : Body) : (s.respond m cls body).teams = s.teams := by simp [State.respond]
@[simp] theorem State.respond_cores (m : Msg) (cls : MClass) (body : Body) : (s.respond m cls body).cores = s.cores := by simp [State.respond]
@[simp] theorem State.respond_mills (m : Msg) (cls : MClass) (body : Body) : (s.respond m cls body).mills = s.mills := by simp [State.respond]
@[simp] theorem State.respond_sched (m : Msg) (cls : MClass) (body : Body) : (s.respond m cls body).sched = s.sched := by simp [State.respond]
@[simp] theorem State.respond_link (m : Msg) (cls : MClass) (body : Body) : (s.respond m cls body).link = s.link := by simp [State.respond]
@[simp] theorem State.respond_boot (m : Msg) (cls : MClass) (body : Body) : (s.respond m cls body).boot = s.boot := by simp [State.respond]
@[simp] theorem State.respond_mgmt (m : Msg) (cls : MClass) (body : Body) : (s.respond m cls body).mgmt = s.mgmt := by simp [State.respond]
@[simp] theorem State.respond_log (m : Msg) (cls : MClass) (body : Body) : (s.respond m cls body).log = s.log := by simp [State.respond]
@[simp] theorem State.respond_faults (m : Msg) (cls : MClass) (body : Body) : (s.respond m cls body).faults = s.faults := by simp [State.respond]
@[simp] theorem State.respond_nextFid (m : Msg) (cls : MClass) (body : Body) : (s.respond m cls body).nextFid = s.nextFid := by simp [State.respond]
@[simp] theorem State.respond_out (m : Msg) (cls : MClass) (body : Body) : (s.respond m cls body).out = s.out := by simp [State.respond]
@[simp] theorem State.respond_focus (m : Msg) (cls : MClass) (body : Body) : (s.respond m cls body).focus = s.focus := by simp [State.respond]
@[simp] theorem State.respond_residue (m : Msg) (cls : MClass) (body : Body) : (s.respond m cls body).residue = s.residue := by simp [State.respond]
@[simp] theorem State.respond_agenda (m : Msg) (cls : MClass) (body : Body) : (s.respond m cls body).agenda = s.agenda := by simp [State.respond]
@[simp] theorem State.respond_held (m : Msg) (cls : MClass) (body : Body) : (s.respond m cls body).held = s.held := by simp [State.respond]
@[simp] theorem State.respond_fresh (m : Msg) (cls : MClass) (body : Body) : (s.respond m cls body).fresh = s.fresh := by simp [State.respond]

@[simp] theorem State.request_groups (cls : MClass) (src dst : Site) (body : Body) : (s.request cls src dst body).groups = s.groups := by unfold State.request; split <;> simp
@[simp] theorem State.request_teams (cls : MClass) (src dst : Site) (body : Body) : (s.request cls src dst body).teams = s.teams := by unfold State.request; split <;> simp
@[simp] theorem State.request_cores (cls : MClass) (src dst : Site) (body : Body) : (s.request cls src dst body).cores = s.cores := by unfold State.request; split <;> simp
@[simp] theorem State.request_mills (cls : MClass) (src dst : Site) (body : Body) : (s.request cls src dst body).mills = s.mills := by unfold State.request; split <;> simp
@[simp] theorem State.request_sched (cls : MClass) (src dst : Site) (body : Body) : (s.request cls src dst body).sched = s.sched := by unfold State.request; split <;> simp
@[simp] theorem State.request_link (cls : MClass) (src dst : Site) (body : Body) : (s.request cls src dst body).link = s.link := by unfold State.request; split <;> simp
@[simp] theorem State.request_boot (cls : MClass) (src dst : Site) (body : Body) : (s.request cls src dst body).boot = s.boot := by unfold State.request; split <;> simp
@[simp] theorem State.request_mgmt (cls : MClass) (src dst : Site) (body : Body) : (s.request cls src dst body).mgmt = s.mgmt := by unfold State.request; split <;> simp
@[simp] theorem State.request_log (cls : MClass) (src dst : Site) (body : Body) : (s.request cls src dst body).log = s.log := by unfold State.request; split <;> simp
@[simp] theorem State.request_faults (cls : MClass) (src dst : Site) (body : Body) : (s.request cls src dst body).faults = s.faults := by unfold State.request; split <;> simp
@[simp] theorem State.request_nextFid (cls : MClass) (src dst : Site) (body : Body) : (s.request cls src dst body).nextFid = s.nextFid := by unfold State.request; split <;> simp
@[simp] theorem State.request_out (cls : MClass) (src dst : Site) (body : Body) : (s.request cls src dst body).out = s.out := by unfold State.request; split <;> simp
@[simp] theorem State.request_focus (cls : MClass) (src dst : Site) (body : Body) : (s.request cls src dst body).focus = s.focus := by unfold State.request; split <;> simp
@[simp] theorem State.request_residue (cls : MClass) (src dst : Site) (body : Body) : (s.request cls src dst body).residue = s.residue := by unfold State.request; split <;> simp
@[simp] theorem State.request_agenda (cls : MClass) (src dst : Site) (body : Body) : (s.request cls src dst body).agenda = s.agenda := by unfold State.request; split <;> simp
@[simp] theorem State.request_held (cls : MClass) (src dst : Site) (body : Body) : (s.request cls src dst body).held = s.held := by unfold State.request; split <;> simp
@[simp] theorem State.request_fresh (cls : MClass) (src dst : Site) (body : Body) : (s.request cls src dst body).fresh = s.fresh := by unfold State.request; split <;> simp

/-! ### Finding what was replaced -/

theorem find_map_self {α : Type} {p : α → Bool} {x y : α} {l : List α} {c : α → Prop} [DecidablePred c]
    (hx : p x = true) (hc : ∀ z, c z ↔ p z = true) (h : l.find? p = some y) :
    (l.map fun z => if c z then x else z).find? p = some x := by
  induction l with
  | nil => cases h
  | cons z l ih =>
    rw [List.map_cons, List.find?_cons]
    by_cases hz : p z = true
    · rw [if_pos ((hc z).mpr hz), hx]
    · rw [if_neg fun h => hz ((hc z).mp h)]
      rw [List.find?_cons, Bool.eq_false_iff.mpr hz] at h
      rw [Bool.eq_false_iff.mpr hz]; exact ih h

theorem find_map_other {α : Type} {p : α → Bool} {x : α} {l : List α} {c : α → Prop} [DecidablePred c]
    (hx : p x = false) (hc : ∀ z, c z → p z = false) : (l.map fun z => if c z then x else z).find? p = l.find? p := by
  induction l with
  | nil => rfl
  | cons z l ih =>
    rw [List.map_cons, List.find?_cons, List.find?_cons]
    by_cases hz : c z
    · rw [if_pos hz, hx, hc z hz]; exact ih
    · rw [if_neg hz, ih]

/-- Finding the part that was replaced, and any other one. -/
theorem State.group?_setGroup {g h : Group} (e : s.group? g.id = some h) : (s.setGroup g).group? g.id = some g :=
  find_map_self (by simp) (fun z => by simp) e
theorem State.group?_setGroup_ne {g : Group} {r : GroupRef} (e : r ≠ g.id) : (s.setGroup g).group? r = s.group? r :=
  find_map_other (by simp [Ne.symm e]) (fun z hz => by simp [hz, Ne.symm e])
theorem State.mill?_setMill {m n : Mill} (e : s.mill? m.id = some n) : (s.setMill m).mill? m.id = some m :=
  find_map_self (by simp) (fun z => by simp) e
theorem State.mill?_setMill_ne {m : Mill} {r : MillRef} (e : r ≠ m.id) : (s.setMill m).mill? r = s.mill? r :=
  find_map_other (by simp [Ne.symm e]) (fun z hz => by simp [hz, Ne.symm e])
theorem State.task?_setTask {k j : Task} (e : s.task? k.tid = some j) : (s.setTask k).task? k.tid = some k :=
  find_map_self (by simp) (fun z => by simp) e
theorem State.task?_setTask_ne {k : Task} {n : Nat} (e : n ≠ k.tid) : (s.setTask k).task? n = s.task? n :=
  find_map_other (by simp [Ne.symm e]) (fun z hz => by simp [hz, Ne.symm e])
theorem State.team?_setTeam {t u : Team} (e : s.team? t.tid t.team = some u) : (s.setTeam t).team? t.tid t.team = some t :=
  find_map_self (by simp) (fun z => by simp) e
theorem State.team?_setTeam_ne {t : Team} {a b : Nat} (e : ¬(a = t.tid ∧ b = t.team)) : (s.setTeam t).team? a b = s.team? a b :=
  find_map_other (by simpa using fun h1 h2 => e ⟨h1.symm, h2.symm⟩) (fun z hz => by simpa [hz.1, hz.2] using fun h1 h2 => e ⟨h1.symm, h2.symm⟩)

/-- The found part bears the name it was found under. -/
theorem State.group?_id {r : GroupRef} {g : Group} (e : s.group? r = some g) : g.id = r := by simpa using List.find?_some e
theorem State.mill?_id {r : MillRef} {m : Mill} (e : s.mill? r = some m) : m.id = r := by simpa using List.find?_some e
theorem State.task?_tid {n : Nat} {k : Task} (e : s.task? n = some k) : k.tid = n := by simpa using List.find?_some e

@[simp] theorem State.core_setCore_self (k : Core) : (s.setCore k).core k.id = k := by
  unfold State.setCore
  split
  · rename_i h
    obtain ⟨j, hj⟩ : ∃ j, s.cores.find? (fun h => h.id == k.id) = some j := Option.isSome_iff_exists.mp (by simpa [List.find?_isSome] using h)
    simp only [State.core]
    rw [find_map_self (by simp) (fun z => by simp) hj]
  · rename_i h
    have : s.cores.find? (fun h => h.id == k.id) = none := by simpa [List.find?_eq_none] using h
    simp [State.core, List.find?_append, this]

theorem State.core_setCore_ne {k : Core} {c : CoreId} (e : c ≠ k.id) : (s.setCore k).core c = s.core c := by
  unfold State.setCore
  split
  · simp only [State.core]
    rw [find_map_other (by simp [Ne.symm e]) (fun z hz => by simp [hz, Ne.symm e])]
  · have : (k.id == c) = false := by simp [Ne.symm e]
    simp [State.core, List.find?_append, this]

/-- A core keeps its name. -/
theorem State.core_id (c : CoreId) : (s.core c).id = c := by
  unfold State.core
  split
  · rename_i k h; simpa using List.find?_some h
  · rfl

/-! ### The invariant's terms under the updates -/

/-- The invariant is about the memories and the registers alone. -/
theorem State.Inv.of_eq {s t : State} (h : s.Inv) (hm : t.mem = s.mem) (hr : t.mgmt = s.mgmt) : t.Inv := by
  unfold State.Inv State.Canonical State.RegistersCanonical at *; rw [hm, hr]; exact h

theorem State.Inv.mapMem {s : State} (h : s.Inv) {f : MemState → MemState} (hf : s.mem.canonical = true → (f s.mem).canonical = true) :
    (s.mapMem f).Inv := ⟨hf h.1, h.2⟩
theorem State.Inv.setReg {s : State} (h : s.Inv) (off v : Nat) : (s.setReg off v).Inv := ⟨h.1, State.registers_setReg h.2 off v⟩
theorem State.Inv.regWrite {s : State} (h : s.Inv) (off v mask : Nat) : (s.regWrite off v mask).Inv :=
  ⟨h.1, State.registers_regWrite h.2 off v mask⟩
theorem State.Inv.setGroup {s : State} (h : s.Inv) (g : Group) : (s.setGroup g).Inv := h
theorem State.Inv.setTeam {s : State} (h : s.Inv) (t : Team) : (s.setTeam t).Inv := h
theorem State.Inv.setTask {s : State} (h : s.Inv) (k : Task) : (s.setTask k).Inv := h
theorem State.Inv.setMill {s : State} (h : s.Inv) (m : Mill) : (s.setMill m).Inv := h
theorem State.Inv.setCore {s : State} (h : s.Inv) (k : Core) : (s.setCore k).Inv := h.of_eq (by simp) (by simp)
theorem State.Inv.sendMsg {s : State} (h : s.Inv) (m : Msg) : (s.sendMsg m).Inv := by
  exact h
theorem State.Inv.send {s : State} (h : s.Inv) (c : MClass) (a b : Site) (x : Body) : (s.send c a b x).Inv := h.sendMsg _
theorem State.Inv.respond {s : State} (h : s.Inv) (m : Msg) (c : MClass) (x : Body) : (s.respond m c x).Inv := h.sendMsg _
theorem State.Inv.request {s : State} (h : s.Inv) (c : MClass) (a b : Site) (x : Body) : (s.request c a b x).Inv := by
  unfold State.request; split
  · exact h.sendMsg _
  · exact (h.sendMsg _).mapMem id
theorem State.Inv.takeMsg {s t : State} {k : Nat} {m : Msg} (h : s.Inv) (e : s.takeMsg k = some (m, t)) : t.Inv := by
  unfold State.takeMsg at e
  split at e
  · split at e
    · cases e; exact h
    · cases e
  · cases e
theorem State.Inv.foldl {α : Type} {f : State → α → State} (hf : ∀ t x, t.Inv → (f t x).Inv) (xs : List α) {s : State} (h : s.Inv) :
    (xs.foldl f s).Inv := by
  induction xs generalizing s with
  | nil => exact h
  | cons x xs ih => exact ih (hf s x h)

end Sys2Proof.Machine
end

