-- ==== Sys2Proof/Laws/MemState.lean ====
section
/-! SUPPORT. The memories of the machine stay in canonical form: one lemma for each operation on them. -/

namespace Sys2Proof.Machine

theorem MemState.canonical_iff {x : MemState} : x.canonical = true ↔ x.dram.wf = true ∧ x.window.wf = true ∧ x.dieSp.wf = true ∧
    x.towerTab.wf = true ∧ x.host.wf = true ∧ x.pool.wf = true := by
  simp [MemState.canonical, and_assoc]

/-- Reset memory lists nothing. -/
theorem MemState.canonical_reset : MemState.reset.canonical = true := rfl

theorem MemState.canonical_tcWriteback {x : MemState} (h : x.canonical = true) (t : TLine) : (x.tcWriteback t).canonical = true := by
  unfold MemState.tcWriteback
  split
  · exact h
  · rw [MemState.canonical_iff] at *; dsimp only; exact ⟨Mem.wf_putLine h.1 _ _ _, h.2⟩

theorem MemState.canonical_tcDrop {x : MemState} (h : x.canonical = true) (tower line : Nat) : (x.tcDrop tower line).canonical = true := by
  unfold MemState.tcDrop
  split
  · exact MemState.canonical_tcWriteback h _
  · exact h

theorem MemState.canonical_tcPut {x : MemState} (h : x.canonical = true) (t : TLine) : (x.tcPut t).canonical = true := by
  have drops : ∀ (l : List TLine) (y : MemState), y.canonical = true →
      (l.foldl (fun y v => y.tcDrop v.tower v.line) y).canonical = true := by
    intro l
    induction l with
    | nil => exact fun y hy => hy
    | cons v l ih => exact fun y hy => ih _ (MemState.canonical_tcDrop hy _ _)
  exact drops _ _ h

theorem MemState.canonical_tcFetch {x : MemState} (h : x.canonical = true) (tower line : Nat) : (x.tcFetch tower line).canonical = true := by
  unfold MemState.tcFetch
  split <;> exact MemState.canonical_tcPut h _

theorem MemState.canonical_tcWrite {x : MemState} (h : x.canonical = true) (tower line : Nat) (val mask : BitVec 2048) :
    (x.tcWrite tower line val mask).canonical = true := MemState.canonical_tcPut h _

theorem MemState.canonical_tcClean {x : MemState} (h : x.canonical = true) (tower line : Nat) : (x.tcClean tower line).canonical = true := by
  unfold MemState.tcClean
  split
  · exact MemState.canonical_tcWriteback h _
  · exact h

/-- Writing a line at its home keeps every memory canonical. -/
theorem MemState.canonical_placeWrite {x : MemState} (h : x.canonical = true) (p : Place) (val mask : BitVec 2048) :
    (x.placeWrite p val mask).canonical = true := by
  unfold MemState.placeWrite
  have hw : (x.unwatch p).canonical = true := h
  generalize x.unwatch p = y at hw
  dsimp only
  split
  · exact MemState.canonical_tcWrite hw _ _ _ _
  · rw [MemState.canonical_iff] at *; dsimp only; exact ⟨hw.1, hw.2.1, hw.2.2.1, hw.2.2.2.1, hw.2.2.2.2.1, Mem.wf_putLine hw.2.2.2.2.2 _ _ _⟩
  · rw [MemState.canonical_iff] at *; dsimp only; exact ⟨hw.1, hw.2.1, hw.2.2.1, hw.2.2.2.1, Mem.wf_putLine hw.2.2.2.2.1 _ _ _, hw.2.2.2.2.2⟩

theorem MemState.canonical_placeTouch {x : MemState} (h : x.canonical = true) (p : Place) : (x.placeTouch p).canonical = true := by
  unfold MemState.placeTouch
  split
  · exact MemState.canonical_tcFetch h _ _
  · exact h

theorem MemState.canonical_putRow {x : MemState} (h : x.canonical = true) (r : Nat × Nat) (vs : List (BitVec 2048)) :
    (x.putRow r vs).canonical = true := by
  rw [MemState.canonical_iff] at *
  exact ⟨Mem.wf_foldl (fun _ _ hm => Mem.wf_putLine hm _ _ _) _ h.1, h.2⟩

theorem MemState.canonical_lose {x : MemState} (h : x.canonical = true) (tower : Nat) (phys : Option Nat) (a : LineId) :
    (x.lose tower phys a).canonical = true := by
  unfold MemState.lose
  split
  · exact h
  · split
    · exact h
    · split
      · split
        · exact h
        · exact h
      · exact h

theorem MemState.canonical_setLine {x : MemState} (h : x.canonical = true) (l : Line) : (x.setLine l).canonical = true := by
  unfold MemState.setLine; split <;> exact h
theorem MemState.canonical_dropLine {x : MemState} (h : x.canonical = true) (n : Node) (a : LineId) : (x.dropLine n a).canonical = true := h
theorem MemState.canonical_tlbPut {x : MemState} (h : x.canonical = true) (t : TlbEntry) : (x.tlbPut t).canonical = true := h
theorem MemState.canonical_resetTower {x : MemState} (h : x.canonical = true) (t : Nat) : (x.resetTower t).canonical = true := h

/-! ### The state's operations -/

theorem State.Inv.homeWritten {s : State} (h : s.Inv) (p : Place) (val mask : BitVec 2048) :
    (s.mapMem fun x => x.placeWrite p val mask).Inv := h.mapMem fun hm => MemState.canonical_placeWrite hm p val mask
theorem State.Inv.sendInv {s : State} (h : s.Inv) (par : Node) (k : Kid) : (s.sendInv par k).Inv := h.send _ _ _ _

theorem State.Inv.dropNode {s : State} (h : s.Inv) (n : Node) (a : LineId) : (s.dropNode n a).Inv := by
  have hd : (s.mapMem fun x => x.dropLine n a).Inv := h.mapMem fun hm => hm
  unfold State.dropNode
  cases n <;> exact hd

theorem State.Inv.pull (also : Node → Bool) (fuel : Nat) : ∀ {s : State}, s.Inv → ∀ (n : Node) (a : LineId), (State.pull also fuel n a s).2.2.Inv := by
  induction fuel with
  | zero => intro s h n a; exact h
  | succ fuel ih =>
    intro s h n a
    unfold State.pull
    split
    · exact h
    · rename_i l _
      have gen : ∀ (ks : List Kid) (acc : BitVec 2048 × BitVec 2048 × State), acc.2.2.Inv →
          (ks.foldl (fun acc k => if k.yields also then
            (lineMerge acc.1 (State.pull also fuel k.node k.a acc.2.2).1 (State.pull also fuel k.node k.a acc.2.2).2.1,
              acc.2.1 ||| (State.pull also fuel k.node k.a acc.2.2).2.1, (State.pull also fuel k.node k.a acc.2.2).2.2)
            else (acc.1, acc.2.1, acc.2.2.sendInv n k)) acc).2.2.Inv := by
        intro ks
        induction ks with
        | nil => intro acc ha; exact ha
        | cons k ks ih2 =>
          intro acc ha
          rw [List.foldl_cons]
          apply ih2
          split
          · exact ih ha _ _
          · exact ha.sendInv _ _
      exact gen (l.owners ++ l.sharers) (l.val, l.dirty, (s.dropNode n a).mapMem fun x => x.emptyUp n a)
        ((h.dropNode n a).mapMem fun hm => hm)

theorem State.Inv.callBack {s : State} (h : s.Inv) (p : Borrow → Bool) : (s.callBack p).Inv := by
  unfold State.callBack
  refine State.Inv.foldl (fun t b ht => ?_) _ (State.Inv.mapMem h fun hm => hm)
  dsimp only
  split
  · split
    · exact ⟨ht.1, ht.2⟩
    · exact ⟨ht.1, ht.2⟩
  · exact ⟨ht.1, ht.2⟩
theorem State.Inv.callBorrowers {s : State} (h : s.Inv) (p : Place) : (s.callBorrowers p).Inv := by
  unfold State.callBorrowers
  split
  · exact State.Inv.callBack h _
  · exact h

theorem State.Inv.homeTake {s : State} (h : s.Inv) (p : Place) (also : Node → Bool) : (s.homeTake p also).Inv := by
  have hb := h.callBorrowers p
  unfold State.homeTake
  dsimp only
  split
  · exact hb
  · refine State.Inv.foldl (fun t k ht => ?_) _ (State.Inv.mapMem hb fun hm => hm)
    split
    · exact State.Inv.homeWritten (State.Inv.pull _ 4 ht _ _) _ _ _
    · exact ht.sendInv _ _

theorem State.Inv.homeClear {s : State} (h : s.Inv) (p : Place) : (s.homeClear p).Inv := h.homeTake p _

theorem State.Inv.homeSpread {s : State} (h : s.Inv) (p : Place) (val mask : BitVec 2048) : (s.homeSpread p val mask).Inv := by
  have hb := h.callBorrowers p
  unfold State.homeSpread
  refine State.Inv.mapMem ?_ fun hm => MemState.canonical_placeWrite hm p val mask
  exact ⟨hb.1, hb.2⟩

/-- A write by the home keeps the invariant. -/
theorem State.Inv.homeWrite {s : State} (h : s.Inv) (p : Place) (val mask : BitVec 2048) : (s.homeWrite p val mask).Inv := by
  unfold State.homeWrite
  split
  · exact (h.homeClear p).homeWritten p val mask
  · exact h.homeSpread p val mask

/-- A lane's store to an SRAM space keeps the invariant. -/
theorem State.Inv.writeSram {s : State} (h : s.Inv) (u : Issuer) (space : Space) (x : LaneStore) : (u.writeSram s space x).Inv := by
  unfold Issuer.writeSram
  dsimp only
  split
  · exact h
  · split
    · exact h
    · exact h.setTeam _
  · refine h.mapMem fun hm => ?_
    rw [MemState.canonical_iff] at *
    exact ⟨hm.1, Mem.wf_write hm.2.1 _ _, hm.2.2⟩
  · split
    · exact h
    · refine h.mapMem fun hm => ?_
      rw [MemState.canonical_iff] at *
      exact ⟨hm.1, hm.2.1, Mem.wf_write hm.2.2.1 _ _, hm.2.2.2⟩
  · split
    · exact h
    · exact h.setTeam _

end Sys2Proof.Machine
end

