-- ==== Sys2Proof/Laws/PerInstr.lean ====
section
/-! SUPPORT. Laws of every instruction as syntax, one lemma per constructor: a word has between one and
four 4-byte words in its encoding and a place where it may stand, an event has neither. -/

set_option Elab.async false

namespace Sys2Proof.Laws.Encoding

/-- An instruction with a place in code is one to four words long; an event has no encoding (R219, R223,
R226, R355). -/
def Statement (i : Instr) : Prop :=
  (i.ctx = none ∧ i.encode = []) ∨ (i.ctx ≠ none ∧ 1 ≤ i.encode.length ∧ i.encode.length ≤ 4)

theorem lits_le (a : Src) : a.lits.length ≤ 1 := by cases a <;> simp [Src.lits]

theorem word0 {i : Instr} {w : W32} (hc : i.ctx ≠ none) (h : i.encode = [w]) : Statement i := by
  simp [Statement, hc, h]
theorem word1 {i : Instr} {w : W32} {a : Src} (hc : i.ctx ≠ none) (h : i.encode = w :: a.lits) : Statement i := by
  have := lits_le a
  simp only [Statement, hc, h, List.length_cons, ne_eq, not_false_eq_true, true_and, false_and, false_or]; omega
theorem word2 {i : Instr} {w : W32} {a b : Src} (hc : i.ctx ≠ none) (h : i.encode = w :: (a.lits ++ b.lits)) : Statement i := by
  have := lits_le a; have := lits_le b
  simp only [Statement, hc, h, List.length_cons, List.length_append, ne_eq, not_false_eq_true, true_and, false_and, false_or]; omega
theorem word3 {i : Instr} {w : W32} {a b c : Src} (hc : i.ctx ≠ none) (h : i.encode = w :: (a.lits ++ b.lits ++ c.lits)) : Statement i := by
  have := lits_le a; have := lits_le b; have := lits_le c
  simp only [Statement, hc, h, List.length_cons, List.length_append, ne_eq, not_false_eq_true, true_and, false_and, false_or]; omega

theorem partReset  : Statement (.partReset) := .inl ⟨rfl, rfl⟩
theorem bootPhase (r : BootReport) : Statement (.bootPhase r) := .inl ⟨rfl, rfl⟩
theorem bootPhaseLimitExpiry  : Statement (.bootPhaseLimitExpiry) := .inl ⟨rfl, rfl⟩
theorem clockStretchChange (sheet : Fin 4) (n : Nat) : Statement (.clockStretchChange sheet n) := .inl ⟨rfl, rfl⟩
theorem freezeRequest  : Statement (.freezeRequest) := .inl ⟨rfl, rfl⟩
theorem debugFreezeRequest  : Statement (.debugFreezeRequest) := .inl ⟨rfl, rfl⟩
theorem sheetFreeze (sheet : Fin 4) : Statement (.sheetFreeze sheet) := .inl ⟨rfl, rfl⟩
theorem thaw  : Statement (.thaw) := .inl ⟨rfl, rfl⟩
theorem frzctlReset  : Statement (.frzctlReset) := .inl ⟨rfl, rfl⟩
theorem readout1687 (what : ReadTarget) : Statement (.readout1687 what) := .inl ⟨rfl, rfl⟩
theorem debugGrant (valid : Bool) (marker : Option (BitVec 64)) : Statement (.debugGrant valid marker) := .inl ⟨rfl, rfl⟩
theorem farrierLost (sheet : Fin 4) : Statement (.farrierLost sheet) := .inl ⟨rfl, rfl⟩
theorem linkFlitCrcFail (l : LinkId) : Statement (.linkFlitCrcFail l) := .inl ⟨rfl, rfl⟩
theorem linkRetrain (l : LinkId) : Statement (.linkRetrain l) := .inl ⟨rfl, rfl⟩
theorem linkRetrainFail (l : LinkId) : Statement (.linkRetrainFail l) := .inl ⟨rfl, rfl⟩
theorem routerForward (k : Nat) : Statement (.routerForward k) := .inl ⟨rfl, rfl⟩
theorem opticalNak (f : FlitRef) : Statement (.opticalNak f) := .inl ⟨rfl, rfl⟩
theorem fibreRetrain (f good : Nat) : Statement (.fibreRetrain f good) := .inl ⟨rfl, rfl⟩
theorem hashBucketMove (b f : Nat) : Statement (.hashBucketMove b f) := .inl ⟨rfl, rfl⟩
theorem opticalTransit (p : Nat) (pkt : Packet) : Statement (.opticalTransit p pkt) := .inl ⟨rfl, rfl⟩
theorem routeEntryWrite (p k : Nat) (v : BitVec 32) : Statement (.routeEntryWrite p k v) := .inl ⟨rfl, rfl⟩
theorem responseArrival (k : Nat) : Statement (.responseArrival k) := .inl ⟨rfl, rfl⟩
theorem watermarkNotice (k : Nat) : Statement (.watermarkNotice k) := .inl ⟨rfl, rfl⟩
theorem requestTimeout (site : Site) (tag : Nat) : Statement (.requestTimeout site tag) := .inl ⟨rfl, rfl⟩
theorem xtocfgWrite (site : Site) (v : BitVec 32) : Statement (.xtocfgWrite site v) := .inl ⟨rfl, rfl⟩
theorem pkgnumWrite (v : BitVec 32) : Statement (.pkgnumWrite v) := .inl ⟨rfl, rfl⟩
theorem lrbaseWrite (r : Nat) (v : BitVec 64) : Statement (.lrbaseWrite r v) := .inl ⟨rfl, rfl⟩
theorem lrgrantWrite (r g : Nat) (v : BitVec 64) : Statement (.lrgrantWrite r g v) := .inl ⟨rfl, rfl⟩
theorem grantWithdrawComplete (r : Nat) : Statement (.grantWithdrawComplete r) := .inl ⟨rfl, rfl⟩
theorem poolAccess (who : PoolSource) (region off : Nat) (acc : ExtAccess) : Statement (.poolAccess who region off acc) := .inl ⟨rfl, rfl⟩
theorem compositionEntryWrite (n : Nat) (v : BitVec 64) : Statement (.compositionEntryWrite n v) := .inl ⟨rfl, rfl⟩
theorem cxlMemAccess (port dpa : Nat) (acc : ExtAccess) : Statement (.cxlMemAccess port dpa acc) := .inl ⟨rfl, rfl⟩
theorem bar4Access (port off : Nat) (acc : ExtAccess) : Statement (.bar4Access port off acc) := .inl ⟨rfl, rfl⟩
theorem registerWrite (off : BarWrite) (v : BitVec 64) : Statement (.registerWrite off v) := .inl ⟨rfl, rfl⟩
theorem queueEnable (q : Nat) (v : BitVec 32) : Statement (.queueEnable q v) := .inl ⟨rfl, rfl⟩
theorem queueDisable (q : Nat) (v : BitVec 32) : Statement (.queueDisable q v) := .inl ⟨rfl, rfl⟩
theorem qstatClear (q : Nat) (v : BitVec 32) : Statement (.qstatClear q v) := .inl ⟨rfl, rfl⟩
theorem tailWrite (src : TailSource) (q : Nat) (t : BitVec 32) : Statement (.tailWrite src q t) := .inl ⟨rfl, rfl⟩
theorem recordPull (q : Nat) (ext : List (BitVec 8)) : Statement (.recordPull q ext) := .inl ⟨rfl, rfl⟩
theorem recordReadFail (q : Nat) : Statement (.recordReadFail q) := .inl ⟨rfl, rfl⟩
theorem headShadowFail (q : Nat) : Statement (.headShadowFail q) := .inl ⟨rfl, rfl⟩
theorem taskAdmit (q : Nat) : Statement (.taskAdmit q) := .inl ⟨rfl, rfl⟩
theorem admissionRetry (q : Nat) : Statement (.admissionRetry q) := .inl ⟨rfl, rfl⟩
theorem successorListRead (tid : Nat) : Statement (.successorListRead tid) := .inl ⟨rfl, rfl⟩
theorem hazardRelease (tid : Nat) : Statement (.hazardRelease tid) := .inl ⟨rfl, rfl⟩
theorem taskPlace (tid set : Nat) (spots : List TeamSpot) (cwbase : Nat) : Statement (.taskPlace tid set spots cwbase) := .inl ⟨rfl, rfl⟩
theorem ageingReserve (tid set : Nat) : Statement (.ageingReserve tid set) := .inl ⟨rfl, rfl⟩
theorem edgeInvalidate (tid die : Nat) : Statement (.edgeInvalidate tid die) := .inl ⟨rfl, rfl⟩
theorem teamStart (tid set : Nat) : Statement (.teamStart tid set) := .inl ⟨rfl, rfl⟩
theorem preemptChoose (tid victim set : Nat) : Statement (.preemptChoose tid victim set) := .inl ⟨rfl, rfl⟩
theorem preemptSequence (tid set : Nat) : Statement (.preemptSequence tid set) := .inl ⟨rfl, rfl⟩
theorem preemptComplete (tid set : Nat) : Statement (.preemptComplete tid set) := .inl ⟨rfl, rfl⟩
theorem taskResume (tid set : Nat) (spots : List TeamSpot) : Statement (.taskResume tid set spots) := .inl ⟨rfl, rfl⟩
theorem taskDrain (tid : Nat) : Statement (.taskDrain tid) := .inl ⟨rfl, rfl⟩
theorem edgeWriteback (tid die : Nat) : Statement (.edgeWriteback tid die) := .inl ⟨rfl, rfl⟩
theorem taskDone (tid : Nat) : Statement (.taskDone tid) := .inl ⟨rfl, rfl⟩
theorem taskFaultEnd (tid : Nat) : Statement (.taskFaultEnd tid) := .inl ⟨rfl, rfl⟩
theorem completionStoreFail (tid : Nat) : Statement (.completionStoreFail tid) := .inl ⟨rfl, rfl⟩
theorem msixSend (tid : Nat) : Statement (.msixSend tid) := .inl ⟨rfl, rfl⟩
theorem stablePoolWrite (off : Nat) (v : BitVec 64) : Statement (.stablePoolWrite off v) := .inl ⟨rfl, rfl⟩
theorem millAssign (tid : Nat) (m : MillRef) : Statement (.millAssign tid m) := .inl ⟨rfl, rfl⟩
theorem millLoadComplete (m : MillRef) : Statement (.millLoadComplete m) := .inl ⟨rfl, rfl⟩
theorem millPreempt (m : MillRef) : Statement (.millPreempt m) := .inl ⟨rfl, rfl⟩
theorem millRestore (tid rank : Nat) (m : MillRef) : Statement (.millRestore tid rank m) := .inl ⟨rfl, rfl⟩
theorem ownerTableWrite (die n : Nat) (v : BitVec 32) : Statement (.ownerTableWrite die n v) := .inl ⟨rfl, rfl⟩
theorem homeTableWrite (die n : Nat) (v : BitVec 128) : Statement (.homeTableWrite die n v) := .inl ⟨rfl, rfl⟩
theorem towerHomeTableWrite (tower n : Nat) (v : BitVec 128) : Statement (.towerHomeTableWrite tower n v) := .inl ⟨rfl, rfl⟩
theorem gets (k : Nat) : Statement (.gets k) := .inl ⟨rfl, rfl⟩
theorem getx (k : Nat) : Statement (.getx k) := .inl ⟨rfl, rfl⟩
theorem upgr (k : Nat) : Statement (.upgr k) := .inl ⟨rfl, rfl⟩
theorem inv (k : Nat) : Statement (.inv k) := .inl ⟨rfl, rfl⟩
theorem fwds (k : Nat) : Statement (.fwds k) := .inl ⟨rfl, rfl⟩
theorem fwdx (k : Nat) : Statement (.fwdx k) := .inl ⟨rfl, rfl⟩
theorem recallMsg (k : Nat) : Statement (.recallMsg k) := .inl ⟨rfl, rfl⟩
theorem drain (k : Nat) : Statement (.drain k) := .inl ⟨rfl, rfl⟩
theorem drainack (k : Nat) : Statement (.drainack k) := .inl ⟨rfl, rfl⟩
theorem data (k : Nat) : Statement (.data k) := .inl ⟨rfl, rfl⟩
theorem datax (k : Nat) : Statement (.datax k) := .inl ⟨rfl, rfl⟩
theorem invack (k : Nat) : Statement (.invack k) := .inl ⟨rfl, rfl⟩
theorem wbdirty (k : Nat) : Statement (.wbdirty k) := .inl ⟨rfl, rfl⟩
theorem wRegistrationTimer (node : Node) (asid line : Nat) : Statement (.wRegistrationTimer node asid line) := .inl ⟨rfl, rfl⟩
theorem lineEviction (node : Node) (asid line : Nat) (ecc : Ecc) : Statement (.lineEviction node asid line ecc) := .inl ⟨rfl, rfl⟩
theorem towerCacheEviction (tower line : Nat) : Statement (.towerCacheEviction tower line) := .inl ⟨rfl, rfl⟩
theorem pageWalk (k : Nat) : Statement (.pageWalk k) := .inl ⟨rfl, rfl⟩
theorem promreqWrite (tower : Nat) (v : BitVec 64) : Statement (.promreqWrite tower v) := .inl ⟨rfl, rfl⟩
theorem promotionComplete (tower : Nat) : Statement (.promotionComplete tower) := .inl ⟨rfl, rfl⟩
theorem lostMarkClear (tower : Nat) (v : BitVec 32) : Statement (.lostMarkClear tower v) := .inl ⟨rfl, rfl⟩
theorem faultRecordPost (fid : Nat) : Statement (.faultRecordPost fid) := .inl ⟨rfl, rfl⟩
theorem dieFailure (die : Nat) : Statement (.dieFailure die) := .inl ⟨rfl, rfl⟩
theorem directoryScanComplete (tower die : Nat) : Statement (.directoryScanComplete tower die) := .inl ⟨rfl, rfl⟩
theorem towerFailure (tower : Nat) : Statement (.towerFailure tower) := .inl ⟨rfl, rfl⟩
theorem sliceRebuildComplete (tower : Nat) : Statement (.sliceRebuildComplete tower) := .inl ⟨rfl, rfl⟩
theorem dieReset (die : Nat) : Statement (.dieReset die) := .inl ⟨rfl, rfl⟩
theorem towerReset (tower : Nat) : Statement (.towerReset tower) := .inl ⟨rfl, rfl⟩
theorem loadResponse (g : GroupRef) (ecc : Ecc) : Statement (.loadResponse g ecc) := .inl ⟨rfl, rfl⟩
theorem matrixKStep (c : CoreId) (res : Residue) : Statement (.matrixKStep c res) := .inl ⟨rfl, rfl⟩
theorem copyStart (c : CoreId) (k : Nat) : Statement (.copyStart c k) := .inl ⟨rfl, rfl⟩
theorem copyUnitComplete (c : CoreId) (k : Nat) (ecc : Ecc) : Statement (.copyUnitComplete c k ecc) := .inl ⟨rfl, rfl⟩
theorem tethcfgWrite (t : Nat) (v : BitVec 32) : Statement (.tethcfgWrite t v) := .inl ⟨rfl, rfl⟩
theorem tethcntWrite (t : Nat) (v : BitVec 32) : Statement (.tethcntWrite t v) := .inl ⟨rfl, rfl⟩
theorem tetherArrival (tid team t : Nat) : Statement (.tetherArrival tid team t) := .inl ⟨rfl, rfl⟩
theorem tetherRelease (t : Nat) : Statement (.tetherRelease t) := .inl ⟨rfl, rfl⟩
theorem exitComplete (g : GroupRef) : Statement (.exitComplete g) := .inl ⟨rfl, rfl⟩
theorem rowStepStart (m : MillRef) (c : Nat) : Statement (.rowStepStart m c) := .inl ⟨rfl, rfl⟩
theorem rowStepComplete (m : MillRef) (c : Nat) : Statement (.rowStepComplete m c) := .inl ⟨rfl, rfl⟩
theorem refresh (tower ch bank : Nat) : Statement (.refresh tower ch bank) := .inl ⟨rfl, rfl⟩
theorem refreshComplete (tower ch bank : Nat) : Statement (.refreshComplete tower ch bank) := .inl ⟨rfl, rfl⟩
theorem bankLockTaken (m : MillRef) : Statement (.bankLockTaken m) := .inl ⟨rfl, rfl⟩
theorem bankLockForcedRelease (m : MillRef) (pair : Nat) : Statement (.bankLockForcedRelease m pair) := .inl ⟨rfl, rfl⟩
theorem wfaWake (g : GroupRef) : Statement (.wfaWake g) := .inl ⟨rfl, rfl⟩
theorem mparkWake (m : MillRef) : Statement (.mparkWake m) := .inl ⟨rfl, rfl⟩
theorem errorRecordPost  : Statement (.errorRecordPost) := .inl ⟨rfl, rfl⟩
theorem attestationGo (v : BitVec 32) : Statement (.attestationGo v) := .inl ⟨rfl, rfl⟩
theorem attestationDone  : Statement (.attestationDone) := .inl ⟨rfl, rfl⟩
theorem clauseHeader (n : Fin 16) (cls : Fin 8) (mbw : Fin 16) (sdr : Bool) (cpw : Bool) : Statement (.clauseHeader n cls mbw sdr cpw) := word0 nofun rfl
theorem nop  : Statement (.nop) := word0 nofun rfl
theorem sadd (d : Dst) (a : Src) (b : Src) : Statement (.sadd d a b) := word2 nofun rfl
theorem ssub (d : Dst) (a : Src) (b : Src) : Statement (.ssub d a b) := word2 nofun rfl
theorem smul (d : Dst) (a : Src) (b : Src) : Statement (.smul d a b) := word2 nofun rfl
theorem smulhS (d : Dst) (a : Src) (b : Src) : Statement (.smulhS d a b) := word2 nofun rfl
theorem smulhZ (d : Dst) (a : Src) (b : Src) : Statement (.smulhZ d a b) := word2 nofun rfl
theorem sdivS (d : Dst) (a : Src) (b : Src) : Statement (.sdivS d a b) := word2 nofun rfl
theorem sdivZ (d : Dst) (a : Src) (b : Src) : Statement (.sdivZ d a b) := word2 nofun rfl
theorem sremS (d : Dst) (a : Src) (b : Src) : Statement (.sremS d a b) := word2 nofun rfl
theorem sremZ (d : Dst) (a : Src) (b : Src) : Statement (.sremZ d a b) := word2 nofun rfl
theorem sand (d : Dst) (a : Src) (b : Src) : Statement (.sand d a b) := word2 nofun rfl
theorem sor (d : Dst) (a : Src) (b : Src) : Statement (.sor d a b) := word2 nofun rfl
theorem sxor (d : Dst) (a : Src) (b : Src) : Statement (.sxor d a b) := word2 nofun rfl
theorem sshl (d : Dst) (a : Src) (b : Src) : Statement (.sshl d a b) := word2 nofun rfl
theorem sshr (d : Dst) (a : Src) (b : Src) : Statement (.sshr d a b) := word2 nofun rfl
theorem ssar (d : Dst) (a : Src) (b : Src) : Statement (.ssar d a b) := word2 nofun rfl
theorem sminS (d : Dst) (a : Src) (b : Src) : Statement (.sminS d a b) := word2 nofun rfl
theorem smaxS (d : Dst) (a : Src) (b : Src) : Statement (.smaxS d a b) := word2 nofun rfl
theorem sminZ (d : Dst) (a : Src) (b : Src) : Statement (.sminZ d a b) := word2 nofun rfl
theorem smaxZ (d : Dst) (a : Src) (b : Src) : Statement (.smaxZ d a b) := word2 nofun rfl
theorem scmpS (d : Dst) (a : Src) (b : Src) : Statement (.scmpS d a b) := word2 nofun rfl
theorem scmpZ (d : Dst) (a : Src) (b : Src) : Statement (.scmpZ d a b) := word2 nofun rfl
theorem ssel (d : Dst) (a : Src) (b : Src) (c : Code) : Statement (.ssel d a b c) := word2 nofun rfl
theorem smov (d : Dst) (a : Src) : Statement (.smov d a) := word1 nofun rfl
theorem smovl (d : Dst) (lo : BitVec 32) (hi : BitVec 32) : Statement (.smovl d lo hi) := .inr ⟨nofun, (by decide : 1 ≤ 3), (by decide : 3 ≤ 4)⟩
theorem sclz (d : Dst) (a : Src) : Statement (.sclz d a) := word1 nofun rfl
theorem spopc (d : Dst) (a : Src) : Statement (.spopc d a) := word1 nofun rfl
theorem sbfx (d : Dst) (a : Src) (b : Src) (c : Code) : Statement (.sbfx d a b c) := word2 nofun rfl
theorem sbfi (d : Dst) (a : Src) (b : Src) (c : Code) : Statement (.sbfi d a b c) := word2 nofun rfl
theorem sexw (d : Dst) (a : Src) : Statement (.sexw d a) := word1 nofun rfl
theorem szxw (d : Dst) (a : Src) : Statement (.szxw d a) := word1 nofun rfl
theorem smad (d : Dst) (a : Src) (b : Src) (c : Src) : Statement (.smad d a b c) := word3 nofun rfl
theorem vadd (d : Dst) (a : Src) (b : Src) : Statement (.vadd d a b) := word2 nofun rfl
theorem vsub (d : Dst) (a : Src) (b : Src) : Statement (.vsub d a b) := word2 nofun rfl
theorem vmul (d : Dst) (a : Src) (b : Src) : Statement (.vmul d a b) := word2 nofun rfl
theorem vmulhS (d : Dst) (a : Src) (b : Src) : Statement (.vmulhS d a b) := word2 nofun rfl
theorem vmulhZ (d : Dst) (a : Src) (b : Src) : Statement (.vmulhZ d a b) := word2 nofun rfl
theorem vmad (d : Dst) (a : Src) (b : Src) (c : Src) : Statement (.vmad d a b c) := word3 nofun rfl
theorem vaddsS (d : Dst) (a : Src) (b : Src) : Statement (.vaddsS d a b) := word2 nofun rfl
theorem vsubsS (d : Dst) (a : Src) (b : Src) : Statement (.vsubsS d a b) := word2 nofun rfl
theorem vminS (d : Dst) (a : Src) (b : Src) : Statement (.vminS d a b) := word2 nofun rfl
theorem vmaxS (d : Dst) (a : Src) (b : Src) : Statement (.vmaxS d a b) := word2 nofun rfl
theorem vminZ (d : Dst) (a : Src) (b : Src) : Statement (.vminZ d a b) := word2 nofun rfl
theorem vmaxZ (d : Dst) (a : Src) (b : Src) : Statement (.vmaxZ d a b) := word2 nofun rfl
theorem vabsS (d : Dst) (a : Src) : Statement (.vabsS d a) := word1 nofun rfl
theorem vand (d : Dst) (a : Src) (b : Src) : Statement (.vand d a b) := word2 nofun rfl
theorem vor (d : Dst) (a : Src) (b : Src) : Statement (.vor d a b) := word2 nofun rfl
theorem vxor (d : Dst) (a : Src) (b : Src) : Statement (.vxor d a b) := word2 nofun rfl
theorem vshl (d : Dst) (a : Src) (b : Src) : Statement (.vshl d a b) := word2 nofun rfl
theorem vshr (d : Dst) (a : Src) (b : Src) : Statement (.vshr d a b) := word2 nofun rfl
theorem vsar (d : Dst) (a : Src) (b : Src) : Statement (.vsar d a b) := word2 nofun rfl
theorem vclz (d : Dst) (a : Src) : Statement (.vclz d a) := word1 nofun rfl
theorem vpopc (d : Dst) (a : Src) : Statement (.vpopc d a) := word1 nofun rfl
theorem vbfx (d : Dst) (a : Src) (b : Src) (c : Code) : Statement (.vbfx d a b c) := word2 nofun rfl
theorem vbfi (d : Dst) (a : Src) (b : Src) (c : Code) : Statement (.vbfi d a b c) := word2 nofun rfl
theorem vsel (d : Dst) (a : Src) (b : Src) (c : Code) : Statement (.vsel d a b c) := word2 nofun rfl
theorem vmov (d : Dst) (a : Src) : Statement (.vmov d a) := word1 nofun rfl
theorem vfadd (d : Dst) (a : Src) (b : Src) : Statement (.vfadd d a b) := word2 nofun rfl
theorem vfsub (d : Dst) (a : Src) (b : Src) : Statement (.vfsub d a b) := word2 nofun rfl
theorem vfmul (d : Dst) (a : Src) (b : Src) : Statement (.vfmul d a b) := word2 nofun rfl
theorem vffma (d : Dst) (a : Src) (b : Src) (c : Src) : Statement (.vffma d a b c) := word3 nofun rfl
theorem vfmin (d : Dst) (a : Src) (b : Src) : Statement (.vfmin d a b) := word2 nofun rfl
theorem vfmax (d : Dst) (a : Src) (b : Src) : Statement (.vfmax d a b) := word2 nofun rfl
theorem vfabs (d : Dst) (a : Src) : Statement (.vfabs d a) := word1 nofun rfl
theorem vfneg (d : Dst) (a : Src) : Statement (.vfneg d a) := word1 nofun rfl
theorem vfdiv (d : Dst) (a : Src) (b : Src) : Statement (.vfdiv d a b) := word2 nofun rfl
theorem vfsqrt (d : Dst) (a : Src) : Statement (.vfsqrt d a) := word1 nofun rfl
theorem vfrcp (d : Dst) (a : Src) : Statement (.vfrcp d a) := word1 nofun rfl
theorem vfrsq (d : Dst) (a : Src) : Statement (.vfrsq d a) := word1 nofun rfl
theorem vfex2 (d : Dst) (a : Src) : Statement (.vfex2 d a) := word1 nofun rfl
theorem vflg2 (d : Dst) (a : Src) : Statement (.vflg2 d a) := word1 nofun rfl
theorem vfsinp (d : Dst) (a : Src) : Statement (.vfsinp d a) := word1 nofun rfl
theorem vfcosp (d : Dst) (a : Src) : Statement (.vfcosp d a) := word1 nofun rfl
theorem vfrnd (d : Dst) (a : Src) (c : Code) : Statement (.vfrnd d a c) := word1 nofun rfl
theorem vfcls (d : Dst) (a : Src) : Statement (.vfcls d a) := word1 nofun rfl
theorem vcmpS (d : Code) (a : Src) (b : Src) (c : Code) : Statement (.vcmpS d a b c) := word2 nofun rfl
theorem vcmpZ (d : Code) (a : Src) (b : Src) (c : Code) : Statement (.vcmpZ d a b c) := word2 nofun rfl
theorem vfcmp (d : Code) (a : Src) (b : Src) (c : Code) : Statement (.vfcmp d a b c) := word2 nofun rfl
theorem mand (a : Code) (b : Code) (c : Code) : Statement (.mand a b c) := word0 nofun rfl
theorem mor (a : Code) (b : Code) (c : Code) : Statement (.mor a b c) := word0 nofun rfl
theorem mxor (a : Code) (b : Code) (c : Code) : Statement (.mxor a b c) := word0 nofun rfl
theorem mnot (a : Code) (c : Code) : Statement (.mnot a c) := word0 nofun rfl
theorem mtoex (c : Code) : Statement (.mtoex c) := word0 nofun rfl
theorem mfrex (c : Code) : Statement (.mfrex c) := word0 nofun rfl
theorem mpopc (d : Dst) (c : Code) : Statement (.mpopc d c) := word0 nofun rfl
theorem mfirst (d : Dst) (c : Code) : Statement (.mfirst d c) := word0 nofun rfl
theorem mfroms (a : Src) (c : Code) : Statement (.mfroms a c) := word1 nofun rfl
theorem mtos (d : Dst) (c : Code) : Statement (.mtos d c) := word0 nofun rfl
theorem vshfl (d : Dst) (a : Src) (b : Src) (c : Code) : Statement (.vshfl d a b c) := word2 nofun rfl
theorem vbcast (d : Dst) (a : Src) (b : Src) : Statement (.vbcast d a b) := word2 nofun rfl
theorem vtos (d : Dst) (a : Src) (b : Src) : Statement (.vtos d a b) := word2 nofun rfl
theorem vredaddF32 (d : Dst) (a : Src) : Statement (.vredaddF32 d a) := word1 nofun rfl
theorem vredaddB32 (d : Dst) (a : Src) : Statement (.vredaddB32 d a) := word1 nofun rfl
theorem vredminS (d : Dst) (a : Src) : Statement (.vredminS d a) := word1 nofun rfl
theorem vredmaxS (d : Dst) (a : Src) : Statement (.vredmaxS d a) := word1 nofun rfl
theorem vredminF32 (d : Dst) (a : Src) : Statement (.vredminF32 d a) := word1 nofun rfl
theorem vredmaxF32 (d : Dst) (a : Src) : Statement (.vredmaxF32 d a) := word1 nofun rfl
theorem vscanaddF32 (d : Dst) (a : Src) : Statement (.vscanaddF32 d a) := word1 nofun rfl
theorem vscanaddB32 (d : Dst) (a : Src) : Statement (.vscanaddB32 d a) := word1 nofun rfl
theorem vcvtF32S32 (d : Dst) (a : Src) (c : Code) : Statement (.vcvtF32S32 d a c) := word1 nofun rfl
theorem vcvtF32Z32 (d : Dst) (a : Src) (c : Code) : Statement (.vcvtF32Z32 d a c) := word1 nofun rfl
theorem vcvtS32F32 (d : Dst) (a : Src) (c : Code) : Statement (.vcvtS32F32 d a c) := word1 nofun rfl
theorem vcvtZ32F32 (d : Dst) (a : Src) (c : Code) : Statement (.vcvtZ32F32 d a c) := word1 nofun rfl
theorem vcvtF16F32 (d : Dst) (a : Src) (c : Code) : Statement (.vcvtF16F32 d a c) := word1 nofun rfl
theorem vcvtBf16F32 (d : Dst) (a : Src) (c : Code) : Statement (.vcvtBf16F32 d a c) := word1 nofun rfl
theorem vcvtF32F16 (d : Dst) (a : Src) (c : Code) : Statement (.vcvtF32F16 d a c) := word1 nofun rfl
theorem vcvtF32Bf16 (d : Dst) (a : Src) (c : Code) : Statement (.vcvtF32Bf16 d a c) := word1 nofun rfl
theorem vcvtE8F32 (d : Dst) (a : Src) (b : Src) (c : Code) : Statement (.vcvtE8F32 d a b c) := word2 nofun rfl
theorem vcvtF32E8 (d : Dst) (a : Src) (b : Src) (c : Code) : Statement (.vcvtF32E8 d a b c) := word2 nofun rfl
theorem vcvtN4F32 (d : Dst) (a : Src) (b : Src) : Statement (.vcvtN4F32 d a b) := word2 nofun rfl
theorem vcvtF32N4 (d : Dst) (a : Src) (b : Src) (c : Code) : Statement (.vcvtF32N4 d a b c) := word2 nofun rfl
theorem vmxscale (d : Dst) (a : Src) (c : Code) : Statement (.vmxscale d a c) := word1 nofun rfl
theorem ldB8 (d : Dst) (base : Src) (off : Src) (m : MemMods) : Statement (.ldB8 d base off m) := word2 nofun rfl
theorem ldS8 (d : Dst) (base : Src) (off : Src) (m : MemMods) : Statement (.ldS8 d base off m) := word2 nofun rfl
theorem ldB16 (d : Dst) (base : Src) (off : Src) (m : MemMods) : Statement (.ldB16 d base off m) := word2 nofun rfl
theorem ldS16 (d : Dst) (base : Src) (off : Src) (m : MemMods) : Statement (.ldS16 d base off m) := word2 nofun rfl
theorem ldB32 (d : Dst) (base : Src) (off : Src) (m : MemMods) : Statement (.ldB32 d base off m) := word2 nofun rfl
theorem ldB64 (d : Dst) (base : Src) (off : Src) (m : MemMods) : Statement (.ldB64 d base off m) := word2 nofun rfl
theorem ldB128 (d : Dst) (base : Src) (off : Src) (m : MemMods) : Statement (.ldB128 d base off m) := word2 nofun rfl
theorem stB8 (x : Src) (base : Src) (off : Src) (m : MemMods) : Statement (.stB8 x base off m) := word3 nofun rfl
theorem stB16 (x : Src) (base : Src) (off : Src) (m : MemMods) : Statement (.stB16 x base off m) := word3 nofun rfl
theorem stB32 (x : Src) (base : Src) (off : Src) (m : MemMods) : Statement (.stB32 x base off m) := word3 nofun rfl
theorem stB64 (x : Src) (base : Src) (off : Src) (m : MemMods) : Statement (.stB64 x base off m) := word3 nofun rfl
theorem stB128 (x : Src) (base : Src) (off : Src) (m : MemMods) : Statement (.stB128 x base off m) := word3 nofun rfl
theorem stN4 (x : Src) (base : Src) (off : Src) (m : MemMods) : Statement (.stN4 x base off m) := word3 nofun rfl
theorem ldsB8 (d : Dst) (base : Src) (off : Src) (m : MemMods) : Statement (.ldsB8 d base off m) := word2 nofun rfl
theorem ldsS8 (d : Dst) (base : Src) (off : Src) (m : MemMods) : Statement (.ldsS8 d base off m) := word2 nofun rfl
theorem ldsB16 (d : Dst) (base : Src) (off : Src) (m : MemMods) : Statement (.ldsB16 d base off m) := word2 nofun rfl
theorem ldsS16 (d : Dst) (base : Src) (off : Src) (m : MemMods) : Statement (.ldsS16 d base off m) := word2 nofun rfl
theorem ldsB32 (d : Dst) (base : Src) (off : Src) (m : MemMods) : Statement (.ldsB32 d base off m) := word2 nofun rfl
theorem ldsB64 (d : Dst) (base : Src) (off : Src) (m : MemMods) : Statement (.ldsB64 d base off m) := word2 nofun rfl
theorem ldsB128 (d : Dst) (base : Src) (off : Src) (m : MemMods) : Statement (.ldsB128 d base off m) := word2 nofun rfl
theorem stsB8 (x : Src) (base : Src) (off : Src) (m : MemMods) : Statement (.stsB8 x base off m) := word3 nofun rfl
theorem stsB16 (x : Src) (base : Src) (off : Src) (m : MemMods) : Statement (.stsB16 x base off m) := word3 nofun rfl
theorem stsB32 (x : Src) (base : Src) (off : Src) (m : MemMods) : Statement (.stsB32 x base off m) := word3 nofun rfl
theorem stsB64 (x : Src) (base : Src) (off : Src) (m : MemMods) : Statement (.stsB64 x base off m) := word3 nofun rfl
theorem stsB128 (x : Src) (base : Src) (off : Src) (m : MemMods) : Statement (.stsB128 x base off m) := word3 nofun rfl
theorem stsN4 (x : Src) (base : Src) (off : Src) (m : MemMods) : Statement (.stsN4 x base off m) := word3 nofun rfl
theorem ldcB8 (d : Dst) (base : Src) (off : Src) (m : MemMods) : Statement (.ldcB8 d base off m) := word2 nofun rfl
theorem ldcS8 (d : Dst) (base : Src) (off : Src) (m : MemMods) : Statement (.ldcS8 d base off m) := word2 nofun rfl
theorem ldcB16 (d : Dst) (base : Src) (off : Src) (m : MemMods) : Statement (.ldcB16 d base off m) := word2 nofun rfl
theorem ldcS16 (d : Dst) (base : Src) (off : Src) (m : MemMods) : Statement (.ldcS16 d base off m) := word2 nofun rfl
theorem ldcB32 (d : Dst) (base : Src) (off : Src) (m : MemMods) : Statement (.ldcB32 d base off m) := word2 nofun rfl
theorem ldcB64 (d : Dst) (base : Src) (off : Src) (m : MemMods) : Statement (.ldcB64 d base off m) := word2 nofun rfl
theorem ldcB128 (d : Dst) (base : Src) (off : Src) (m : MemMods) : Statement (.ldcB128 d base off m) := word2 nofun rfl
theorem stcB8 (x : Src) (base : Src) (off : Src) (m : MemMods) : Statement (.stcB8 x base off m) := word3 nofun rfl
theorem stcB16 (x : Src) (base : Src) (off : Src) (m : MemMods) : Statement (.stcB16 x base off m) := word3 nofun rfl
theorem stcB32 (x : Src) (base : Src) (off : Src) (m : MemMods) : Statement (.stcB32 x base off m) := word3 nofun rfl
theorem stcB64 (x : Src) (base : Src) (off : Src) (m : MemMods) : Statement (.stcB64 x base off m) := word3 nofun rfl
theorem stcB128 (x : Src) (base : Src) (off : Src) (m : MemMods) : Statement (.stcB128 x base off m) := word3 nofun rfl
theorem lddB8 (d : Dst) (base : Src) (off : Src) (m : MemMods) : Statement (.lddB8 d base off m) := word2 nofun rfl
theorem lddS8 (d : Dst) (base : Src) (off : Src) (m : MemMods) : Statement (.lddS8 d base off m) := word2 nofun rfl
theorem lddB16 (d : Dst) (base : Src) (off : Src) (m : MemMods) : Statement (.lddB16 d base off m) := word2 nofun rfl
theorem lddS16 (d : Dst) (base : Src) (off : Src) (m : MemMods) : Statement (.lddS16 d base off m) := word2 nofun rfl
theorem lddB32 (d : Dst) (base : Src) (off : Src) (m : MemMods) : Statement (.lddB32 d base off m) := word2 nofun rfl
theorem lddB64 (d : Dst) (base : Src) (off : Src) (m : MemMods) : Statement (.lddB64 d base off m) := word2 nofun rfl
theorem lddB128 (d : Dst) (base : Src) (off : Src) (m : MemMods) : Statement (.lddB128 d base off m) := word2 nofun rfl
theorem stdB8 (x : Src) (base : Src) (off : Src) (m : MemMods) : Statement (.stdB8 x base off m) := word3 nofun rfl
theorem stdB16 (x : Src) (base : Src) (off : Src) (m : MemMods) : Statement (.stdB16 x base off m) := word3 nofun rfl
theorem stdB32 (x : Src) (base : Src) (off : Src) (m : MemMods) : Statement (.stdB32 x base off m) := word3 nofun rfl
theorem stdB64 (x : Src) (base : Src) (off : Src) (m : MemMods) : Statement (.stdB64 x base off m) := word3 nofun rfl
theorem stdB128 (x : Src) (base : Src) (off : Src) (m : MemMods) : Statement (.stdB128 x base off m) := word3 nofun rfl
theorem ldpB8 (d : Dst) (base : Src) (off : Src) (m : MemMods) : Statement (.ldpB8 d base off m) := word2 nofun rfl
theorem ldpS8 (d : Dst) (base : Src) (off : Src) (m : MemMods) : Statement (.ldpS8 d base off m) := word2 nofun rfl
theorem ldpB16 (d : Dst) (base : Src) (off : Src) (m : MemMods) : Statement (.ldpB16 d base off m) := word2 nofun rfl
theorem ldpS16 (d : Dst) (base : Src) (off : Src) (m : MemMods) : Statement (.ldpS16 d base off m) := word2 nofun rfl
theorem ldpB32 (d : Dst) (base : Src) (off : Src) (m : MemMods) : Statement (.ldpB32 d base off m) := word2 nofun rfl
theorem ldpB64 (d : Dst) (base : Src) (off : Src) (m : MemMods) : Statement (.ldpB64 d base off m) := word2 nofun rfl
theorem ldpB128 (d : Dst) (base : Src) (off : Src) (m : MemMods) : Statement (.ldpB128 d base off m) := word2 nofun rfl
theorem stpB8 (x : Src) (base : Src) (off : Src) (m : MemMods) : Statement (.stpB8 x base off m) := word3 nofun rfl
theorem stpB16 (x : Src) (base : Src) (off : Src) (m : MemMods) : Statement (.stpB16 x base off m) := word3 nofun rfl
theorem stpB32 (x : Src) (base : Src) (off : Src) (m : MemMods) : Statement (.stpB32 x base off m) := word3 nofun rfl
theorem stpB64 (x : Src) (base : Src) (off : Src) (m : MemMods) : Statement (.stpB64 x base off m) := word3 nofun rfl
theorem stpB128 (x : Src) (base : Src) (off : Src) (m : MemMods) : Statement (.stpB128 x base off m) := word3 nofun rfl
theorem sldB32 (d : Dst) (base : Src) (off : Src) (m : MemMods) : Statement (.sldB32 d base off m) := word2 nofun rfl
theorem sldB64 (d : Dst) (base : Src) (off : Src) (m : MemMods) : Statement (.sldB64 d base off m) := word2 nofun rfl
theorem sstB32 (x : Src) (base : Src) (off : Src) (m : MemMods) : Statement (.sstB32 x base off m) := word3 nofun rfl
theorem sstB64 (x : Src) (base : Src) (off : Src) (m : MemMods) : Statement (.sstB64 x base off m) := word3 nofun rfl
theorem sldsB64 (d : Dst) (base : Src) (off : Src) (m : MemMods) : Statement (.sldsB64 d base off m) := word2 nofun rfl
theorem sstsB64 (x : Src) (base : Src) (off : Src) (m : MemMods) : Statement (.sstsB64 x base off m) := word3 nofun rfl
theorem atomAddB32 (d : Dst) (base : Src) (off : Src) (m : MemMods) : Statement (.atomAddB32 d base off m) := word2 nofun rfl
theorem atomAddF32 (d : Dst) (base : Src) (off : Src) (m : MemMods) : Statement (.atomAddF32 d base off m) := word2 nofun rfl
theorem atomMinS32 (d : Dst) (base : Src) (off : Src) (m : MemMods) : Statement (.atomMinS32 d base off m) := word2 nofun rfl
theorem atomMaxS32 (d : Dst) (base : Src) (off : Src) (m : MemMods) : Statement (.atomMaxS32 d base off m) := word2 nofun rfl
theorem atomMinZ32 (d : Dst) (base : Src) (off : Src) (m : MemMods) : Statement (.atomMinZ32 d base off m) := word2 nofun rfl
theorem atomMaxZ32 (d : Dst) (base : Src) (off : Src) (m : MemMods) : Statement (.atomMaxZ32 d base off m) := word2 nofun rfl
theorem atomAnd (d : Dst) (base : Src) (off : Src) (m : MemMods) : Statement (.atomAnd d base off m) := word2 nofun rfl
theorem atomOr (d : Dst) (base : Src) (off : Src) (m : MemMods) : Statement (.atomOr d base off m) := word2 nofun rfl
theorem atomXor (d : Dst) (base : Src) (off : Src) (m : MemMods) : Statement (.atomXor d base off m) := word2 nofun rfl
theorem atomXchg (d : Dst) (base : Src) (off : Src) (m : MemMods) : Statement (.atomXchg d base off m) := word2 nofun rfl
theorem atomCas (d : Dst) (base : Src) (off : Src) (m : MemMods) : Statement (.atomCas d base off m) := word2 nofun rfl
theorem atomAddB64 (d : Dst) (base : Src) (off : Src) (m : MemMods) : Statement (.atomAddB64 d base off m) := word2 nofun rfl
theorem atomCasB64 (d : Dst) (base : Src) (off : Src) (m : MemMods) : Statement (.atomCasB64 d base off m) := word2 nofun rfl
theorem atomsAddB32 (d : Dst) (base : Src) (off : Src) (m : MemMods) : Statement (.atomsAddB32 d base off m) := word2 nofun rfl
theorem atomsAddF32 (d : Dst) (base : Src) (off : Src) (m : MemMods) : Statement (.atomsAddF32 d base off m) := word2 nofun rfl
theorem atomsMinS32 (d : Dst) (base : Src) (off : Src) (m : MemMods) : Statement (.atomsMinS32 d base off m) := word2 nofun rfl
theorem atomsMaxS32 (d : Dst) (base : Src) (off : Src) (m : MemMods) : Statement (.atomsMaxS32 d base off m) := word2 nofun rfl
theorem atomsMinZ32 (d : Dst) (base : Src) (off : Src) (m : MemMods) : Statement (.atomsMinZ32 d base off m) := word2 nofun rfl
theorem atomsMaxZ32 (d : Dst) (base : Src) (off : Src) (m : MemMods) : Statement (.atomsMaxZ32 d base off m) := word2 nofun rfl
theorem atomsAnd (d : Dst) (base : Src) (off : Src) (m : MemMods) : Statement (.atomsAnd d base off m) := word2 nofun rfl
theorem atomsOr (d : Dst) (base : Src) (off : Src) (m : MemMods) : Statement (.atomsOr d base off m) := word2 nofun rfl
theorem atomsXor (d : Dst) (base : Src) (off : Src) (m : MemMods) : Statement (.atomsXor d base off m) := word2 nofun rfl
theorem atomsXchg (d : Dst) (base : Src) (off : Src) (m : MemMods) : Statement (.atomsXchg d base off m) := word2 nofun rfl
theorem atomsCas (d : Dst) (base : Src) (off : Src) (m : MemMods) : Statement (.atomsCas d base off m) := word2 nofun rfl
theorem atomsAddB64 (d : Dst) (base : Src) (off : Src) (m : MemMods) : Statement (.atomsAddB64 d base off m) := word2 nofun rfl
theorem atomsCasB64 (d : Dst) (base : Src) (off : Src) (m : MemMods) : Statement (.atomsCasB64 d base off m) := word2 nofun rfl
theorem satomAddB64 (d : Dst) (base : Src) (off : Src) (m : MemMods) : Statement (.satomAddB64 d base off m) := word2 nofun rfl
theorem satomCasB64 (d : Dst) (base : Src) (off : Src) (m : MemMods) : Statement (.satomCasB64 d base off m) := word2 nofun rfl
theorem redAddB32 (x : Src) (base : Src) (off : Src) (m : MemMods) : Statement (.redAddB32 x base off m) := word3 nofun rfl
theorem redAddF32 (x : Src) (base : Src) (off : Src) (m : MemMods) : Statement (.redAddF32 x base off m) := word3 nofun rfl
theorem redMinS32 (x : Src) (base : Src) (off : Src) (m : MemMods) : Statement (.redMinS32 x base off m) := word3 nofun rfl
theorem redMaxS32 (x : Src) (base : Src) (off : Src) (m : MemMods) : Statement (.redMaxS32 x base off m) := word3 nofun rfl
theorem redAnd (x : Src) (base : Src) (off : Src) (m : MemMods) : Statement (.redAnd x base off m) := word3 nofun rfl
theorem redOr (x : Src) (base : Src) (off : Src) (m : MemMods) : Statement (.redOr x base off m) := word3 nofun rfl
theorem redXor (x : Src) (base : Src) (off : Src) (m : MemMods) : Statement (.redXor x base off m) := word3 nofun rfl
theorem homeAtomic (k : Nat) : Statement (.homeAtomic k) := .inl ⟨rfl, rfl⟩
theorem nearMemoryReduction (k : Nat) : Statement (.nearMemoryReduction k) := .inl ⟨rfl, rfl⟩
theorem fence (scope : Fin 8) (order : Fin 4) : Statement (.fence scope order) := word0 nofun rfl
theorem pref (base : Src) (off : Src) (scope : Fin 8) (nt : Bool) : Statement (.pref base off scope nt) := word2 nofun rfl
theorem cwb (base : Src) (off : Src) (scope : Fin 8) : Statement (.cwb base off scope) := word2 nofun rfl
theorem cinv (base : Src) (off : Src) : Statement (.cinv base off) := word2 nofun rfl
theorem dkflush (base : Src) : Statement (.dkflush base) := word1 nofun rfl
theorem cpy (st : SReg) (desc : SReg) (srcsp : Fin 8) (dstsp : Fin 8) (vscope : Fin 8) : Statement (.cpy st desc srcsp dstsp vscope) := word0 nofun rfl
theorem cpy2 (st : SReg) (desc : SReg) (srcsp : Fin 8) (vscope : Fin 8) : Statement (.cpy2 st desc srcsp vscope) := word0 nofun rfl
theorem cpyg (st : SReg) (desc : SReg) (srcsp : Fin 8) (dstsp : Fin 8) (vscope : Fin 8) : Statement (.cpyg st desc srcsp dstsp vscope) := word0 nofun rfl
theorem cpys (st : SReg) (desc : SReg) (srcsp : Fin 8) (dstsp : Fin 8) (vscope : Fin 8) : Statement (.cpys st desc srcsp dstsp vscope) := word0 nofun rfl
theorem cpym (st : SReg) (desc : SReg) (srcsp : Fin 8) (vscope : Fin 8) : Statement (.cpym st desc srcsp vscope) := word0 nofun rfl
theorem cpyr (st : SReg) (desc : SReg) (srcsp : Fin 8) (dstsp : Fin 8) (vscope : Fin 8) (mode : Fin 8) : Statement (.cpyr st desc srcsp dstsp vscope mode) := word0 nofun rfl
theorem cpyf (st : SReg) (desc : SReg) (dstsp : Fin 8) (vscope : Fin 8) : Statement (.cpyf st desc dstsp vscope) := word0 nofun rfl
theorem mred (st : SReg) (desc : SReg) (srcsp : Fin 8) (vscope : Fin 8) (mode : Fin 8) : Statement (.mred st desc srcsp vscope mode) := word0 nofun rfl
theorem mma (t : Fin 16) (amap : SReg) (bmap : SReg) (fblk : SReg) (ra : Bool) (rb : Bool) : Statement (.mma t amap bmap fblk ra rb) := word0 nofun rfl
theorem mmaz (t : Fin 16) (amap : SReg) (bmap : SReg) (fblk : SReg) (ra : Bool) (rb : Bool) : Statement (.mmaz t amap bmap fblk ra rb) := word0 nofun rfl
theorem mbatch (d : Dst) : Statement (.mbatch d) := word0 nofun rfl
theorem mwait (a : Src) : Statement (.mwait a) := word1 nofun rfl
theorem mdrain (d : Code) (a : Src) (c : Code) : Statement (.mdrain d a c) := word1 nofun rfl
theorem mdrainx (d : Code) (a : Src) (b : Src) (c : Code) : Statement (.mdrainx d a b c) := word2 nofun rfl
theorem mfill (d : Code) (a : Src) (c : Code) : Statement (.mfill d a c) := word1 nofun rfl
theorem mzero (d : Code) : Statement (.mzero d) := word0 nofun rfl
theorem mrdv (d : Dst) (a : Code) (b : Src) (c : Code) : Statement (.mrdv d a b c) := word1 nofun rfl
theorem mwrv (d : Code) (a : Src) (b : Src) (c : Code) : Statement (.mwrv d a b c) := word2 nofun rfl
theorem mprog (d : Dst) (a : Code) : Statement (.mprog d a) := word0 nofun rfl
theorem br (o : BitVec 18) : Statement (.br o) := word0 nofun rfl
theorem bcc (f : Code) (o : BitVec 18) : Statement (.bcc f o) := word0 nofun rfl
theorem bmz (f : Code) (o : BitVec 18) : Statement (.bmz f o) := word0 nofun rfl
theorem bmnz (f : Code) (o : BitVec 18) : Statement (.bmnz f o) := word0 nofun rfl
theorem bxz (o : BitVec 18) : Statement (.bxz o) := word0 nofun rfl
theorem bxnz (o : BitVec 18) : Statement (.bxnz o) := word0 nofun rfl
theorem call (o : BitVec 18) : Statement (.call o) := word0 nofun rfl
theorem callIndirect (k : SReg) : Statement (.callIndirect k) := word0 nofun rfl
theorem ret  : Statement (.ret) := word0 nofun rfl
theorem jmpi (t : Src) : Statement (.jmpi t) := word1 nofun rfl
theorem exif (f : Code) : Statement (.exif f) := word0 nofun rfl
theorem exelse  : Statement (.exelse) := word0 nofun rfl
theorem exend  : Statement (.exend) := word0 nofun rfl
theorem tbar (f : Code) : Statement (.tbar f) := word0 nofun rfl
theorem tarr (f : Code) : Statement (.tarr f) := word0 nofun rfl
theorem twait (f : Code) : Statement (.twait f) := word0 nofun rfl
theorem cbar (f : Code) : Statement (.cbar f) := word0 nofun rfl
theorem tethArr (f : Code) : Statement (.tethArr f) := word0 nofun rfl
theorem tethWait (f : Code) : Statement (.tethWait f) := word0 nofun rfl
theorem tlaunch (k : SReg) : Statement (.tlaunch k) := word0 nofun rfl
theorem qtail (k : SReg) : Statement (.qtail k) := word0 nofun rfl
theorem exit  : Statement (.exit) := word0 nofun rfl
theorem trap (o : BitVec 18) : Statement (.trap o) := word0 nofun rfl
theorem brk (o : BitVec 18) : Statement (.brk o) := word0 nofun rfl
theorem wfa (k : SReg) (l : BitVec 18) : Statement (.wfa k l) := word0 nofun rfl
theorem rdsys (d : Dst) (id : BitVec 12) : Statement (.rdsys d id) := word0 nofun rfl
theorem wrsys (a : Src) (id : BitVec 12) : Statement (.wrsys a id) := word1 nofun rfl
theorem topo (d : Dst) (c : Code) : Statement (.topo d c) := word0 nofun rfl
theorem tnow (d : Dst) (c : Code) : Statement (.tnow d c) := word0 nofun rfl
theorem pmrd (d : Dst) (c : Code) : Statement (.pmrd d c) := word0 nofun rfl
theorem fltack (a : Src) (c : Code) : Statement (.fltack a c) := word1 nofun rfl
theorem xlinv (a : Src) (b : Src) (c : Src) : Statement (.xlinv a b c) := word3 nofun rfl
theorem dbgmk (a : Src) : Statement (.dbgmk a) := word1 nofun rfl
theorem millAdd (d : GReg) (a : GReg) (b : GReg) : Statement (.millAdd d a b) := word0 nofun rfl
theorem millSub (d : GReg) (a : GReg) (b : GReg) : Statement (.millSub d a b) := word0 nofun rfl
theorem millMul (d : GReg) (a : GReg) (b : GReg) : Statement (.millMul d a b) := word0 nofun rfl
theorem millMulh (d : GReg) (a : GReg) (b : GReg) : Statement (.millMulh d a b) := word0 nofun rfl
theorem millAnd (d : GReg) (a : GReg) (b : GReg) : Statement (.millAnd d a b) := word0 nofun rfl
theorem millOr (d : GReg) (a : GReg) (b : GReg) : Statement (.millOr d a b) := word0 nofun rfl
theorem millXor (d : GReg) (a : GReg) (b : GReg) : Statement (.millXor d a b) := word0 nofun rfl
theorem millShl (d : GReg) (a : GReg) (b : GReg) : Statement (.millShl d a b) := word0 nofun rfl
theorem millShr (d : GReg) (a : GReg) (b : GReg) : Statement (.millShr d a b) := word0 nofun rfl
theorem millSar (d : GReg) (a : GReg) (b : GReg) : Statement (.millSar d a b) := word0 nofun rfl
theorem millSlt (d : GReg) (a : GReg) (b : GReg) : Statement (.millSlt d a b) := word0 nofun rfl
theorem millSltz (d : GReg) (a : GReg) (b : GReg) : Statement (.millSltz d a b) := word0 nofun rfl
theorem millMin (d : GReg) (a : GReg) (b : GReg) : Statement (.millMin d a b) := word0 nofun rfl
theorem millMax (d : GReg) (a : GReg) (b : GReg) : Statement (.millMax d a b) := word0 nofun rfl
theorem millAddi (d : GReg) (a : GReg) (imm : BitVec 16) : Statement (.millAddi d a imm) := word0 nofun rfl
theorem millAndi (d : GReg) (a : GReg) (imm : BitVec 16) : Statement (.millAndi d a imm) := word0 nofun rfl
theorem millOri (d : GReg) (a : GReg) (imm : BitVec 16) : Statement (.millOri d a imm) := word0 nofun rfl
theorem millXori (d : GReg) (a : GReg) (imm : BitVec 16) : Statement (.millXori d a imm) := word0 nofun rfl
theorem millShfi (d : GReg) (a : GReg) (k : ShiftKind) (n : Code) : Statement (.millShfi d a k n) := word0 nofun rfl
theorem millLui (d : GReg) (imm : BitVec 16) : Statement (.millLui d imm) := word0 nofun rfl
theorem millLd64 (d : GReg) (a : GReg) (imm : BitVec 16) : Statement (.millLd64 d a imm) := word0 nofun rfl
theorem millSt64 (d : GReg) (a : GReg) (imm : BitVec 16) : Statement (.millSt64 d a imm) := word0 nofun rfl
theorem millLd32 (d : GReg) (a : GReg) (imm : BitVec 16) : Statement (.millLd32 d a imm) := word0 nofun rfl
theorem millSt32 (d : GReg) (a : GReg) (imm : BitVec 16) : Statement (.millSt32 d a imm) := word0 nofun rfl
theorem millLdt (d : GReg) (a : GReg) (imm : BitVec 16) : Statement (.millLdt d a imm) := word0 nofun rfl
theorem millStt (d : GReg) (a : GReg) (imm : BitVec 16) : Statement (.millStt d a imm) := word0 nofun rfl
theorem millBeq (a : GReg) (b : GReg) (off : BitVec 16) : Statement (.millBeq a b off) := word0 nofun rfl
theorem millBne (a : GReg) (b : GReg) (off : BitVec 16) : Statement (.millBne a b off) := word0 nofun rfl
theorem millBlt (a : GReg) (b : GReg) (off : BitVec 16) : Statement (.millBlt a b off) := word0 nofun rfl
theorem millBge (a : GReg) (b : GReg) (off : BitVec 16) : Statement (.millBge a b off) := word0 nofun rfl
theorem millJal (d : GReg) (imm : BitVec 16) : Statement (.millJal d imm) := word0 nofun rfl
theorem millJr (d : GReg) (a : GReg) : Statement (.millJr d a) := word0 nofun rfl
theorem millWaddB32 (d : Fin 16) (a : Fin 16) (b : Fin 16) (k : Fin 4) : Statement (.millWaddB32 d a b k) := word0 nofun rfl
theorem millWsubB32 (d : Fin 16) (a : Fin 16) (b : Fin 16) (k : Fin 4) : Statement (.millWsubB32 d a b k) := word0 nofun rfl
theorem millWmulB32 (d : Fin 16) (a : Fin 16) (b : Fin 16) (k : Fin 4) : Statement (.millWmulB32 d a b k) := word0 nofun rfl
theorem millWfadd (d : Fin 16) (a : Fin 16) (b : Fin 16) (k : Fin 4) : Statement (.millWfadd d a b k) := word0 nofun rfl
theorem millWfmul (d : Fin 16) (a : Fin 16) (b : Fin 16) (k : Fin 4) : Statement (.millWfmul d a b k) := word0 nofun rfl
theorem millWffma (d : Fin 16) (a : Fin 16) (b : Fin 16) (c : Fin 16) (k : Fin 4) : Statement (.millWffma d a b c k) := word0 nofun rfl
theorem millWfmax (d : Fin 16) (a : Fin 16) (b : Fin 16) (k : Fin 4) : Statement (.millWfmax d a b k) := word0 nofun rfl
theorem millWfmin (d : Fin 16) (a : Fin 16) (b : Fin 16) (k : Fin 4) : Statement (.millWfmin d a b k) := word0 nofun rfl
theorem millWredaddF32 (d : Fin 16) (a : Fin 16) (k : Fin 4) : Statement (.millWredaddF32 d a k) := word0 nofun rfl
theorem millWcmp (kd : Fin 4) (a : Fin 16) (b : Fin 16) (k : Fin 4) (cond : Fin 16) : Statement (.millWcmp kd a b k cond) := word0 nofun rfl
theorem millWsel (d : Fin 16) (a : Fin 16) (b : Fin 16) (kc : Fin 4) (k : Fin 4) : Statement (.millWsel d a b kc k) := word0 nofun rfl
theorem millWbcast (d : Fin 16) (a : Fin 16) (b : Fin 16) (k : Fin 4) : Statement (.millWbcast d a b k) := word0 nofun rfl
theorem millWld (w : Fin 16) (buf : Bool) (a : GReg) (imm : BitVec 16) : Statement (.millWld w buf a imm) := word0 nofun rfl
theorem millWst (w : Fin 16) (buf : Bool) (a : GReg) (imm : BitVec 16) : Statement (.millWst w buf a imm) := word0 nofun rfl
theorem millRowcp (m : GReg) (d : GReg) (s : GReg) : Statement (.millRowcp m d s) := word0 nofun rfl
theorem millRowzero (m : GReg) (p : GReg) : Statement (.millRowzero m p) := word0 nofun rfl
theorem millRowbuf (p : GReg) (i : GReg) : Statement (.millRowbuf p i) := word0 nofun rfl
theorem millBufrow (p : GReg) (i : GReg) : Statement (.millBufrow p i) := word0 nofun rfl
theorem millRowmac (o : GReg) (p : GReg) (m : GReg) : Statement (.millRowmac o p m) := word0 nofun rfl
theorem millBanklk (p : GReg) : Statement (.millBanklk p) := word0 nofun rfl
theorem millBankul (p : GReg) : Statement (.millBankul p) := word0 nofun rfl
theorem millRowinv (m : GReg) (p : GReg) : Statement (.millRowinv m p) := word0 nofun rfl
theorem millRowwait  : Statement (.millRowwait) := word0 nofun rfl
theorem millMsync  : Statement (.millMsync) := word0 nofun rfl
theorem millMhalt  : Statement (.millMhalt) := word0 nofun rfl
theorem millMtrap (imm : BitVec 16) : Statement (.millMtrap imm) := word0 nofun rfl
theorem millMrdsr (d : GReg) (id : BitVec 16) : Statement (.millMrdsr d id) := word0 nofun rfl
theorem millMwrsr (a : GReg) (id : BitVec 16) : Statement (.millMwrsr a id) := word0 nofun rfl
theorem millMpark (a : GReg) (limit : BitVec 16) : Statement (.millMpark a limit) := word0 nofun rfl
theorem linkRetrainComplete (l : LinkId) : Statement (.linkRetrainComplete l) := .inl ⟨rfl, rfl⟩
theorem retiredTagRelease (site : Site) (tag : Nat) : Statement (.retiredTagRelease site tag) := .inl ⟨rfl, rfl⟩
theorem fibreComesBack (f : Nat) : Statement (.fibreComesBack f) := .inl ⟨rfl, rfl⟩
theorem backInvalidateResponse (port : Nat) : Statement (.backInvalidateResponse port) := .inl ⟨rfl, rfl⟩
theorem millLdtSttAtHome (k : Nat) : Statement (.millLdtSttAtHome k) := .inl ⟨rfl, rfl⟩
theorem clusterWindowAccess (k : Nat) : Statement (.clusterWindowAccess k) := .inl ⟨rfl, rfl⟩
theorem tnowRequestArrival (k : Nat) : Statement (.tnowRequestArrival k) := .inl ⟨rfl, rfl⟩

end Sys2Proof.Laws.Encoding
end

