-- ==== Sys2Proof/Laws/Words.lean ====
section
/-! SUPPORT. What one word of a group can do, said once: a word that nothing holds carries out what its body answered; a
word whose operands its page does not allow takes ILLOPND. -/

namespace Sys2Proof.Machine

theorem State.Ready.push {s : State} {u : Issuer} {top : Nat} {d : Dst} (h : s.Ready u top d) : s.Ready u top .push :=
  ⟨h.1, h.2.1, h.2.2.1, rfl⟩

theorem State.Ready.mono {s : State} {u : Issuer} {m n : Nat} {d : Dst} (h : s.Ready u n d) (hm : m ≤ n) : s.Ready u m d :=
  ⟨h.1, Nat.le_trans hm h.2.1, h.2.2.1, h.2.2.2⟩

/-- A word that nothing holds and whose operands are allowed does what its body answers. -/
theorem runWordTo_ready {s : State} {u : Issuer} {d : Dst} {top : Nat} (h : s.Ready u top d) (len : Nat)
    (body : Issuer → State → WordOut) : runWordTo d true top len body s = .next (s.settle u len (body u s)) := by
  obtain ⟨h1, h2, h3, h4⟩ := h
  simp [runWordTo, h1, h3, h4, Nat.not_lt.mpr h2]

theorem runWord_ready {s : State} {u : Issuer} {d : Dst} {top : Nat} (h : s.Ready u top d) (len : Nat)
    (body : Issuer → State → WordOut) : runWord true top len body s = .next (s.settle u len (body u s)) :=
  runWordTo_ready h.push len body

theorem runPure_ready {s : State} {u : Issuer} {d : Dst} {top : Nat} (h : s.Ready u top d) (len : Nat) (f : Issuer → Group) :
    runPure true top len f s = .next (s.committed u len (f u)) := runWord_ready h len _

theorem runPureTo_ready {s : State} {u : Issuer} {d : Dst} {top : Nat} (h : s.Ready u top d) (len : Nat) (f : Issuer → Group) :
    runPureTo d true top len f s = .next (s.committed u len (f u)) := runWordTo_ready h len _

/-- A word whose operands its page does not allow takes ILLOPND, whatever else holds it. -/
theorem runWordTo_bad {s : State} {u : Issuer} (h : s.issuer = some u) (d : Dst) (top len : Nat)
    (body : Issuer → State → WordOut) : runWordTo d false top len body s = .next (s.takeFault u cILLOPND 0 0) := by
  simp [runWordTo, h]

/-- A word whose registers lie beyond its group's budget takes ILLOPND. -/
theorem runWordTo_budget {s : State} {u : Issuer} {top : Nat} (h : s.issuer = some u) (ht : u.budget < top) (d : Dst) (ok : Bool)
    (len : Nat) (body : Issuer → State → WordOut) : runWordTo d ok top len body s = .next (s.takeFault u cILLOPND 0 0) := by
  simp [runWordTo, h, ht]

/-- Every answer of a word is a next state once a group can issue. -/
theorem runWordTo_next {s : State} {u : Issuer} (h : s.issuer = some u) (d : Dst) (ok : Bool) (top len : Nat)
    (body : Issuer → State → WordOut) : ∃ t, runWordTo d ok top len body s = .next t := by
  unfold runWordTo; rw [h]; dsimp only; split
  · exact ⟨_, rfl⟩
  · split
    · exact ⟨_, rfl⟩
    · split <;> exact ⟨_, rfl⟩

/-- Without a group to issue it, a word is refused. -/
theorem runWordTo_none {s : State} (h : s.issuer = none) (d : Dst) (ok : Bool) (top len : Nat)
    (body : Issuer → State → WordOut) : runWordTo d ok top len body s = .refused .noIssuer := by
  simp [runWordTo, h]

/-! ### What a fault leaves alone (R73, R175 to R178) -/

@[simp] theorem State.faultEnd_teams (s : State) (u : Issuer) (code : Nat) : (s.faultEnd u code).teams = s.teams := by
  unfold State.faultEnd; dsimp only; split <;> rfl
@[simp] theorem State.takeFault_teams (s : State) (u : Issuer) (code : Nat) (va lanes : W64) : (s.takeFault u code va lanes).teams = s.teams := by
  unfold State.takeFault; split; · simp
  split; · simp
  split <;> simp [State.trapEntry]
@[simp] theorem State.faultEnd_cores (s : State) (u : Issuer) (code : Nat) : (s.faultEnd u code).cores = s.cores := by
  unfold State.faultEnd; dsimp only; split <;> rfl
@[simp] theorem State.takeFault_cores (s : State) (u : Issuer) (code : Nat) (va lanes : W64) : (s.takeFault u code va lanes).cores = s.cores := by
  unfold State.takeFault; split; · simp
  split; · simp
  split <;> simp [State.trapEntry]
@[simp] theorem State.faultEnd_mills (s : State) (u : Issuer) (code : Nat) : (s.faultEnd u code).mills = s.mills := by
  unfold State.faultEnd; dsimp only; split <;> rfl
@[simp] theorem State.takeFault_mills (s : State) (u : Issuer) (code : Nat) (va lanes : W64) : (s.takeFault u code va lanes).mills = s.mills := by
  unfold State.takeFault; split; · simp
  split; · simp
  split <;> simp [State.trapEntry]
@[simp] theorem State.faultEnd_mem (s : State) (u : Issuer) (code : Nat) : (s.faultEnd u code).mem = s.mem := by
  unfold State.faultEnd; dsimp only; split <;> rfl
@[simp] theorem State.takeFault_mem (s : State) (u : Issuer) (code : Nat) (va lanes : W64) : (s.takeFault u code va lanes).mem = s.mem := by
  unfold State.takeFault; split; · simp
  split; · simp
  split <;> simp [State.trapEntry]
@[simp] theorem State.faultEnd_link (s : State) (u : Issuer) (code : Nat) : (s.faultEnd u code).link = s.link := by
  unfold State.faultEnd; dsimp only; split <;> rfl
@[simp] theorem State.takeFault_link (s : State) (u : Issuer) (code : Nat) (va lanes : W64) : (s.takeFault u code va lanes).link = s.link := by
  unfold State.takeFault; split; · simp
  split; · simp
  split <;> simp [State.trapEntry]
@[simp] theorem State.faultEnd_boot (s : State) (u : Issuer) (code : Nat) : (s.faultEnd u code).boot = s.boot := by
  unfold State.faultEnd; dsimp only; split <;> rfl
@[simp] theorem State.takeFault_boot (s : State) (u : Issuer) (code : Nat) (va lanes : W64) : (s.takeFault u code va lanes).boot = s.boot := by
  unfold State.takeFault; split; · simp
  split; · simp
  split <;> simp [State.trapEntry]
@[simp] theorem State.faultEnd_mgmt (s : State) (u : Issuer) (code : Nat) : (s.faultEnd u code).mgmt = s.mgmt := by
  unfold State.faultEnd; dsimp only; split <;> rfl
@[simp] theorem State.takeFault_mgmt (s : State) (u : Issuer) (code : Nat) (va lanes : W64) : (s.takeFault u code va lanes).mgmt = s.mgmt := by
  unfold State.takeFault; split; · simp
  split; · simp
  split <;> simp [State.trapEntry]
@[simp] theorem State.faultEnd_faults (s : State) (u : Issuer) (code : Nat) : (s.faultEnd u code).faults = s.faults := by
  unfold State.faultEnd; dsimp only; split <;> rfl
@[simp] theorem State.takeFault_faults (s : State) (u : Issuer) (code : Nat) (va lanes : W64) : (s.takeFault u code va lanes).faults = s.faults := by
  unfold State.takeFault; split; · simp
  split; · simp
  split <;> simp [State.trapEntry]
@[simp] theorem State.faultEnd_nextFid (s : State) (u : Issuer) (code : Nat) : (s.faultEnd u code).nextFid = s.nextFid := by
  unfold State.faultEnd; dsimp only; split <;> rfl
@[simp] theorem State.takeFault_nextFid (s : State) (u : Issuer) (code : Nat) (va lanes : W64) : (s.takeFault u code va lanes).nextFid = s.nextFid := by
  unfold State.takeFault; split; · simp
  split; · simp
  split <;> simp [State.trapEntry]
@[simp] theorem State.faultEnd_out (s : State) (u : Issuer) (code : Nat) : (s.faultEnd u code).out = s.out := by
  unfold State.faultEnd; dsimp only; split <;> rfl
@[simp] theorem State.takeFault_out (s : State) (u : Issuer) (code : Nat) (va lanes : W64) : (s.takeFault u code va lanes).out = s.out := by
  unfold State.takeFault; split; · simp
  split; · simp
  split <;> simp [State.trapEntry]
@[simp] theorem State.faultEnd_focus (s : State) (u : Issuer) (code : Nat) : (s.faultEnd u code).focus = s.focus := by
  unfold State.faultEnd; dsimp only; split <;> rfl
@[simp] theorem State.takeFault_focus (s : State) (u : Issuer) (code : Nat) (va lanes : W64) : (s.takeFault u code va lanes).focus = s.focus := by
  unfold State.takeFault; split; · simp
  split; · simp
  split <;> simp [State.trapEntry]
@[simp] theorem State.faultEnd_residue (s : State) (u : Issuer) (code : Nat) : (s.faultEnd u code).residue = s.residue := by
  unfold State.faultEnd; dsimp only; split <;> rfl
@[simp] theorem State.takeFault_residue (s : State) (u : Issuer) (code : Nat) (va lanes : W64) : (s.takeFault u code va lanes).residue = s.residue := by
  unfold State.takeFault; split; · simp
  split; · simp
  split <;> simp [State.trapEntry]
@[simp] theorem State.faultEnd_agenda (s : State) (u : Issuer) (code : Nat) : (s.faultEnd u code).agenda = s.agenda := by
  unfold State.faultEnd; dsimp only; split <;> rfl
@[simp] theorem State.takeFault_agenda (s : State) (u : Issuer) (code : Nat) (va lanes : W64) : (s.takeFault u code va lanes).agenda = s.agenda := by
  unfold State.takeFault; split; · simp
  split; · simp
  split <;> simp [State.trapEntry]
@[simp] theorem State.faultEnd_held (s : State) (u : Issuer) (code : Nat) : (s.faultEnd u code).held = s.held := by
  unfold State.faultEnd; dsimp only; split <;> rfl
@[simp] theorem State.takeFault_held (s : State) (u : Issuer) (code : Nat) (va lanes : W64) : (s.takeFault u code va lanes).held = s.held := by
  unfold State.takeFault; split; · simp
  split; · simp
  split <;> simp [State.trapEntry]
@[simp] theorem State.faultEnd_fresh (s : State) (u : Issuer) (code : Nat) : (s.faultEnd u code).fresh = s.fresh := by
  unfold State.faultEnd; dsimp only; split <;> rfl
@[simp] theorem State.takeFault_fresh (s : State) (u : Issuer) (code : Nat) (va lanes : W64) : (s.takeFault u code va lanes).fresh = s.fresh := by
  unfold State.takeFault; split; · simp
  split; · simp
  split <;> simp [State.trapEntry]

theorem State.group?_takeFault_ne (s : State) (u : Issuer) (code : Nat) (va lanes : W64) {r : GroupRef} (e : r ≠ u.g.id) :
    (s.takeFault u code va lanes).group? r = s.group? r := by
  have h1 : ∀ c, (s.faultEnd u c).group? r = s.group? r := fun c => by
    unfold State.faultEnd; dsimp only; split
    · exact State.group?_setGroup_ne (g := { u.g with stat := .stopped, wait := none, fence := none, stall := MemStall.none }) s e
    · exact State.group?_setGroup_ne (g := { u.g with stat := .stopped, wait := none, fence := none, stall := MemStall.none }) s e
  unfold State.takeFault
  split; · exact h1 _
  split; · exact h1 _
  split; · exact h1 _
  exact State.group?_setGroup_ne (g := { u.g with
    trap := ⟨true, u.g.widx, code, u.g.pc, u.g.clauseEnd, va, lanes, u.g.exm⟩, exm := maskOnes u.w, pc := u.k.launch.traph
    clause := [], widx := 0, wait := none, fence := none, stall := MemStall.none }) s e

theorem State.Inv.takeFault {s : State} (h : s.Inv) (u : Issuer) (code : Nat) (va lanes : W64) : (s.takeFault u code va lanes).Inv :=
  h.of_eq (by simp) (by simp)

/-! ### What follows a word -/

/-- The state that a word's body answered, if it answered one. -/
def WordOut.state? : WordOut → Option State
  | .done _ s => some s
  | .goto _ _ s => some s
  | .acquire _ _ s => some s
  | .wait _ s => some s
  | .fault _ _ _ => none
  | .stop s => some s

/-- Carrying out an answer changes memory and registers only as the answer did. -/
theorem State.settle_mem_mgmt (s : State) (u : Issuer) (len : Nat) (o : WordOut) :
    (s.settle u len o).mem = (o.state?.getD s).mem ∧ (s.settle u len o).mgmt = (o.state?.getD s).mgmt := by
  cases o <;> simp [State.settle, WordOut.state?]

theorem State.Inv.settle {s : State} (h : s.Inv) (u : Issuer) (len : Nat) {o : WordOut} (ho : ∀ t, o.state? = some t → t.Inv) :
    (s.settle u len o).Inv := by
  have he := s.settle_mem_mgmt u len o
  cases hs : o.state? with
  | none => rw [hs] at he; exact h.of_eq he.1 he.2
  | some t => rw [hs] at he; exact (ho t hs).of_eq he.1 he.2

theorem State.Inv.residueReplay {s : State} (h : s.Inv) (u : Issuer) : (s.residueReplay u).Inv :=
  h.of_eq (by simp [State.residueReplay, State.transientResidue, State.logDie])
    (by simp [State.residueReplay, State.transientResidue, State.logDie])

theorem foldl_mem_mgmt {α : Type} {f : State → α → State} (hf : ∀ t x, (f t x).mem = t.mem ∧ (f t x).mgmt = t.mgmt)
    (xs : List α) (s : State) : (xs.foldl f s).mem = s.mem ∧ (xs.foldl f s).mgmt = s.mgmt := by
  induction xs generalizing s with
  | nil => exact ⟨rfl, rfl⟩
  | cons x xs ih => exact ⟨(ih _).1.trans (hf s x).1, (ih _).2.trans (hf s x).2⟩

theorem State.fenceTasks_mem_mgmt (s : State) : s.fenceTasks.mem = s.mem ∧ s.fenceTasks.mgmt = s.mgmt :=
  foldl_mem_mgmt (fun t k => by dsimp only; split <;> (try split) <;> exact ⟨rfl, rfl⟩) _ s

theorem State.taskFault_mem_mgmt (s : State) (sheet site tid code unit : Nat) :
    (s.taskFault sheet site tid code unit).mem = s.mem ∧ (s.taskFault sheet site tid code unit).mgmt = s.mgmt := by
  unfold State.taskFault
  split
  · split <;> simp
  · exact ⟨rfl, rfl⟩

theorem State.residueEnd_mem_mgmt (s : State) (t : Team) : (s.residueEnd t).mem = s.mem ∧ (s.residueEnd t).mgmt = s.mgmt := by
  unfold State.residueEnd
  split
  · split <;> simp
  · exact s.taskFault_mem_mgmt _ _ _ _ _
  · exact ⟨rfl, rfl⟩

theorem State.fenceCore_mem_mgmt (s : State) (u : Issuer) : (s.fenceCore u).mem = s.mem ∧ (s.fenceCore u).mgmt = s.mgmt := by
  unfold State.fenceCore
  dsimp only
  constructor
  · rw [(State.fenceTasks_mem_mgmt _).1]
    refine (foldl_mem_mgmt State.residueEnd_mem_mgmt _ _).1.trans ?_
    simp [State.logDie]
  · rw [(State.fenceTasks_mem_mgmt _).2]
    refine (foldl_mem_mgmt State.residueEnd_mem_mgmt _ _).2.trans ?_
    simp [State.logDie]

/-- A word keeps the invariant if its body does. -/
theorem State.Inv.runWordTo {s t : State} (h : s.Inv) {d : Dst} {ok : Bool} {top len : Nat} {body : Issuer → State → WordOut}
    (hb : ∀ u s r, s.Inv → (body u s).state? = some r → r.Inv) (e : runWordTo d ok top len body s = .next t) : t.Inv := by
  unfold Machine.runWordTo at e
  split at e
  · cases e
  · rename_i u _
    split at e
    · cases e; exact h.takeFault _ _ _ _
    · split at e
      · cases e; exact h.setGroup _
      · split at e
        · cases e; exact h.settle _ _ fun r => hb _ _ r h
        · cases e; exact (h.residueReplay u).settle _ _ fun r => hb _ _ r (h.residueReplay u)
        · cases e; exact State.Inv.of_eq h (State.fenceCore_mem_mgmt _ _).1 (State.fenceCore_mem_mgmt _ _).2

theorem State.Inv.runPureTo {s t : State} (h : s.Inv) {d : Dst} {ok : Bool} {top len : Nat} {f : Issuer → Group}
    (e : runPureTo d ok top len f s = .next t) : t.Inv :=
  h.runWordTo (fun u s r hs hr => by cases hr; exact hs) e

/-! ### Mill words -/

theorem runMill_ready {s : State} {u : MillIssuer} (h : s.millIssuer = some u) (body : MillIssuer → State → MillOut) :
    runMill true body s = .next (s.millSettle u (body u s)) := by
  simp [runMill, h]

/-- A mill word whose fields are not allowed traps with ILLOPND. -/
theorem runMill_bad {s : State} {u : MillIssuer} (h : s.millIssuer = some u) (body : MillIssuer → State → MillOut) :
    runMill false body s = .next (s.millTrap u cILLOPND u.m.pc) := by
  simp [runMill, h]

theorem State.millTrap_mem (s : State) (u : MillIssuer) (code : Nat) (addr : W64) :
    (s.millTrap u code addr).mem = { s.mem with locks := s.mem.locks.filter fun l => l.holder != u.m.id } ∧
    (s.millTrap u code addr).mgmt = s.mgmt ∧ (s.millTrap u code addr).groups = s.groups ∧ (s.millTrap u code addr).teams = s.teams := by
  unfold State.millTrap; dsimp only
  split <;> simp [State.releaseLocks, State.logTower]

theorem State.Inv.millTrap {s : State} (h : s.Inv) (u : MillIssuer) (code : Nat) (addr : W64) : (s.millTrap u code addr).Inv := by
  have e := s.millTrap_mem u code addr
  refine ⟨?_, ?_⟩
  · unfold State.Canonical; rw [e.1]; exact h.1
  · unfold State.RegistersCanonical; rw [e.2.1]; exact h.2

end Sys2Proof.Machine
end

