-- ==== Sys2Proof/Tests/Slice0.lean ====
section
/-! SUPPORT. The model's own tests: terms that the check of well-formedness refuses, words decoded, single steps on small states with results
worked out in the spec or by hand from it, and, for every statement with hypotheses, states that meet them. -/

set_option Elab.async false
set_option maxRecDepth 20000

namespace Sys2Proof.Tests

open Sys2Proof Sys2Proof.Machine

/-! ### Well-formedness: for each check, terms that it refuses -/

/-- R269, R270, R275: the scalar words refuse a vector destination, lanes as sources, and codes that name no condition. -/
theorem test_ill_formed_scalar : ([.sadd (.v 0) (.s 0) (.s 1), .sadd (.s 0) (.v 1) (.s 1), .sadd (.s 0) (.s 1) .lid, .sadd (.s 0) (.s 1) (.rsv 0),
    .ssel (.s 0) (.s 1) (.s 2) 10, .ssel .push (.s 1) (.s 2) 0, .smov (.rsv 3) (.s 1), .smov (.s 1) (.q 0), .sbfx (.s 0) (.v 0) (.s 1) 5,
    .sbfi (.s 0) (.s 1) (.v 1) 5, .smad (.s 0) (.s 1) (.s 2) (.v 3), .smovl .push 0 0, .sclz (.s 1) (.v 2)] : List Instr).all
    (fun i => !i.wf) = true := by decide
/-- R282, R286, R288, R290, R292, R294 to R296: the vector, compare and mask words. -/
theorem test_ill_formed_vector : ([.vadd (.s 0) (.v 0) (.v 1), .vadd (.v 0) (.rsv 1) (.v 1), .vadd (.v 0) (.v 1) (.rsv 4), .vmad .push (.v 0) (.v 1) (.rsv 0),
    .vmov (.rsv 22) (.v 1), .vbfx (.v 0) (.v 1) (.v 2) 33, .vbfi (.s 0) (.v 1) (.v 2) 3, .vsel (.v 0) (.v 1) (.v 2) 8, .vfrnd (.v 0) (.v 1) 4,
    .vcmpS 6 (.v 0) (.v 1) 0, .vcmpS 0 (.v 0) (.v 1) 8, .vcmpZ 2 (.v 0) (.v 1) 0, .vcmpZ 10 (.v 0) (.v 1) 0, .vfcmp 8 (.v 0) (.v 1) 0,
    .mand 8 0 0, .mor 0 8 0, .mxor 0 0 8, .mnot 8 0, .mtoex 8, .mfrex 63, .mpopc (.v 0) 0, .mpopc (.s 0) 8, .mfirst (.s 0) 8, .mtos .push 0,
    .mfroms (.v 0) 0, .mfroms (.s 0) 8, .vshfl (.v 0) (.v 1) (.v 2) 4, .vbcast (.v 0) (.v 1) (.v 2), .vtos (.v 0) (.v 1) (.s 0),
    .vtos (.s 0) (.v 1) .lid, .vredaddF32 (.v 0) (.v 1), .vredminS (.s 0) (.rsv 0), .vscanaddB32 (.s 0) (.v 1)] : List Instr).all
    (fun i => !i.wf) = true := by decide
/-- R248, R299 to R302: the conversions refuse rounding codes, halves, bytes and sets that do not exist. -/
theorem test_ill_formed_conversions : ([.vcvtF32S32 (.v 0) (.v 1) 4, .vcvtZ32F32 (.v 0) (.v 1) 12, .vcvtF16F32 (.s 0) (.v 1) 0, .vcvtF32F16 (.v 0) (.v 1) 2,
    .vcvtE8F32 (.v 0) (.v 1) (.v 2) 7, .vcvtF32E8 (.v 0) (.v 1) (.v 2) 4, .vcvtN4F32 (.v 0) (.rsv 0) (.v 2), .vcvtF32N4 (.v 0) (.v 1) (.v 2) 8,
    .vmxscale (.v 0) (.v 1) 0x12] : List Instr).all (fun i => !i.wf) = true := by decide
/-- R227, R304, R308, R310 to R318: the memory words refuse scopes and orders that do not exist, scopes without an order, misaligned register
runs, and operands that their pages leave out. -/
theorem test_ill_formed_memory : ([.ldB32 (.s 0) (.s 1) .zero ⟨0, 0, false⟩, .ldB32 (.v 0) (.s 1) .zero ⟨6, 1, false⟩, .ldB32 (.v 0) (.s 1) .zero ⟨2, 0, false⟩,
    .ldB32 (.v 0) (.s 1) .zero ⟨0, 2, false⟩, .ldB64 (.v 1) (.s 1) .zero ⟨0, 0, false⟩, .ldB128 (.v 2) (.s 1) .zero ⟨0, 0, false⟩,
    .ldB64 .push (.s 1) .zero ⟨0, 0, false⟩, .stB32 (.rsv 0) (.s 1) .zero ⟨0, 0, false⟩, .stB64 (.v 3) (.s 1) .zero ⟨0, 0, false⟩,
    .stB64 (.lit 0) (.s 1) .zero ⟨0, 0, false⟩, .stB128 (.s 0) (.s 1) .zero ⟨0, 0, false⟩, .sldB32 (.v 0) (.s 1) .zero ⟨0, 0, false⟩,
    .sstB32 (.v 0) (.s 1) .zero ⟨0, 0, false⟩, .atomCas (.v 3) (.s 1) .zero ⟨0, 0, false⟩, .atomCasB64 (.v 2) (.s 1) .zero ⟨0, 0, false⟩,
    .atomAddB32 .push (.s 1) .zero ⟨0, 0, false⟩, .atomAddB32 (.v 0) (.s 1) .zero ⟨6, 0, false⟩, .satomAddB64 (.v 0) (.s 1) .zero ⟨0, 0, false⟩,
    .satomCasB64 (.s 1) (.s 1) .zero ⟨0, 0, false⟩, .redAddB32 (.rsv 1) (.s 1) .zero ⟨0, 0, false⟩, .fence 6 1, .fence 0 0, .pref (.s 0) .zero 1 false,
    .cwb .zero .zero 0, .cwb (.s 0) .zero 6, .cinv (.lit 0) .zero, .dkflush (.v 0)] : List Instr).all (fun i => !i.wf) = true := by decide
/-- R319, R322, R327, R333 to R335, R339, R345 to R350: copies, matrix words, control and system words. -/
theorem test_ill_formed_others : ([.cpy 0 1 4 0 0, .cpy 0 1 0 4 0, .cpy 0 1 0 0 6, .cpy2 0 1 4 0, .cpyr 0 1 0 0 0 0, .cpyr 0 1 0 1 0 6, .cpyf 0 1 4 0,
    .mred 0 1 0 2 0, .mred 0 1 0 3 6, .mdrain 16 (.s 0) 0, .mdrain 0 (.v 0) 0, .mdrain 0 (.s 0) 1, .mdrainx 0 (.s 0) (.v 0) 16, .mdrainx 0 (.s 0) (.s 1) 0,
    .mfill 0 (.s 0) 1, .mrdv (.s 0) 0 (.s 0) 0, .mrdv (.v 0) 16 (.s 0) 0, .mrdv (.v 0) 0 (.s 0) 2, .mwrv 0 (.v 0) (.v 1) 0, .mprog (.s 0) 16,
    .mprog (.v 0) 0, .mwait (.v 0), .bcc 10 0, .bmz 8 0, .exif 8, .tbar 16, .cbar 8, .jmpi .zero, .jmpi (.v 0), .rdsys (.s 0) 0x0F, .rdsys (.v 0) 0,
    .wrsys (.s 0) 0x11, .wrsys (.v 0) 0x10, .topo (.s 0) 9, .tnow (.s 0) 1, .tnow (.s 0) 0x14, .pmrd (.s 0) 8, .fltack (.s 0) 2, .xlinv (.v 0) (.s 0) (.s 1),
    .dbgmk (.v 0), .millWcmp 0 1 2 0 0, .millWcmp 1 1 2 0 11, .millMrdsr 0 0xFFFF, .millMwrsr 0 0x10, .clauseHeader 0 0 0 false false,
    .clauseHeader 1 6 0 false false] : List Instr).all (fun i => !i.wf) = true := by decide

/-! ### Decoding words written out from the spec's encodings, one family after another -/

/-- R219 to R226: `vadd` of R1's example, and the scalar words of the gcd loop of R281's page. -/
theorem test_decode_alu : decode (.clause .alu) [0x404D1480] = .ok (.vadd (.v 3) (.v 1) (.v 2)) [] ∧
    decode (.clause .alu) [0x17A29000, 0x17A6A000] = .ok (.smov (.s 0) (.s 1)) [0x17A6A000] ∧
    decode (.clause .alu) [0x62596540] = .ok (.vfmul (.v 6) (.v 6) (.v 5)) [] ∧
    decode (.clause .alu) [0xAC658021] = .ok (.vmxscale (.v 9) (.v 8) 0x21) [] := by decide +kernel
/-- R304, R357: a load on the core scratchpad, and a mill's mrdsr and rowmac. -/
theorem test_decode_memory_and_mill : decode (.clause .mem) [0x144AEE00] = .ok (.ldsB32 (.v 2) (.s 6) .zero ⟨0, 0, false⟩) [] ∧
    decode .mill [0xCC200004] = .ok (.millMrdsr 1 4) [] ∧ decode .mill [0x90022800] = .ok (.millRowmac 0 2 5) [] := by decide +kernel
/-- R327, R335: mbatch and mwait. -/
theorem test_decode_matrix : decode (.clause .mtx) [0x02D00000] = .ok (.mbatch (.s 12)) [] ∧
    decode (.clause .mtx) [0x03034000] = .ok (.mwait (.s 12)) [] := by decide +kernel
/-- R222, R228: a code no map lists, a word that no mill map lists, and a nop with a field that is not zero are no instructions. -/
theorem test_decode_rejects : (match decode (.clause .alu) [0xFF000000] with | .error _ => true | _ => false) = true ∧
    (match decode .mill [0xFC000000] with | .error _ => true | _ => false) = true ∧
    (match decode (.clause .alu) [0x00040000] with | .error _ => true | _ => false) = true := by decide +kernel

/-! ### Small states -/

/-- One group of 32 lanes, its team on the first core, and its task of ASID 0. -/
def tg : Group := Group.fresh ⟨0, 0, 0⟩ plainLaunch
def tt : Team := { Team.reserved 0 0 0 ⟨⟨0, 0, 0⟩, 0⟩ (0, 0, 0) .none with started := true }
def tk : Task := plainTask .core
/-- The same task at user level. -/
def uk : Task := { tk with asid := 5 }
/-- A machine that runs that one group. -/
def one (g : Group) (t : Team) (k : Task) : State := { State.reset with
  groups := [g], teams := [t], sched := { SchedState.reset with tasks := [k] }, focus := some (.group g.id)
  boot := { BootState.reset with ready := true } }
/-- The plain one, and the issuer of it. -/
def s1 : State := one tg tt tk
def u1 : Issuer := ⟨tg, tt, tk⟩
/-- A machine that runs one mill. -/
def tm : Mill := { Mill.loading ⟨0, 0⟩ 0 0 with st := .run }
def mk : Task := plainTask .mill
def mill (m : Mill) (k : Task) : State := { State.reset with
  mills := [m], sched := { SchedState.reset with tasks := [k] }, focus := some (.mill m.id), boot := { BootState.reset with ready := true } }
def s2 : State := mill tm mk
def u2 : MillIssuer := ⟨tm, mk⟩
/-- Reading one scalar and the flags of the group after a word. -/
def scalarOf (o : Out) (n : Fin 16) : Option W64 :=
  match o with
  | .next s => (s.group? ⟨0, 0, 0⟩).map fun g => g.s[n]
  | _ => none
def flagsOf (o : Out) : Option Flags :=
  match o with
  | .next s => (s.group? ⟨0, 0, 0⟩).map fun g => g.flags
  | _ => none
def groupOf (o : Out) : Option Group :=
  match o with
  | .next s => s.group? ⟨0, 0, 0⟩
  | _ => none
def millOf (o : Out) : Option Mill :=
  match o with
  | .next s => s.mill? ⟨0, 0⟩
  | _ => none
/-- The group with two scalars set. -/
def with2 (x y : W64) : State := one { tg with s := (tg.s.set 1 x).set 2 y } tt tk
/-- The group with a vector register whose lane 0 is `x`, and one whose lane 0 is `y`. -/
def lanes2 (x y : W32) : State :=
  one { tg with v := (tg.v.set 1 (x :: List.replicate 31 0)).set 2 (y :: List.replicate 31 0) } tt tk
def lane0 (o : Out) : Option W32 := (groupOf o).map fun g => lane g.q[0] 0

/-! ### Words of a group on its registers: states that meet the hypotheses, and single steps -/

/-- Nothing holds a word of the small machine: every statement about a word that only needs that, operand codes, and registers within
the budget. -/
theorem test_ready (d : Dst) : s1.Ready u1 24 d := ⟨rfl, by decide, rfl, by cases d <;> rfl⟩
theorem test_ready_below (d : Dst) (n : Nat) (h : n ≤ 24) : s1.Ready u1 n d :=
  ⟨rfl, Nat.le_trans h (by decide), rfl, by cases d <;> rfl⟩
/-- ScalarFlags, ScalarResults, ScalarDivision, ConditionCodes, MasksAreWritten, LanesCombine: their operands and a state. -/
theorem test_meets_scalar_words : Src.isUni (.s 1) = true ∧ Src.isUni (.lit 5) = true ∧ Src.isUni .zero = true ∧
    s1.Ready u1 0 (.s 3) ∧ s1.Ready u1 0 .push ∧ s1.issuer = some u1 ∧ s1.residue = .clean ∧ s1.ownedStatus u1 (.s 3) = false :=
  ⟨rfl, rfl, rfl, test_ready_below _ _ (by decide), test_ready_below _ _ (by decide), rfl, rfl, rfl⟩
/-- ScalarDivision: each row of the table. -/
theorem test_meets_ScalarDivision : (∃ y : W64, y = 0) ∧ (∃ x y : W64, x = BitVec.intMin 64 ∧ y = -1) ∧
    ((7 : W64) ≠ 0 ∧ ¬((9 : W64) = BitVec.intMin 64 ∧ (7 : W64) = -1)) ∧ (BitVec.intMin 64 ≠ 0 ∧ ¬((5 : W64) = BitVec.intMin 64 ∧ BitVec.intMin 64 = (-1 : W64))) := by
  refine ⟨⟨0, rfl⟩, ⟨_, _, rfl, rfl⟩, by decide, by decide⟩
/-- ConditionCodes, ControlWords: a code on either side of 10, and the last mask. -/
theorem test_meets_codes : (9 : Code).val < 10 ∧ 10 ≤ (10 : Code).val ∧ (7 : Code).val < 8 ∧ ¬(8 : Code).val < 8 ∧ (15 : Code).val < 16 ∧ (32 : Code).val ≤ 32 := by
  decide
/-- VectorResults, MinimumAndMaximumNumbers, FloatClasses, MasksAreWritten, LanesCombine, Conversions: operands within the budget. -/
theorem test_meets_vector_words : Dst.isVec (.v 23) = true ∧ Dst.isVec .push = true ∧ Src.isSrc (.q 15) = true ∧ Src.isSrc .lid = true ∧
    s1.Ready u1 (max (vtop3 (.v 23) (.v 0) (.lit 3)) (Src.vtop (.q 1) 1)) .push ∧ s1.Ready u1 (vtop3 (.v 23) (.v 1) .lid) .push ∧
    s1.Ready u1 (max (Dst.vtop (.v 23) 1) (Src.vtop (.v 2) 1)) .push ∧ (∃ k : Code, k.val < 4) ∧ (∃ k : Code, k.val < 2) ∧ okCvt (.v 0) (.v 1) 11 = true ∧
    okE8 (.v 0) (.v 1) (.v 2) 8 = true ∧ okScale (.v 0) (.v 1) 0x23 = true :=
  ⟨rfl, rfl, rfl, rfl, test_ready_below _ _ (by decide), test_ready_below _ _ (by decide), test_ready_below _ _ (by decide), ⟨3, by decide⟩, ⟨1, by decide⟩,
    rfl, rfl, rfl⟩
/-- MinimumAndMaximumNumbers: NaNs and numbers on each side. -/
theorem test_meets_minimum_numbers : let mag (v : W32) : Int := v.toNat % 2 ^ 31
    mag 0x7F800001 > 0x7F800000 ∧ mag 0xFFC00000 > 0x7F800000 ∧ ¬mag 0xFF800000 > 0x7F800000 ∧ ¬mag 0x80000000 > 0x7F800000 := by decide
/-- ResultsArePushed: a run of registers that ends at the last one. -/
theorem test_meets_pushes : Dst.isVec (.v 20) = true ∧ (4 : Nat) ≤ 4 ∧ ∀ k, Dst.v 20 = .v k → k.val + 4 ≤ 24 := by
  refine ⟨rfl, by decide, ?_⟩
  intro k h; cases h; decide

/-- R271, hand calculation: 2^64 − 1 plus 1 is 0 with Z and C; 2^63 − 1 plus 1 sets N and V. -/
theorem test_sadd_flags : flagsOf (exec (.sadd (.s 0) (.s 1) (.s 2)) (with2 (-1) 1)) = some ⟨true, false, true, false⟩ ∧
    flagsOf (exec (.sadd (.s 0) (.s 1) (.s 2)) (with2 0x7FFFFFFFFFFFFFFF 1)) = some ⟨false, true, false, true⟩ := by decide +kernel
/-- R275's table: 3 − 5, and −1 − 1. -/
theorem test_ssub_flags : flagsOf (exec (.ssub (.s 0) (.s 1) (.s 2)) (with2 3 5)) = some ⟨false, true, false, false⟩ ∧
    flagsOf (exec (.ssub (.s 0) (.s 1) (.s 2)) (with2 (-1) 1)) = some ⟨false, true, true, false⟩ := by decide +kernel
/-- R273's table: division by zero, and the one quotient that does not fit. -/
theorem test_sdiv_corners : scalarOf (exec (.sdivS (.s 0) (.s 1) (.s 2)) (with2 7 0)) 0 = some (-1) ∧
    scalarOf (exec (.sremS (.s 0) (.s 1) (.s 2)) (with2 (BitVec.intMin 64) (-1))) 0 = some 0 := by decide +kernel
/-- Truncation toward zero (R273): −7 by 2 is −3, remainder −1. -/
theorem test_sdiv_truncates : scalarOf (exec (.sdivS (.s 0) (.s 1) (.s 2)) (with2 (-7) 2)) 0 = some (-3) ∧
    scalarOf (exec (.sremS (.s 0) (.s 1) (.s 2)) (with2 (-7) 2)) 0 = some (-1) := by decide +kernel
/-- R274's example: sbfx s3, s4, 60, 8 of 0xF000000000000000 is 0x0F. -/
theorem test_sbfx_example : scalarOf (exec (.sbfx (.s 3) (.s 1) (.lit 60) 8) (with2 0xF000000000000000 0)) 3 = some 0x0F := by decide +kernel
/-- R274: a shift by 64 or more. -/
theorem test_ssar_far : scalarOf (exec (.ssar (.s 0) (.s 1) (.s 2)) (with2 (-2) 64)) 0 = some (-1) ∧
    scalarOf (exec (.sshl (.s 0) (.s 1) (.s 2)) (with2 1 64)) 0 = some 0 := by decide +kernel
/-- R285: saturation, and the absolute value of the least number. -/
theorem test_vadds_saturates : lane0 (exec (.vaddsS (.v 3) (.v 1) (.v 2)) (lanes2 0x7FFFFFFF 1)) = some 0x7FFFFFFF ∧
    lane0 (exec (.vabsS (.v 3) (.v 1)) (lanes2 0x80000000 0)) = some 0x80000000 := by decide +kernel
/-- R250, R251: 1.0 + 2.0 is 3.0, and the lesser of a NaN and −0 is −0. -/
theorem test_vfadd_vfmin : lane0 (exec (.vfadd (.v 3) (.v 1) (.v 2)) (lanes2 0x3F800000 0x40000000)) = some 0x40400000 ∧
    lane0 (exec (.vfmin (.v 3) (.v 1) (.v 2)) (lanes2 0x7FC00001 0x80000000)) = some 0x80000000 := by decide +kernel
/-- R288's example: vfrnd of −0.5 under rne is −0. -/
theorem test_vfrnd_half : lane0 (exec (.vfrnd (.v 3) (.v 1) 0) (lanes2 0xBF000000 0)) = some 0x80000000 := by decide +kernel
/-- R289: +infinity is class 8, −0 class 4. -/
theorem test_vfcls : lane0 (exec (.vfcls (.v 3) (.v 1)) (lanes2 0x7F800000 0)) = some 0x100 ∧
    lane0 (exec (.vfcls (.v 3) (.v 1)) (lanes2 0x80000000 0)) = some 0x10 := by decide +kernel
/-- R295: vtos reads the lane its index names, modulo W. -/
theorem test_vtos_wraps : scalarOf (exec (.vtos (.s 0) (.v 1) (.lit 32)) (lanes2 0xFFFFFFFF 0)) 0 = some 0xFFFFFFFF := by decide +kernel
/-- R296: a reduction with every lane disabled gives the identity, extended as its row says. -/
theorem test_reduction_identity :
    scalarOf (exec (.vredmaxS (.s 0) (.v 1)) (one { tg with exm := 0 } tt tk)) 0 = some 0xFFFFFFFF80000000 ∧
    scalarOf (exec (.vredminF32 (.s 0) (.v 1)) (one { tg with exm := 0 } tt tk)) 0 = some 0x7F800000 := by decide +kernel
/-- R292: mfirst of an empty mask is W. -/
theorem test_mfirst_empty : scalarOf (exec (.mfirst (.s 0) 1) s1) 0 = some 32 := by decide +kernel
/-- R292's mask literal: mfroms m2, −1 sets all W bits. -/
theorem test_mfroms_all : (groupOf (exec (.mfroms (.lit 0xFFFFFFFF) 2) s1)).map (fun g => g.m[2]) = some 0xFFFFFFFF := by decide +kernel

/-! ### Control flow and faults -/

/-- ControlWords: masks and EXM that are zero over the lanes and that are not, and each end of the mask stack. -/
theorem test_meets_ControlWords : (∀ i, i < u1.w → (0 : W64).getLsbD i = false) ∧ ¬(∀ i, i < u1.w → u1.g.exm.getLsbD i = false) ∧
    okJmpi (.s 3) = true ∧ okJmpi (.lit 4) = true ∧ s1.Ready u1 0 (.s 15) ∧ (tg.msdepth = 0) ∧
    (one { tg with msdepth := 16 } tt tk).Ready ⟨{ tg with msdepth := 16 }, tt, tk⟩ 0 .push ∧
    (one { tg with msdepth := 15 } tt tk).Ready ⟨{ tg with msdepth := 15 }, tt, tk⟩ 0 .push ∧ (8 : Nat) % 4 = 0 ∧ (6 : Nat) % 4 ≠ 0 := by
  refine ⟨fun i _ => by simp, fun h => absurd (h 0 (by decide)) (by decide), rfl, rfl, test_ready_below _ _ (by decide), rfl, ⟨rfl, by decide, rfl, rfl⟩,
    ⟨rfl, by decide, rfl, rfl⟩, rfl, by decide⟩
/-- FaultsAreTaken: with a handler, without one, inside one, and a residue code. -/
theorem test_meets_FaultsAreTaken : let h : Task := { tk with launch := { plainLaunch with traph := 64 } }
    let g : Group := { tg with trap := { TrapRegs.zero with active := true } }
    (0x05 ≠ 0x12 ∧ tg.trap.active = false ∧ h.launch.traph ≠ 0 ∧ (one tg tt h).group? tg.id = some tg) ∧
    (s1.task? tk.tid = some tk ∧ tk.faulted = false ∧ tk.launch.traph = 0) ∧
    ((one g tt h).task? h.tid = some h ∧ h.faulted = false ∧ g.trap.active = true) := by
  refine ⟨⟨by decide, rfl, by decide, rfl⟩, ⟨rfl, rfl, rfl⟩, rfl, rfl, rfl⟩
/-- BadOperandsTakeIllopnd: a word its page refuses, and a group to meet it. -/
theorem test_meets_BadOperands : (Instr.sadd .push .zero .zero).ctx = some (.clause .alu) ∧ (Instr.sadd .push .zero .zero).wf = false ∧ s1.issuer = some u1 :=
  ⟨rfl, rfl, rfl⟩
/-- ClausesAdvance: headers refused and allowed, with and without SDR, and with a bound on open batches. -/
theorem test_meets_ClausesAdvance : s1.issuer = some u1 ∧ u1.g.widx = 0 ∧ okHeader 0 0 = false ∧ okHeader 15 5 = true ∧ okHeader 1 6 = false ∧
    u1.g.lateFault = none ∧ ((s1.core u1.t.core).cq.all fun c => c.g != u1.g.id) = true ∧ s1.owesWrites u1.g.id = false ∧
    (u1.outstanding s1).length ≤ (0 : Fin 16).val ∧ (0 : Fin 16).val ≠ 15 ∧ u1.g.widx + 0 ≤ u1.g.clauseN ∧ u1.g.clauseN < u1.g.widx + 1 := by
  refine ⟨rfl, rfl, rfl, rfl, rfl, rfl, rfl, by decide +kernel, by decide, by decide, by decide, by decide⟩
/-- R280's example: EXM after exif, exelse and exend. -/
theorem test_mask_stack_example :
    (groupOf (exec (.exif 1) (one { tg with m := tg.m.set 1 0x0000FFFF } tt tk))).map (fun g => (g.exm, g.msdepth)) = some (0x0000FFFF, 1) ∧
    (groupOf (exec .exelse (one { tg with exm := 0x000000FF, mstack := tg.mstack.set 1 0x0000FFFF, msdepth := 2 } tt tk))).map
      (fun g => (g.exm, g.msdepth)) = some (0x0000FF00, 2) := by decide +kernel
/-- R278: an indirect call reads sk before it writes s15. -/
theorem test_call_s15 : (groupOf (exec (.callIndirect 15) (one { tg with pc := 0x100, s := tg.s.set 15 0x40 } tt tk))).map
    (fun g => (g.pc, g.s[15])) = some (0x40, 0x104) := by decide +kernel
/-- R278: a misaligned target raises ALIGN, with TRVA the target. -/
theorem test_ret_misaligned : (groupOf (exec .ret (one { tg with s := tg.s.set 15 0x42 } tt { tk with launch := { plainLaunch with traph := 64 } }))).map
    (fun g => (g.pc, g.trap.code, g.trap.va, g.trap.active)) = some (64, 0x05, 0x42, true) := by decide +kernel
/-- R342: trap without a handler ends the task under 0x10. -/
theorem test_trap_ends : (match exec (.trap 7) s1 with | .next s => (s.task? 0).map fun k => (k.faulted, k.fcode) | _ => none) = some (true, 0x10) := by
  decide +kernel

/-! ### Barriers, tethers, waiting and leaving: states that meet the hypotheses, and single steps -/

/-- The team with barrier 3 reached by its one group. -/
def ta : Team := { tt with barriers := tt.barriers.set 3 ⟨1, false⟩ }
/-- Management registers under which tether 5 is open to ASID 0 with COUNT 2, and one arrival counted. -/
def tethRegs (arrived : Nat) : List (Nat × Nat) :=
  [(0x00600050, 0x80000000), (0x00600054, 2)] ++ if arrived = 0 then [] else [(0x00600058, arrived * 65536)]
def withRegs (s : State) (l : List (Nat × Nat)) : State := { s with mgmt := l }

theorem test_meets_BarriersAndTethers : u1.arrived 3 = false ∧ Issuer.arrived ⟨tg, ta, tk⟩ 3 = true ∧ (one tg ta tk).Ready ⟨tg, ta, tk⟩ 0 .push ∧
    (one { tg with wait := some (.tbar 3) } tt tk).Ready ⟨{ tg with wait := some (.tbar 3) }, tt, tk⟩ 0 .push ∧ tg.wait = none ∧ tg.fence = none ∧
    s1.owesWrites tg.id = false ∧ (∃ t, (s1.arrive tg.id 3).team? tt.tid tt.team = some t) ∧
    (one { tg with wait := some (.cbar 7) } tt tk).Ready ⟨{ tg with wait := some (.cbar 7) }, tt, tk⟩ 0 .push ∧ bit tg.cbarArr 7 = false ∧ tk.launch.coloc ≠ 0 ∧
    s1.tethOpen 63 tk.asid = false ∧ (withRegs s1 (tethRegs 0)).tethOpen 5 tk.asid = true ∧ tg.tethArr.getLsbD 5 = false ∧ tg.tethLatched.getLsbD 5 = false ∧
    ({ tg with tethLatched := 32 } : Group).tethLatched.getLsbD 5 = true ∧ (withRegs s1 (tethRegs 0)).Ready u1 0 .push := by
  refine ⟨by decide, by decide, ⟨rfl, by decide, rfl, rfl⟩, ⟨rfl, by decide, rfl, rfl⟩, rfl, rfl, by decide, ⟨_, rfl⟩, ⟨rfl, by decide, rfl, rfl⟩,
    by decide, by decide, by decide +kernel, by decide +kernel, by decide, by decide, by decide, ⟨rfl, by decide, rfl, rfl⟩⟩
/-- BarrierGenerationEnds: both sides of its condition. -/
theorem test_meets_BarrierGenerationEnds : (1 : Nat) ≠ 0 ∧ (∀ g ∈ [tg], g.stat ≠ .exited → bit (⟨1, false⟩ : Barrier).arrived g.id.grp = true) ∧
    ¬(∀ g ∈ [tg, { tg with id := ⟨0, 0, 1⟩ }], g.stat ≠ .exited → bit (⟨1, false⟩ : Barrier).arrived g.id.grp = true) := by decide
/-- TailWrites: a queue of the task's ASID, one of another, reserved bits, and each kind of address that qtail takes. -/
theorem test_meets_TailWrites : let qs (a : Nat) : State := withRegs (one tg tt uk) [(0x00200008, 4 * 65536 + a)]
    let barred (s : State) (q : Nat) : Prop := bits (s.reg (offQCFG q)) 15 0 ≠ uk.asid ∧ uk.asid ≠ 0
    (qs 7).Ready ⟨tg, tt, uk⟩ 0 .push ∧ barred (qs 7) 0 ∧ ¬barred (qs 5) 0 ∧ (2 ^ 40 : Nat) / 2 ^ 40 ≠ 0 ∧ (2 ^ 40 - 1 : Nat) / 2 ^ 40 = 0 ∧
    (one { tg with fence := some ⟨.released, 4⟩ } tt tk).Ready ⟨{ tg with fence := some ⟨.released, 4⟩ }, tt, tk⟩ 0 .push ∧
    (2 ^ 51 : Nat) / 2 ^ 51 ≠ 0 ∧ (2 ^ 50 + 2 ^ 40 * 3 : Nat) / 2 ^ 50 = 1 ∧ (2 ^ 50 + 2 ^ 40 * 3 : Nat) / 2 ^ 40 % 1024 ≠ s1.pkgNum ∧
    (2 ^ 50 : Nat) / 2 ^ 40 % 1024 = s1.pkgNum := by
  refine ⟨⟨rfl, by decide, rfl, rfl⟩, by decide +kernel, by decide +kernel, by decide, by decide, ⟨rfl, by decide, rfl, rfl⟩, by decide, by decide,
    by decide +kernel, by decide +kernel⟩
/-- WaitsAndExits: a wfa that waits, whose limit has passed or whose line is gone; the arrival and the release of a tether; groups in the
exit stall, one of two and the last one. -/
theorem test_meets_WaitsAndExits : let w : Group := { tg with wait := some (.wfa ⟨0, 0⟩ 0 7) }
    let x : Group := { tg with stat := .exiting }
    let y : Group := { tg with id := ⟨0, 0, 1⟩ }
    let a : Group := { tg with tethArr := 32 }
    (one w tt tk).Ready ⟨w, tt, tk⟩ 0 .push ∧ (one w tt tk).mem.line? (.l1 tt.core) ⟨0, 0⟩ = none ∧
    ((s1.core tt.core).cq.all fun c => c.g != tg.id || c.state != .err) = true ∧
    ((5 < 64 ∧ (withRegs (one a tt tk) (tethRegs 0)).sheetRuns (dieSheet 0) = true ∧ (withRegs (one a tt tk) (tethRegs 0)).sheetRuns 0 = true ∧ (withRegs (one a tt tk) (tethRegs 0)).team? 0 0 = some tt ∧
      (withRegs (one a tt tk) (tethRegs 0)).tethDue tt 5 = true ∧ ((tethRegs 0).map fun e => e.1).Pairwise (· < ·) ∧
      (withRegs (one a tt tk) (tethRegs 0)).tethArrived 5 + 1 < (withRegs (one a tt tk) (tethRegs 0)).tethCount 5) ∧
      (withRegs (one a tt tk) (tethRegs 1)).tethDue tt 5 = true ∧ ((tethRegs 1).map fun e => e.1).Pairwise (· < ·) ∧
      (withRegs (one a tt tk) (tethRegs 1)).tethCount 5 ≤ (withRegs (one a tt tk) (tethRegs 1)).tethArrived 5 + 1) ∧
    ((one tg { tt with tethEnded := 32 } tk).teams.any fun y => y.tethEnded.getLsbD 5 && s1.sheetRuns (dieSheet y.core.die)) = true ∧
    ((one x tt tk).group? tg.id = some x ∧ (one x tt tk).team? 0 0 = some tt ∧ (one x tt tk).task? 0 = some tk ∧ (one x tt tk).siteRuns (.die 0) = true ∧
      (∀ c ∈ ((one x tt tk).core tt.core).cq, c.g = tg.id → c.state = .done) ∧
      ((one x tt tk).groups.filter fun h => h.id.tid == 0 && h.id.team == 0 && h.stat != .exited).length = 1 ∧
      (∀ o ∈ ((one x tt tk).core tt.core).mq, o.g.tid = 0 → o.g.team ≠ 0) ∧ (one x tt tk).multicastTo tt tk = false) ∧
    (1 < (({ one x tt tk with groups := [x, y] } : State).groups.filter fun h => h.id.tid == 0 && h.id.team == 0 && h.stat != .exited).length ∧
      ∀ h ∈ ({ one x tt tk with groups := [x, y] } : State).groups, h.id = tg.id → h.stat = .exiting) := by
  refine ⟨⟨rfl, by decide, rfl, rfl⟩, by decide, by decide, ⟨⟨by decide, by decide, by decide, rfl, by decide +kernel, by decide, by decide +kernel⟩, by decide +kernel,
    by decide, by decide +kernel⟩, by decide, ⟨rfl, rfl, rfl, by decide, ?_, by decide, ?_, by decide⟩, by decide, ?_⟩
  · intro c hc; cases hc
  · intro c hc; cases hc
  · intro h hh he
    rcases List.mem_cons.mp hh with rfl | hh
    · rfl
    · rcases List.mem_cons.mp hh with rfl | hh
      · exact absurd he (by decide)
      · cases hh
/-- R339: tbar of a team of one group ends its generation at once. -/
theorem test_tbar_alone : (groupOf (exec (.tbar 3) s1)).map (fun g => (g.wait, g.wordsIssued)) = some (none, 1) := by decide +kernel
/-- R172, R339: teth.arr on a tether that is not configured raises PROT. -/
theorem test_teth_closed : (groupOf (exec (.tethArr 5) (one tg tt { tk with launch := { plainLaunch with traph := 64 } }))).map (fun g => g.trap.code) = some 0x07 := by
  decide +kernel

/-! ### System words, fences and cache maintenance -/

theorem test_meets_SystemWords : okRdsys (.s 3) 0x0B = true ∧ (0x0B : BitVec 12).toNat < 0x40 ∧ okRdsys (.s 3) 0x40 = true ∧ 0x40 ≤ (0x40 : BitVec 12).toNat ∧
    uk.asid ≠ 0 ∧ okTopo (.s 3) 8 = true ∧ (one tg tt uk).Ready ⟨tg, tt, uk⟩ 0 (.s 3) ∧ tk.asid = 0 ∧
    (one { tg with stall := { MemStall.none with result := some [9] } } tt tk).Ready ⟨{ tg with stall := { MemStall.none with result := some [9] } }, tt, tk⟩ 0 (.s 3) ∧
    (0x13 : Code).val < 0x14 ∧ ((5 : W64).toNat % 2 ^ 32 ≠ 0) ∧ (s1.sched.saved.all fun x => !x.fids.contains 5) = true ∧
    (s1.sched.savedMills.all fun x => x.fid != 5) = true ∧ s1.mem.net = [] ∧ s1.mem.txns = [] ∧ s1.mem.promos = [] ∧
    (s1.mem.lines.all fun l => nodeDepth l.node == 4 || !lineIn 0 0 0 l.a) = true ∧ ((0 : Nat) + 2 ^ 56 ≤ 2 ^ 56 ∧ (0 : Nat) < 2 ^ 56) := by
  refine ⟨by decide, by decide, by decide, by decide, by decide, by decide, ⟨rfl, by decide, rfl, rfl⟩, rfl, ⟨rfl, by decide, rfl, rfl⟩, by decide, by decide,
    rfl, rfl, rfl, rfl, rfl, rfl, by decide⟩
/-- DebugMarker: a grant whose marker is met, and no grant. -/
theorem test_meets_DebugMarker : let s : State := { s1 with boot := { s1.boot with granted := true, marker := some 7 } }
    Src.isUni (.lit 7) = true ∧ s.Ready u1 0 .push ∧ (s.boot.granted = true ∧ s.boot.marker = some (u1.g.scalar (.lit 7))) ∧
    ¬(s1.boot.granted = true ∧ s1.boot.marker = some (u1.g.scalar (.lit 7))) :=
  ⟨rfl, ⟨rfl, by decide, rfl, rfl⟩, ⟨rfl, by decide⟩, by decide⟩
/-- A message alone on the network. -/
def msg (dst : Site) (b : Body) : Msg := ⟨.req, .die 0, dst, dst, 0, 0, 0, b⟩
def net1 (s : State) (m : Msg) : State := s.mapMem fun x => { x with net := [m] }
def a00 : LineId := ⟨0, 0⟩
/-- The group in a fence. -/
def fg (p : FencePhase) : Group := { tg with fence := some ⟨p, 5⟩ }
/-- A W line of the core's L1 that may be registered. -/
def wLine : Line := ⟨.l1 ⟨0, 0, 0⟩, ⟨0, 0⟩, .w, [], 0, 1, ⟨true, true, false, false, 0, 0, 0⟩, 0⟩
/-- FencesAndDrains: fences that begin, that have released, and that owe nothing; drains at each level, with nothing to register and with a W
line that may be, with and without a slice in the drain set; their acknowledgements, and a Back-Invalidate. -/
theorem test_meets_FencesAndDrains : okFence 5 3 = true ∧ okFence 0 2 = true ∧ (0 : Fin 8).val = 0 ∧ s1.owesWrites tg.id = false ∧ tg.fence = none ∧
    (one { tg with fence := some ⟨.released, 3⟩ } tt tk).Ready ⟨{ tg with fence := some ⟨.released, 3⟩ }, tt, tk⟩ 0 .push ∧
    ((net1 s1 (msg (.die 0) (.drain tg.id (.l1 tt.core) true 3 none))).takeMsg 0 = some (msg (.die 0) (.drain tg.id (.l1 tt.core) true 3 none), s1) ∧
      s1.coreOf tg.id = some tt.core ∧ s1.toRegister (.l1 tt.core) 0 none = [] ∧ s1.invOut tt.core (.l1 tt.core) = false ∧
      s1.invOut tt.core (.hub 0 0) = false ∧ s1.invOut tt.core (.l2 0) = false) ∧
    (let s := s1.mapMem fun x => { x with lines := [wLine] }; (s.toRegister (.l1 tt.core) 0 none).filter (fun l => s.canRegister l.node l.a) ≠ []) ∧
    (∀ j ∈ List.range 72, s1.drains tt.core true none (.slice j) = false ∧ s1.drains tt.core false none (.home j) = false) ∧
    (let s := net1 s1 (msg (.die 1) (.inv a00 (.l2 0) (.slice 0))); ∀ j ∈ List.range 72, s.drains tt.core true none (.slice j) = true ↔ j = 0) ∧ 0 ∈ sheetTowers (dieSheet 0) ∧
    ((net1 s1 (msg (.die 0) (.drain tg.id (.hub 0 0) true 2 none))).takeMsg 0 = some (msg (.die 0) (.drain tg.id (.hub 0 0) true 2 none), s1)) ∧
    ((net1 s1 (msg (.die 0) (.drain tg.id (.l2 0) true 5 none))).takeMsg 0 = some (msg (.die 0) (.drain tg.id (.l2 0) true 5 none), s1)) ∧
    ((net1 (one (fg .release) tt tk) (msg (.die 0) (.drainAck tg.id))).takeMsg 0 = some (msg (.die 0) (.drainAck tg.id), one (fg .release) tt tk) ∧
      (one (fg .release) tt tk).group? tg.id = some (fg .release) ∧ (one (fg .release) tt tk).owesPath tg.id 5 = false ∧
      ((one (fg .release) tt tk).accept (msg (.die 0) (.drainAck tg.id))).1 = true ∧
      (one (fg .release) tt tk).mem.backInv = []) ∧
    ((one (fg .acquire) tt tk).group? tg.id = some (fg .acquire) ∧ (one (fg .acquire) tt tk).invToward tt.core 5 = false) ∧
    ((s1.mapMem fun x => { x with backInv := [3] }).mem.backInv.contains 3 = true) := by
  refine ⟨by decide, by decide, rfl, by decide, rfl, ⟨rfl, by decide, rfl, rfl⟩, ⟨rfl, rfl, rfl, by decide, by decide, by decide⟩, by decide +kernel, by decide +kernel,
    by decide +kernel, by decide +kernel, rfl, rfl, ⟨rfl, rfl, by decide, by decide +kernel, rfl⟩, ⟨rfl, by decide +kernel⟩, by decide⟩
/-- CacheMaintenanceCompletes: ranges that exist and that do not, and a deckle that may be flushed. -/
theorem test_meets_CacheMaintenance : let d : Deckle := ⟨0, 4096, true, true, false⟩
    let k : Task := { tk with deckles := [d] }
    let g : Group := { tg with stall := { MemStall.none with sent := true } }
    s1.Ready u1 (max (Src.vtop (.s 1) 1) (Src.vtop (.s 2) 1)) .push ∧ okPref (.s 1) (.s 2) 4 = true ∧ okCwb (.s 1) (.s 2) 5 = true ∧ okCinv (.s 1) (.s 2) = true ∧
    rangeOf 0 (2 ^ 26 + 1) = none ∧ rangeOf (2 ^ 56 - 4) 5 = none ∧ rangeOf 0 (2 ^ 26) = some (0, 2 ^ 26) ∧ u1.undeclared (u1.inRange s1 (0, 256)) 0 (fun d => d.w) = none ∧
    tk.deckles[(0 : W64).toNat]? = none ∧ k.deckles[(0 : W64).toNat]? = some d ∧ (one g tt k).Ready ⟨g, tt, k⟩ 0 .push ∧ (one g tt k).owesWrites g.id = false := by
  refine ⟨test_ready_below _ _ (by decide), by decide, by decide, by decide, by decide, by decide, by decide, by decide +kernel, rfl, rfl, ⟨rfl, by decide, rfl, rfl⟩, by decide⟩
/-- R345's example: rdsys s3, spbase reads the allocation's base. -/
theorem test_rdsys_spbase : scalarOf (exec (.rdsys (.s 3) 0x00B) (one tg { tt with spbase := 0x4000 } tk)) 3 = some 0x4000 := by decide +kernel
/-- R344: a privileged word at user level raises PRIV. -/
theorem test_xlinv_user : (groupOf (exec (.xlinv .zero .zero .zero) (one tg tt { uk with launch := { plainLaunch with traph := 64 } }))).map (fun g => g.trap.code) = some 0x04 := by
  decide +kernel

/-! ### Memory words -/

/-- A line at VA 0 in the core's L1, in M, writable, coherent. -/
def l0 (val : BitVec 2048) : Line := ⟨.l1 ⟨0, 0, 0⟩, ⟨0, 0⟩, .m, [], val, 0, ⟨true, true, false, false, 0, 0, 0⟩, 0⟩
def cached (g : Group) (val : BitVec 2048) : State := (one g tt tk).mapMem fun x => { x with lines := [l0 val] }
/-- One enabled lane. -/
def g1 : Group := { tg with exm := 1 }
theorem test_meets_LoadsComplete : let m : MemMods := ⟨0, 0, false⟩
    (Instr.ldB32 (.v 0) (.s 1) .zero m).wf = true ∧ (Instr.ldB32 (.v 0) (.s 1) .zero ⟨5, 1, false⟩).wf = true ∧ (cached g1 0).Ready ⟨g1, tt, tk⟩ 24 .push ∧
    Issuer.gate ⟨g1, tt, tk⟩ (cached g1 0) (Issuer.addrs ⟨g1, tt, tk⟩ false (.s 1) .zero) 4 .read false = none ∧
    Issuer.sramCodes ⟨g1, tt, tk⟩ (one g1 tt tk) .sp (Issuer.addrs ⟨g1, tt, tk⟩ false (.s 1) (.lit 262140)) 4 true false = [] ∧ Issuer.windowLocal ⟨g1, tt, tk⟩ = true := by
  refine ⟨by decide, by decide, ⟨rfl, by decide, rfl, rfl⟩, by decide +kernel, by decide +kernel, by decide +kernel⟩
/-- AccessesAllowed: a lane at the last place of its space, and a lane whose line is here. -/
theorem test_meets_AccessesAllowed : (0 : Nat) < 16 ∧ Issuer.range u1 .sp = (0, 262144) ∧ (262128 : Int) % 16 = 0 ∧ u1.g.stall.faults = [] ∧
    Issuer.ready u1 (cached tg 0) (vaOf 252 / 256) = true ∧ u1.l1 (cached tg 0) (vaOf 252 / 256) = some (l0 0) ∧ (l0 0).attr.refuses .read u1.priv = none := by
  refine ⟨by decide, by decide +kernel, by decide, rfl, by decide +kernel, rfl, by decide⟩
theorem test_meets_StoresComplete : let u : Issuer := ⟨g1, tt, tk⟩
    (Instr.stB128 (.v 4) (.s 1) .zero ⟨0, 0, false⟩).wf = true ∧ (Instr.stsN4 (.v 4) (.s 1) .zero ⟨0, 0, false⟩).wf = true ∧
    (Instr.stN4 (.v 4) (.s 1) .zero ⟨0, 1, false⟩).wf = true ∧
    u.gate (cached g1 0) (u.addrs false (.s 1) .zero) 16 .write true = none ∧ u.sramCodes (one g1 tt tk) .sp (u.addrs false (.s 1) .zero) 16 false true = [] ∧
    u.sramCodes (one g1 tt tk) .sp (u.nibAddrs (.s 1) .zero) 1 false true = [] ∧ u.gate (cached g1 0) (u.nibAddrs (.s 1) .zero) 1 .write true = none ∧
    u.release (cached g1 0) 0 = none ∧ u.registerUp (cached g1 0) [0] 0 = none := by
  refine ⟨by decide, by decide, by decide, by decide +kernel, by decide +kernel, by decide +kernel, by decide +kernel, rfl, rfl⟩
/-- StoredBytes: a lane whose address is in its team's scratchpad, bytes inside and outside it, and a store of whole bytes. -/
theorem test_meets_StoredBytes : s1.team? tt.tid tt.team = some tt ∧ (∀ i ∈ List.range u1.w, u1.g.exm.getLsbD i = true → (0 : Int) ≤ u1.g.addrPart (.s 1) i + u1.g.addrPart .zero i) ∧
    s1.Canonical ∧ (let e : LaneStore := ⟨0, 252, 4, 0xFFFFFFFF, 0xFFFFFFFF⟩
      e.mask = 2 ^ (8 * e.bytes) - 1 ∧ e.val < 2 ^ (8 * e.bytes) ∧ vaOf e.addr % 256 + e.bytes ≤ 256 ∧ (u1.l1 (cached tg 0) (vaOf e.addr / 256)).isSome = true) := by
  refine ⟨rfl, by decide +kernel, rfl, by decide +kernel⟩
theorem test_meets_ScalarMemory : let u : Issuer := ⟨g1, tt, tk⟩
    MemMods.ok ⟨0, 0, false⟩ = true ∧ u.gate (cached g1 0) [(0, 0)] 8 .read false = none ∧ u.gate (cached g1 0) [(0, 0)] 8 .write true = none ∧
    u.sramCodes (one g1 tt tk) .sp [(0, 262136)] 8 true false = [] ∧ u.sramCodes (one g1 tt tk) .sp [(0, 0)] 8 false true = [] := by decide +kernel
/-- AtomicWords: performed in the core, at the scratchpad, and answered by the home. -/
theorem test_meets_AtomicWords : let u : Issuer := ⟨g1, tt, tk⟩
    let g : Group := { g1 with stall := { MemStall.none with result := some [7] } }
    (Instr.atomAddB32 (.v 3) (.s 1) .zero ⟨3, 0, false⟩).wf = true ∧ (Instr.satomCasB64 (.s 2) (.s 1) .zero ⟨5, 1, false⟩).wf = true ∧
    (Instr.atomsCasB64 (.v 4) (.s 1) .zero ⟨0, 0, false⟩).wf = true ∧ (Instr.redAddF32 (.v 3) (.s 1) .zero ⟨2, 0, false⟩).wf = true ∧
    u.gate (cached g1 0) ((u.atoms .addB32 (.v 3) (.s 1) .zero false).map fun e => (e.lane, e.addr)) 4 .atomic true = none ∧
    u.registerUp (cached g1 0) ((u.atoms .addB32 (.v 3) (.s 1) .zero false).map fun e => vaOf e.addr) 0 = none ∧
    ((u.atoms .addB32 (.v 3) (.s 1) .zero false).all fun e => !u.deckled (cached g1 0) e.addr) = true ∧
    ((u.atoms .addB32 (.v 3) (.s 1) .zero false).all fun e => decide (e.addr % (AtomOp.addB32.bytes : Int) = 0) && inGlobal e.addr) = true ∧
    (one g tt tk).Ready ⟨g, tt, tk⟩ 24 .push ∧ (one g tt tk).Ready ⟨g, tt, tk⟩ 0 (.s 2) ∧ g.stall.result = some [7] ∧
    u.sramCodes (one g1 tt tk) .sp ((u.atoms .addB32 (.v 3) (.s 1) .zero false).map fun e => (e.lane, e.addr)) 4 true true = [] ∧
    u.gate (cached g1 0) [(0, 0)] 4 .red true = none := by
  refine ⟨by decide, by decide, by decide, by decide, by decide +kernel, by decide +kernel, by decide +kernel, by decide +kernel, ⟨rfl, by decide, rfl, rfl⟩,
    ⟨rfl, by decide, rfl, rfl⟩, rfl, by decide +kernel, by decide +kernel⟩
/-- R305: a signed byte load extends its sign. -/
theorem test_ld_s8 : lane0 (exec (.ldS8 (.v 3) (.s 1) .zero ⟨0, 0, false⟩) (cached g1 0x80)) = some 0xFFFFFF80 := by decide +kernel
/-- R306: a word stored to the scratchpad, lowest byte first. -/
theorem test_sts_bytes : (match exec (.stsB32 (.lit 0x04030201) (.s 1) .zero ⟨0, 0, false⟩) (one g1 { tt with sp := [(0, 9), (1, 9), (2, 9), (3, 9)] } tk) with
    | .next s => (s.team? 0 0).map fun t => t.sp | _ => none) = some [(0, 1), (1, 2), (2, 3), (3, 4)] := by decide +kernel
/-- R176: a misaligned lane raises ALIGN. -/
theorem test_lds_misaligned : (groupOf (exec (.ldsB32 (.v 3) (.s 1) (.lit 2) ⟨0, 0, false⟩) (one g1 tt { tk with launch := { plainLaunch with traph := 64 } }))).map
    (fun g => (g.trap.code, g.trap.va, g.trap.lanes)) = some (0x05, 2, 1) := by decide +kernel
/-- R310: an atomic add returns the old value and leaves the sum. -/
theorem test_atom_add : (match exec (.atomsAddB32 (.v 3) (.s 1) .zero ⟨0, 0, false⟩) (one { g1 with v := tg.v.set 3 (5 :: List.replicate 31 0) } { tt with sp := [(0, 7), (1, 0), (2, 0), (3, 0)] } tk) with
    | .next s => (s.group? ⟨0, 0, 0⟩).bind fun g => (s.team? 0 0).map fun t => (lane g.v[3] 0, undefRead t.sp 0 0) | _ => none) = some (7, 12) := by decide +kernel

/-! ### Copies and the matrix unit -/

/-- A descriptor in the scratchpad at 0: a fill of one row of 256 bytes at 4096. -/
def fillBytes (rows : Nat) : List (BitVec 8) := leBytes 8 5 ++ leBytes 8 4096 ++ leBytes 4 256 ++ leBytes 4 rows ++ leBytes 4 0 ++ leBytes 4 0
def tf (rows : Nat) : Team := { tt with sp := undefWrite [] 0 (fillBytes rows) }
def fillCopy : Copy := ⟨tg.id, .cpyf, 0, 0, 1, 0, 0, 0x06 * 2 ^ 24, fillBytes 1, [], .queued, 0, 0, 0, false⟩
theorem test_meets_CopiesEnterTheQueue : let u : Issuer := ⟨tg, tf 1, tk⟩
    let s : State := one tg (tf 1) tk
    (Instr.cpyf 0 1 1 0).wf = true ∧ s.Ready u 0 .push ∧ (s.core tt.core).cq.length < 16 ∧ (33 : Nat) % 32 ≠ 0 ∧ (262144 : Nat) < 262144 - 31 + 32 ∧
    u.badWord s .sp 0 32 = none ∧ u.spBytes 0 32 = fillBytes 1 ∧ fillCopy.descr.rows ≠ 0 ∧ fillCopy.descr.rowb ≠ 0 ∧ fillCopy.badFields = false ∧ fillCopy.listAt = none ∧
    u.boundCodes s fillCopy = [] ∧ u.rowsStall s fillCopy = false ∧ u.sideCodes s fillCopy = ([], s) ∧ u.takeLines s fillCopy = (true, s) ∧
    (Desc.ofBytes (fillBytes 0)).rows = 0 := by
  refine ⟨by decide, ⟨rfl, by decide, rfl, rfl⟩, by decide, by decide, by decide, by decide +kernel, by decide +kernel, by decide +kernel, by decide +kernel, by decide +kernel,
    rfl, by decide +kernel, by decide +kernel, rfl, rfl, by decide +kernel⟩
/-- EnginesRun: a copy queued, one whose last unit is next, and an operation at the head of the matrix queue. -/
theorem test_meets_EnginesRun : let q : Copy := { fillCopy with state := .active }
    let s : State := { one tg (tf 1) tk with cores := [{ Core.blank tt.core with cq := [fillCopy] }] }
    let t : State := { one tg (tf 1) tk with cores := [{ Core.blank tt.core with cq := [q] }] }
    let o : MatOp := ⟨tg.id, .mzero, 3, 1, 0, false, false, false, 0, 0, [], [], [], 0, [], 0, 0, false⟩
    let m : State := { one tg tt tk with cores := [{ Core.blank tt.core with mq := [o] }] }
    ((s.core tt.core).cq[0]? = some fillCopy ∧ s.siteRuns (.die 0) = true ∧ (∀ e ∈ (s.core tt.core).cq.take 0, e.state ≠ .queued)) ∧
    ((t.core tt.core).cq[0]? = some q ∧ t.copyIssuer q = some ⟨tg, tf 1, tk⟩ ∧ (match Issuer.unitStep ⟨tg, tf 1, tk⟩ t q with | (_, .ok _ _) => true | _ => false) = true) ∧
    ((m.core tt.core).mq = [o] ∧ m.team? o.g.tid o.g.team = some tt ∧ m.siteRuns (.die 0) = true ∧ m.matHeld o = false ∧ tt.spBad = []) := by
  refine ⟨⟨rfl, by decide, nofun⟩, ⟨rfl, rfl, by decide +kernel⟩, rfl, rfl, by decide, by decide +kernel, rfl⟩
/-- MatrixOperationsEnter, MatrixBatches, TileReadsComplete: tiles on each side of NACC, format blocks, maps and formats that pass. -/
theorem test_meets_matrix_words : let k8 : Task := { tk with launch := { plainLaunch with nacc := 8 } }
    let fmt : Team := { tt with sp := undefWrite [] 0 (leBytes 16 (0x01 + 0x01 * 256 + 32 * 65536)) }
    let u : Issuer := ⟨tg, fmt, k8⟩
    let s : State := one tg fmt k8
    s.Ready u 24 .push ∧ s.Ready u 0 (.s 15) ∧ u.k.launch.nacc ≤ (8 : Fin 16).val ∧ (7 : Fin 16).val < u.k.launch.nacc ∧ u.queueFull s 7 = false ∧
    u.mmaCodes s (OpMap.ofWord 0x400) (OpMap.ofWord 0x400) 0 = [] ∧ okFill 7 .zero 0x20 = true ∧ u.mapCodes (OpMap.ofWord 0) (convLen 0x20) = [] ∧
    (u.outstanding s).length < 15 ∧ ((s.core u.t.core).mq.filter fun o => o.g == u.g.id && o.batch != u.g.batch) = [] ∧ u.onTile s 7 = [] ∧ okDrain 7 .zero 0x10 = true ∧
    u.mapCodes (OpMap.ofWord 0) (convLen 0x10) = [] ∧ okDrainx 7 .zero (.s 1) 0x10 = true ∧ u.mapCodes (OpMap.ofWord 0) 32 = [] ∧ u.rangeCodes s 0 32 false = [] := by
  refine ⟨⟨rfl, by decide, rfl, rfl⟩, ⟨rfl, by decide, rfl, rfl⟩, by decide, by decide, by decide +kernel, by decide +kernel, by decide, by decide +kernel, by decide +kernel, rfl, rfl,
    by decide, by decide +kernel, by decide, by decide +kernel, by decide +kernel⟩
/-- R321: a descriptor that is not aligned to 32 bytes raises ALIGN. -/
theorem test_copy_misaligned : (groupOf (exec (.cpyf 0 1 1 0) (one { tg with s := tg.s.set 1 16 } (tf 1) { tk with launch := { plainLaunch with traph := 64 } }))).map
    (fun g => (g.trap.code, g.trap.va)) = some (0x05, 16) := by decide +kernel
/-- R169, R322: a copy with no rows shows DONE at once. -/
theorem test_copy_empty : scalarOf (exec (.cpyf 0 1 1 0) (one tg (tf 0) tk)) 0 = some 0x80000000 := by decide +kernel
/-- R336: mprog of a tile that no operation is on reads 0, and of one that two are on their number and bit 8. -/
theorem test_mprog : let o : MatOp := ⟨tg.id, .mzero, 3, 1, 0, false, false, false, 0, 0, [], [], [], 0, [], 0, 0, false⟩
    scalarOf (exec (.mprog (.s 0) 3) s1) 0 = some 0 ∧
    scalarOf (exec (.mprog (.s 0) 3) { s1 with cores := [{ Core.blank tt.core with mq := [o, o] }] }) 0 = some 0x200000100 := by decide +kernel


/-! ### Mills: states that meet the hypotheses, and single steps -/

/-- The mill with g1 holding a value, or another field set. -/
def mg (x : W64) : Mill := putG tm 1 x
theorem test_meets_MillScalarWords : s2.millIssuer = some u2 ∧ (mill (mg 8) mk).millIssuer = some ⟨mg 8, mk⟩ ∧ (mg 8).g[1].toNat % 4 = 0 ∧
    (mill (mg 6) mk).millIssuer = some ⟨mg 6, mk⟩ ∧ (mg 6).g[1].toNat % 4 ≠ 0 := ⟨rfl, rfl, by decide, rfl, by decide⟩
/-- MillLocalAndVectorWords: an access at the last place, a misaligned one, and one beyond it. -/
theorem test_meets_MillLocalAndVectorWords : s2.millIssuer = some u2 ∧ u2.m.bad = [] ∧ u2.m.inRow = false ∧ (65528 : Int) % 8 = 0 ∧
    (65528 : Int) + 8 ≤ u2.k.launch.locbytes ∧ (u2.k.launch.locbytes : Int) < 65536 + 8 ∧ (1984 : Int) % 64 = 0 ∧ (1984 : Int) + 64 ≤ 2048 ∧ (4 : Int) % 8 ≠ 0 ∧
    (3 : Fin 4) ≠ 0 ∧ (10 : Fin 16).val ≤ 10 := by refine ⟨rfl, rfl, by decide, ?_⟩; decide
/-- A machine in which tower 0 is home to every address of ASID 0 below 2^57, and holds a translation of the first 64 MiB to its first frames. -/
def homed (s : State) : State := s.mapMem fun x => { x with
  towerTab := [3, 19 * 65536 + 3].flatMap fun a => [(a, 0x80), (a + 1, 0xFF), (a + 2, 0xFF), (a + 3, 0xFF), (a + 4, 0x7F)]
  dieSp := [(0xF00003, 0x80), (0xF00004, 0xFF), (0xF00005, 0xFF), (0xF00006, 0xFF), (0xF00007, 0x7F)]
  tlb := [⟨0, 0, 0, 1024, 0x41F, [0, 1, 2], [0, 1, 2]⟩] }
theorem test_meets_MillTowerAccesses : let w (r : Option (List Nat)) : Mill := { tm with stall := { MemStall.none with result := r } }
    let p : Mill := { tm with wait := some (.mpark 0 0 0 1 0) }
    (homed s2).millIssuer = some u2 ∧ u2.m.inRow = false ∧ u2.m.stall.faults = [] ∧ (4 : Int) % 8 ≠ 0 ∧ inGlobal 8 = true ∧ u2.m.stall.result = none ∧
    u2.m.stall.sent = false ∧ u2.home (homed s2) 8 = some 0 ∧ (mill (w (some [5])) mk).millIssuer = some ⟨w (some [5]), mk⟩ ∧
    (mill p mk).millIssuer = some ⟨p, mk⟩ ∧ (mill p mk).mem.newest ⟨0, 0, 0⟩ ≠ 1 := by
  refine ⟨rfl, by decide, rfl, by decide, by decide, rfl, rfl, by decide +kernel, rfl, rfl, by decide +kernel⟩
theorem test_meets_MillSystemAndTraps : s2.millIssuer = some u2 ∧ u2.m.inRow = false ∧ millReadable 4 = true ∧ millReadable 0xFFFF = false ∧
    s2.task? u2.k.tid = some u2.k ∧ u2.k.faulted = false ∧ s2.mill? u2.m.id = some u2.m := ⟨rfl, by decide, by decide, by decide, rfl, rfl, rfl⟩
/-- MillRowOperations: row words with masks at each bound, a pair that is held, that is free, a step that may start, one that may end, a bank that
refreshes, and a lock whose limit has passed. -/
def rowMill : Mill := { tm with rowop := BitVec.ofNat 32 (0x21 * 2 ^ 26 + 1 * 2 ^ 21), rowd := 3 }
def busyMill : Mill := { rowMill with rowBusy := [⟨0, none, some (0, 0), false, false⟩] }
def bankMill : Mill := { tm with wait := some (.banklk 0) }
def lockOf (s : State) (limit : Nat) : State := s.mapMem fun x => { x with locks := [⟨0, 0, ⟨0, 0⟩, 0, limit⟩] }
theorem test_meets_MillRowOperations : (2 ^ 32 - 1 : Nat) < 2 ^ 32 ∧ (65536 : Nat) % 65536 = 0 ∧ (32 : Nat) % 65536 ≠ 0 ∧ (31 : Nat) < 32 ∧
    (match u2.frame (homed s2) 65536 .read true with
      | .at v t => t == homed s2 && !t.holdsLock u2.m.id (pairOf v.pa) && (match t.tryLock u2.m (pairOf v.pa) with | some (true, _) => true | _ => false) &&
        (lockOf t 0).holdsLock u2.m.id 0 && !u2.pageStalls (homed s2) 65536
      | _ => false) = true ∧
    (let s := homed (mill rowMill mk);
      (match s.millIssuerOf ⟨0, 0⟩ with
        | some u => u.m.inRow && u.m.rowFault.isNone && u.m.nextSlice == some 0 && !u.pageStalls s u.m.rowa.toNat && u.m.rowCode != 0x20 &&
          (match u.prepare s 0 with | .step x t => t.mayStep x | _ => false)
        | none => false) = true) ∧
    (let s := mill busyMill mk;
      s.mill? ⟨0, 0⟩ = some busyMill ∧ s.task? busyMill.tid = some mk ∧ busyMill.rowCode = 0x21 ∧ s.rowHeld ⟨0, 0⟩ (some (0, 0)) = false ∧
      s.rowQuiet (some (0, 0)) false = true ∧ s.recallRow (some (0, 0)) false = none) ∧
    s2.mem.refreshing.contains (71, 63, 31) = false ∧ (s2.mapMem fun x => { x with refreshing := [(71, 63, 31)] }).mem.refreshing.contains (71, 63, 31) = true ∧
    ((mill bankMill mk).mill? ⟨0, 0⟩ = some bankMill ∧ bankMill.st = .run ∧ (mill bankMill mk).siteRuns (.tower 0) = true ∧ bankMill.relock = [] ∧
      (mill bankMill mk).towerLocks 0 < 16 ∧ (match (mill bankMill mk).tryLock bankMill 0 with | some (true, _) => true | _ => false) = true) ∧
    (((lockOf s2 0).mem.locks.find? fun y => y.holder == ⟨0, 0⟩ && y.pair == 0) = some ⟨0, 0, ⟨0, 0⟩, 0, 0⟩ ∧ (lockOf s2 0).siteRuns (.tower 0) = true ∧ 0 + 0 ≤ (lockOf s2 0).now (.tower 0)) := by
  refine ⟨by decide, by decide, by decide, by decide, by decide +kernel, by decide +kernel, ⟨rfl, rfl, by decide, by decide +kernel, by decide +kernel, by decide +kernel⟩, rfl,
    by decide, ⟨rfl, rfl, by decide, rfl, by decide +kernel, by decide +kernel⟩, by decide, by decide, by decide⟩
/-- R361: a load of local memory, lowest byte first. -/
theorem test_mill_ld32 : (millOf (exec (.millLd32 2 0 4) (mill { tm with loc := [(4, 0x78), (5, 0x56), (7, 0x80)] } mk))).map (fun m => (m.g[2], m.pc)) =
    some (0x80005678, 4) := by decide +kernel
/-- R359: mulh takes the upper half of the signed product, and g0 keeps no write. -/
theorem test_mill_mulh : (millOf (exec (.millMulh 2 1 1) (mill (mg (-1)) mk))).map (fun m => m.g[2]) = some 0 ∧
    (millOf (exec (.millAddi 0 1 5) (mill (mg 9) mk))).map (fun m => m.g[0]) = some 0 := by decide +kernel
/-- R363: bne's word of R357's example goes back three words. -/
theorem test_mill_bne : (millOf (exec (.millBne 1 0 0xFFFD) (mill { mg 1 with pc := 0x100 } mk))).map (fun m => m.pc) = some 0xF4 := by decide +kernel
/-- R358: mtrap stops the mill with code 10. -/
theorem test_mill_mtrap : (millOf (exec (.millMtrap 0) s2)).map (fun m => m.st) = some (.trapped 0x10) := by decide +kernel
/-- R366, R367: rowzero of two slices is captured with its mask, and the mill goes on. -/
theorem test_mill_rowzero : (millOf (exec (.millRowzero 1 0) (mill (mg 3) mk))).map (fun m => (m.rowop, m.rowd, m.pc)) = some (0x84200000, 3, 4) := by decide +kernel
/-- R195, R368: banklk of a page takes the pair of its frame. -/
theorem test_mill_banklk : (match exec (.millBanklk 1) (homed (mill (mg 65536) mk)) with | .next s => s.mem.locks.map (fun l => (l.tower, l.holder)) | _ => []) =
    [(0, ⟨0, 0⟩)] := by decide +kernel

/-! ### Boot, freeze, links and failures: states that meet the hypotheses, and single steps -/

/-- A boot in phase p, whose timer stands at t. -/
def boot (p t : Nat) : State := { State.reset with boot := { BootState.reset with phase := p, timer := t } }
/-- A report in which everything trained, of these signatures, this security version and these sheets. -/
def report (signed : Bool) (version sheets : Nat) : BootReport := ⟨List.replicate 4 (signed, version, []), sheets, true, true, List.replicate 72 (2 ^ 24 - 1),
  [0, 0, 0, 0], [], [], [5, 7] ++ [22, 30, 22, 30, 22, 30, 22, 30, 22, 30, 22, 30, 22, 30, 22, 30]⟩
def plainReport : BootReport := report true 0 15
/-- A machine that is ready, its ports trained. -/
def ready : State := { State.reset with boot := { BootState.reset with ready := true, cxl := [true, true, true, true] } }
def stopAll (s : State) : State := { s with boot := { s.boot with stopped := Vector.replicate 4 true } }
/-- BootPhasesAdvance: each phase passes on a good report, one with a bad signature, an old version, a sheet that is not up, nothing trained or
tested, bands that cross, and a phase past its limit. -/
theorem test_meets_ResetAndBoot : (boot 0 0).boot.ready = false ∧ (boot 0 0).boot.fail = false ∧ (boot 0 0).frozen = false ∧
    (∀ p ∈ [1, 2, 3, 4, 5, 6, 7, 8], (boot p 0).phaseEnd plainReport = .passed ∧ (boot p 0).boot.timer ≤ phaseLimit p) ∧ plainReport.firmware.length = 4 ∧
    (∀ f ∈ plainReport.firmware, f.1 = true ∧ (boot 1 0).boot.minVersion ≤ f.2.1) ∧ (boot 1 0).phaseEnd (report false 0 15) = .failed 1 ∧
    (∃ f ∈ (report false 0 15).firmware, f.1 = false) ∧
    (let s : State := { boot 1 0 with boot := { (boot 1 0).boot with minVersion := 1 } }; (∃ f ∈ plainReport.firmware, f.2.1 < s.boot.minVersion) ∧
      s.phaseEnd plainReport = .failed 2) ∧
    (boot 2 0).phaseEnd (report true 0 14) = .goesOn ∧ (boot 8 0).phaseEnd { plainReport with lbtab := [7, 5] ++ plainReport.lbtab.drop 2 } = .goesOn ∧
    (boot 3 0).phaseEnd { plainReport with trained := false } = .failed 4 ∧ (boot 5 0).phaseEnd { plainReport with goodClusters := [0] } = .failed 6 ∧
    phaseLimit 5 < (boot 5 (phaseLimit 5 + 1)).boot.timer ∧ (stopAll State.reset).frozen = true := by decide +kernel
theorem test_meets_FreezeAndServices : ready.frozen = false ∧ (stopAll ready).frozen = true ∧
    ({ ready with boot := { ready.boot with freezing := true } } : State).boot.freezing = true ∧ ready.boot.stopped[(3 : Fin 4)] = false ∧ ready.boot.granted = false ∧
    ready.boot.ready = true ∧ State.reset.boot.ready = false ∧ State.reset.boot.fail = false ∧ (1 : BitVec 32).getLsbD 0 = true ∧ (2 : BitVec 32).getLsbD 0 = false ∧
    ready.boot.attBusy = false ∧ ({ ready with boot := { ready.boot with attBusy := true } } : State).boot.attBusy = true := by decide +kernel
/-- A link of a die in a given state, a fibre in a given one, and a route to package 3 over fibre 0. -/
def lnk : LinkId := ⟨0, 0⟩
def linked (x : LinkSt) : State := { ready with link := { ready.link with links := [(lnk, x)] } }
def fibred (x : Fibre) : State := { ready with link := { ready.link with fibres := [x] }, mgmt := [(offRoute 0 3, 2 ^ 31 + 1)] }
/-- A fibre whose oldest flit, number 7, has been replayed 16 times. -/
def worn : Fibre := ⟨0, true, 16, 8, [⟨7, ⟨0, 1, 3, 0, 1⟩, 16, 0⟩]⟩
def hop : Msg := ⟨.req, .die 0, .die 5, .die 0, 0, 0, 0, .watermark (.die 0) 1⟩
theorem test_meets_LinksAndFibres : linkInPanel lnk = true ∧ ready.linkSt lnk = .up 0 ∧ (linked (.up 8)).linkSt lnk = .up 8 ∧
    (linked .retraining).linkSt lnk = .retraining ∧ (linked .retraining).mem.failedDies.contains lnk.die = false ∧
    (net1 ready hop).mem.net[0]? = some hop ∧ hop.at' ≠ hop.dst ∧ (linkBetween hop.at' (siteAt (nextHop (siteXY hop.at') (siteXY hop.dst)))).isSome = true ∧
    (net1 ready hop).siteRuns hop.at' = true ∧ (net1 ready hop).siteRuns (siteAt (nextHop (siteXY hop.at') (siteXY hop.dst))) = true ∧
    (fibred worn).fibre? 0 = some worn ∧ (∃ y ∈ worn.flits.take 512, y.seq = 7) ∧ (∃ y ∈ worn.flits, 16 ≤ y.replays) ∧ 3 ≤ worn.waves ∧
    (fibred ⟨0, false, 3, 0, []⟩).fibre? 0 = some ⟨0, false, 3, 0, []⟩ ∧ (fibred ⟨0, true, 16, 0, []⟩).fibreUp 0 = true ∧
    (let s : State := { fibred ⟨0, true, 16, 0, []⟩ with link := { (fibred ⟨0, true, 16, 0, []⟩).link with buckets := [(3, 1)] } };
      (s.link.buckets.find? fun e => e.1 == 3) = some (3, 1) ∧ (s.fibresTo (3 % 1024)).contains 0 = true ∧ s.bucketHeld 3 1 = false) ∧
    (3 : Nat) ≠ ready.pkgNum ∧ ready.siteRuns (.tower (portTower 15)) = true := by decide +kernel
/-- A packet that finds a fibre, and one that finds none. -/
theorem test_meets_OpticalTransit : (fibred ⟨0, true, 16, 0, []⟩).fibreFor ⟨0, 1, 3, 0, 3⟩ = some 0 ∧ ready.fibreFor ⟨0, 1, 3, 0, 3⟩ = none := by
  constructor
  · have h : (fibred ⟨0, true, 16, 0, []⟩).fibresTo 3 = [0] := by decide +kernel
    have b : (fibred ⟨0, true, 16, 0, []⟩).link.buckets = [] := rfl
    simp [State.fibreFor, h, b, Nat.mod_one]
  · have h : ready.fibresTo 3 = [] := by decide +kernel
    simp [State.fibreFor, h]
theorem test_meets_FailuresAndResets : ready.mem.failedDies.contains 71 = false ∧ ready.mem.failedTowers.contains 71 = false ∧
    (let s := ready.mapMem fun x => { x with rebuilds := [71], scans := [(71, 3)] }; s.mem.rebuilds.contains 71 = true ∧ s.sheetRuns (towerSheet 71) = true ∧
      s.mem.scans.contains (71, 3) = true ∧ s.siteRuns (.tower 71) = true) := by decide +kernel
/-- ResponsesAndTimeouts: answers to a request that is outstanding and to one that is not, a watermark, a counter asked for; a request whose
limit has passed, and a tag whose retirement ends. -/
def outReq : OutReq := ⟨.die 0, 1, .tower 0, 0, some 0, 0, .tnow tg.id 0⟩
def rspMsg (b : Body) : Msg := ⟨.rsp, .tower 0, .die 0, .die 0, 1, 0, 0, b⟩
def asked (b : Body) : State := net1 (s1.mapMem fun x => { x with reqs := [outReq] }) (rspMsg b)
theorem test_meets_ResponsesAndTimeouts : ((asked (.homeRsp tg.id [5] [])).takeMsg 0).isSome = true ∧ ((asked (.windowRsp tg.id [5])).takeMsg 0).isSome = true ∧
    ((s1.mapMem fun x => { x with reqs := [outReq] }).accept (rspMsg (.homeRsp tg.id [5] []))).1 = true ∧ (s1.accept (rspMsg (.homeRsp tg.id [5] []))).1 = false ∧
    ((net1 s2 (msg (.tower 0) (.millRsp ⟨0, 0⟩ 5 0 true))).takeMsg 0).isSome = true ∧ (s2.accept (msg (.tower 0) (.millRsp ⟨0, 0⟩ 5 0 true))).1 = true ∧
    ((net1 s1 (msg (.die 0) (.watermark (.die 3) 1))).takeMsg 0).isSome = true ∧ ((net1 s1 (msg (.die 1) (.tnow tg.id 0))).takeMsg 0).isSome = true ∧
    (let s := s1.mapMem fun x => { x with reqs := [outReq] }; (s.mem.reqs.find? fun q => q.site == .die 0 && q.tag == 1) = some outReq ∧ s.siteRuns (.die 0) = true ∧
      outReq.sentAt = some 0 ∧ outReq.limit ≤ s.now (.die 0) - 0) ∧
    (let s := s1.mapMem fun x => { x with retired := [⟨.die 0, 1, 0, 0⟩] }; (s.mem.retired.find? fun q => q.site == .die 0 && q.tag == 1) = some ⟨.die 0, 1, 0, 0⟩ ∧
      2 * 0 ≤ s.now (.die 0) - 0) := by decide +kernel
/-- R20, R59: a part reset forgets the registers and keeps DRAM. -/
theorem test_part_reset : (match exec .partReset { ready with mgmt := [(0, 1)], mem := { ready.mem with dram := [(5, 1)] } } with
    | .next s => some (s.mgmt, s.mem.dram, s.boot.phase) | _ => none) = some ([], [(5, 1)], 1) := by decide +kernel
/-- R40: a packet on its fifth hop is dropped. -/
theorem test_fifth_hop : (match exec (.opticalTransit 0 ⟨0, 1, 3, 0, 4⟩) ready with | .next s => some (s.out, s.log.length) | _ => none) = some ([], 1) := by decide +kernel

/-! ### Registers, the pool and the ports -/

/-- A composition entry for a region of package 3, and a lent region. -/
def composed : State := { fibred ⟨0, true, 16, 0, []⟩ with mgmt := [(0x00700000, 2 ^ 63 + 3 * 2 ^ 32), (offRoute 0 3, 2 ^ 31 + 1)] }
theorem test_meets_OutsideReachesIn : siteInPanel (.die 71) = true ∧ ({ ready with boot := { ready.boot with pkgLocked := true } } : State).boot.pkgLocked = true ∧
    ready.boot.pkgLocked = false ∧ (withRegs ready (tethRegs 1)).tethArrived 5 ≠ 0 ∧ ready.tethArrived 63 = 0 ∧ ready.regKind 0x00B00000 = .ignores ∧
    (∃ m, ready.regKind 0x00400000 = .stores m) ∧ (blockIndex 0x00400000 0x00200000 0x40 256).isNone = true ∧
    (((tethRegs 1).map fun e => e.1).Pairwise (· < ·)) ∧ (withRegs ready (tethRegs 1)).reg 0x00600054 < 2 ^ 64 ∧
    bit ((withRegs ready [(offLRSTAT 1023, 2 ^ 63)]).reg (offLRSTAT 1023)) 63 = true ∧
    (match ready.loanAccess 0 0 (.pkg 3) (.read 4) with | .refused _ => true | _ => false) = true ∧
    (let s := withRegs ready [(offLoan 0, 2 ^ 63), (offLGrant 0 0, 2 ^ 63 + 3 * 2 ^ 40)];
      (match s.loanAccess 0 0 (.pkg 3) (.read 4) with | .ok _ _ => true | _ => false) = true ∧
      (match s.loanAccess 0 0 (.host 3 0) (.read 4) with | .refused _ => true | _ => false) = true) ∧
    wideAt 0x00300000 = true ∧ wideAt 0x00400010 = false ∧
    State.reset.frozen = false ∧ State.reset.boot.ready = false ∧ ready.boot.cxl.getD 3 false = true ∧
    (let e := composed.reg (offComp 0); bit e 63 = true ∧ bits e 41 32 ≠ composed.pkgNum ∧
      (match composed.farAccess 0 (bits e 41 32) (bits e 21 12) (bits e 5 0 * 2 ^ 26 + 0) (.read 4) with | .ok _ s => s.mem == composed.mem | .refused _ => true | _ => false) = true) := by
  refine ⟨by decide, rfl, rfl, by decide, by decide, by decide +kernel, ⟨_, rfl⟩, by decide +kernel, by decide, by decide +kernel, by decide +kernel, by decide +kernel,
    by decide +kernel, by decide, rfl, rfl, by decide +kernel⟩
/-- LoanTable: a valid region that keeps its fields, that changes them, that may be given up and that may not; a new one that fits, one beyond
the DRAM and one that overlaps; a withdrawal under way. -/
theorem test_meets_LoanTable : let v : Nat := 2 ^ 63
    let s := withRegs ready [(offLoan 0, v)]
    let g := withRegs ready [(offLoan 0, v), (offLGrant 0 0, v)]
    bit (s.reg (offLoan 0)) 63 = true ∧ (v + 1) % v ≠ s.reg (offLoan 0) % v ∧ (v &&& maskLRBASE) % v = s.reg (offLoan 0) % v ∧
    (∃ k < 16, bit (g.reg (offLGrant 0 k)) 63 = true) ∧ (∀ k < 16, bit (s.reg (offLGrant 0 k)) 63 = false) ∧ bit (ready.reg (offLoan 1)) 63 = false ∧
    dramTop < 1023 * 2 ^ 26 + 2 ^ 26 ∧ bits (v + 1023 * 2 ^ 26) 35 26 = 1023 ∧ s.loanOverlap 1 v = true ∧ (ready.loanOverlap 1 v = false ∧ bits v 54 48 < 72 ∧
      2 ^ 26 ≤ dramTop) ∧ bit ((withRegs ready [(offLRSTAT 3, v)]).reg (offLRSTAT 3)) 63 = true ∧ ready.mem.lines = [] := by decide +kernel
/-- The aperture's slot 0 at VA 0, ASID 0. -/
theorem test_meets_Aperture : let s := withRegs (homed ready) [(offSlot 0 + 8, 2 ^ 31)]
    s.aperture 0 = some (0, 0) ∧ (match s.ownRead s.arbHome 0 0 4 with | .ok _ _ => true | _ => false) = true := by decide +kernel

/-! ### Queues and the scheduler: states that meet the hypotheses, and single steps -/

/-- A ready machine whose queue 3 is on, in host memory, with one record outstanding, and whose registers are those and some others. -/
def qcfg : Nat := 2 ^ 31 + 2 ^ 24 + 4 * 2 ^ 16
def queued (l : List (Nat × Nat)) : State := withRegs ready ([(0x002000C8, qcfg), (0x002000D4, 1)] ++ l)
/-- A marker record of queue 3, and the machine that admits it. -/
def rec0 (paused : Bool) : Admission := ⟨3, 0, 2 :: List.replicate 255 0, 0, 0, 1, 0, paused⟩
def admitting (paused : Bool) : State := { ready with sched := { SchedState.reset with admitting := [rec0 paused] } }
theorem test_meets_QueueRegisters : (0x80040000 : BitVec 32).getLsbD 31 = true ∧ bit (ready.reg 0x002000C8) 31 = false ∧ (∀ a ∈ ready.sched.admitting, a.q ≠ 3) ∧
    (2 < 0x83040000 / 2 ^ 24 % 8 ∧ 0x82040000 / 2 ^ 24 % 8 ≤ 2 ∧ (4 : Nat) ≤ 0x80040000 / 2 ^ 16 % 32 ∧ 0x80100000 / 2 ^ 16 % 32 ≤ 16 ∧ 0x80110000 / 2 ^ 16 % 32 > 16) ∧
    (∃ a ∈ (admitting false).sched.admitting, a.q = 3) ∧ (0 : BitVec 32).getLsbD 31 = false ∧ bit ((queued []).reg 0x002000C8) 31 = true ∧
    (((queued []).mgmt.map fun e => e.1).Pairwise (· < ·)) ∧ (queued []).arbRuns = true ∧ (queued []).boot.ready = true ∧ (queued []).mem.net = [] := by
  refine ⟨by decide, by decide +kernel, by decide, by decide, by decide, by decide, by decide +kernel, by decide, by decide +kernel, rfl, rfl⟩
theorem test_meets_RecordsEnter : ((queued []).boot.ready = true ∧ (queued []).arbRuns = true ∧ bit ((queued []).reg 0x002000C8) 31 = true ∧
      bit ((queued []).reg 0x002000E0) 31 = false ∧ (queued []).reg 0x002000D0 ≠ (queued []).reg 0x002000D4 ∧ bits ((queued []).reg 0x002000C8) 26 24 = 1 ∧
      (queued []).reg 0x002000D8 = 0) ∧
    (let s := queued [(0x002000D8, 8)]; s.reg 0x002000D8 ≠ 0) ∧ (let s := withRegs ready [(0x002000D0, 1)]; s.reg 0x002000D0 ≠ 0) ∧
    (∀ b : Bool, (match (rec0 b).check (admitting b) with
      | .ok p t => decide (t.sched.heldEnable = []) && decide (t.activeDeckles + p.deckles.length ≤ 4096)
      | _ => false) = true) ∧
    (∃ e, (({ ready with sched := { SchedState.reset with irqs := [⟨1, 2, 3, none⟩] } } : State).sched.irqs.find? fun x => x.tid == 1) = some e) := by
  refine ⟨by decide +kernel, by decide +kernel, by decide +kernel, by decide +kernel, ⟨_, rfl⟩⟩
/-- R57: a tail write of one record's worth advances the tail, and one behind the tail is counted. -/
theorem test_tail_write : (match exec (.tailWrite (.host 0 8) 3 2) (queued []) with | .next s => some (s.reg 0x002000D4, s.reg 0x002000E0) | _ => none) = some (2, 0) ∧
    (match exec (.tailWrite (.host 0 8) 3 0) (queued []) with | .next s => some (s.reg 0x002000D4, s.reg 0x002000E0) | _ => none) = some (1, 1) := by decide +kernel
/-- R71: an admitted marker gets TASKID 1 and waits for its hazards. -/
theorem test_admit_marker : (match exec (.taskAdmit 3) (admitting false) with | .next s => s.sched.tasks.map (fun k => (k.tid, k.st, k.type)) | _ => []) =
    [(1, .waithaz, .marker)] := by decide +kernel

/-- A core task in a state, with its set in a state, alone in a ready machine. -/
def coreTask (st : TaskSt) (x : SetSt) : Task := { tk with st := st, sets := [⟨0, x, 0, none⟩] }
def alone (k : Task) : State := { ready with sched := { SchedState.reset with tasks := [k] } }
/-- A reader that drains, a writer that is done, and a task that waits for both. -/
def ranges (w : Bool) : List Deckle := [⟨0, 4096, true, w, false⟩]
theorem test_meets_HazardsAreReleased : let e1 : Task := { tk with tid := 7, st := .drain, deckles := ranges false, dies := [], drainDies := [] }
    let k : Task := { tk with tid := 9, st := .waithaz, deckles := ranges true }
    let s : State := { ready with sched := { SchedState.reset with tasks := [e1, k] } }
    s.task? 9 = some k ∧ s.arbRuns = true ∧ (∀ e ∈ s.sched.tasks.takeWhile fun j => j.tid != 9,
      (e.st = .done ∨ (e.st = .drain ∧ e.drainDies = [] ∧ s.taskWrites e.tid = false)) ∨
      ((∀ a ∈ e.deckles, ∀ b ∈ k.deckles, a.w = true → a.overlap b = none) ∧
        (e.st = .drain ∨ ∀ a ∈ e.deckles, ∀ b ∈ k.deckles, b.w = true → a.overlap b = none))) := by
  refine ⟨rfl, rfl, ?_⟩
  intro e he
  exact .inl (.inr (by revert e; decide))
/-- SetsAreScheduled: a set that may be placed, one that may be resumed, and a task that has waited long enough. -/
def saved0 : SavedTeam := ⟨0, 0, 0, 0, 0, .none, [], [], [], [], 0, 0, [], 0, 0, 0⟩
theorem test_meets_SetsArePlaced : let k := coreTask .ready .unplaced
    let s := alone k
    s.task? 0 = some k ∧ k.placeable = true ∧ s.mayGo k = true ∧ k.nextSet = some ⟨0, .unplaced, 0, none⟩ ∧ s.arbRuns = true ∧
      (s.place k 0 [⟨⟨0, 0, 0⟩, 0⟩] 0).isSome = true := by decide +kernel
theorem test_meets_SetsResume : let k := coreTask .stabled .stabled
    let s : State := { alone k with sched := { (alone k).sched with saved := [saved0] } }
    s.task? 0 = some k ∧ k.placeable = true ∧ s.mayGo k = true ∧ k.nextSet = some ⟨0, .stabled, 0, none⟩ ∧
      ([(⟨⟨0, 0, 0⟩, 0⟩ : TeamSpot)].map fun p => p.spbase) = ((s.savedOf 0 0).map fun y => y.spbase) ∧
      (s.resumeAt k 0 [⟨⟨0, 0, 0⟩, 0⟩]).isSome = true := by decide +kernel
theorem test_meets_LongWaitsReserveCores : let k := { coreTask .ready .unplaced with waited := 12000000 }
    let s := alone k
    k.placeable = true ∧ (k.sets.find? fun y => y.st.off && s.unreserved y) = some ⟨0, .unplaced, 0, none⟩ ∧ (11 - k.prio) * 1000000 < s.waitedNow k ∧
      (k.hint 0).strict = false ∧ [(0, 0)] ∈ (s.units k.launch.coloc).take 1 ∧ (s.reserveIn k 0 [(0, 0)]).isSome = true := by decide +kernel
/-- TeamsAndMillsStart: a set whose die is still to be invalidated, one that may start, and mills that may be assigned, that load, that are
saved, and that come back. -/
theorem test_meets_EdgesAndTeams : let k := coreTask .placed (.placed [0] false)
    let r := coreTask .placed (.placed [] false)
    let t : Team := Team.reserved 0 0 0 ⟨⟨0, 0, 0⟩, 0⟩ (0, 0, 0) .none
    let s : State := { alone r with teams := [t] }
    (alone k).task? 0 = some k ∧ (alone k).siteRuns (.die 0) = true ∧ (alone k).fillsInto k 0 = false ∧
    s.task? 0 = some r ∧ (r.sets.find? fun y => y.k == 0) = some ⟨0, .placed [] false, 0, none⟩ ∧ r.faulted = false ∧ r.couchOf = none ∧ s.taskWrites 0 = false ∧ s.couching 0 = false ∧ r.sysEdge = false ∧
    ((s.teams.filter fun t => t.tid == 0 && t.set == 0).any fun t => s.invToward t.core 4) = false ∧
    ((s.teams.filter fun t => t.tid == 0 && t.set == 0).all fun t => s.siteRuns (.die t.core.die) && s.roomFor (s.teams.filter fun t => t.tid == 0 && t.set == 0) t.core) = true := by decide +kernel
def millTask : Task := { mk with st := .ready, millsLeft := [] }
def savedMill : SavedMill := ⟨0, 0, 0, .none, 0, 0, []⟩
theorem test_meets_Mills : let s := alone millTask
    let m := Mill.loading ⟨0, 0⟩ 0 0
    let v : Mill := { m with st := .save 0 }
    let b : State := { alone mk with sched := { (alone mk).sched with savedMills := [savedMill] } }
    (s.siteRuns (.tower 0) = true ∧ millTask.millReady = true ∧ bit millTask.launch.towmask 0 = true ∧ millTask.assigned 0 < millTask.launch.nmill ∧
      s.millIdle ⟨0, 0⟩ = true ∧ s.millRoom millTask 0 = true ∧ s.millMayGo millTask 0 = true ∧ s.mem.failedTowers.contains 0 = false) ∧
    ((mill m mk).mill? ⟨0, 0⟩ = some m ∧ m.st = .load) ∧
    ((mill v mk).mill? ⟨0, 0⟩ = some v ∧ v.rowBusy = [] ∧ v.stall.sent = false ∧
      (match (mill v mk).blockWrite ((mill v mk).towerHomeOf 0) 0 v.block 0 [] with | .ok _ _ => true | _ => false) = true) ∧
    (mk.millReady = true ∧ b.millIdle ⟨0, 0⟩ = true ∧ b.millMayGo mk 0 = true ∧
      (b.sched.savedMills.find? fun y => y.tid == 0 && y.tower == 0 && y.m == 0) = some savedMill ∧
      (match b.blockRead (b.towerHomeOf 0) 0 savedMill.block 0 131072 with | .ok x _ => !bit (fld x 0x0A 2) 0 | _ => false) = true) := by decide +kernel
/-- PreemptionRuns: a victim whose set runs, one whose set is placed, and a set at each step of the sequence. -/
def full (x : SetSt) (st : TaskSt) : State :=
  let v := { coreTask st x with stable := 65536 }
  let k := { coreTask .ready .unplaced with tid := 5, prio := 2, launch := { plainLaunch with placemap := 1 }, pmap := [0x01000000] }
  { ready with sched := { SchedState.reset with tasks := [v, k] }, boot := { ready.boot with time := Vector.replicate 4 100000 }
               teams := [tt], cores := (List.range 15).map fun i => { Core.blank ⟨0, 0, i + 1⟩ with fenced := true } }
theorem test_meets_PreemptionRuns : (∀ st ∈ [(SetSt.running, TaskSt.running), (.placed [] false, .placed)], let s := full st.1 st.2
      (match s.task? 5, s.victims 2 with
        | some k, (v, x) :: _ => decide (k.st = .ready) && k.placeable && decide (v.tid = 0) && decide (x.k = 0) && decide (x.st = st.1) &&
          !(s.without s.leaving).canPlace k && (s.without (s.leaving ++ [(0, 0)])).canPlace k && (s.stableSpace v 0).isSome && s.spaceFor [(v, x)]
        | _, _ => false) = true) := by decide +kernel
theorem test_meets_PreemptSequence : ∀ n ∈ [1, 2, 5, 6], let v := coreTask .preempt (.preempt n)
    let s : State := { alone v with groups := [tg], teams := [tt] }
    s.task? 0 = some v ∧ (v.sets.find? fun y => y.k == 0) = some ⟨0, .preempt n, 0, none⟩ ∧ v.faulted = false ∧ s.arbRuns = true ∧
    ((s.teams.filter fun t => t.tid == 0 && t.set == 0).all fun t => s.siteRuns (.die t.core.die)) = true ∧ s.cores = [] ∧ s.mem.net = [] ∧
    (∀ g ∈ s.setGroups 0 0, g.midWord = false ∧ g.stat ≠ .exiting ∧ g.wait = none) := by decide +kernel
/-- TasksEnd: a task that has finished, one that drains, one that has faulted, and one that is done, with and without a list. -/
def doneTask : Task := { coreTask .done .exited with succN := 0, completed := true, dies := [] }
theorem test_meets_TasksDrain : let k := coreTask .running .exited
    let d : Task := { coreTask .drain .exited with drainDies := [0] }
    let f : Task := { coreTask .running .exited with faulted := true }
    ((alone k).task? 0 = some k ∧ k.faulted = false ∧ (alone k).finished k = true ∧ k.succN = 0 ∧ k.couchTo = [] ∧ k.type ≠ .mill) ∧
    ((alone d).task? 0 = some d ∧ (alone d).siteRuns (.die 0) = true ∧ (alone d).wLines 0 0 = [] ∧
      ((alone d).nibblesOut 0 fun a => a.asid == 0) = false ∧ d.sysDone = false ∧ d.deckles = []) ∧
    ((alone { f with sets := [⟨0, .running, 0, none⟩] }).ended { f with sets := [⟨0, .running, 0, none⟩] } = false ∧ (alone f).frozen = false ∧ (alone f).millBusy 0 = false ∧ (alone f).hostsRun 0 = true ∧
      (alone f).groups = [] ∧ (alone f).cores = []) := by decide +kernel
theorem test_meets_TasksComplete : let k : Task := { coreTask .drain .exited with drainDies := [], dies := [] }
    let j : Task := { coreTask .waitdep .unplaced with tid := 4, q := 3, index := 2, depcnt := 2 }
    let s : State := { (homed (alone doneTask)) with sched := { SchedState.reset with tasks := [doneTask, j], known := [⟨3, 2, some 4⟩] } }
    ((homed (alone k)).mayEnd k = true ∧ k.cwaddr % 8 = 0 ∧ k.irq = false ∧ k.loc ≠ 2 ∧ (0 : Nat) ≠ 0xFFFFFFFF ∧
      (match (homed (alone k)).ownWrite (homed (alone k)).arbHome 0 0 (leBytes 8 1) with | .ok _ _ => true | _ => false) = true) ∧
    (doneTask.st = .done ∧ doneTask.completed = true ∧ (alone doneTask).sched.pending.length ≤ 16384) ∧
    (doneTask.couchTo = [] ∧ (s.sched.known.find? fun x => x.q == bits (3 * 2 ^ 32 + 2) 39 32 && x.index == bits (3 * 2 ^ 32 + 2) 31 0) =
        some ⟨bits (3 * 2 ^ 32 + 2) 39 32, bits (3 * 2 ^ 32 + 2) 31 0, some j.tid⟩ ∧ s.task? j.tid = some j ∧ j.st = .waitdep ∧ 1 < j.depcnt) ∧
    ready.poolTakes = [] ∧ ({ ready with teams := [{ tt with block := .pool 0 0 65536 }] } : State).poolTakes ≠ [] := by decide +kernel
/-- A successor list of one entry that can be read. -/
theorem test_meets_SuccessorList : let s := (homed ready).mapMem fun x => { x with dram := [(0, 2), (4, 3)] }
    (match s.readList 0 0 1 with | .ok es _ => es == [3 * 2 ^ 32 + 2] | _ => false) = true := by decide +kernel
/-- R72, R76: a marker that nothing blocks is done. -/
theorem test_hazard_marker : (match exec (.hazardRelease 0) (alone { tk with st := .waithaz, type := .marker }) with
    | .next s => s.sched.tasks.map (fun k => k.st) | _ => []) = [.done] := by decide +kernel
/-- R66: the completion word of a task that ended well, at its address. -/
theorem test_completion_word : (match exec (.taskDone 0) (homed (alone { coreTask .drain .exited with drainDies := [], dies := [] })) with
    | .next s => s.mem.dram ++ s.mem.tcache.map (fun l => (l.tower, BitVec.ofNat 8 (lineNat l.val 0 1))) | _ => []) = [(0, 1)] := by decide +kernel

/-! ### Lines, homes and posts: states that meet the hypotheses, and single steps -/

/-- A line of a level in a state, with the children it records. -/
def lineAt (n : Node) (st : LState) (kids : List Kid) : Line := { l0 0 with node := n, st := st, kids := kids }
def a0 : LineId := ⟨0, 0⟩
def req0 (acc : Acc) : Req := ⟨.l1 ⟨0, 0, 0⟩, acc, true, 0, some tg.id⟩
def withLines (ls : List Line) (m : Msg) : State := net1 (ready.mapMem fun x => { x with lines := ls }) m
/-- LevelsAnswerRequests: a line that is coherent, one that is deckled, and one that the access may not read. -/
theorem test_meets_LevelsAnswerRequests : let k : Node := .hub 0 0
    let e : Line := lineAt (.l2 0) .e [⟨k, a0, .s⟩]
    let d : Line := { e with attr := { e.attr with dk := true } }
    let p : Line := { e with attr := { e.attr with p := true } }
    (∀ b ∈ [Body.getS a0 k (req0 .read), .getX a0 k (req0 .write), .upgr a0 k (req0 .write)], ∀ l ∈ [e, d, p], let m := msg (.die 0) b
      (match (withLines [l] m).takeMsg 0 with
        | some (n, t) => decide (n = m) && decide (t.mem.line? (.l2 0) a0 = some l) && !t.lineBusy (.l2 0) k a0 none && !t.lineBusy (.l2 0) k a0 (some l.attr.place) &&
          !t.dieFailed (nodeSite k) && !t.dieFailed m.src
        | none => false) = true ∧ parentNode k a0 m.dst = .l2 0 ∧ (∀ q ∈ l.kids, q.node = k ∧ q.a = a0)) ∧
      e.st ≠ .o ∧ e.kids ≠ [] ∧ e.attr.refuses .read true = none ∧ e.attr.refuses .write true = none ∧ p.attr.refuses .read false ≠ none := by
  decide +kernel
/-- LinesMove: a copy in each state that meets a message; an answer and an acknowledgement that are awaited; lines that may leave. -/
theorem test_meets_HoldersAnswerForwards : let c : CoreId := ⟨0, 0, 0⟩
    let m := msg (.die 0) (.recall a0 (.l1 c) (.hub 0 0))
    ∀ st ∈ [LState.m, .o, .s, .e, .w], let e := lineAt (.l1 c) st []
      e.kids = [] ∧ (match (withLines [e] m).takeMsg 0 with
        | some (n, t) => decide (n = m) && decide (t.mem.line? (.l1 c) a0 = some e) && t.mem.txnsAt (.l1 c) a0 == [] && !t.mem.filling (.l1 c) a0 && !t.pins (.l1 c) a0 && decide (e.dirty = 0)
        | none => false) = true := by decide +kernel
theorem test_meets_AnswersLand : let c : CoreId := ⟨0, 0, 0⟩
    let m := msg (.die 0) (.data a0 (.l2 0) (.l1 c) (req0 .read) 0 (l0 0).attr)
    let w := msg (.die 0) (.invAck a0 (.l1 c) (.hub 0 0) 0 0)
    let x : Txn := ⟨.hub 0 0, a0, [(.l1 c, a0), (.l1 ⟨0, 0, 1⟩, a0)], false, false, 0, 0, 0, 0, none, w⟩
    let s := (net1 ready w).mapMem fun y => { y with txns := [x] }
    (∃ t, (net1 ready m).takeMsg 0 = some (m, t) ∧ (t.accept m).1 = true ∧ t.mem.txns = [] ∧ t.mem.line? (.l1 c) a0 = none) ∧ (req0 .read).acc ≠ .fetch ∧ (req0 .read).acc ≠ .pref ∧ (req0 .read).acc ≠ .writeback ∧
    (∃ t, s.takeMsg 0 = some (w, t) ∧ (t.accept w).1 = true ∧ (t.mem.txns.find? fun y => y.node == .hub 0 0 && y.waitFor.contains (.l1 c, a0)) = some x) ∧
    (x.waitFor.filter fun w => w != (.l1 c, a0)) ≠ [] := by
  refine ⟨⟨_, rfl, ?_, ?_, ?_⟩, ?_, ?_, ?_, ⟨_, rfl, ?_, ?_⟩, ?_⟩ <;> decide +kernel
theorem test_meets_LinesLeave : let c : CoreId := ⟨0, 0, 0⟩
    let m := msg (.tower 0) (.wbDirty a0 (.l2 0) 0 0 false .none)
    let r : Req := { req0 .read with va := 2 ^ 26, node := .slice 0 }
    let w := msg (.tower 0) (.getS ⟨0, 2 ^ 18⟩ (.slice 0) r)
    let tc : State := ready.mapMem fun x => { x with tcache := [⟨3, 5, 0, 0⟩] }
    ((∃ t, (homed (net1 ready m)).takeMsg 0 = some (m, t) ∧ t.homeStalls 0 0 0 = false ∧
        (match t.translateNow 0 0 0 .writeback true with | (.ok v, u) => decide (u = t) && !u.bankHeld v.home v.pa | _ => false) = true ∧ t.mem.lines = [])) ∧
    (withLines [lineAt (.l1 c) .w []] hop).canRegister (.l1 c) a0 = true ∧ (withLines [lineAt (.l1 c) .w []] hop).siteRuns (.die 0) = true ∧
    (let s := ready.mapMem fun x => { x with lines := [lineAt (.l1 c) .s []] }; s.mem.line? (.l1 c) a0 = some (lineAt (.l1 c) .s []) ∧ s.canEvict (.l1 c) a0 = true ∧
      (lineAt (.l1 c) .s []).dirty = 0 ∧ (s.evictLine (.l1 c) 0 0).isSome = true) ∧
    (let l := { lineAt (.l1 c) .m [] with dirty := 1 }; let e := lineAt (.l2 0) .m [⟨.hub 0 0, a0, .m⟩]
     let s := ready.mapMem fun x => { x with lines := [l, e] }; s.mem.line? (.l1 c) a0 = some l ∧ s.canEvict (.l1 c) a0 = true ∧ l.dirty ≠ 0 ∧
      s.mem.line? (.l2 0) a0 = some e ∧ e.attr.dk = false ∧ l.attr.dk = false ∧ s.unshared c l = false) ∧
    (let l := { lineAt (.l1 c) .w [] with dirty := 1 }; let e := lineAt (.l2 0) .m [⟨.hub 0 1, a0, .m⟩]
     let s := ready.mapMem fun x => { x with lines := [l, e] }; s.canEvict (.l1 c) a0 = true ∧ s.unshared c l = true) ∧
    ((tc.mem.tcSet 3 5).getLast? = some ⟨3, 5, 0, 0⟩ ∧ tc.bankHeld 3 (5 * 256) = false ∧ tc.siteRuns (.tower 3) = true) ∧
    (let s := homed (net1 ready w); s.mem.net[0]? = some w ∧ s.homeStalls 0 0 (2 ^ 26) = false ∧ s.translate 0 0 (2 ^ 26) .read true = .walk ∧
      (s.walkFor 0 0 (2 ^ 26) .read true).1 = some 0x08) := by
  exact ⟨⟨_, rfl, by decide +kernel, by decide +kernel, by decide +kernel⟩, by decide +kernel, by decide +kernel, by decide +kernel, by decide +kernel, by decide +kernel,
    by decide +kernel, by decide +kernel⟩
/-- HomesPerform: a load whose line is here, an atomic and a reduction at their home, a window's access, an ldt, and an mpark that waits. -/
theorem test_meets_HomesPerform : let w : LoadWord := ⟨.glob, 4, false, .v 3, .s 1, .zero, ⟨0, 0, false⟩, false⟩
    let g : Group := { g1 with stall := { MemStall.none with load := some w } }
    let u : Issuer := ⟨g, tt, tk⟩
    let o : LaneOp := ⟨0, 0, 4, 0xFF, some (some .addB32), 1, 0⟩
    let m := msg (.tower 0) (.homeAtomic tg.id 0 true [o])
    let a := msg (.tower 0) (.millAcc ⟨0, 0⟩ 0 true 8 none)
    let n := msg (.die 0) (.window tg.id [{ o with op := some none }])
    let p : Mill := { tm with wait := some (.mpark 0 0 0 1 0) }
    let s := (homed (cached g 0)).mapMem fun x => x
    (s.issuerOf g.id = some u ∧ u.g.stall.asked = [] ∧ u.g.stall.sent = false ∧ u.gate s (u.addrs false w.base w.off) 4 .read false = none) ∧
    (∃ t, (homed (net1 s1 m)).takeMsg 0 = some (m, t) ∧ t.coreOf tg.id = some tt.core ∧ t.mem.dieHome 0 0 0 = some 0 ∧ t.homeStalls 0 0 0 = false ∧
      (∀ acc ∈ [Acc.atomic, .red], (match t.homeLanes 0 0 true (t.task? 0) acc [o] with
        | ([(q, v)], [], t') => decide (q = o) && !t'.bankHeld v.home v.pa && !t'.copyHolds v.place && t'.homeQuiet v.place && !t'.homeOwned v.place
        | _ => false) = true)) ∧
    (∃ t, (net1 s1 n).takeMsg 0 = some (n, t) ∧ t.team? tg.id.tid tg.id.team = some tt) ∧
    (∃ t, (homed (net1 s2 a)).takeMsg 0 = some (a, t) ∧ t.homeStalls 0 0 8 = false ∧
      (∀ w ∈ [false, true], t.ownLock ⟨0, 0⟩ 0 0 8 true w = false ∧ (match t.meet 0 0 8 8 (if w then .write else .read) true ((t.mill? ⟨0, 0⟩).bind fun x => t.task? x.tid) with
        | (.ok v, t') => !t'.rowNames ⟨0, 0⟩ 0 v.place && !t'.bankHeld v.home v.pa && !t'.copyHolds v.place && t'.homeQuiet v.place && !t'.homeOwned v.place
        | _ => false) = true)) ∧
    ((mill p mk).millIssuerOf ⟨0, 0⟩ = some ⟨p, mk⟩ ∧ p.wait = some (.mpark 0 0 0 1 0)) := by
  exact ⟨⟨rfl, rfl, rfl, by decide +kernel⟩, ⟨_, rfl, rfl, by decide +kernel, by decide +kernel, by decide +kernel⟩, ⟨_, rfl, rfl⟩,
    ⟨_, rfl, by decide +kernel, by decide +kernel⟩, rfl, rfl⟩
/-- PostsAndPromotions: requests that are ignored and refused, a promotion that may end, records that may be posted and one that is dropped. -/
def prom0 : Promotion := ⟨0, 0, 0, 64, 0, 0, List.replicate 32 0⟩
theorem test_meets_PostsAndPromotions : let tgt : State := withRegs ready [(0x00410008, 2 ^ 63)]
    let f : FaultRec := ⟨1, 0, 0, 0, 8, 0, 1, 0, 0⟩
    let l : LogRec := ⟨6, 0, 0, 0, 0, 0, 0, 0⟩
    let p := ready.mapMem fun x => { x with promos := [prom0] }
    bit (ready.reg 0x00410008) 63 = false ∧ bit (tgt.reg 0x00410000) 31 = false ∧ bit (tgt.reg 0x00410008) 63 = true ∧ tgt.promEntries 0 0 0 = none ∧
    ((p.mem.promos.find? fun q => q.tower == 0) = some prom0 ∧ p.promQuiet prom0 = true ∧ p.promBanks prom0 = true) ∧
    f.npage = 1 ∧ (withRegs ready [(0x00400010, 2 ^ 31 + 4 * 2 ^ 16)]).faultRoom ≠ 0 ∧ ready.siteRuns f.agent = true ∧
    ready.mem.borrowed = [] ∧ ready.mem.failedTowers.contains 0 = false ∧ ready.sheetRuns l.sheet = true ∧ bit (ready.reg 0x00800008) 30 = false ∧ ready.logRoom = false ∧
    (withRegs ready [(0x00800008, 2 ^ 31 + 6 * 2 ^ 16)]).logRoom = true := by decide +kernel
/-- A page table of one run of 32 pages: the request for its range is accepted. -/
theorem test_meets_PromotionAccepted : let tab (tier : Nat) (at' n : Nat) (e : Nat) : Mem := (List.range 8).filterMap fun i =>
      if e / 2 ^ (8 * i) % 256 = 0 then none else some (tier * 2 ^ 36 + at' + 8 * n + i, BitVec.ofNat 8 (e / 2 ^ (8 * i)))
    let s := (homed ready).mapMem fun x => { x with
      tlb := []
      dram := tab 0 0 0 (1 + 1 * 2 ^ 16) ++ tab 0 65536 0 (1 + 2 * 2 ^ 16) ++ tab 0 (2 * 65536) 0 (1 + 3 * 2 ^ 16) ++ tab 0 (3 * 65536) 0 (1 + 4 * 2 ^ 16) ++
        (List.range 32).flatMap fun i => tab 0 (4 * 65536) i (0x41F + (64 + i) * 2 ^ 16) }
    (s.promEntries 0 0 0).isSome = true := by decide +kernel
/-- R198: a corrected error in a line that leaves is logged as transient (KIND 0x01), and the line leaves. -/
theorem test_corrected_eviction : (match exec (.lineEviction (.l1 ⟨0, 0, 0⟩) 0 0 .corrected) (ready.mapMem fun x => { x with lines := [lineAt (.l1 ⟨0, 0, 0⟩) .s []] }) with
    | .next t => t.log.map (fun r => r.kind) == [1] && t.mem.lines == []
    | _ => false) = true := by decide +kernel
/-- R107, R110: a clean copy in S leaves no entry when it is evicted. -/
theorem test_clean_eviction : (match exec (.lineEviction (.l1 ⟨0, 0, 0⟩) 0 0 .clean) (ready.mapMem fun x => { x with lines := [lineAt (.l1 ⟨0, 0, 0⟩) .s []] }) with
    | .next s => s.mem.lines.length | _ => 9) = 0 := by decide +kernel
/-- R203: an error record with no room is counted. -/
theorem test_log_dropped : (match exec .errorRecordPost { ready with log := [⟨6, 0, 0, 0, 0, 0, 0, 0⟩] } with | .next s => some (s.log.length, s.reg 0x00800018) | _ => none) =
    some (0, 1) := by decide +kernel

/-! ### Words, encodings, and steps -/

theorem test_meets_AluWordsKeepTheRest : (Instr.sadd (.s 0) (.s 1) (.lit 5)).ctx = some (.clause .alu) ∧ s1.issuer = some u1 ∧ s1.residue = .clean ∧
    (match exec (.sadd (.s 0) (.s 1) (.lit 5)) s1 with | .next _ => true | _ => false) = true := by refine ⟨rfl, rfl, rfl, by decide +kernel⟩
/-- DecodeReadsEveryEncoding: a word that may stand anywhere, in its own class and in another, and one that must stand last. -/
theorem test_meets_DecodeReadsEveryEncoding : (Instr.vand (.v 5) (.q 0) (.v 3)).wf = true ∧ (Instr.vand (.v 5) (.q 0) (.v 3)).ctx = some (.clause .alu) ∧
    ClauseClass.map .mem ((((Instr.vand (.v 5) (.q 0) (.v 3)).encode).headD 0).toNat / 2 ^ 24) = none ∧
    (Instr.bcc 1 0x3FFF6).wf = true ∧ (Instr.bcc 1 0x3FFF6).ctx = some (.clause .ctl) ∧ isTransferOp ((((Instr.bcc 1 0x3FFF6).encode).headD 0).toNat / 2 ^ 24) = true := by
  decide +kernel
/-- A group whose clause of one scalar word is here, before its header and before its word; and a mill whose word is here. -/
def text : List ILine := [⟨0, 0, BitVec.ofNat 512 (0x11E000A5 + 0x17A29000 * 2 ^ 32), ⟨false, true, false, false, 0, 0, 0⟩⟩]
def atWord (n : Nat) : State := one { tg with widx := n, clause := [0x11E000A5, 0x17A29000] } tt tk
def atFetch : State := { s1 with cores := [{ Core.blank tt.core with icache := text }] }
def atMill : State := mill { tm with fetchBuf := putText [] 0 0 0x00611000 } mk
/-- The state in which a group's word runs. -/
noncomputable def turned (s : State) (a : Agent) : State := { s.readied with focus := some a }
theorem test_meets_StepRunsTheWord :
    (∀ n ∈ [0, 1], (match (atWord n).readied.turn with | some (.group r) => decide (r = tg.id) | _ => false) = true ∧
      (match (turned (atWord n) (.group tg.id)).issuerOf tg.id with
        | some u => u.g.clause == [0x11E000A5, 0x17A29000] && u.g.widx == n
        | none => false) = true) ∧
    ((match atFetch.readied.turn with | some (.group r) => decide (r = tg.id) | _ => false) = true ∧
      (match (turned atFetch (.group tg.id)).issuerOf tg.id with
        | some u => u.g.clause == [] && (turned atFetch (.group tg.id)).clauseMissing u == [] && (turned atFetch (.group tg.id)).textFaults u == []
        | none => false) = true) ∧
    decode .header [0x11E000A5] = .ok (.clauseHeader 1 0 15 false false) [] ∧ decode (.clause .alu) [0x17A29000] = .ok (.smov (.s 0) (.s 1)) [] ∧
    ClauseClass.ofCode (bits 0x11E000A5 27 25) = some .alu ∧
    (match atMill.readied.turn with | some (.mill r) => decide (r = ⟨0, 0⟩) | _ => false) = true ∧
    (match (turned atMill (.mill ⟨0, 0⟩)).millIssuerOf ⟨0, 0⟩ with | some u => u.m.textWord 0 0 == some 0x00611000 && u.m.rowFault.isNone | none => false) = true ∧
    decode .mill [0x00611000] = .ok (.millAdd 3 1 2) [] ∧ Instr.ctx (.refresh 0 0 0) = none ∧ s1.agenda = [] ∧
    heldInFreeze (.refresh 0 0 0) = false ∧ ({ s1 with agenda := [.event (.refresh 0 0 0)] } : State).agenda = .event (.refresh 0 0 0) :: [] := by decide +kernel
/-- Nothing of the machine's own is due in those states. -/
theorem test_meets_nothing_due : (atWord 0).internal = none ∧ atFetch.internal = none ∧ (atWord 1).internal = none ∧ atMill.internal = none := by decide +kernel
/-- StepsKeepCanonicalForm: the reset state meets the invariant, and a step goes on from it. -/
theorem test_meets_StepsKeepCanonicalForm : State.reset.Inv ∧ ∃ t, step State.reset = .next t := by
  exact ⟨⟨rfl, by decide, by decide⟩, _, rfl⟩
end Sys2Proof.Tests
end

/-! PROOFS. The order of the FP32 numbers, and R251's minimum and maximum as the lesser and the greater in it.

A finite FP32 value is a whole multiple of 2^−149 (R242), so it is an integer on that grid; infinity's bits, read like a
number's, give an integer above every finite one. One integer for each word then decides every comparison. -/

namespace Sys2Proof.Machine

/-! ### Magnitudes on the grid, with a sign -/

/-- The value of the magnitude bits `n` in units of 2^−149, infinity's bits read like a number's. -/
def gridMag (n : Nat) : Nat := if n < 2 ^ 23 then n else (2 ^ 23 + n % 2 ^ 23) * 2 ^ (n / 2 ^ 23 - 1)
/-- The number with the sign `neg` and the magnitude `n`; both zeros are 0. -/
def signed : Bool → Nat → Int
  | false, n => n
  | true, n => -(n : Int)
/-- R251's order of signs and magnitudes: −0 is at −1, just below +0. -/
def placed : Bool → Nat → Int
  | false, n => n
  | true, n => -(n : Int) - 1

theorem gridMag_lt_succ (n : Nat) : gridMag n < gridMag (n + 1) := by
  by_cases hsub : n + 1 < 2 ^ 23
  · rw [gridMag, gridMag, if_pos hsub, if_pos (Nat.lt_of_succ_lt hsub)]
    exact Nat.lt_succ_self n
  by_cases hedge : n + 1 = 2 ^ 23
  · obtain rfl : n = 2 ^ 23 - 1 := by omega
    decide
  rw [gridMag, gridMag, if_neg (by omega), if_neg hsub]
  by_cases hcarry : (n + 1) % 2 ^ 23 = 0
  · obtain ⟨k, hk⟩ : ∃ k, n / 2 ^ 23 = k + 1 := ⟨n / 2 ^ 23 - 1, by omega⟩
    have hk' : (n + 1) / 2 ^ 23 - 1 = k + 1 := by omega
    have hfrac : n % 2 ^ 23 = 2 ^ 23 - 1 := by omega
    rw [hk, hk', hfrac, hcarry, Nat.add_sub_cancel, Nat.pow_succ 2 k]
    have := Nat.two_pow_pos k
    omega
  · rw [show (n + 1) / 2 ^ 23 = n / 2 ^ 23 by omega]
    exact Nat.mul_lt_mul_of_pos_right (by omega) (Nat.two_pow_pos _)

theorem gridMag_lt_of_lt {m n : Nat} (h : m < n) : gridMag m < gridMag n := by
  induction h with
  | refl => exact gridMag_lt_succ m
  | step _ ih => exact Nat.lt_trans ih (gridMag_lt_succ _)

theorem gridMag_lt_iff {m n : Nat} : gridMag m < gridMag n ↔ m < n := by
  refine ⟨fun h => ?_, gridMag_lt_of_lt⟩
  rcases Nat.lt_trichotomy m n with hlt | heq | hgt
  · exact hlt
  · exact absurd h (heq ▸ Nat.lt_irrefl _)
  · exact absurd h (Nat.lt_asymm (gridMag_lt_of_lt hgt))

theorem gridMag_zero : gridMag 0 = 0 := rfl

theorem placed_inj {s t : Bool} {m n : Nat} (h : placed s m = placed t n) : s = t ∧ m = n := by
  cases s <;> cases t <;> simp only [placed, true_and, reduceCtorEq, false_and] at h ⊢ <;> omega

/-- What is less by value is placed lower. -/
theorem placed_lt_of_signed_lt {s t : Bool} {m n : Nat} (h : signed s (gridMag m) < signed t (gridMag n)) :
    placed s m < placed t n := by
  have hmn : gridMag m < gridMag n ↔ m < n := gridMag_lt_iff
  have hnm : gridMag n < gridMag m ↔ n < m := gridMag_lt_iff
  have hm : gridMag 0 < gridMag m ↔ 0 < m := gridMag_lt_iff
  rw [gridMag_zero] at hm
  cases s <;> cases t <;> simp only [signed, placed] at h ⊢ <;> omega

/-- What is equal by value is one number, or the two zeros. -/
theorem eq_or_zeros_of_signed_eq {s t : Bool} {m n : Nat} (h : signed s (gridMag m) = signed t (gridMag n)) :
    (s = t ∧ m = n) ∨ (m = 0 ∧ n = 0) := by
  have hmn : gridMag m < gridMag n ↔ m < n := gridMag_lt_iff
  have hnm : gridMag n < gridMag m ↔ n < m := gridMag_lt_iff
  have hm : gridMag 0 < gridMag m ↔ 0 < m := gridMag_lt_iff
  have hn : gridMag 0 < gridMag n ↔ 0 < n := gridMag_lt_iff
  rw [gridMag_zero] at hm hn
  cases s <;> cases t <;> simp only [signed, true_and, reduceCtorEq, false_and, false_or] at h ⊢ <;> omega

/-- Of the two zeros, the one with the sign is placed lower. -/
theorem placed_zero_le_iff : ∀ {s t : Bool}, s ≠ t → (placed s 0 ≤ placed t 0 ↔ s = true) := by decide

/-- Beside a greater magnitude only the sign of the greater one counts. -/
theorem signed_lt_of_lt_left {s t : Bool} {m n : Nat} (h : m < n) : signed s m < signed t n ↔ t = false := by
  cases s <;> cases t <;> simp only [signed, reduceCtorEq, iff_true, iff_false] <;> omega

theorem signed_lt_of_lt_right {s t : Bool} {m n : Nat} (h : n < m) : signed s m < signed t n ↔ s = true := by
  cases s <;> cases t <;> simp only [signed, reduceCtorEq, iff_true, iff_false] <;> omega

theorem signed_lt_of_eq {s t : Bool} {n : Nat} (h : 0 < n) : signed s n < signed t n ↔ (s && !t) = true := by
  cases s <;> cases t <;>
    simp only [signed, Bool.and_true, Bool.and_false, Bool.not_true, Bool.not_false, reduceCtorEq, iff_true, iff_false] <;> omega

theorem signed_mul (s : Bool) (n c : Nat) : signed s (n * c) = signed s n * c := by
  cases s
  · exact Int.natCast_mul n c
  · rw [signed, signed, Int.natCast_mul, Int.neg_mul]

/-- A finer grid keeps the order. -/
theorem signed_mul_lt_iff {s t : Bool} {m n c : Nat} (hc : 0 < c) :
    signed s (m * c) < signed t (n * c) ↔ signed s m < signed t n := by
  rw [signed_mul, signed_mul]
  exact Int.mul_lt_mul_right (Int.natCast_pos.2 hc)

theorem atExp_eq_signed (s : Bool) (m : Nat) (e e0 : Int) : atExp s m e e0 = signed s (m * 2 ^ (e - e0).toNat) := by
  cases s <;> rfl

/-- Two finite values compare as they do on a grid finer than both. -/
theorem atExp_lt_iff (s t : Bool) (m n k l : Nat) (c : Int) :
    atExp s m (k - c) (min (k - c) (l - c)) < atExp t n (l - c) (min (k - c) (l - c)) ↔
      signed s (m * 2 ^ k) < signed t (n * 2 ^ l) := by
  have hk : ((k : Int) - c - min (k - c) (l - c)).toNat + min k l = k := by omega
  have hl : ((l : Int) - c - min (k - c) (l - c)).toNat + min k l = l := by omega
  rw [atExp_eq_signed, atExp_eq_signed, ← signed_mul_lt_iff (Nat.two_pow_pos (min k l)), Nat.mul_assoc, Nat.mul_assoc,
    ← Nat.pow_add, ← Nat.pow_add, hk, hl]

/-! ### What `f32v` reads from a word -/

/-- The 31 bits below the sign. -/
def f32Mag (v : W32) : Nat := v.toNat % 2 ^ 31
/-- The value of a word in units of 2^−149. -/
def f32Grid (v : W32) : Int := signed (v.getLsbD 31) (gridMag (f32Mag v))
/-- The place of a word in R251's order. -/
def f32Place (v : W32) : Int := placed (v.getLsbD 31) (f32Mag v)

theorem getLsbD_eq_decide (v : W32) (i : Nat) : v.getLsbD i = decide (v.toNat / 2 ^ i % 2 = 1) :=
  Nat.testBit_eq_decide_div_mod_eq

theorem bit_toNat (v : W32) (i : Nat) : bit v.toNat i = v.getLsbD i := (getLsbD_eq_decide v i).symm

/-- A word is its sign and its magnitude. -/
theorem eq_of_sign_of_f32Mag {x y : W32} (hs : x.getLsbD 31 = y.getLsbD 31) (hm : f32Mag x = f32Mag y) : x = y := by
  have hx := x.isLt
  have hy := y.isLt
  rw [getLsbD_eq_decide, getLsbD_eq_decide, decide_eq_decide] at hs
  unfold f32Mag at hm
  exact BitVec.eq_of_toNat_eq (by omega)

theorem eq_of_f32Place_eq {x y : W32} (h : f32Place x = f32Place y) : x = y := by
  obtain ⟨hs, hm⟩ := placed_inj h
  exact eq_of_sign_of_f32Mag hs hm

theorem f32Place_lt_of_f32Grid_lt {x y : W32} (h : f32Grid x < f32Grid y) : f32Place x < f32Place y :=
  placed_lt_of_signed_lt h

theorem f32v_of_nan {v : W32} (h : 0x7F800000 < f32Mag v) : f32v v = .nan := by
  unfold f32Mag at h
  simp only [f32v, fpDecode, fp32]
  rw [if_neg (by omega), if_pos ⟨by omega, .inl trivial⟩, if_neg fun hzero => by omega]

theorem f32v_of_inf {v : W32} (h : f32Mag v = 0x7F800000) : f32v v = .inf (v.getLsbD 31) := by
  unfold f32Mag at h
  simp only [f32v, fpDecode, fp32]
  rw [if_neg (by omega), if_pos ⟨by omega, .inl trivial⟩, if_pos ⟨trivial, by omega⟩, bit_toNat]

theorem f32v_of_fin {v : W32} (h : f32Mag v < 0x7F800000) :
    ∃ m k : Nat, f32v v = .fin (v.getLsbD 31) m (k - 149) ∧ m * 2 ^ k = gridMag (f32Mag v) := by
  have hfrac : v.toNat % 2 ^ 23 = f32Mag v % 2 ^ 23 := by unfold f32Mag; omega
  have hexp : v.toNat / 2 ^ 23 % 2 ^ 8 = f32Mag v / 2 ^ 23 := by unfold f32Mag; omega
  simp only [f32v, fpDecode, fp32, bit_toNat, hfrac, hexp, gridMag]
  by_cases hsub : f32Mag v < 2 ^ 23
  · refine ⟨f32Mag v, 0, ?_, by rw [if_pos hsub, Nat.pow_zero, Nat.mul_one]⟩
    rw [if_pos (by omega), Nat.mod_eq_of_lt hsub]
    rfl
  · refine ⟨2 ^ 23 + f32Mag v % 2 ^ 23, f32Mag v / 2 ^ 23 - 1, ?_, by rw [if_neg hsub]⟩
    rw [if_neg (by omega), if_neg (by omega)]
    congr 1
    omega

/-- A word that is no NaN holds an infinity or a finite value. -/
theorem f32v_of_number {v : W32} (h : f32Mag v ≤ 0x7F800000) :
    (f32v v = .inf (v.getLsbD 31) ∧ f32Grid v = signed (v.getLsbD 31) (gridMag 0x7F800000)) ∨
    ∃ m k : Nat, f32v v = .fin (v.getLsbD 31) m (k - 149) ∧ f32Grid v = signed (v.getLsbD 31) (m * 2 ^ k) ∧
      m * 2 ^ k < gridMag 0x7F800000 := by
  rcases Nat.eq_or_lt_of_le h with h | h
  · exact .inl ⟨f32v_of_inf h, by rw [f32Grid, h]⟩
  · obtain ⟨m, k, hv, hg⟩ := f32v_of_fin h
    exact .inr ⟨m, k, hv, by rw [f32Grid, hg], hg ▸ gridMag_lt_of_lt h⟩

theorem fvSign_f32v {v : W32} (h : f32Mag v ≤ 0x7F800000) : fvSign (f32v v) = v.getLsbD 31 := by
  rcases f32v_of_number h with ⟨hv, -⟩ | ⟨m, k, hv, -⟩ <;> rw [hv, fvSign]

theorem f32v_ne_nan {v : W32} (h : f32Mag v ≤ 0x7F800000) : f32v v ≠ .nan := by
  rcases f32v_of_number h with ⟨hv, -⟩ | ⟨m, k, hv, -⟩ <;> rw [hv] <;> exact Fv.noConfusion

/-- `fvLt` on words that are no NaNs is the order of the grid. -/
theorem fvLt_f32v {x y : W32} (hx : f32Mag x ≤ 0x7F800000) (hy : f32Mag y ≤ 0x7F800000) :
    fvLt (f32v x) (f32v y) = decide (f32Grid x < f32Grid y) := by
  rcases f32v_of_number hx with ⟨hvx, hgx⟩ | ⟨m, k, hvx, hgx, hmx⟩ <;>
    rcases f32v_of_number hy with ⟨hvy, hgy⟩ | ⟨n, l, hvy, hgy, hny⟩ <;>
    rw [hvx, hvy, hgx, hgy]
  case inr.inr => exact decide_eq_decide.2 (atExp_lt_iff _ _ m n k l 149)
  case inl.inl =>
    have hpos : 0 < gridMag 0x7F800000 := gridMag_lt_of_lt (m := 0) (by decide)
    simp only [fvLt, signed_lt_of_eq hpos, Bool.decide_eq_true]
  case inl.inr => simp only [fvLt, signed_lt_of_lt_right hny, Bool.decide_eq_true]
  case inr.inl => simp only [fvLt, signed_lt_of_lt_left hmx, Bool.decide_eq_false]

/-! ### R251 -/

/-- Which of two numbers `f32Min` takes: whether it is the first. -/
def f32First (x y : W32) : Bool :=
  if fvLt (f32v x) (f32v y) then true else if fvLt (f32v y) (f32v x) then false else fvSign (f32v x)

theorem f32First_iff {x y : W32} (hx : f32Mag x ≤ 0x7F800000) (hy : f32Mag y ≤ 0x7F800000) (hne : x ≠ y) :
    f32First x y = true ↔ f32Place x ≤ f32Place y := by
  rw [f32First, fvLt_f32v hx hy, fvLt_f32v hy hx, fvSign_f32v hx]
  rcases Int.lt_trichotomy (f32Grid x) (f32Grid y) with hlt | heq | hgt
  · rw [if_pos (decide_eq_true hlt)]
    exact iff_of_true rfl (Int.le_of_lt (f32Place_lt_of_f32Grid_lt hlt))
  · -- the two zeros, the only case in which the sign decides
    obtain ⟨hx0, hy0⟩ : f32Mag x = 0 ∧ f32Mag y = 0 :=
      (eq_or_zeros_of_signed_eq heq).resolve_left fun ⟨hs, hm⟩ => hne (eq_of_sign_of_f32Mag hs hm)
    have hsign : x.getLsbD 31 ≠ y.getLsbD 31 := fun hs => hne (eq_of_sign_of_f32Mag hs (hx0.trans hy0.symm))
    have hself : ¬decide (f32Grid y < f32Grid y) = true := by rw [decide_eq_true_iff]; exact Int.lt_irrefl _
    rw [heq, if_neg hself, if_neg hself, f32Place, f32Place, hx0, hy0]
    exact (placed_zero_le_iff hsign).symm
  · have hnot : ¬decide (f32Grid x < f32Grid y) = true := by rw [decide_eq_true_iff]; exact Int.lt_asymm hgt
    rw [if_neg hnot, if_pos (decide_eq_true hgt)]
    exact iff_of_false Bool.false_ne_true (Int.not_le.2 (f32Place_lt_of_f32Grid_lt hgt))

theorem f32Min_f32Max_of_nans {x y : W32} (hx : f32Mag x > 0x7F800000) (hy : f32Mag y > 0x7F800000) :
    f32Min x y = nanF32 ∧ f32Max x y = nanF32 := by
  simp only [f32Min, f32Max, f32v_of_nan hx, f32v_of_nan hy, and_self]

theorem f32Min_f32Max_of_nan_left {x y : W32} (hx : f32Mag x > 0x7F800000) (hy : f32Mag y ≤ 0x7F800000) :
    f32Min x y = y ∧ f32Max x y = y := by
  simp only [f32Min, f32Max, f32v_of_nan hx]
  cases hv : f32v y with
  | nan => exact absurd hv (f32v_ne_nan hy)
  | inf | fin => exact ⟨rfl, rfl⟩

theorem f32Min_f32Max_of_nan_right {x y : W32} (hx : f32Mag x ≤ 0x7F800000) (hy : f32Mag y > 0x7F800000) :
    f32Min x y = x ∧ f32Max x y = x := by
  simp only [f32Min, f32Max, f32v_of_nan hy]
  cases hv : f32v x with
  | nan => exact absurd hv (f32v_ne_nan hx)
  | inf | fin => exact ⟨rfl, rfl⟩

theorem f32Min_f32Max_of_numbers {x y : W32} (hx : f32Mag x ≤ 0x7F800000) (hy : f32Mag y ≤ 0x7F800000) :
    f32Min x y = (if f32Place x ≤ f32Place y then x else y) ∧
    f32Max x y = if f32Place x ≤ f32Place y then y else x := by
  have hfirst : f32Min x y = (if f32First x y then x else y) ∧ f32Max x y = if f32First x y then y else x := by
    unfold f32Min f32Max f32First
    split
    case h_4 => cases fvLt (f32v x) (f32v y) <;> cases fvLt (f32v y) (f32v x) <;> exact ⟨rfl, rfl⟩
    case h_3 hvy _ => exact absurd hvy (f32v_ne_nan hy)
    case h_1 hvx _ => exact absurd hvx (f32v_ne_nan hx)
    case h_2 hvx _ => exact absurd hvx (f32v_ne_nan hx)
  by_cases hne : x = y
  · subst hne
    simpa only [ite_self] using hfirst
  · simpa only [f32First_iff hx hy hne] using hfirst

theorem f32Min_f32Max_comm (x y : W32) : f32Min x y = f32Min y x ∧ f32Max x y = f32Max y x := by
  rcases Nat.lt_or_ge 0x7F800000 (f32Mag x) with hx | hx <;> rcases Nat.lt_or_ge 0x7F800000 (f32Mag y) with hy | hy
  · simp only [f32Min_f32Max_of_nans hx hy, f32Min_f32Max_of_nans hy hx, and_self]
  · simp only [f32Min_f32Max_of_nan_left hx hy, f32Min_f32Max_of_nan_right hy hx, and_self]
  · simp only [f32Min_f32Max_of_nan_right hx hy, f32Min_f32Max_of_nan_left hy hx, and_self]
  · obtain ⟨hmin, hmax⟩ := f32Min_f32Max_of_numbers hx hy
    obtain ⟨hmin', hmax'⟩ := f32Min_f32Max_of_numbers hy hx
    rw [hmin, hmax, hmin', hmax']
    rcases Int.lt_trichotomy (f32Place x) (f32Place y) with hlt | heq | hgt
    · rw [if_pos (Int.le_of_lt hlt), if_neg (Int.not_le.2 hlt), if_pos (Int.le_of_lt hlt), if_neg (Int.not_le.2 hlt)]
      exact ⟨rfl, rfl⟩
    · rw [eq_of_f32Place_eq heq]
      exact ⟨rfl, rfl⟩
    · rw [if_pos (Int.le_of_lt hgt), if_neg (Int.not_le.2 hgt), if_pos (Int.le_of_lt hgt), if_neg (Int.not_le.2 hgt)]
      exact ⟨rfl, rfl⟩

/-- Settles O6: of two numbers, `f32Min` and `f32Max` take the lesser and the greater by place in R251's order, and a NaN has no place in it. -/
theorem minimumAndMaximumNumbers : Obligations.MinimumAndMaximumNumbers := by
  intro x y mag nan place
  have hmag (v : W32) : mag v = f32Mag v := by simp only [mag, f32Mag]; omega
  have hnan (v : W32) : nan v ↔ f32Mag v > 0x7F800000 := by simp only [nan, hmag]; omega
  have hnum (v : W32) : ¬nan v ↔ f32Mag v ≤ 0x7F800000 := by rw [hnan]; exact Nat.not_lt
  have hplace (v : W32) : place v = f32Place v := by
    simp only [place, hmag, f32Place]
    cases v.getLsbD 31 <;> rfl
  simp only [hnum, hplace]
  simp only [hnan]
  exact ⟨f32Min_f32Max_of_nans, f32Min_f32Max_of_nan_left, f32Min_f32Max_of_nan_right, f32Min_f32Max_of_numbers,
    f32Min_f32Max_comm x y⟩

end Sys2Proof.Machine

/-! PROOFS. The scalar words (R269 to R275): their flags, division, and the condition codes. -/

namespace Sys2Proof.Machine

/-! ### What a scalar word does when nothing holds it -/

@[simp] theorem Group.putS_flags (g : Group) (n : SReg) (r : W64) (f : Flags) :
    g.putS (.s n) (r, some f) = { g with s := g.s.set n r, flags := f } := rfl
@[simp] theorem Group.putS_none (g : Group) (n : SReg) (r : W64) :
    g.putS (.s n) (r, none) = { g with s := g.s.set n r } := rfl

theorem okS3_uni {a b : Src} (n : SReg) (ha : a.isUni = true) (hb : b.isUni = true) : okS3 (.s n) a b = true := by
  simp only [okS3, Dst.isS, ha, hb, Bool.and_self]

theorem okS2_uni {a : Src} (n : SReg) (ha : a.isUni = true) : okS2 (.s n) a = true := by
  simp only [okS2, Dst.isS, ha, Bool.and_self]

/-- Over scalar operands the condition code alone decides whether ssel's page allows it. -/
theorem okSsel_uni {a b : Src} (n : SReg) (f : Code) (ha : a.isUni = true) (hb : b.isUni = true) :
    okSsel (.s n) a b f = f.isCond := by
  simp only [okSsel, Dst.isS, ha, hb, Bool.true_and]

theorem scalar3_ready {n : SReg} {a b : Src} {s : State} {u : Issuer} (ha : a.isUni = true) (hb : b.isUni = true)
    (h : s.Ready u 0 (.s n)) (f : W64 → W64 → ScalarOut) :
    scalar3 (.s n) a b f s =
      .next (s.committed u (1 + a.nlit + b.nlit) (u.g.putS (.s n) (f (u.g.scalar a) (u.g.scalar b)))) := by
  rw [scalar3, okS3_uni n ha hb, runPureTo_ready h]

theorem scalar2_ready {n : SReg} {a : Src} {s : State} {u : Issuer} (ha : a.isUni = true) (h : s.Ready u 0 (.s n))
    (f : W64 → ScalarOut) :
    scalar2 (.s n) a f s = .next (s.committed u (1 + a.nlit) (u.g.putS (.s n) (f (u.g.scalar a)))) := by
  rw [scalar2, okS2_uni n ha, runPureTo_ready h]

section
variable (d : Dst) (a b : Src) (s : State)

theorem exec_sadd : exec (.sadd d a b) s = scalar3 d a b (fun x y => (x + y, some (flagsAdd x y))) s := rfl
theorem exec_ssub : exec (.ssub d a b) s = scalar3 d a b (fun x y => (x - y, some (flagsSub x y))) s := rfl
theorem exec_smul : exec (.smul d a b) s = scalar3 d a b (fun x y => (x * y, some (flagsMul x y))) s := rfl
theorem exec_sand : exec (.sand d a b) s = scalar3 d a b (fun x y => logicOut (x &&& y)) s := rfl
theorem exec_scmpS : exec (.scmpS d a b) s =
    scalar3 d a b (fun x y => (sign3 (decide (x.toInt < y.toInt)) (x == y), some (flagsSub x y))) s := rfl
theorem exec_scmpZ : exec (.scmpZ d a b) s =
    scalar3 d a b (fun x y => (sign3 (decide (x.toNat < y.toNat)) (x == y), some (flagsSub x y))) s := rfl
theorem exec_smov : exec (.smov d a) s = scalar2 d a (fun x => (x, none)) s := rfl
theorem exec_sdivS : exec (.sdivS d a b) s = scalar3 d a b (fun x y => divOut (divS x y)) s := rfl
theorem exec_sdivZ : exec (.sdivZ d a b) s = scalar3 d a b (fun x y => divOut (divZ x y)) s := rfl
theorem exec_sremS : exec (.sremS d a b) s = scalar3 d a b (fun x y => divOut (remS x y)) s := rfl
theorem exec_sremZ : exec (.sremZ d a b) s = scalar3 d a b (fun x y => divOut (remZ x y)) s := rfl
theorem exec_ssel (f : Code) : exec (.ssel d a b f) s =
    runPureTo d (okSsel d a b f) 0 (1 + a.nlit + b.nlit)
      (fun u => u.g.putS d (if condHolds u.g.flags f.val then u.g.scalar a else u.g.scalar b, none)) s := rfl
theorem exec_bcc (f : Code) (o : BitVec 18) :
    exec (.bcc f o) s = branch f.isCond o (fun u => condHolds u.g.flags f.val) s := rfl

end

/-! ### Flags (R271) -/

/-- Z and N as R271 words them: the result is 0, and its bit 63. -/
theorem flagsOf_eq (r : W64) (c v : Bool) : flagsOf r c v = ⟨decide (r = 0), r.getLsbD 63, c, v⟩ := by
  rw [flagsOf, BitVec.msb_eq_getLsbD_last]
  rfl

theorem sign3_eq (p : Prop) [Decidable p] (x y : W64) :
    sign3 (decide p) (x == y) = if p then -1 else if x = y then 0 else 1 := by
  simp only [sign3, decide_eq_true_eq, beq_iff_eq]
  rfl

/-- A scalar word of two sources that leaves `r` with the flags that R271 takes from `res`. -/
theorem exec_scalar3_flags {i : Instr} {n : SReg} {a b : Src} {s : State} {u : Issuer} {f : W64 → W64 → ScalarOut}
    {r res : W64} {c v : Bool} (ha : a.isUni = true) (hb : b.isUni = true) (h : s.Ready u 0 (.s n))
    (hi : exec i s = scalar3 (.s n) a b f s) (hf : f (u.g.scalar a) (u.g.scalar b) = (r, some (flagsOf res c v))) :
    exec i s = .next (s.committed u (1 + a.nlit + b.nlit)
      { u.g with s := u.g.s.set n r, flags := ⟨decide (res = 0), res.getLsbD 63, c, v⟩ }) := by
  rw [hi, scalar3_ready ha hb h, hf, Group.putS_flags, flagsOf_eq]

/-- Settles O1: each word is `scalar3` or `scalar2` of its result, and `flagsOf` reads Z and N off the value that R271 names. -/
theorem scalarFlags : Obligations.ScalarFlags := by
  intro n a b s u ha hb h x y big put
  refine ⟨?sadd, ?ssub, ?scmpS, ?scmpZ, ?smul, ?sand, ?smov⟩
  case sadd => exact exec_scalar3_flags ha hb h (exec_sadd ..) rfl
  case ssub => exact exec_scalar3_flags ha hb h (exec_ssub ..) rfl
  case scmpS => exact exec_scalar3_flags ha hb h (exec_scmpS ..) (congrArg (·, _) (sign3_eq _ x y))
  case scmpZ => exact exec_scalar3_flags ha hb h (exec_scmpZ ..) (congrArg (·, _) (sign3_eq _ x y))
  case smul => exact exec_scalar3_flags ha hb h (exec_smul ..) rfl
  case sand => exact exec_scalar3_flags ha hb h (exec_sand ..) rfl
  case smov => rw [exec_smov, scalar2_ready ha h, Group.putS_none]

/-! ### Division (R273) -/

/-- The overflow row of R273's table, read off the signed values. -/
theorem toInt_intMin_neg_one_iff (x y : W64) :
    (x.toInt = -(2 ^ 63) ∧ y.toInt = -1) ↔ (x = BitVec.intMin 64 ∧ y = -1) :=
  and_congr (BitVec.toInt_inj (y := BitVec.intMin 64)) (BitVec.toInt_inj (y := -1))

/-- The signed remainder is what the truncated quotient leaves. -/
theorem ofInt_tmod_toInt (x y : W64) :
    BitVec.ofInt 64 (x.toInt.tmod y.toInt) = x - BitVec.ofInt 64 (x.toInt.tdiv y.toInt) * y := by
  refine BitVec.eq_sub_iff_add_eq.2 ?_
  calc BitVec.ofInt 64 (x.toInt.tmod y.toInt) + BitVec.ofInt 64 (x.toInt.tdiv y.toInt) * y
      = BitVec.ofInt 64 (x.toInt.tmod y.toInt + x.toInt.tdiv y.toInt * y.toInt) := by
        rw [BitVec.ofInt_add, BitVec.ofInt_mul, BitVec.ofInt_toInt]
    _ = x := by rw [Int.tmod_add_tdiv_mul, BitVec.ofInt_toInt]

/-- The unsigned remainder is what the quotient leaves. -/
theorem umod_eq_sub_udiv_mul (x y : W64) : x % y = x - x / y * y := by
  refine BitVec.eq_sub_iff_add_eq.2 (BitVec.eq_of_toNat_eq ?_)
  rw [BitVec.toNat_add, BitVec.toNat_mul, Nat.add_mod_mod, BitVec.toNat_umod, BitVec.toNat_udiv, Nat.mod_add_div',
    Nat.mod_eq_of_lt x.isLt]

section
variable {x y : W64}

theorem divS_zero (hy : y = 0) : divS x y = (-1, true) := if_pos hy
theorem remS_zero (hy : y = 0) : remS x y = (x, true) := if_pos hy
theorem divZ_zero (hy : y = 0) : divZ x y = (-1, true) := if_pos hy
theorem remZ_zero (hy : y = 0) : remZ x y = (x, true) := if_pos hy

theorem divS_overflow (hx : x = BitVec.intMin 64) (hy : y = -1) : divS x y = (BitVec.intMin 64, true) := by
  subst hx hy
  decide

theorem remS_overflow (hx : x = BitVec.intMin 64) (hy : y = -1) : remS x y = (0, true) := by
  subst hx hy
  decide

variable (hy : y ≠ 0)
include hy

theorem divS_regular (hxy : ¬(x = BitVec.intMin 64 ∧ y = -1)) : divS x y = (BitVec.ofInt 64 (x.toInt.tdiv y.toInt), false) := by
  rw [divS, if_neg hy, if_neg (mt (toInt_intMin_neg_one_iff x y).1 hxy)]

theorem remS_regular (hxy : ¬(x = BitVec.intMin 64 ∧ y = -1)) :
    remS x y = (x - BitVec.ofInt 64 (x.toInt.tdiv y.toInt) * y, false) := by
  rw [remS, if_neg hy, if_neg (mt (toInt_intMin_neg_one_iff x y).1 hxy), ofInt_tmod_toInt]

theorem divZ_regular : divZ x y = (x / y, false) := by
  rw [divZ, if_neg hy, BitVec.udiv_def]

theorem remZ_regular : remZ x y = (x - x / y * y, false) := by
  rw [remZ, if_neg hy, ← BitVec.umod_def, umod_eq_sub_udiv_mul]

end

/-- Settles O3: the words write what `divS`, `divZ`, `remS` and `remZ` give in each row of R273's table. -/
theorem scalarDivision : Obligations.ScalarDivision := by
  intro n a b s u ha hb h x y put overflows
  have word {i : Instr} {f : W64 → W64 → W64 × Bool} {r : W64} {v : Bool}
      (hi : exec i s = scalar3 (.s n) a b (fun x y => divOut (f x y)) s) (hf : f x y = (r, v)) : exec i s = .next (put r v) :=
    exec_scalar3_flags ha hb h hi (congrArg divOut hf)
  refine ⟨fun hy => ?zero, fun ⟨hx, hy⟩ => ?overflow, fun hy hxy => ?signed, fun hy => ?unsigned⟩
  case zero =>
    exact ⟨word (exec_sdivS ..) (divS_zero hy), word (exec_sremS ..) (remS_zero hy),
      word (exec_sdivZ ..) (divZ_zero hy), word (exec_sremZ ..) (remZ_zero hy)⟩
  case overflow => exact ⟨word (exec_sdivS ..) (divS_overflow hx hy), word (exec_sremS ..) (remS_overflow hx hy)⟩
  case signed => exact ⟨word (exec_sdivS ..) (divS_regular hy hxy), word (exec_sremS ..) (remS_regular hy hxy)⟩
  case unsigned => exact ⟨word (exec_sdivZ ..) (divZ_regular hy), word (exec_sremZ ..) (remZ_regular hy)⟩

/-! ### Condition codes (R275) -/

/-- The rows of R275's table, from code 0 on. -/
def condRows (g : Flags) : List Bool :=
  [g.z, !g.z, g.n != g.v, g.z || g.n != g.v, !g.z && g.n == g.v, g.n == g.v, !g.c, !g.c || g.z, g.c && !g.z, g.c]

theorem condHolds_eq_getD (g : Flags) {k : Nat} (hk : k < 10) : condHolds g k = (condRows g).getD k false := by
  match k, hk with
  | 0, _ | 1, _ | 2, _ | 3, _ | 4, _ | 5, _ | 6, _ | 7, _ | 8, _ | 9, _ => rfl

theorem isCond_eq_true {f : Code} (hf : f.val < 10) : f.isCond = true := decide_eq_true hf
theorem isCond_eq_false {f : Code} (hf : 10 ≤ f.val) : f.isCond = false := decide_eq_false (Nat.not_lt.2 hf)

section
variable {s : State} {u : Issuer} {n : SReg} {a b : Src} {f : Code}

theorem exec_bcc_ready {d : Dst} (h : s.Ready u 0 d) (hf : f.val < 10) (o : BitVec 18) : exec (.bcc f o) s =
    .next (if condHolds u.g.flags f.val then s.jumped u.g (u.g.pc + 4 * o.signExtend 64) else s.committed u 1 u.g) := by
  rw [exec_bcc, branch, isCond_eq_true hf, runWord_ready h]
  cases condHolds u.g.flags f.val <;> rfl

theorem exec_ssel_ready (ha : a.isUni = true) (hb : b.isUni = true) (h : s.Ready u 0 (.s n)) (hf : f.val < 10) :
    exec (.ssel (.s n) a b f) s = .next (s.committed u (1 + a.nlit + b.nlit)
      { u.g with s := u.g.s.set n (if condHolds u.g.flags f.val then u.g.scalar a else u.g.scalar b) }) := by
  rw [exec_ssel, okSsel_uni n f ha hb, isCond_eq_true hf, runPureTo_ready h, Group.putS_none]

theorem exec_bcc_bad (h : s.issuer = some u) (hf : 10 ≤ f.val) (o : BitVec 18) :
    exec (.bcc f o) s = .next (s.takeFault u cILLOPND 0 0) := by
  rw [exec_bcc, branch, isCond_eq_false hf, runWord, runWordTo_bad h]

theorem exec_ssel_bad (ha : a.isUni = true) (hb : b.isUni = true) (h : s.issuer = some u) (hf : 10 ≤ f.val) :
    exec (.ssel (.s n) a b f) s = .next (s.takeFault u cILLOPND 0 0) := by
  rw [exec_ssel, okSsel_uni n f ha hb, isCond_eq_false hf, runPureTo, runWordTo_bad h]

end

/-- N ≠ V after x − y says that the exact difference is negative, overflow or not. -/
theorem getLsbD_sub_bne_sgOverflow (x y : W64) :
    ((x - y).getLsbD 63 != sgOverflow (x.toInt - y.toInt)) = decide (x.toInt < y.toInt) := by
  have hx := BitVec.le_toInt x
  have hx' := BitVec.toInt_lt (x := x)
  have hy := BitVec.le_toInt y
  have hy' := BitVec.toInt_lt (x := y)
  have hwrap := Int.bmod_neg_iff (m := 2 ^ 64) (x := x.toInt - y.toInt) (by omega) (by omega)
  have hn : (x - y).getLsbD 63 = decide ((x.toInt - y.toInt).bmod (2 ^ 64) < 0) := by
    rw [← BitVec.toInt_sub, ← BitVec.msb_eq_toInt, BitVec.msb_eq_getLsbD_last]
  rw [hn, sgOverflow, ← Bool.decide_or, Bool.eq_iff_iff, bne_iff_ne, ne_eq, decide_eq_decide, decide_eq_true_iff, hwrap]
  omega

/-- The rows after the flags of x − y are the ten comparisons that the codes name. -/
theorem condRows_flagsSub (x y : W64) : condRows (flagsSub x y) =
    [decide (x = y), decide (x ≠ y), decide (x.toInt < y.toInt), decide (x.toInt ≤ y.toInt),
      decide (x.toInt > y.toInt), decide (x.toInt ≥ y.toInt), decide (x.toNat < y.toNat), decide (x.toNat ≤ y.toNat),
      decide (x.toNat > y.toNat), decide (x.toNat ≥ y.toNat)] := by
  have hz : x - y = 0 ↔ x = y := by bv_omega
  have hnv := getLsbD_sub_bne_sgOverflow x y
  have hnv' : ((x - y).getLsbD 63 == sgOverflow (x.toInt - y.toInt)) = decide ¬x.toInt < y.toInt := by
    rw [decide_not, ← hnv, bne, Bool.not_not]
  have hint : x = y ↔ x.toInt = y.toInt := BitVec.toInt_inj.symm
  have hnat : x = y ↔ x.toNat = y.toNat := BitVec.toNat_inj.symm
  simp only [condRows, flagsSub, flagsOf_eq, hz, hnv, hnv', ← decide_not, ← Bool.decide_or, ← Bool.decide_and,
    List.cons.injEq, decide_eq_decide, true_and, and_true]
  refine ⟨?leS, ?gtS, Int.not_lt, Nat.not_le, ?leZ, ?gtZ⟩
  case leS | gtS => rw [hint]; omega
  case leZ | gtZ => rw [hnat]; omega

/-- Settles O4: the model's condition is the row of `condRows`, and after x − y the rows are comparisons. -/
theorem conditionCodes : Obligations.ConditionCodes := by
  unfold Obligations.ConditionCodes
  intro big holds
  refine ⟨fun f o n a b s u ha hb h => ⟨fun hf => ?_, fun hf => ?_⟩, ?_⟩
  · have hholds : holds u.g.flags f.val = condHolds u.g.flags f.val := (condHolds_eq_getD _ hf).symm
    rw [hholds]
    exact ⟨exec_bcc_ready h hf o, exec_ssel_ready ha hb h hf⟩
  · exact ⟨exec_bcc_bad h.1 hf o, exec_ssel_bad ha hb h.1 hf⟩
  · intro x y g
    have hg : g = flagsSub x y := (flagsOf_eq ..).symm
    rw [hg, ← condRows_flagsSub]
    rfl

end Sys2Proof.Machine

/-! PROOFS. FP32 classes (R289): each row of the rule's table is one reading of a word by `f32v`. -/

namespace Sys2Proof.Machine

/-! ### A vector word of one source that nothing holds -/

theorem vector2_ready {d e : Dst} {a : Src} {s : State} {u : Issuer} (hd : d.isVec = true) (ha : a.isSrc = true)
    (h : s.Ready u (max (d.vtop 1) (a.vtop 1)) e) (f : W32 → W32) :
    vector2 d a f s = .next (s.committed u (1 + a.nlit) (u.g.writeVec u.w d fun i => f (u.g.laneSrc a i))) := by
  have hok : okV2 d a = true := by rw [okV2, hd, ha, Bool.and_self]
  rw [vector2, hok, runPure_ready h]

theorem exec_vfcls (d : Dst) (a : Src) (s : State) : exec (.vfcls d a) s = vector2 d a f32Class s := rfl

/-! ### Exponent and fraction of a word -/

/-- The biased exponent (R242). -/
def f32Exp (v : W32) : Nat := v.toNat / 2 ^ 23 % 2 ^ 8
/-- The fraction (R242). -/
def f32Frac (v : W32) : Nat := v.toNat % 2 ^ 23

theorem f32Frac_lt (v : W32) : f32Frac v < 2 ^ 23 := Nat.mod_lt _ (Nat.two_pow_pos 23)

theorem f32Mag_eq_exp_frac (v : W32) : f32Mag v = 2 ^ 23 * f32Exp v + f32Frac v := by
  unfold f32Mag f32Exp f32Frac
  omega

theorem f32v_of_exp_zero {v : W32} (he : f32Exp v = 0) : f32v v = .fin (v.getLsbD 31) (f32Frac v) (-149) := by
  rw [f32v, fpDecode, ← bit_toNat]
  exact if_pos he

theorem f32v_of_exp_normal {v : W32} (he : f32Exp v ≠ 0) (he' : f32Exp v ≠ 255) :
    f32v v = .fin (v.getLsbD 31) (2 ^ 23 + f32Frac v) ((f32Exp v : Int) - 127 - 23) := by
  rw [f32v, fpDecode, ← bit_toNat]
  exact (if_neg he).trans (if_neg fun h => he' h.1)

/-! ### The classes -/

section
variable {v : W32}

theorem f32Class_nan (he : f32Exp v = 255) (hf : f32Frac v ≠ 0) : f32Class v = 1 := by
  have hmag : 0x7F800000 < f32Mag v := by have := f32Mag_eq_exp_frac v; omega
  rw [f32Class, f32v_of_nan hmag]

theorem f32Class_inf (he : f32Exp v = 255) (hf : f32Frac v = 0) :
    f32Class v = if v.getLsbD 31 then 2 else 0x100 := by
  have hmag : f32Mag v = 0x7F800000 := by have := f32Mag_eq_exp_frac v; omega
  rw [f32Class, f32v_of_inf hmag]

theorem f32Class_normal (he : f32Exp v ≠ 0) (he' : f32Exp v ≠ 255) :
    f32Class v = if v.getLsbD 31 then 4 else 0x80 := by
  simp only [f32Class, f32v_of_exp_normal he he']
  rw [if_neg (by omega), if_neg (by omega)]

theorem f32Class_subnormal (he : f32Exp v = 0) (hf : f32Frac v ≠ 0) :
    f32Class v = if v.getLsbD 31 then 8 else 0x40 := by
  simp only [f32Class, f32v_of_exp_zero he]
  rw [if_neg hf, if_pos (f32Frac_lt v)]

theorem f32Class_zero (he : f32Exp v = 0) (hf : f32Frac v = 0) :
    f32Class v = if v.getLsbD 31 then 0x10 else 0x20 := by
  simp only [f32Class, f32v_of_exp_zero he]
  rw [if_pos hf]

end

/-- The bit of a word's class in R289's table. -/
def f32ClassBit (v : W32) : Nat :=
  if f32Exp v = 255 then (if f32Frac v ≠ 0 then 0 else if v.getLsbD 31 then 1 else 8)
  else if f32Exp v ≠ 0 then (if v.getLsbD 31 then 2 else 7)
  else if f32Frac v ≠ 0 then (if v.getLsbD 31 then 3 else 6)
  else if v.getLsbD 31 then 4 else 5

theorem f32Class_eq_two_pow (v : W32) : f32Class v = BitVec.ofNat 32 (2 ^ f32ClassBit v) := by
  unfold f32ClassBit
  by_cases hones : f32Exp v = 255
  · rw [if_pos hones]
    by_cases hf : f32Frac v ≠ 0
    · rw [if_pos hf, f32Class_nan hones hf]
      rfl
    · rw [if_neg hf, f32Class_inf hones (Decidable.not_not.1 hf)]
      cases v.getLsbD 31 <;> rfl
  rw [if_neg hones]
  by_cases hnormal : f32Exp v ≠ 0
  · rw [if_pos hnormal, f32Class_normal hnormal hones]
    cases v.getLsbD 31 <;> rfl
  rw [if_neg hnormal]
  by_cases hf : f32Frac v ≠ 0
  · rw [if_pos hf, f32Class_subnormal (Decidable.not_not.1 hnormal) hf]
    cases v.getLsbD 31 <;> rfl
  · rw [if_neg hf, f32Class_zero (Decidable.not_not.1 hnormal) (Decidable.not_not.1 hf)]
    cases v.getLsbD 31 <;> rfl

/-- Settles O7: vfcls applies `f32Class` to each lane, and that is the one bit `f32ClassBit` names. -/
theorem floatClasses : Obligations.FloatClasses := by
  intro d a s u hd ha h bitOfClass
  have hclass (x : W32) : f32Class x = BitVec.ofNat 32 (2 ^ bitOfClass x) := f32Class_eq_two_pow x
  rw [exec_vfcls, vector2_ready hd ha h]
  simp only [hclass]

end Sys2Proof.Machine

/-! PROOFS. dbgmk (R351), and the words that answer about a group's matrix operations without entering one (R332, R336). -/

namespace Sys2Proof.Machine

/-! ### dbgmk -/

theorem exec_dbgmk (a : Src) (s : State) : exec (.dbgmk a) s = execDbgmk a s := rfl

/-- A marker is counted, and whether a freeze is asked for is all that the comparator decides. -/
theorem exec_dbgmk_ready {a : Src} {s : State} {u : Issuer} {d : Dst} (ha : a.isUni = true) (h : s.Ready u 0 d) :
    exec (.dbgmk a) s =
      .next ((if s.boot.granted = true ∧ s.boot.marker = some (u.g.scalar a) then s.askFreeze else s).setGroup
        (u.g.advance (1 + a.nlit) { u.g with dbgmks := u.g.dbgmks + 1 })) := by
  rw [exec_dbgmk, execDbgmk, ha, runWord_ready h]
  rfl

/-- Settles O20: the comparator's condition picks the branch of `exec_dbgmk_ready`. -/
theorem debugMarker : Obligations.DebugMarker := by
  intro a s u ha h g
  rw [exec_dbgmk_ready ha h]
  refine ⟨fun hmeets => ?freezes, fun hpasses => ?counted⟩
  case freezes => rw [if_pos hmeets]; rfl
  case counted => rw [if_neg hpasses]; rfl

/-! ### Batches (R332) and progress (R336) -/

section
variable (d : Dst) (a : Src) (t : Code) (s : State)

theorem exec_mbatch : exec (.mbatch d) s = execMbatch d s := rfl
theorem exec_mwait : exec (.mwait a) s = execMwait a s := rfl
theorem exec_mprog : exec (.mprog d t) s = execMprog d t s := rfl

end

/-- What mprog answers for the operations on a tile, the oldest first (R336). -/
def progressWord : List MatOp → Nat
  | [] => 0
  | o :: os => 2 ^ 8 + o.progress % 32 + (o :: os).length * 2 ^ 32

/-- No closed batch is outstanding when no operation of one is in the queue. -/
theorem Issuer.outstanding_eq_nil {u : Issuer} {s : State}
    (h : ((s.core u.t.core).mq.filter fun o => o.g == u.g.id && o.batch != u.g.batch) = []) : u.outstanding s = [] := by
  rw [Issuer.outstanding, h, List.foldl_nil]

theorem Issuer.tileBad_eq_true {u : Issuer} {t : Nat} (h : u.k.launch.nacc ≤ t) : u.tileBad t = true := decide_eq_true h
theorem Issuer.tileBad_eq_false {u : Issuer} {t : Nat} (h : t < u.k.launch.nacc) : u.tileBad t = false :=
  decide_eq_false (Nat.not_le.2 h)

theorem okMprog_scalar {t : Code} (n : SReg) (ht : t.val < 16) : okMprog (.s n) t = true := by
  rw [okMprog, Dst.isS, Code.below, decide_eq_true ht, Bool.and_self]

section
variable {n : SReg} {a : Src} {t : Code} {s : State} {u : Issuer}

theorem exec_mbatch_ready (h : s.Ready u 0 (.s n)) (hroom : (u.outstanding s).length < 15) :
    exec (.mbatch (.s n)) s = .next (s.committed u 1
      { u.g with s := u.g.s.set n (BitVec.ofNat 64 u.g.batch)
                 batch := if u.g.batch = 2 ^ 32 - 1 then 1 else u.g.batch + 1 }) := by
  rw [exec_mbatch, execMbatch, Dst.isS, runWordTo_ready h, if_neg (Nat.not_le.2 hroom)]
  rfl

theorem exec_mwait_ready {d : Dst} (ha : a.isUni = true) (h : s.Ready u 0 d) (hnone : u.outstanding s = []) :
    exec (.mwait a) s = .next (s.committed u (1 + a.nlit) u.g) := by
  rw [exec_mwait, execMwait, ha, runWord_ready h, hnone]
  rfl

theorem exec_mprog_bad (ht : t.val < 16) (h : s.Ready u 0 (.s n)) (hbad : u.k.launch.nacc ≤ t.val) :
    exec (.mprog (.s n) t) s = .next (s.takeFault u cILLOPND 0 0) := by
  rw [exec_mprog, execMprog, okMprog_scalar n ht, runWordTo_ready h, Issuer.tileBad_eq_true hbad]
  rfl

theorem exec_mprog_ready (ht : t.val < 16) (h : s.Ready u 0 (.s n)) (hgood : t.val < u.k.launch.nacc) :
    exec (.mprog (.s n) t) s = .next (s.committed u 1
      { u.g with s := u.g.s.set n (BitVec.ofNat 64 (progressWord (u.onTile s t.val))) }) := by
  rw [exec_mprog, execMprog, okMprog_scalar n ht, runWordTo_ready h, Issuer.tileBad_eq_false hgood]
  cases u.onTile s t.val <;> rfl

end

/-- Settles O32: mbatch has room to close a batch, mwait finds no closed batch, and mprog meets either side of NACC. -/
theorem matrixBatches : Obligations.MatrixBatches := by
  intro n a t s u ha ht h put closed mine
  refine ⟨fun hroom => ?mbatch, fun hclosed => ?mwait, fun hbad => ?mprogBad, fun hgood => ?mprog⟩
  case mbatch => exact exec_mbatch_ready h hroom
  case mwait => exact exec_mwait_ready ha h (Issuer.outstanding_eq_nil hclosed)
  case mprogBad => exact exec_mprog_bad ht h hbad
  case mprog =>
    have hmine : u.onTile s t.val = mine := rfl
    rw [exec_mprog_ready ht h hgood, hmine]
    cases mine <;> rfl

end Sys2Proof.Machine

/-! PROOFS. Decoding what the encoder writes (R219, R222 to R228, R355, R356): the fields of each word form, what each format reads from the
words that its instructions are written as, and from that O56 and O57. -/

namespace Sys2Proof

/-! ### Operand codes (R224, R225) -/

@[simp] theorem Src.code_lt (a : Src) : a.code < 64 := by
  cases a <;> simp only [Src.code] <;> omega

@[simp] theorem Dst.code_lt (d : Dst) : d.code < 64 := by
  cases d <;> simp only [Dst.code] <;> (try split) <;> omega

@[simp] theorem withSrc_code (a : Src) (ls : List W32) (k : Src → List W32 → Dec) :
    withSrc ⟨a.code, a.code_lt⟩ (a.lits ++ ls) k = k a ls := by
  cases a with
  | q n => simp [withSrc, Src.code, Src.lits]
  | v n =>
    have hq : ¬0x10 + n.val < 0x10 := by omega
    have hv : 0x10 + n.val < 0x28 := by omega
    simp [withSrc, Src.code, Src.lits, hq, hv]
  | s n =>
    have hq : ¬0x28 + n.val < 0x10 := by omega
    have hv : ¬0x28 + n.val < 0x28 := by omega
    have hs : 0x28 + n.val < 0x38 := by omega
    simp [withSrc, Src.code, Src.lits, hq, hv, hs]
  | zero | lid | lit x => simp [withSrc, Src.code, Src.lits]
  | rsv n =>
    have hq : ¬0x3B + n.val < 0x10 := by omega
    have hv : ¬0x3B + n.val < 0x28 := by omega
    have hs : ¬0x3B + n.val < 0x38 := by omega
    have hz : ¬0x3B + n.val = 0x38 := by omega
    have hl : ¬0x3B + n.val = 0x39 := by omega
    have hx : ¬0x3B + n.val = 0x3A := by omega
    simp [withSrc, Src.code, Src.lits, hq, hv, hs, hz, hl, hx, Nat.mod_eq_of_lt n.isLt]

@[simp] theorem dst_code (d : Dst) : dst ⟨d.code, d.code_lt⟩ = d := by
  cases d with
  | push => rfl
  | v n =>
    have hv : 0x10 + n.val < 0x28 := by omega
    simp [dst, Dst.code, hv]
  | s n =>
    have hq : ¬0x28 + n.val < 0x10 := by omega
    have hs : 0x28 + n.val < 0x38 := by omega
    simp [dst, Dst.code, hq, hs]
  | rsv n => exact (by decide : ∀ n : Fin 23, dst ⟨(Dst.rsv n).code, (Dst.rsv n).code_lt⟩ = .rsv n) n

@[simp] theorem withSReg_code (k : SReg) (h : 0x28 + k.val < 64) (f : SReg → Dec) : withSReg ⟨0x28 + k.val, h⟩ f = f k := by
  have hk : 0x28 + k.val < 0x38 := by omega
  simp [withSReg, hk]

@[simp] theorem unused_zero (k : Dec) : unused 0 k = k := rfl

@[simp] theorem b2n_lt (b : Bool) : b2n b < 2 := by cases b <;> decide

/-! ### The fields of each word form (R223, R356) -/

theorem f1_eq {w : W32} {lo : Nat} {x : Bool} (h : w.toNat / 2 ^ lo % 2 = b2n x) : f1 lo w = x := by
  rw [f1, h]; cases x <;> rfl
theorem f2_eq {w : W32} {lo : Nat} {x : Fin 4} (h : w.toNat / 2 ^ lo % 4 = x.val) : f2 lo w = x := Fin.ext h
theorem f3_eq {w : W32} {lo : Nat} {x : Fin 8} (h : w.toNat / 2 ^ lo % 8 = x.val) : f3 lo w = x := Fin.ext h
theorem f4_eq {w : W32} {lo : Nat} {x : Fin 16} (h : w.toNat / 2 ^ lo % 16 = x.val) : f4 lo w = x := Fin.ext h
theorem f5_eq {w : W32} {lo : Nat} {x : Fin 32} (h : w.toNat / 2 ^ lo % 32 = x.val) : f5 lo w = x := Fin.ext h
theorem f6_eq {w : W32} {lo : Nat} {x : Fin 64} (h : w.toNat / 2 ^ lo % 64 = x.val) : f6 lo w = x := Fin.ext h
theorem imm12_eq {w : W32} {x : BitVec 12} (h : w.toNat % 2 ^ 12 = x.toNat) : imm12 w = x := by
  rw [imm12, h, BitVec.ofNat_toNat, BitVec.setWidth_eq]
theorem imm16_eq {w : W32} {x : BitVec 16} (h : w.toNat % 2 ^ 16 = x.toNat) : imm16 w = x := by
  rw [imm16, h, BitVec.ofNat_toNat, BitVec.setWidth_eq]
theorem imm18_eq {w : W32} {x : BitVec 18} (h : w.toNat % 2 ^ 18 = x.toNat) : imm18 w = x := by
  rw [imm18, h, BitVec.ofNat_toNat, BitVec.setWidth_eq]

theorem ofNat_toNat_of_lt {n : Nat} (h : n < 2 ^ 32) : (BitVec.ofNat 32 n).toNat = n := by
  rw [BitVec.toNat_ofNat, Nat.mod_eq_of_lt h]

section
variable {op d a b c : Nat} (hop : op < 256) (hd : d < 64) (ha : a < 64) (hb : b < 64) (hc : c < 64)
include hop hd ha hb hc

theorem toNat_wordA : (wordA op d a b c).toNat = op * 2 ^ 24 + d * 2 ^ 18 + a * 2 ^ 12 + b * 2 ^ 6 + c :=
  ofNat_toNat_of_lt (by omega)

theorem opcode_wordA : (wordA op d a b c).toNat / 2 ^ 24 = op := by
  rw [toNat_wordA hop hd ha hb hc]; omega
@[simp] theorem f6_18_wordA : f6 18 (wordA op d a b c) = ⟨d, hd⟩ := Fin.ext (by
  simp only [f6, fieldAt, toNat_wordA hop hd ha hb hc]; omega)
@[simp] theorem f6_12_wordA : f6 12 (wordA op d a b c) = ⟨a, ha⟩ := Fin.ext (by
  simp only [f6, fieldAt, toNat_wordA hop hd ha hb hc]; omega)
@[simp] theorem f6_6_wordA : f6 6 (wordA op d a b c) = ⟨b, hb⟩ := Fin.ext (by
  simp only [f6, fieldAt, toNat_wordA hop hd ha hb hc]; omega)
@[simp] theorem f6_0_wordA : f6 0 (wordA op d a b c) = ⟨c, hc⟩ := Fin.ext (by
  simp only [f6, fieldAt, toNat_wordA hop hd ha hb hc]; omega)

end

/-! ### What each format reads -/

/-- A format reads the instruction from a word and the literals after it, whatever follows. -/
structure Fmt.Reads (f : Fmt) (i : Instr) (w : W32) (lits : List W32) : Prop where
  read : ∀ rest, f w (lits ++ rest) = .ok i rest

/-! Format A. -/

section
variable {op : Nat} (hop : op < 256) (d : Dst) (a b c : Src) (x y z : Code)
include hop

theorem aNONE_reads (i : Instr) : (aNONE i).Reads i (wordA op 0 0 0 0) [] := .mk fun rest => by
  have hw : (wordA op 0 0 0 0).toNat % 2 ^ 24 = 0 := by rw [toNat_wordA hop] <;> omega
  rw [aNONE, hw]
  rfl
theorem aDSS0_reads (mk : Dst → Src → Src → Instr) :
    (aDSS0 mk).Reads (mk d a b) (wordA op d.code a.code b.code 0) (a.lits ++ b.lits) := .mk fun rest => by
  simp [aDSS0, hop]
theorem aDSSI_reads (mk : Dst → Src → Src → Code → Instr) :
    (aDSSI mk).Reads (mk d a b x) (wordA op d.code a.code b.code x.val) (a.lits ++ b.lits) := .mk fun rest => by
  simp [aDSSI, hop]
theorem aDS00_reads (mk : Dst → Src → Instr) :
    (aDS00 mk).Reads (mk d a) (wordA op d.code a.code 0 0) a.lits := .mk fun rest => by
  simp [aDS00, hop]
theorem aDSSS_reads (mk : Dst → Src → Src → Src → Instr) :
    (aDSSS mk).Reads (mk d a b c) (wordA op d.code a.code b.code c.code) (a.lits ++ b.lits ++ c.lits) := .mk fun rest => by
  simp [aDSSS, hop]
theorem aDS0I_reads (mk : Dst → Src → Code → Instr) :
    (aDS0I mk).Reads (mk d a x) (wordA op d.code a.code 0 x.val) a.lits := .mk fun rest => by
  simp [aDS0I, hop]
theorem aISSI_reads (mk : Code → Src → Src → Code → Instr) :
    (aISSI mk).Reads (mk x a b y) (wordA op x.val a.code b.code y.val) (a.lits ++ b.lits) := .mk fun rest => by
  simp [aISSI, hop]
theorem a0III_reads (mk : Code → Code → Code → Instr) :
    (a0III mk).Reads (mk x y z) (wordA op 0 x.val y.val z.val) [] := .mk fun rest => by
  simp [a0III, hop]
theorem a0I0I_reads (mk : Code → Code → Instr) :
    (a0I0I mk).Reads (mk x y) (wordA op 0 x.val 0 y.val) [] := .mk fun rest => by
  simp [a0I0I, hop]
theorem a000I_reads (mk : Code → Instr) :
    (a000I mk).Reads (mk x) (wordA op 0 0 0 x.val) [] := .mk fun rest => by
  simp [a000I, hop]
theorem aD00I_reads (mk : Dst → Code → Instr) :
    (aD00I mk).Reads (mk d x) (wordA op d.code 0 0 x.val) [] := .mk fun rest => by
  simp [aD00I, hop]
theorem a0S0I_reads (mk : Src → Code → Instr) :
    (a0S0I mk).Reads (mk a x) (wordA op 0 a.code 0 x.val) a.lits := .mk fun rest => by
  simp [a0S0I, hop]
theorem a0SSS_reads (mk : Src → Src → Src → Instr) :
    (a0SSS mk).Reads (mk a b c) (wordA op 0 a.code b.code c.code) (a.lits ++ b.lits ++ c.lits) := .mk fun rest => by
  simp [a0SSS, hop]
theorem a0S00_reads (mk : Src → Instr) :
    (a0S00 mk).Reads (mk a) (wordA op 0 a.code 0 0) a.lits := .mk fun rest => by
  simp [a0S00, hop]
theorem aD000_reads (mk : Dst → Instr) :
    (aD000 mk).Reads (mk d) (wordA op d.code 0 0 0) [] := .mk fun rest => by
  simp [aD000, hop]
theorem aIS0I_reads (mk : Code → Src → Code → Instr) :
    (aIS0I mk).Reads (mk x a y) (wordA op x.val a.code 0 y.val) a.lits := .mk fun rest => by
  simp [aIS0I, hop]
theorem aI000_reads (mk : Code → Instr) :
    (aI000 mk).Reads (mk x) (wordA op x.val 0 0 0) [] := .mk fun rest => by
  simp [aI000, hop]
theorem aDISI_reads (mk : Dst → Code → Src → Code → Instr) :
    (aDISI mk).Reads (mk d x b y) (wordA op d.code x.val b.code y.val) b.lits := .mk fun rest => by
  simp [aDISI, hop]
theorem aDI00_reads (mk : Dst → Code → Instr) :
    (aDI00 mk).Reads (mk d x) (wordA op d.code x.val 0 0) [] := .mk fun rest => by
  simp [aDI00, hop]
theorem aLIT2_reads (mk : Dst → BitVec 32 → BitVec 32 → Instr) (lo hi : W32) :
    (aLIT2 mk).Reads (mk d lo hi) (wordA op d.code 0x3A 0x3A 0) [lo, hi] := .mk fun rest => by
  simp [aLIT2, hop] <;> rfl

end

theorem aRDS_reads (mk : Dst → BitVec 12 → Instr) (d : Dst) (n : BitVec 12) {op : Nat} (hop : op < 256) :
    (aRDS mk).Reads (mk d n) (BitVec.ofNat 32 (op * 2 ^ 24 + d.code * 2 ^ 18 + n.toNat)) [] := .mk fun rest => by
  have hd := d.code_lt
  have hw := ofNat_toNat_of_lt (n := op * 2 ^ 24 + d.code * 2 ^ 18 + n.toNat) (by omega)
  rw [aRDS, f6_eq (lo := 18) (x := ⟨d.code, hd⟩) (by simp only; omega), f6_eq (lo := 12) (x := 0) (by simp only [Fin.val_zero]; omega), imm12_eq (x := n) (by omega), dst_code]
  rfl
theorem aWRS_reads (mk : Src → BitVec 12 → Instr) (a : Src) (n : BitVec 12) {op : Nat} (hop : op < 256) :
    (aWRS mk).Reads (mk a n) (BitVec.ofNat 32 (op * 2 ^ 24 + a.code * 2 ^ 12 + n.toNat)) a.lits := .mk fun rest => by
  have ha := a.code_lt
  have hw := ofNat_toNat_of_lt (n := op * 2 ^ 24 + a.code * 2 ^ 12 + n.toNat) (by omega)
  rw [aWRS, f6_eq (lo := 12) (x := ⟨a.code, ha⟩) (by simp only; omega), f6_eq (lo := 18) (x := 0) (by simp only [Fin.val_zero]; omega), imm12_eq (x := n) (by omega), withSrc_code]
  rfl

/-! Format M. -/

theorem MemMods.code_lt (m : MemMods) : m.code < 64 := by
  have := b2n_lt m.nt
  simp only [MemMods.code]; omega

section
variable {op : Nat} (hop : op < 256) (d : Dst) (a b c : Src) (m : MemMods)
include hop

theorem mods_wordA {x y z : Nat} (hx : x < 64) (hy : y < 64) (hz : z < 64) : mods (wordA op x y z m.code) = m := by
  have hw := toNat_wordA hop hx hy hz m.code_lt
  have hn := b2n_lt m.nt
  rw [MemMods.code] at hw
  rw [mods, f3_eq (x := m.scope) (by rw [MemMods.code]; omega), f2_eq (x := m.order) (by rw [MemMods.code]; omega),
    f1_eq (x := m.nt) (by rw [MemMods.code]; omega)]

theorem aMLD_reads (mk : Dst → Src → Src → MemMods → Instr) :
    (aMLD mk).Reads (mk d a b m) (wordA op d.code a.code b.code m.code) (a.lits ++ b.lits) := .mk fun rest => by
  simp [aMLD, hop, m.code_lt, mods_wordA]
theorem aMST_reads (mk : Src → Src → Src → MemMods → Instr) :
    (aMST mk).Reads (mk c a b m) (wordA op c.code a.code b.code m.code) (c.lits ++ a.lits ++ b.lits) := .mk fun rest => by
  simp [aMST, hop, m.code_lt, mods_wordA]
theorem aMFENCE_reads (mk : Fin 8 → Fin 4 → Instr) (scope : Fin 8) (order : Fin 4) :
    (aMFENCE mk).Reads (mk scope order) (wordA op 0 0 0 (scope.val * 8 + order.val * 2)) [] := .mk fun rest => by
  have hw := toNat_wordA hop (d := 0) (a := 0) (b := 0) (c := scope.val * 8 + order.val * 2) (by omega) (by omega) (by omega) (by omega)
  have hrest : (wordA op 0 0 0 (scope.val * 8 + order.val * 2)).toNat / 2 ^ 6 % 2 ^ 18 = 0 := by omega
  rw [aMFENCE, hrest, f1_eq (x := false) (by simp only [b2n, Bool.false_eq_true, if_false]; omega), f3_eq (x := scope) (by omega), f2_eq (x := order) (by omega)]
  rfl
theorem aMPREF_reads (mk : Src → Src → Fin 8 → Bool → Instr) (scope : Fin 8) (nt : Bool) :
    (aMPREF mk).Reads (mk a b scope nt) (wordA op 0 a.code b.code (scope.val * 8 + b2n nt)) (a.lits ++ b.lits) := .mk fun rest => by
  have hn := b2n_lt nt
  have hlow : scope.val * 8 + b2n nt < 64 := by omega
  have hw := toNat_wordA hop (d := 0) (by omega) a.code_lt b.code_lt hlow
  simp only [aMPREF, f2_eq (x := 0) (lo := 1) (w := wordA op 0 a.code b.code (scope.val * 8 + b2n nt)) (by omega),
    f3_eq (x := scope) (lo := 3) (w := wordA op 0 a.code b.code (scope.val * 8 + b2n nt)) (by omega),
    f1_eq (x := nt) (lo := 0) (w := wordA op 0 a.code b.code (scope.val * 8 + b2n nt)) (by omega)]
  simp [hop, hlow]
theorem aMCWB_reads (mk : Src → Src → Fin 8 → Instr) (scope : Fin 8) :
    (aMCWB mk).Reads (mk a b scope) (wordA op 0 a.code b.code (scope.val * 8)) (a.lits ++ b.lits) := .mk fun rest => by
  have hlow : scope.val * 8 < 64 := by omega
  have hw := toNat_wordA hop (d := 0) (by omega) a.code_lt b.code_lt hlow
  simp only [aMCWB, f3_eq (x := 0) (lo := 0) (w := wordA op 0 a.code b.code (scope.val * 8)) (by omega),
    f3_eq (x := scope) (lo := 3) (w := wordA op 0 a.code b.code (scope.val * 8)) (by omega)]
  simp [hop, hlow]
theorem aMCINV_reads (mk : Src → Src → Instr) :
    (aMCINV mk).Reads (mk a b) (wordA op 0 a.code b.code 0) (a.lits ++ b.lits) := .mk fun rest => by
  simp [aMCINV, hop]
theorem aMDK_reads (mk : Src → Instr) : (aMDK mk).Reads (mk a) (wordA op 0 a.code 0 0) a.lits := .mk fun rest => by
  have hw : (wordA op 0 a.code 0 0).toNat % 2 ^ 12 = 0 := by
    rw [toNat_wordA hop (by omega) a.code_lt (by omega) (by omega)]; omega
  rw [aMDK, f6_18_wordA hop (by omega) a.code_lt (by omega) (by omega), f6_12_wordA hop (by omega) a.code_lt (by omega) (by omega), hw,
    withSrc_code]
  rfl

end

/-! Formats X and T. -/

section
variable {op : Nat} (hop : op < 256) (st de k : SReg) (s d v m : Fin 8)
include hop

theorem toNat_wordX : (wordX op st.val de.val s.val d.val v.val m.val).toNat =
    op * 2 ^ 24 + (0x28 + st.val) * 2 ^ 18 + (0x28 + de.val) * 2 ^ 12 + (s.val * 8 + d.val) * 2 ^ 6 + (v.val * 8 + m.val) :=
  toNat_wordA hop (by omega) (by omega) (by omega) (by omega)

/-- The two scalars of a format X word, whatever reads its other fields. -/
theorem withSReg_wordX (g : SReg → SReg → Dec) : (withSReg (f6 18 (wordX op st.val de.val s.val d.val v.val m.val)) fun x =>
    withSReg (f6 12 (wordX op st.val de.val s.val d.val v.val m.val)) fun y => g x y) = g st de := by
  have hw := toNat_wordX hop st de s d v m
  rw [f6_eq (x := ⟨0x28 + st.val, by omega⟩) (lo := 18) (by simp only; omega),
    f6_eq (x := ⟨0x28 + de.val, by omega⟩) (lo := 12) (by simp only; omega), withSReg_code, withSReg_code]

theorem f3_9_wordX : f3 9 (wordX op st.val de.val s.val d.val v.val m.val) = s :=
  f3_eq (by rw [toNat_wordX hop]; omega)
theorem f3_6_wordX : f3 6 (wordX op st.val de.val s.val d.val v.val m.val) = d :=
  f3_eq (by rw [toNat_wordX hop]; omega)
theorem f3_3_wordX : f3 3 (wordX op st.val de.val s.val d.val v.val m.val) = v :=
  f3_eq (by rw [toNat_wordX hop]; omega)
theorem f3_0_wordX : f3 0 (wordX op st.val de.val s.val d.val v.val m.val) = m :=
  f3_eq (by rw [toNat_wordX hop]; omega)

theorem aXCPYR_reads (mk : SReg → SReg → Fin 8 → Fin 8 → Fin 8 → Fin 8 → Instr) :
    (aXCPYR mk).Reads (mk st de s d v m) (wordX op st.val de.val s.val d.val v.val m.val) [] := .mk fun rest => by
  rw [aXCPYR, withSReg_wordX hop, f3_9_wordX hop, f3_6_wordX hop, f3_3_wordX hop, f3_0_wordX hop]
  rfl
theorem aXCPY_reads (mk : SReg → SReg → Fin 8 → Fin 8 → Fin 8 → Instr) :
    (aXCPY mk).Reads (mk st de s d v) (wordX op st.val de.val s.val d.val v.val 0) [] := .mk fun rest => by
  have h0 := f3_0_wordX hop st de s d v 0
  have h := withSReg_wordX hop st de s d v 0
  rw [aXCPY, show wordX op st.val de.val s.val d.val v.val 0 = wordX op st.val de.val s.val d.val v.val (0 : Fin 8).val from rfl,
    h, h0, f3_9_wordX hop, f3_6_wordX hop, f3_3_wordX hop]
  rfl
theorem aXCPYD_reads (mk : SReg → SReg → Fin 8 → Fin 8 → Instr) :
    (aXCPYD mk).Reads (mk st de s v) (wordX op st.val de.val s.val 1 v.val 0) [] := .mk fun rest => by
  rw [aXCPYD, show wordX op st.val de.val s.val 1 v.val 0 = wordX op st.val de.val s.val (1 : Fin 8).val v.val (0 : Fin 8).val from rfl,
    withSReg_wordX hop, f3_9_wordX hop, f3_6_wordX hop, f3_3_wordX hop, f3_0_wordX hop]
  rfl
theorem aXCPYF_reads (mk : SReg → SReg → Fin 8 → Fin 8 → Instr) :
    (aXCPYF mk).Reads (mk st de d v) (wordX op st.val de.val 0 d.val v.val 0) [] := .mk fun rest => by
  rw [aXCPYF, show wordX op st.val de.val 0 d.val v.val 0 = wordX op st.val de.val (0 : Fin 8).val d.val v.val (0 : Fin 8).val from rfl,
    withSReg_wordX hop, f3_9_wordX hop, f3_6_wordX hop, f3_3_wordX hop, f3_0_wordX hop]
  rfl
theorem aXMRED_reads (mk : SReg → SReg → Fin 8 → Fin 8 → Fin 8 → Instr) :
    (aXMRED mk).Reads (mk st de s v m) (wordX op st.val de.val s.val 0 v.val m.val) [] := .mk fun rest => by
  rw [aXMRED, show wordX op st.val de.val s.val 0 v.val m.val = wordX op st.val de.val s.val (0 : Fin 8).val v.val m.val from rfl,
    withSReg_wordX hop, f3_9_wordX hop, f3_6_wordX hop, f3_3_wordX hop, f3_0_wordX hop]
  rfl

theorem toNat_wordT (t : Fin 16) (p q : Bool) : (wordT op t.val st.val de.val k.val (b2n p) (b2n q)).toNat =
    op * 2 ^ 24 + t.val * 2 ^ 20 + (0x28 + st.val) * 2 ^ 14 + (0x28 + de.val) * 2 ^ 8 + (0x28 + k.val) * 2 ^ 2 + b2n p * 2 + b2n q := by
  have := b2n_lt p
  have := b2n_lt q
  exact ofNat_toNat_of_lt (by omega)
theorem aT_reads (mk : Fin 16 → SReg → SReg → SReg → Bool → Bool → Instr) (t : Fin 16) (p q : Bool) :
    (aT mk).Reads (mk t st de k p q) (wordT op t.val st.val de.val k.val (b2n p) (b2n q)) [] := .mk fun rest => by
  have hw := toNat_wordT hop st de k t p q
  have hp := b2n_lt p
  have hq := b2n_lt q
  rw [aT, f6_eq (x := ⟨0x28 + st.val, by omega⟩) (lo := 14) (by simp only; omega),
    f6_eq (x := ⟨0x28 + de.val, by omega⟩) (lo := 8) (by simp only; omega),
    f6_eq (x := ⟨0x28 + k.val, by omega⟩) (lo := 2) (by simp only; omega), withSReg_code, withSReg_code, withSReg_code,
    f4_eq (x := t) (by omega), f1_eq (x := p) (by omega), f1_eq (x := q) (by omega)]
  rfl

end

/-! Format C. -/

section
variable {op : Nat} (hop : op < 256) (f : Code) (k : SReg) (t : Src) (o : BitVec 18)
include hop

theorem toNat_wordC {x y : Nat} (hx : x < 64) (hy : y < 2 ^ 18) : (wordC op x y).toNat = op * 2 ^ 24 + x * 2 ^ 18 + y :=
  ofNat_toNat_of_lt (by omega)
theorem opcode_wordC {x y : Nat} (hx : x < 64) (hy : y < 2 ^ 18) : (wordC op x y).toNat / 2 ^ 24 = op := by
  rw [toNat_wordC hop hx hy]; omega
theorem f6_18_wordC {x y : Nat} (hx : x < 64) (hy : y < 2 ^ 18) : f6 18 (wordC op x y) = ⟨x, hx⟩ :=
  f6_eq (by rw [toNat_wordC hop hx hy]; simp only; omega)
theorem low18_wordC {x y : Nat} (hx : x < 64) (hy : y < 2 ^ 18) : (wordC op x y).toNat % 2 ^ 18 = y := by
  rw [toNat_wordC hop hx hy]; omega
theorem imm18_wordC {x : Nat} (hx : x < 64) : imm18 (wordC op x o.toNat) = o :=
  imm18_eq (low18_wordC hop hx o.isLt)

theorem aCREL_reads (mk : BitVec 18 → Instr) : (aCREL mk).Reads (mk o) (wordC op 0 o.toNat) [] := .mk fun rest => by
  rw [aCREL, f6_18_wordC hop (by omega) o.isLt, imm18_wordC hop o (by omega)]
  rfl
theorem aCCOND_reads (mk : Code → BitVec 18 → Instr) : (aCCOND mk).Reads (mk f o) (wordC op f.val o.toNat) [] := .mk fun rest => by
  rw [aCCOND, f6_18_wordC hop f.isLt o.isLt, imm18_wordC hop o f.isLt]
  rfl
theorem aCS_reads (mk : SReg → Instr) : (aCS mk).Reads (mk k) (wordC op (0x28 + k.val) 0) [] := .mk fun rest => by
  rw [aCS, low18_wordC hop (by omega) (by omega), f6_18_wordC hop (by omega) (by omega), withSReg_code]
  rfl
theorem aCSRC_reads (mk : Src → Instr) : (aCSRC mk).Reads (mk t) (wordC op t.code 0) t.lits := .mk fun rest => by
  rw [aCSRC, low18_wordC hop t.code_lt (by omega), f6_18_wordC hop t.code_lt (by omega), withSrc_code]
  rfl
theorem aCF_reads (mk : Code → Instr) : (aCF mk).Reads (mk f) (wordC op f.val 0) [] := .mk fun rest => by
  rw [aCF, low18_wordC hop f.isLt (by omega), f6_18_wordC hop f.isLt (by omega)]
  rfl
theorem aCSL_reads (mk : SReg → BitVec 18 → Instr) : (aCSL mk).Reads (mk k o) (wordC op (0x28 + k.val) o.toNat) [] := .mk fun rest => by
  rw [aCSL, f6_18_wordC hop (by omega) o.isLt, withSReg_code, imm18_wordC hop o (by omega)]
  rfl
theorem aCALL_reads_call : aCALL.Reads (.call o) (wordC op 0 o.toNat) [] := .mk fun rest => by
  rw [aCALL, f6_18_wordC hop (by omega) o.isLt, if_pos rfl]
  exact (aCREL_reads hop o _).read rest
theorem aCALL_reads_callIndirect : aCALL.Reads (.callIndirect k) (wordC op (0x28 + k.val) 0) [] := .mk fun rest => by
  have hk : ¬0x28 + k.val = 0 := by omega
  rw [aCALL, f6_18_wordC hop (by omega) (by omega), if_neg hk]
  exact (aCS_reads hop k _).read rest

end

/-! Mill formats (R356). -/

section
variable {op d a low : Nat} (hop : op < 64) (hd : d < 32) (ha : a < 32) (hlow : low < 2 ^ 16)
include hop hd ha hlow

theorem toNat_wordM : (wordM op d a low).toNat = op * 2 ^ 26 + d * 2 ^ 21 + a * 2 ^ 16 + low :=
  ofNat_toNat_of_lt (by omega)
theorem opcode_wordM : (wordM op d a low).toNat / 2 ^ 26 = op := by
  rw [toNat_wordM hop hd ha hlow]; omega
theorem low16_wordM : (wordM op d a low).toNat % 2 ^ 16 = low := by
  rw [toNat_wordM hop hd ha hlow]; omega
theorem f5_21_wordM : f5 21 (wordM op d a low) = ⟨d, hd⟩ := f5_eq (by
  rw [toNat_wordM hop hd ha hlow]; simp only; omega)
theorem f5_16_wordM : f5 16 (wordM op d a low) = ⟨a, ha⟩ := f5_eq (by
  rw [toNat_wordM hop hd ha hlow]; simp only; omega)

end

theorem imm16_wordM {op d a : Nat} (hop : op < 64) (hd : d < 32) (ha : a < 32) (imm : BitVec 16) :
    imm16 (wordM op d a imm.toNat) = imm := imm16_eq (low16_wordM hop hd ha imm.isLt)

section
variable {op : Nat} (hop : op < 64) (d a b : GReg) (imm : BitVec 16)
include hop

theorem mMI_reads (mk : GReg → GReg → BitVec 16 → Instr) : (mMI mk).Reads (mk d a imm) (wordM op d.val a.val imm.toNat) [] := .mk fun rest => by
  rw [mMI, f5_21_wordM hop d.isLt a.isLt imm.isLt, f5_16_wordM hop d.isLt a.isLt imm.isLt, imm16_wordM hop d.isLt a.isLt]
  rfl
theorem mMIb_reads (mk : GReg → GReg → BitVec 16 → Instr) : (mMIb mk).Reads (mk d a imm) (wordM op d.val a.val imm.toNat) [] :=
  mMI_reads hop d a imm mk
theorem mMLUI_reads (mk : GReg → BitVec 16 → Instr) : (mMLUI mk).Reads (mk d imm) (wordM op d.val 0 imm.toNat) [] := .mk fun rest => by
  rw [mMLUI, f5_21_wordM hop d.isLt (by omega) imm.isLt, f5_16_wordM hop d.isLt (by omega) imm.isLt, imm16_wordM hop d.isLt (by omega)]
  rfl
theorem mMRS_reads (mk : GReg → BitVec 16 → Instr) : (mMRS mk).Reads (mk d imm) (wordM op d.val 0 imm.toNat) [] :=
  mMLUI_reads hop d imm mk
theorem mMWS_reads (mk : GReg → BitVec 16 → Instr) : (mMWS mk).Reads (mk a imm) (wordM op 0 a.val imm.toNat) [] := .mk fun rest => by
  rw [mMWS, f5_21_wordM hop (by omega) a.isLt imm.isLt, f5_16_wordM hop (by omega) a.isLt imm.isLt, imm16_wordM hop (by omega) a.isLt]
  rfl
theorem mMPK_reads (mk : GReg → BitVec 16 → Instr) : (mMPK mk).Reads (mk a imm) (wordM op 0 a.val imm.toNat) [] :=
  mMWS_reads hop a imm mk
theorem mMJR_reads (mk : GReg → GReg → Instr) : (mMJR mk).Reads (mk d a) (wordM op d.val a.val 0) [] := .mk fun rest => by
  rw [mMJR, low16_wordM hop d.isLt a.isLt (by omega), f5_21_wordM hop d.isLt a.isLt (by omega), f5_16_wordM hop d.isLt a.isLt (by omega)]
  rfl
theorem mRM1_reads (mk : GReg → GReg → Instr) : (mRM1 mk).Reads (mk d a) (wordM op d.val a.val 0) [] := mMJR_reads hop d a mk
theorem mRP_reads (mk : GReg → Instr) : (mRP mk).Reads (mk a) (wordM op 0 a.val 0) [] := .mk fun rest => by
  rw [mRP, low16_wordM hop (by omega) a.isLt (by omega), f5_21_wordM hop (by omega) a.isLt (by omega),
    f5_16_wordM hop (by omega) a.isLt (by omega)]
  rfl
theorem f5_11_wordM {x y : Nat} (hx : x < 32) (hy : y < 32) : f5 11 (wordM op x y (b.val * 2 ^ 11)) = b :=
  f5_eq (by rw [toNat_wordM hop hx hy (by omega)]; omega)
theorem low11_wordM {x y : Nat} (hx : x < 32) (hy : y < 32) : (wordM op x y (b.val * 2 ^ 11)).toNat % 2 ^ 11 = 0 := by
  rw [toNat_wordM hop hx hy (by omega)]; omega
theorem mRM2_reads (mk : GReg → GReg → GReg → Instr) : (mRM2 mk).Reads (mk d a b) (wordM op d.val a.val (b.val * 2 ^ 11)) [] := .mk fun rest => by
  rw [mRM2, low11_wordM hop b d.isLt a.isLt, f5_11_wordM hop b d.isLt a.isLt, f5_21_wordM hop d.isLt a.isLt (by omega),
    f5_16_wordM hop d.isLt a.isLt (by omega)]
  rfl
theorem mRMAC_reads (mk : GReg → GReg → GReg → Instr) : (mRMAC mk).Reads (mk d a b) (wordM op d.val a.val (b.val * 2 ^ 11)) [] :=
  mRM2_reads hop d a b mk
theorem mRPI_reads (mk : GReg → GReg → Instr) : (mRPI mk).Reads (mk a b) (wordM op 0 a.val (b.val * 2 ^ 11)) [] := .mk fun rest => by
  rw [mRPI, low11_wordM hop b (by omega) a.isLt, f5_11_wordM hop b (by omega) a.isLt, f5_21_wordM hop (by omega) a.isLt (by omega),
    f5_16_wordM hop (by omega) a.isLt (by omega)]
  rfl
theorem mMIMM_reads (mk : BitVec 16 → Instr) : (mMIMM mk).Reads (mk imm) (wordM op 0 0 imm.toNat) [] := .mk fun rest => by
  have hmid : (wordM op 0 0 imm.toNat).toNat / 2 ^ 16 % 2 ^ 10 = 0 := by rw [toNat_wordM hop] <;> omega
  rw [mMIMM, hmid, imm16_wordM hop (by omega) (by omega)]
  rfl
theorem mNONE_reads (i : Instr) : (mNONE i).Reads i (wordM op 0 0 0) [] := .mk fun rest => by
  have hlow : (wordM op 0 0 0).toNat % 2 ^ 26 = 0 := by rw [toNat_wordM hop] <;> omega
  rw [mNONE, hlow]
  rfl
theorem mWV_reads (mk : Fin 16 → Bool → GReg → BitVec 16 → Instr) (w : Fin 16) (buf : Bool) :
    (mWV mk).Reads (mk w buf a imm) (wordM op (w.val * 2 + b2n buf) a.val imm.toNat) [] := .mk fun rest => by
  have hb := b2n_lt buf
  have hd : w.val * 2 + b2n buf < 32 := by omega
  have hw := toNat_wordM hop hd a.isLt imm.isLt
  rw [mWV, f4_eq (x := w) (by omega), f1_eq (x := buf) (by omega), f5_16_wordM hop hd a.isLt imm.isLt, imm16_wordM hop hd a.isLt]
  rfl
theorem mSHF_reads (mk : GReg → GReg → ShiftKind → Code → Instr) (k : ShiftKind) (n : Code) :
    (mSHF mk).Reads (mk d a k n) (wordM op d.val a.val (k.code * 2 ^ 6 + n.val)) [] := .mk fun rest => by
  have hk : k.code < 3 := by cases k <;> decide
  have hw := toNat_wordM hop d.isLt a.isLt (low := k.code * 2 ^ 6 + n.val) (by omega)
  have hkind : (f2 6 (wordM op d.val a.val (k.code * 2 ^ 6 + n.val))).val = k.code := by
    rw [f2_eq (x := ⟨k.code, by omega⟩) (by simp only; omega)]
  have hhigh : (wordM op d.val a.val (k.code * 2 ^ 6 + n.val)).toNat / 2 ^ 8 % 2 ^ 8 = 0 := by omega
  rw [mSHF, hkind, hhigh, f5_21_wordM hop d.isLt a.isLt (by omega), f5_16_wordM hop d.isLt a.isLt (by omega),
    f6_eq (x := n) (lo := 0) (by omega)]
  cases k <;> rfl
theorem mMR_reads (mk : GReg → GReg → GReg → Instr) {f : Nat} (hf : f < 16) :
    (mMR mk).Reads (mk d a b) (wordM op d.val a.val (b.val * 2 ^ 11 + f)) [] := .mk fun rest => by
  have hw := toNat_wordM hop d.isLt a.isLt (low := b.val * 2 ^ 11 + f) (by omega)
  have hmid : (wordM op d.val a.val (b.val * 2 ^ 11 + f)).toNat / 2 ^ 4 % 2 ^ 7 = 0 := by omega
  rw [mMR, hmid, f5_21_wordM hop d.isLt a.isLt (by omega), f5_16_wordM hop d.isLt a.isLt (by omega), f5_eq (x := b) (lo := 11) (by omega)]
  rfl

end

theorem toNat_wordW {x y z v g : Nat} (hx : x < 16) (hy : y < 16) (hz : z < 16) (hv : v < 16) (hg : g < 2 ^ 10) :
    (wordW x y z v g).toNat = 0x18 * 2 ^ 26 + x * 2 ^ 22 + y * 2 ^ 18 + z * 2 ^ 14 + v * 2 ^ 10 + g :=
  ofNat_toNat_of_lt (by omega)

section
variable (d a b c : Fin 16) (k kc kd : Fin 4) {f : Nat} (hf : f < 16)
include hf

theorem mW4_reads (mk : Fin 16 → Fin 16 → Fin 16 → Fin 16 → Fin 4 → Instr) :
    (mW4 mk).Reads (mk d a b c k) (wordW d.val a.val b.val c.val (k.val * 2 ^ 8 + f)) [] := .mk fun rest => by
  have hw := toNat_wordW d.isLt a.isLt b.isLt c.isLt (g := k.val * 2 ^ 8 + f) (by omega)
  rw [mW4, f4_eq (lo := 4) (x := 0) (by rw [Fin.val_zero]; omega), f4_eq (lo := 22) (x := d) (by omega), f4_eq (lo := 18) (x := a) (by omega),
    f4_eq (lo := 14) (x := b) (by omega), f4_eq (lo := 10) (x := c) (by omega), f2_eq (lo := 8) (x := k) (by omega)]
  rfl
theorem mW3_reads (mk : Fin 16 → Fin 16 → Fin 16 → Fin 4 → Instr) :
    (mW3 mk).Reads (mk d a b k) (wordW d.val a.val b.val 0 (k.val * 2 ^ 8 + f)) [] := .mk fun rest => by
  have hw := toNat_wordW d.isLt a.isLt b.isLt (v := 0) (by omega) (g := k.val * 2 ^ 8 + f) (by omega)
  rw [mW3, f4_eq (lo := 10) (x := 0) (by rw [Fin.val_zero]; omega), f4_eq (lo := 4) (x := 0) (by rw [Fin.val_zero]; omega),
    f4_eq (lo := 22) (x := d) (by omega), f4_eq (lo := 18) (x := a) (by omega), f4_eq (lo := 14) (x := b) (by omega),
    f2_eq (lo := 8) (x := k) (by omega)]
  rfl
theorem mW2_reads (mk : Fin 16 → Fin 16 → Fin 4 → Instr) :
    (mW2 mk).Reads (mk d a k) (wordW d.val a.val 0 0 (k.val * 2 ^ 8 + f)) [] := .mk fun rest => by
  have hw := toNat_wordW d.isLt a.isLt (z := 0) (by omega) (v := 0) (by omega) (g := k.val * 2 ^ 8 + f) (by omega)
  have hmid : (wordW d.val a.val 0 0 (k.val * 2 ^ 8 + f)).toNat / 2 ^ 10 % 2 ^ 8 = 0 := by omega
  rw [mW2, hmid, f4_eq (lo := 4) (x := 0) (by rw [Fin.val_zero]; omega), f4_eq (lo := 22) (x := d) (by omega),
    f4_eq (lo := 18) (x := a) (by omega), f2_eq (lo := 8) (x := k) (by omega)]
  rfl
theorem mWCMP_reads (mk : Fin 4 → Fin 16 → Fin 16 → Fin 4 → Fin 16 → Instr) :
    (mWCMP mk).Reads (mk kd a b k c) (wordW kd.val a.val b.val 0 (k.val * 2 ^ 8 + c.val * 2 ^ 4 + f)) [] := .mk fun rest => by
  have hw := toNat_wordW (x := kd.val) (by omega) a.isLt b.isLt (v := 0) (by omega) (g := k.val * 2 ^ 8 + c.val * 2 ^ 4 + f) (by omega)
  rw [mWCMP, f2_eq (lo := 24) (x := 0) (by rw [Fin.val_zero]; omega), f4_eq (lo := 10) (x := 0) (by rw [Fin.val_zero]; omega),
    f2_eq (lo := 22) (x := kd) (by omega), f4_eq (lo := 18) (x := a) (by omega), f4_eq (lo := 14) (x := b) (by omega),
    f2_eq (lo := 8) (x := k) (by omega), f4_eq (lo := 4) (x := c) (by omega)]
  rfl
theorem mWSEL_reads (mk : Fin 16 → Fin 16 → Fin 16 → Fin 4 → Fin 4 → Instr) :
    (mWSEL mk).Reads (mk d a b kc k) (wordW d.val a.val b.val kc.val (k.val * 2 ^ 8 + f)) [] := .mk fun rest => by
  have hw := toNat_wordW d.isLt a.isLt b.isLt (v := kc.val) (by omega) (g := k.val * 2 ^ 8 + f) (by omega)
  rw [mWSEL, f2_eq (lo := 12) (x := 0) (by rw [Fin.val_zero]; omega), f4_eq (lo := 4) (x := 0) (by rw [Fin.val_zero]; omega),
    f4_eq (lo := 22) (x := d) (by omega), f4_eq (lo := 18) (x := a) (by omega), f4_eq (lo := 14) (x := b) (by omega),
    f2_eq (lo := 10) (x := kc) (by omega), f2_eq (lo := 8) (x := k) (by omega)]
  rfl

end

end Sys2Proof

/-! PROOFS. Each word under its opcode (R222, R229 to R231, R357): the map of its class lists the format that reads it back, and the decoder
takes it there (O56, O57). -/

namespace Sys2Proof

/-! ### A word, its opcode and its format -/

/-- Class `c` lists, under the opcode of the word that `i` is written as, a format that reads `i` back; a transfer takes as many literals as
the check of R221 allows it. -/
def ClauseClass.Writes (c : ClauseClass) (i : Instr) : Prop := ∃ (op : Nat) (f : Fmt) (w : W32) (lits : List W32),
  i.encode = w :: lits ∧ w.toNat / 2 ^ 24 = op ∧ c.map op = some f ∧ f.Reads i w lits ∧
    (c = .ctl → isTransferOp op = true → lits.length = transferLits w)

section
variable {c : ClauseClass} {i : Instr} {f : Fmt} {op d a b x : Nat} {w : W32} {lits : List W32}

theorem writes_of_opcode (hc : c ≠ .ctl) (he : i.encode = w :: lits) (hm : c.map op = some f) (hop : w.toNat / 2 ^ 24 = op)
    (hr : f.Reads i w lits) : c.Writes i :=
  ⟨op, f, w, lits, he, hop, hm, hr, fun h => absurd h hc⟩

theorem writes_of_wordA (hc : c ≠ .ctl) (he : i.encode = wordA op d a b x :: lits) (hm : c.map op = some f) (hop : op < 256)
    (hr : op < 256 → f.Reads i (wordA op d a b x) lits) (hd : d < 64) (ha : a < 64) (hb : b < 64) (hx : x < 64) : c.Writes i :=
  writes_of_opcode hc he hm (opcode_wordA hop hd ha hb hx) (hr hop)

theorem writes_ctl_of_wordC (he : i.encode = wordC op d a :: lits) (hm : ClauseClass.ctl.map op = some f) (hop : op < 256)
    (hr : op < 256 → f.Reads i (wordC op d a) lits) (hd : d < 64) (ha : a < 2 ^ 18)
    (hl : lits.length = transferLits (wordC op d a)) : ClauseClass.ctl.Writes i :=
  ⟨op, f, _, lits, he, opcode_wordC hop hd ha, hm, hr hop, fun _ _ => hl⟩

end

/-- Only jmpi takes a literal (R226). -/
theorem transferLits_of_opcode_ne {w : W32} {op : Nat} (hw : w.toNat / 2 ^ 24 = op) (hop : op ≠ 0x08) : transferLits w = 0 :=
  if_neg fun h => hop (hw.symm.trans h.1)

theorem transferLits_jmpi (t : Src) : t.lits.length = transferLits (wordC 0x08 t.code 0) := by
  have hfield := f6_18_wordC (op := 0x08) (by decide) t.code_lt (y := 0) (by decide)
  rw [transferLits, opcode_wordC (by decide) t.code_lt (by decide), hfield]
  cases t with
  | lit => rfl
  | q n | v n | s n | rsv n =>
    refine (if_neg fun h => ?_).symm
    have := h.2
    simp only [Src.code] at this
    omega
  | zero | lid => rfl

theorem scopeNt_lt (scope : Fin 8) (nt : Bool) : scope.val * 8 + b2n nt < 64 := by
  have := b2n_lt nt
  omega

theorem opcode_rds (d : Dst) (n : BitVec 12) : (BitVec.ofNat 32 (0x00 * 2 ^ 24 + d.code * 2 ^ 18 + n.toNat)).toNat / 2 ^ 24 = 0x00 := by
  have := d.code_lt
  rw [ofNat_toNat_of_lt (by omega)]
  omega
theorem opcode_wrs (a : Src) (n : BitVec 12) : (BitVec.ofNat 32 (0x01 * 2 ^ 24 + a.code * 2 ^ 12 + n.toNat)).toNat / 2 ^ 24 = 0x01 := by
  have := a.code_lt
  rw [ofNat_toNat_of_lt (by omega)]
  omega
theorem opcode_wordT {op : Nat} (hop : op < 256) (t : Fin 16) (am bm fb : SReg) (p q : Bool) :
    (wordT op t.val am.val bm.val fb.val (b2n p) (b2n q)).toNat / 2 ^ 24 = op := by
  have := b2n_lt p
  have := b2n_lt q
  rw [toNat_wordT hop]
  omega

/-! ### The words of each class -/

theorem writes_alu {i : Instr} (h : i.ctx = some (.clause .alu)) : ClauseClass.alu.Writes i := by
  cases i
  case nop =>
    exact writes_of_wordA nofun rfl rfl (by decide) (fun h => aNONE_reads h ..) (by decide) (by decide) (by decide) (by decide)
  case sadd | ssub | smul | smulhS | smulhZ | sdivS | sdivZ | sremS | sremZ | sand | sor | sxor | sshl | sshr | ssar | sminS | smaxS | sminZ | smaxZ
      | scmpS | scmpZ | vadd | vsub | vmul | vmulhS | vmulhZ | vaddsS | vsubsS | vminS | vmaxS | vminZ | vmaxZ | vand | vor | vxor | vshl | vshr
      | vsar | vfadd | vfsub | vfmul | vfmin | vfmax | vfdiv | vbcast | vtos | vcvtN4F32 =>
    exact writes_of_wordA nofun rfl rfl (by decide) (fun h => aDSS0_reads h ..) (Dst.code_lt _) (Src.code_lt _) (Src.code_lt _) (by decide)
  case ssel | sbfx | sbfi | vbfx | vbfi | vsel | vshfl | vcvtE8F32 | vcvtF32E8 | vcvtF32N4 =>
    exact writes_of_wordA nofun rfl rfl (by decide) (fun h => aDSSI_reads h ..) (Dst.code_lt _) (Src.code_lt _) (Src.code_lt _) (Fin.isLt _)
  case smov | sclz | spopc | sexw | szxw | vabsS | vclz | vpopc | vmov | vfabs | vfneg | vfsqrt | vfrcp | vfrsq | vfex2 | vflg2 | vfsinp | vfcosp
      | vfcls | vredaddF32 | vredaddB32 | vredminS | vredmaxS | vredminF32 | vredmaxF32 | vscanaddF32 | vscanaddB32 =>
    exact writes_of_wordA nofun rfl rfl (by decide) (fun h => aDS00_reads h ..) (Dst.code_lt _) (Src.code_lt _) (by decide) (by decide)
  case smovl =>
    exact writes_of_wordA nofun rfl rfl (by decide) (fun h => aLIT2_reads h ..) (Dst.code_lt _) (by decide) (by decide) (by decide)
  case smad | vmad | vffma =>
    exact writes_of_wordA nofun rfl rfl (by decide) (fun h => aDSSS_reads h ..) (Dst.code_lt _) (Src.code_lt _) (Src.code_lt _) (Src.code_lt _)
  case vfrnd | vcvtF32S32 | vcvtF32Z32 | vcvtS32F32 | vcvtZ32F32 | vcvtF16F32 | vcvtBf16F32 | vcvtF32F16 | vcvtF32Bf16 | vmxscale =>
    exact writes_of_wordA nofun rfl rfl (by decide) (fun h => aDS0I_reads h ..) (Dst.code_lt _) (Src.code_lt _) (by decide) (Fin.isLt _)
  case vcmpS | vcmpZ | vfcmp =>
    exact writes_of_wordA nofun rfl rfl (by decide) (fun h => aISSI_reads h ..) (Fin.isLt _) (Src.code_lt _) (Src.code_lt _) (Fin.isLt _)
  case mand | mor | mxor =>
    exact writes_of_wordA nofun rfl rfl (by decide) (fun h => a0III_reads h ..) (by decide) (Fin.isLt _) (Fin.isLt _) (Fin.isLt _)
  case mnot =>
    exact writes_of_wordA nofun rfl rfl (by decide) (fun h => a0I0I_reads h ..) (by decide) (Fin.isLt _) (by decide) (Fin.isLt _)
  case mtoex | mfrex =>
    exact writes_of_wordA nofun rfl rfl (by decide) (fun h => a000I_reads h ..) (by decide) (by decide) (by decide) (Fin.isLt _)
  case mpopc | mfirst | mtos =>
    exact writes_of_wordA nofun rfl rfl (by decide) (fun h => aD00I_reads h ..) (Dst.code_lt _) (by decide) (by decide) (Fin.isLt _)
  case mfroms =>
    exact writes_of_wordA nofun rfl rfl (by decide) (fun h => a0S0I_reads h ..) (by decide) (Src.code_lt _) (by decide) (Fin.isLt _)
  all_goals cases h

theorem writes_mem {i : Instr} (h : i.ctx = some (.clause .mem)) : ClauseClass.mem.Writes i := by
  cases i
  case ldB8 | ldS8 | ldB16 | ldS16 | ldB32 | ldB64 | ldB128 | ldsB8 | ldsS8 | ldsB16 | ldsS16 | ldsB32 | ldsB64 | ldsB128 | ldcB8 | ldcS8 | ldcB16
      | ldcS16 | ldcB32 | ldcB64 | ldcB128 | lddB8 | lddS8 | lddB16 | lddS16 | lddB32 | lddB64 | lddB128 | ldpB8 | ldpS8 | ldpB16 | ldpS16 | ldpB32
      | ldpB64 | ldpB128 | sldB32 | sldB64 | sldsB64 | atomAddB32 | atomAddF32 | atomMinS32 | atomMaxS32 | atomMinZ32 | atomMaxZ32 | atomAnd | atomOr
      | atomXor | atomXchg | atomCas | atomAddB64 | atomCasB64 | atomsAddB32 | atomsAddF32 | atomsMinS32 | atomsMaxS32 | atomsMinZ32 | atomsMaxZ32
      | atomsAnd | atomsOr | atomsXor | atomsXchg | atomsCas | atomsAddB64 | atomsCasB64 | satomAddB64 | satomCasB64 =>
    exact writes_of_wordA nofun rfl rfl (by decide) (fun h => aMLD_reads h ..) (Dst.code_lt _) (Src.code_lt _) (Src.code_lt _) (MemMods.code_lt _)
  case stB8 | stB16 | stB32 | stB64 | stB128 | stN4 | stsB8 | stsB16 | stsB32 | stsB64 | stsB128 | stsN4 | stcB8 | stcB16 | stcB32 | stcB64 | stcB128
      | stdB8 | stdB16 | stdB32 | stdB64 | stdB128 | stpB8 | stpB16 | stpB32 | stpB64 | stpB128 | sstB32 | sstB64 | sstsB64 | redAddB32 | redAddF32
      | redMinS32 | redMaxS32 | redAnd | redOr | redXor =>
    exact writes_of_wordA nofun rfl rfl (by decide) (fun h => aMST_reads h ..) (Src.code_lt _) (Src.code_lt _) (Src.code_lt _) (MemMods.code_lt _)
  case fence =>
    exact writes_of_wordA nofun rfl rfl (by decide) (fun h => aMFENCE_reads h ..) (by decide) (by decide) (by decide) (by omega)
  case pref =>
    exact writes_of_wordA nofun rfl rfl (by decide) (fun h => aMPREF_reads h ..) (by decide) (Src.code_lt _) (Src.code_lt _) (scopeNt_lt _ _)
  case cwb =>
    exact writes_of_wordA nofun rfl rfl (by decide) (fun h => aMCWB_reads h ..) (by decide) (Src.code_lt _) (Src.code_lt _) (by omega)
  case cinv =>
    exact writes_of_wordA nofun rfl rfl (by decide) (fun h => aMCINV_reads h ..) (by decide) (Src.code_lt _) (Src.code_lt _) (by decide)
  case dkflush =>
    exact writes_of_wordA nofun rfl rfl (by decide) (fun h => aMDK_reads h ..) (by decide) (Src.code_lt _) (by decide) (by decide)
  all_goals cases h

theorem writes_mtx {i : Instr} (h : i.ctx = some (.clause .mtx)) : ClauseClass.mtx.Writes i := by
  cases i
  case mma | mmaz =>
    exact writes_of_opcode nofun rfl rfl (opcode_wordT (by decide) ..) (aT_reads (by decide) ..)
  case mbatch =>
    exact writes_of_wordA nofun rfl rfl (by decide) (fun h => aD000_reads h ..) (Dst.code_lt _) (by decide) (by decide) (by decide)
  case mwait =>
    exact writes_of_wordA nofun rfl rfl (by decide) (fun h => a0S00_reads h ..) (by decide) (Src.code_lt _) (by decide) (by decide)
  case mdrain | mfill =>
    exact writes_of_wordA nofun rfl rfl (by decide) (fun h => aIS0I_reads h ..) (Fin.isLt _) (Src.code_lt _) (by decide) (Fin.isLt _)
  case mdrainx | mwrv =>
    exact writes_of_wordA nofun rfl rfl (by decide) (fun h => aISSI_reads h ..) (Fin.isLt _) (Src.code_lt _) (Src.code_lt _) (Fin.isLt _)
  case mzero =>
    exact writes_of_wordA nofun rfl rfl (by decide) (fun h => aI000_reads h ..) (Fin.isLt _) (by decide) (by decide) (by decide)
  case mrdv =>
    exact writes_of_wordA nofun rfl rfl (by decide) (fun h => aDISI_reads h ..) (Dst.code_lt _) (Fin.isLt _) (Src.code_lt _) (Fin.isLt _)
  case mprog =>
    exact writes_of_wordA nofun rfl rfl (by decide) (fun h => aDI00_reads h ..) (Dst.code_lt _) (Fin.isLt _) (by decide) (by decide)
  all_goals cases h

theorem writes_asy {i : Instr} (h : i.ctx = some (.clause .asy)) : ClauseClass.asy.Writes i := by
  cases i
  case cpy | cpyg | cpys =>
    exact writes_of_wordA nofun rfl rfl (by decide) (fun h => aXCPY_reads h ..) (by omega) (by omega) (by omega) (by omega)
  case cpy2 | cpym =>
    exact writes_of_wordA nofun rfl rfl (by decide) (fun h => aXCPYD_reads h ..) (by omega) (by omega) (by omega) (by omega)
  case cpyr =>
    exact writes_of_wordA nofun rfl rfl (by decide) (fun h => aXCPYR_reads h ..) (by omega) (by omega) (by omega) (by omega)
  case cpyf =>
    exact writes_of_wordA nofun rfl rfl (by decide) (fun h => aXCPYF_reads h ..) (by omega) (by omega) (by omega) (by omega)
  case mred =>
    exact writes_of_wordA nofun rfl rfl (by decide) (fun h => aXMRED_reads h ..) (by omega) (by omega) (by omega) (by omega)
  all_goals cases h

theorem writes_sys {i : Instr} (h : i.ctx = some (.clause .sys)) : ClauseClass.sys.Writes i := by
  cases i
  case rdsys =>
    exact writes_of_opcode nofun rfl rfl (opcode_rds _ _) (aRDS_reads _ _ _ (by decide))
  case wrsys =>
    exact writes_of_opcode nofun rfl rfl (opcode_wrs _ _) (aWRS_reads _ _ _ (by decide))
  case topo | tnow | pmrd =>
    exact writes_of_wordA nofun rfl rfl (by decide) (fun h => aD00I_reads h ..) (Dst.code_lt _) (by decide) (by decide) (Fin.isLt _)
  case fltack =>
    exact writes_of_wordA nofun rfl rfl (by decide) (fun h => a0S0I_reads h ..) (by decide) (Src.code_lt _) (by decide) (Fin.isLt _)
  case xlinv =>
    exact writes_of_wordA nofun rfl rfl (by decide) (fun h => a0SSS_reads h ..) (by decide) (Src.code_lt _) (Src.code_lt _) (Src.code_lt _)
  case dbgmk =>
    exact writes_of_wordA nofun rfl rfl (by decide) (fun h => a0S00_reads h ..) (by decide) (Src.code_lt _) (by decide) (by decide)
  all_goals cases h

theorem writes_ctl {i : Instr} (h : i.ctx = some (.clause .ctl)) : ClauseClass.ctl.Writes i := by
  have zeroLits {op d a : Nat} (hop : op < 256) (hd : d < 64) (ha : a < 2 ^ 18) (hne : op ≠ 0x08) :
      ([] : List W32).length = transferLits (wordC op d a) := (transferLits_of_opcode_ne (opcode_wordC hop hd ha) hne).symm
  have bare {i : Instr} {op : Nat} (hop : op < 256) (hne : op ≠ 0x08) (he : i.encode = [wordA op 0 0 0 0])
      (hm : ClauseClass.ctl.map op = some (aNONE i)) : ClauseClass.ctl.Writes i :=
    have hw := opcode_wordA hop (d := 0) (a := 0) (b := 0) (c := 0) (by decide) (by decide) (by decide) (by decide)
    ⟨op, _, _, _, he, hw, hm, aNONE_reads hop i, fun _ _ => (transferLits_of_opcode_ne hw hne).symm⟩
  cases i
  case br o | bxz o | bxnz o | trap o | brk o =>
    exact writes_ctl_of_wordC rfl rfl (by decide) (fun h => aCREL_reads h ..) (by decide) o.isLt (zeroLits (by decide) (by decide) o.isLt (by decide))
  case bcc f o | bmz f o | bmnz f o =>
    exact writes_ctl_of_wordC rfl rfl (by decide) (fun h => aCCOND_reads h ..) f.isLt o.isLt (zeroLits (by decide) f.isLt o.isLt (by decide))
  case call o =>
    exact writes_ctl_of_wordC rfl rfl (by decide) (aCALL_reads_call · o) (by decide) o.isLt (zeroLits (by decide) (by decide) o.isLt (by decide))
  case callIndirect k =>
    exact writes_ctl_of_wordC rfl rfl (by decide) (aCALL_reads_callIndirect · k) (by omega) (by decide)
      (zeroLits (by decide) (by omega) (by decide) (by decide))
  case ret => exact bare (by decide) (by decide) rfl rfl
  case exelse => exact bare (by decide) (by decide) rfl rfl
  case exend => exact bare (by decide) (by decide) rfl rfl
  case exit => exact bare (by decide) (by decide) rfl rfl
  case jmpi t => exact writes_ctl_of_wordC rfl rfl (by decide) (fun h => aCSRC_reads h ..) t.code_lt (by decide) (transferLits_jmpi t)
  case exif f | tbar f | tarr f | twait f | cbar f | tethArr f | tethWait f =>
    exact writes_ctl_of_wordC rfl rfl (by decide) (fun h => aCF_reads h ..) f.isLt (by decide) (zeroLits (by decide) f.isLt (by decide) (by decide))
  case tlaunch k | qtail k =>
    exact writes_ctl_of_wordC rfl rfl (by decide) (fun h => aCS_reads h ..) (by omega) (by decide) (zeroLits (by decide) (by omega) (by decide) (by decide))
  case wfa k o =>
    exact writes_ctl_of_wordC rfl rfl (by decide) (fun h => aCSL_reads h ..) (by omega) o.isLt (zeroLits (by decide) (by omega) o.isLt (by decide))
  all_goals cases h

/-- Every word of a clause is listed in its own class. -/
theorem writes_of_ctx {i : Instr} {c : ClauseClass} (h : i.ctx = some (.clause c)) : c.Writes i := by
  cases c with
  | alu => exact writes_alu h
  | mem => exact writes_mem h
  | mtx => exact writes_mtx h
  | asy => exact writes_asy h
  | ctl => exact writes_ctl h
  | sys => exact writes_sys h

/-! ### The words of a mill -/

/-- A mill word is read back by the format that its opcode, or the function field of groups MR and MW, selects (R357). -/
def Instr.MillWrites (i : Instr) : Prop := ∃ (f : Fmt) (w : W32), i.encode = [w] ∧ millFmt w = some f ∧ f.Reads i w []

section
variable {i : Instr} {f : Fmt} {op d a low : Nat}

theorem millWrites_of_wordM (he : i.encode = [wordM op d a low]) (hm : millMap op = some f) (hop : op < 64 ∧ op ≠ 0x00 ∧ op ≠ 0x18)
    (hr : op < 64 → f.Reads i (wordM op d a low) []) (hd : d < 32) (ha : a < 32) (hlow : low < 2 ^ 16) : i.MillWrites :=
  ⟨f, _, he, by rw [millFmt, opcode_wordM hop.1 hd ha hlow, if_neg hop.2.1, if_neg hop.2.2, hm], hr hop.1⟩

theorem millWrites_of_mr {n : Nat} (b : GReg) (he : i.encode = [wordM 0 d a (b.val * 2 ^ 11 + n)]) (hm : mrMap n = some f) (hn : n < 16)
    (hr : n < 16 → f.Reads i (wordM 0 d a (b.val * 2 ^ 11 + n)) []) (hd : d < 32) (ha : a < 32) : i.MillWrites := by
  have hw := toNat_wordM (op := 0) (by decide) hd ha (low := b.val * 2 ^ 11 + n) (by omega)
  have hfunc : (wordM 0 d a (b.val * 2 ^ 11 + n)).toNat % 2 ^ 4 = n := by omega
  exact ⟨f, _, he, by rw [millFmt, opcode_wordM (by decide) hd ha (by omega), if_pos rfl, hfunc, hm], hr hn⟩

theorem millWrites_of_mw {x y z v g n : Nat} (he : i.encode = [wordW x y z v (g + n)]) (hm : mwMap n = some f) (hn : n < 16)
    (hr : f.Reads i (wordW x y z v (g + n)) []) (hx : x < 16) (hy : y < 16) (hz : z < 16) (hv : v < 16) (hg : g + 16 ≤ 2 ^ 10) (hg0 : g % 16 = 0) :
    i.MillWrites := by
  have hw := toNat_wordW hx hy hz hv (g := g + n) (by omega)
  have hop : (wordW x y z v (g + n)).toNat / 2 ^ 26 = 0x18 := by omega
  have hfunc : (wordW x y z v (g + n)).toNat % 2 ^ 4 = n := by omega
  exact ⟨f, _, he, by rw [millFmt, hop, if_neg (by decide), if_pos rfl, hfunc, hm], hr⟩

end

theorem vecBuf_lt (w : Fin 16) (buf : Bool) : w.val * 2 + b2n buf < 32 := by
  have := b2n_lt buf
  omega
theorem shiftCode_lt (k : ShiftKind) (n : Code) : k.code * 2 ^ 6 + n.val < 2 ^ 16 := by
  have hk : k.code < 3 := by cases k <;> decide
  omega

theorem millWrites_of_ctx {i : Instr} (h : i.ctx = some .mill) : i.MillWrites := by
  cases i
  case millAdd | millSub | millMul | millMulh | millAnd | millOr | millXor | millShl | millShr | millSar | millSlt | millSltz | millMin | millMax =>
    exact millWrites_of_mr _ rfl rfl (by decide) (fun h => mMR_reads (by decide) _ _ _ _ h) (Fin.isLt _) (Fin.isLt _)
  case millWaddB32 | millWsubB32 | millWmulB32 | millWfadd | millWfmul | millWfmax | millWfmin | millWbcast =>
    exact millWrites_of_mw rfl rfl (by decide) (mW3_reads _ _ _ _ (by decide) _) (Fin.isLt _) (Fin.isLt _) (Fin.isLt _) (by decide) (by omega) (by omega)
  case millWffma =>
    exact millWrites_of_mw rfl rfl (by decide) (mW4_reads _ _ _ _ _ (by decide) _) (Fin.isLt _) (Fin.isLt _) (Fin.isLt _) (Fin.isLt _) (by omega) (by omega)
  case millWredaddF32 =>
    exact millWrites_of_mw rfl rfl (by decide) (mW2_reads _ _ _ (by decide) _) (Fin.isLt _) (Fin.isLt _) (by decide) (by decide) (by omega) (by omega)
  case millWcmp =>
    exact millWrites_of_mw rfl rfl (by decide) (mWCMP_reads _ _ _ _ _ (by decide) _) (by omega) (Fin.isLt _) (Fin.isLt _) (by decide) (by omega) (by omega)
  case millWsel =>
    exact millWrites_of_mw rfl rfl (by decide) (mWSEL_reads _ _ _ _ _ (by decide) _) (Fin.isLt _) (Fin.isLt _) (Fin.isLt _) (by omega) (by omega) (by omega)
  case millAddi | millAndi | millOri | millXori | millLd64 | millSt64 | millLd32 | millSt32 | millLdt | millStt =>
    exact millWrites_of_wordM rfl rfl (by decide) (fun h => mMI_reads h ..) (Fin.isLt _) (Fin.isLt _) (BitVec.isLt _)
  case millBeq | millBne | millBlt | millBge =>
    exact millWrites_of_wordM rfl rfl (by decide) (fun h => mMIb_reads h ..) (Fin.isLt _) (Fin.isLt _) (BitVec.isLt _)
  case millLui | millJal =>
    exact millWrites_of_wordM rfl rfl (by decide) (fun h => mMLUI_reads h ..) (Fin.isLt _) (by decide) (BitVec.isLt _)
  case millMrdsr => exact millWrites_of_wordM rfl rfl (by decide) (fun h => mMRS_reads h ..) (Fin.isLt _) (by decide) (BitVec.isLt _)
  case millMwrsr => exact millWrites_of_wordM rfl rfl (by decide) (fun h => mMWS_reads h ..) (by decide) (Fin.isLt _) (BitVec.isLt _)
  case millMpark => exact millWrites_of_wordM rfl rfl (by decide) (fun h => mMPK_reads h ..) (by decide) (Fin.isLt _) (BitVec.isLt _)
  case millMtrap => exact millWrites_of_wordM rfl rfl (by decide) (fun h => mMIMM_reads h ..) (by decide) (by decide) (BitVec.isLt _)
  case millRowwait | millMsync | millMhalt => exact millWrites_of_wordM rfl rfl (by decide) (fun h => mNONE_reads h ..) (by decide) (by decide) (by decide)
  case millJr => exact millWrites_of_wordM rfl rfl (by decide) (fun h => mMJR_reads h ..) (Fin.isLt _) (Fin.isLt _) (by decide)
  case millRowzero | millRowinv => exact millWrites_of_wordM rfl rfl (by decide) (fun h => mRM1_reads h ..) (Fin.isLt _) (Fin.isLt _) (by decide)
  case millBanklk | millBankul => exact millWrites_of_wordM rfl rfl (by decide) (fun h => mRP_reads h ..) (by decide) (Fin.isLt _) (by decide)
  case millRowcp => exact millWrites_of_wordM rfl rfl (by decide) (fun h => mRM2_reads h ..) (Fin.isLt _) (Fin.isLt _) (by omega)
  case millRowmac => exact millWrites_of_wordM rfl rfl (by decide) (fun h => mRMAC_reads h ..) (Fin.isLt _) (Fin.isLt _) (by omega)
  case millRowbuf | millBufrow => exact millWrites_of_wordM rfl rfl (by decide) (fun h => mRPI_reads h ..) (by decide) (Fin.isLt _) (by omega)
  case millWld | millWst => exact millWrites_of_wordM rfl rfl (by decide) (fun h => mWV_reads h ..) (vecBuf_lt _ _) (Fin.isLt _) (BitVec.isLt _)
  case millShfi d a k n => exact millWrites_of_wordM rfl rfl (by decide) (fun h => mSHF_reads h ..) (Fin.isLt _) (Fin.isLt _) (shiftCode_lt k n)
  all_goals cases h

/-! ### The decoder -/

/-- The opcode of the word that an instruction is written as. -/
theorem decodeWord_of_writes {c : ClauseClass} {i : Instr} (h : c.Writes i) (rest : List W32)
    (hlast : c = .ctl → isTransferOp ((i.encode.headD 0).toNat / 2 ^ 24) = true → rest = []) : decodeWord c (i.encode ++ rest) = .ok i rest := by
  obtain ⟨op, f, w, lits, he, hw, hm, hr, hl⟩ := h
  rw [he] at hlast ⊢
  rw [List.headD_cons, hw] at hlast
  have hends : ¬(c = .ctl ∧ isTransferOp op = true ∧ (lits ++ rest).length ≠ transferLits w) := fun ⟨hc, ht, hne⟩ =>
    hne (by rw [hlast hc ht, List.append_nil, hl hc ht])
  rw [List.cons_append, decodeWord, hw, wordFmt, hm]
  simp only [if_neg hends]
  exact hr.read rest

/-- An ALU word in a class that does not list its opcode (R222). -/
theorem decodeWord_alu {k : ClauseClass} {i : Instr} (h : ClauseClass.alu.Writes i) (rest : List W32)
    (hk : k.map ((i.encode.headD 0).toNat / 2 ^ 24) = none)
    (ht : k ≠ .ctl ∨ isTransferOp ((i.encode.headD 0).toNat / 2 ^ 24) = false) : decodeWord k (i.encode ++ rest) = .ok i rest := by
  obtain ⟨op, f, w, lits, he, hw, hm, hr, -⟩ := h
  rw [he] at hk ht ⊢
  rw [List.headD_cons, hw] at hk ht
  have hends : ¬(k = .ctl ∧ isTransferOp op = true ∧ (lits ++ rest).length ≠ transferLits w) := fun ⟨hc, htr, _⟩ =>
    ht.elim (fun h => h hc) fun h => Bool.false_ne_true (h.symm.trans htr)
  have halu : aluMap op = some f := hm
  rw [List.cons_append, decodeWord, hw, wordFmt, hk]
  simp only [halu, if_neg hends]
  exact hr.read rest

theorem decodeMill_of_writes {i : Instr} (h : i.MillWrites) (rest : List W32) : decodeMill (i.encode ++ rest) = .ok i rest := by
  obtain ⟨f, w, he, hf, hr⟩ := h
  rw [he, List.cons_append, decodeMill, hf]
  exact hr.read rest

theorem decodeHeader_encode {i : Instr} (h : i.ctx = some .header) (rest : List W32) : decodeHeader (i.encode ++ rest) = .ok i rest := by
  cases i
  case clauseHeader n cls mbw sdr cpw =>
    have hs := b2n_lt sdr
    have hc := b2n_lt cpw
    have hw := ofNat_toNat_of_lt (n := n.val * 2 ^ 28 + cls.val * 2 ^ 25 + mbw.val * 2 ^ 21 + b2n sdr * 2 ^ 20 + b2n cpw * 2 ^ 19 + 0xA5) (by omega)
    rw [Instr.encode, List.cons_append, decodeHeader, if_pos (by omega), f4_eq (lo := 28) (x := n) (by omega), f3_eq (lo := 25) (x := cls) (by omega),
      f4_eq (lo := 21) (x := mbw) (by omega), f1_eq (lo := 20) (x := sdr) (by omega), f1_eq (lo := 19) (x := cpw) (by omega)]
    rfl
  all_goals cases h

end Sys2Proof

namespace Sys2Proof

/-- Settles O56: the class of a word, or the mill's map, lists a format that reads the word back whatever follows it. -/
theorem decodeReadsEveryEncoding : Obligations.DecodeReadsEveryEncoding := by
  intro i c rest hctx _ last
  have own (rest : List W32) (hlast : last → rest = []) : decode c (i.encode ++ rest) = .ok i rest := by
    cases c with
    | header => exact decodeHeader_encode hctx rest
    | clause c => exact decodeWord_of_writes (writes_of_ctx hctx) rest fun hc ht => hlast ⟨congrArg Ctx.clause hc, ht⟩
    | mill => exact decodeMill_of_writes (millWrites_of_ctx hctx) rest
  refine ⟨?alone, fun hlast => own rest fun h => absurd h hlast, fun k hc hk ht => ?elsewhere⟩
  case alone => simpa only [List.append_nil] using own [] fun _ => rfl
  case elsewhere =>
    subst hc
    exact decodeWord_alu (writes_of_ctx hctx) rest hk ht

end Sys2Proof

/-! PROOFS. Words of the spec's own examples (O57), what reset leaves (O60), and which word a step runs (O58). -/

namespace Sys2Proof

/-- A word of a clause or of a mill decodes from its own encoding where it stands alone. -/
theorem decode_of_encode {c : Ctx} {i : Instr} {ws : List W32} (he : i.encode = ws) (hc : i.ctx = some c) (hw : i.wf = true) :
    decode c ws = .ok i [] :=
  he ▸ (decodeReadsEveryEncoding i c [] hc hw).1

/-- An ALU word decodes in a class whose own map does not list its opcode. -/
theorem decode_of_encode_alu {k : ClauseClass} {i : Instr} {w : W32} {ws : List W32} (he : i.encode = w :: ws)
    (hc : i.ctx = some (.clause .alu)) (hw : i.wf = true) (hk : k.map (w.toNat / 2 ^ 24) = none) (ht : k ≠ .ctl) :
    decode (.clause k) (w :: ws) = .ok i [] := by
  have h := (decodeReadsEveryEncoding i _ [] hc hw).2.2 k rfl
  rw [he, List.append_nil] at h
  exact h hk (.inl ht)

/-- Settles O57: each of the words is the encoding of its instruction. -/
theorem writtenWordsDecode : Obligations.WrittenWordsDecode := by
  unfold Obligations.WrittenWordsDecode
  intro is cr
  have own {c : Ctx} {i : Instr} {ws : List W32} (he : i.encode = ws) (hc : i.ctx = some c) (hw : i.wf = true) : is c ws i :=
    decode_of_encode he hc hw
  exact ⟨own rfl rfl rfl, own rfl rfl rfl, own rfl rfl rfl, own rfl rfl rfl, own rfl rfl rfl, decode_of_encode_alu rfl rfl rfl rfl nofun,
    decode_of_encode_alu rfl rfl rfl rfl nofun, own rfl rfl rfl, own rfl rfl rfl, own rfl rfl rfl, own rfl rfl rfl, own rfl rfl rfl,
    own rfl rfl rfl, own rfl rfl rfl, own rfl rfl rfl, own rfl rfl rfl, own rfl rfl rfl, own rfl rfl rfl, own rfl rfl rfl, own rfl rfl rfl,
    own rfl rfl rfl, own rfl rfl rfl, own rfl rfl rfl, own rfl rfl rfl, own rfl rfl rfl, own rfl rfl rfl, own rfl rfl rfl, own rfl rfl rfl⟩

end Sys2Proof

namespace Sys2Proof.Machine

/-! ### Reset -/

/-- After reset every management register holds its reset value. -/
theorem State.reg_reset (off : Nat) : State.reset.reg off = regReset off := rfl

theorem State.inv_reset : State.reset.Inv :=
  ⟨MemState.canonical_reset, List.Pairwise.nil, nofun⟩

theorem blockIndex_isSome (off base step count : Nat) :
    (blockIndex off base step count).isSome = decide (base ≤ off ∧ off < base + step * count) := by
  unfold blockIndex
  split <;> simp [*]

theorem regReset_xtocfg_die {i : Nat} (hi : i < 72) : regReset (0x00100000 + 0x100 * i) = 1000 := by
  simp only [regReset, blockIndex_isSome]
  exact if_pos (by simp; omega)

theorem regReset_xtocfg_tower {i : Nat} (hi : i < 72) : regReset (0x00110000 + 0x100 * i) = 1000 := by
  simp only [regReset, blockIndex_isSome]
  exact if_pos (by simp; omega)

/-- Outside the blocks of the links and the queues, and but for the two ring configurations, a register resets to 0 (R36, R53, R130, R202). -/
theorem regReset_zero {off : Nat} (hlink : off % 0x100 ≠ 0) (hq : off < 0x00200000 ∨ off % 0x40 ≠ 8) (hf : off ≠ offFQCFG)
    (he : off ≠ offELCFG) : regReset off = 0 := by
  simp only [regReset, blockIndex_isSome]
  rw [if_neg (by simp [hlink]), if_neg (by simp; omega), if_neg hf, if_neg he]

theorem regReset_qcfg {q : Nat} (hq : q < 256) : regReset (offQCFG q) = 4 * 2 ^ 16 := by
  simp only [regReset, blockIndex_isSome, offQCFG, offQueue]
  rw [if_neg (by simp; omega), if_pos (by simp; omega)]

theorem regReset_queue_zero {off : Nat} (hlo : 0x00200000 ≤ off) (hhi : off < 0x00204000) (hcfg : off % 0x40 ≠ 8) : regReset off = 0 := by
  simp only [regReset, blockIndex_isSome]
  rw [if_neg (by simp; omega), if_neg (by simp [hcfg]), if_neg (by simp only [offFQCFG]; omega), if_neg (by simp only [offELCFG]; omega)]

/-- Settles O60: every register reads its reset value, and the other fields are those `State.reset` names. -/
theorem resetLeaves : Obligations.ResetLeaves := by
  unfold Obligations.ResetLeaves
  intro s
  have hq (q : Nat) (hq : q < 256) : s.reg (offQCFG q) = 4 * 2 ^ 16 := (State.reg_reset _).trans (regReset_qcfg hq)
  have hz (q k : Nat) (hq : q < 256) (hk : k < 0x40) (hk8 : k ≠ 8) : s.reg (offQueue q + k) = 0 :=
    (State.reg_reset _).trans (regReset_queue_zero (by unfold offQueue; omega) (by unfold offQueue; omega) (by unfold offQueue; omega))
  refine ⟨State.inv_reset, rfl, rfl, rfl, rfl, rfl, rfl, fun i hi => ⟨regReset_xtocfg_die hi, regReset_xtocfg_tower hi, ?count⟩,
    fun q hlt => ⟨?en, ?log, hz q _ hlt (by decide) (by decide), hz q _ hlt (by decide) (by decide), ?stop⟩, ?fqcfg, ?elcfg, ?pkgnum⟩
  case count => exact regReset_zero (by omega) (.inl (by omega)) (by simp only [offFQCFG]; omega) (by simp only [offELCFG]; omega)
  case en => rw [State.qEn, hq q hlt]; rfl
  case log => rw [State.qLog, hq q hlt]; rfl
  case stop => rw [State.qStop, offQSTAT, hz q _ hlt (by decide) (by decide)]; rfl
  case fqcfg | elcfg | pkgnum => rfl

/-! ### A step -/

section
variable {s s' : State} {i : Instr} {rest : List Input}

theorem step_event (h : s.agenda = .event i :: rest) (hc : i.ctx = none) (hf : s.frozen = false ∨ heldInFreeze i = false) :
    step s = afterwards State.tick (exec i { s with agenda := rest }) := by
  have hheld : (s.frozen && heldInFreeze i) = false := by
    rcases hf with hf | hf <;> simp [hf]
  simp only [step, h, hc, hheld] <;> rfl

/-- With nothing put from outside and no internal event enabled, a step is the turn of an agent. -/
theorem step_turn {a : Agent} (h : s.agenda = []) (hi : s.internal = none) (ht : s.readied.turn = some a) :
    step s = match State.fetch { s.readied with focus := some a } a with
      | .word i => afterwards (fun t => (t.pass a).tick) (exec i { s.readied with focus := some a })
      | .act t => .next (t.pass a).tick
      | .idle => .next (State.pass { s.readied with focus := some a } a).tick := by
  simp only [step, h, hi, ht] <;> rfl

end

section
variable {s : State} {u : Issuer} {i : Instr} {ws : List W32}

theorem fetchGroup_header {h : W32} {cs : List W32} (hc : u.g.clause = h :: cs) (hw : u.g.widx = 0)
    (hd : decode .header [h] = .ok i ws) : s.fetchGroup u = .word i := by
  simp only [State.fetchGroup, hc, hw, hd, if_true]

theorem fetchGroup_word {h : W32} {cs : List W32} {c : ClauseClass} (hc : u.g.clause = h :: cs) (hw : u.g.widx ≠ 0)
    (hcls : ClauseClass.ofCode (bits h.toNat 27 25) = some c) (hd : decode (.clause c) ((h :: cs).drop u.g.widx) = .ok i ws) :
    s.fetchGroup u = .word i := by
  simp only [State.fetchGroup, hc, if_neg hw, hcls, hd]

theorem fetchGroup_clause (hc : u.g.clause = []) (hm : s.clauseMissing u = []) (hf : s.textFaults u = []) :
    s.fetchGroup u = .act (s.setGroup { u.g with clause := (s.clauseWords u).filterMap (s.textWord u) }) := by
  simp only [State.fetchGroup, hc, hm, hf]

theorem fetchMill_word {u : MillIssuer} {w : W32} (hr : u.m.rowFault = none) (hw : u.m.textWord u.k.asid u.m.pc.toNat = some w)
    (hd : decode .mill [w] = .ok i ws) : s.fetchMill u = .word i := by
  simp only [State.fetchMill, State.millWord, hr, hw, hd]

end

/-- Settles O58: the agenda comes first, then an internal event, then the word that the fetch of the turn's agent finds. -/
theorem stepRunsTheWord : Obligations.StepRunsTheWord := by
  intro s e o rest i ws after
  have hafter (a : Agent) (x : Out) : after a x = afterwards (fun t => (t.pass a).tick) x := by cases x <;> rfl
  refine ⟨fun hag hc hf => ?event, fun hag => ?act, fun t hag hint => ?internal, ?group, ?mill⟩
  case event =>
    rw [step_event hag hc hf]
    cases exec e { s with agenda := rest } <;> rfl
  case act => simp only [step, hag]
  case internal => simp only [step, hag, hint]
  case group =>
    intro r u hag hint hturn s' hu
    have hfetch : State.fetch s' (.group r) = s'.fetchGroup u := by simp only [State.fetch, hu]
    have hstep := step_turn hag hint hturn
    refine ⟨fun h cs hcl => ⟨fun hw hd => ?header, fun c hw hcls hd => ?word⟩, fun hcl hmiss hfaults => ?clause⟩
    case header => rw [hstep, hafter, hfetch.trans (fetchGroup_header hcl hw hd)]
    case word => rw [hstep, hafter, hfetch.trans (fetchGroup_word hcl hw hcls hd)]
    case clause => rw [hstep, hfetch.trans (fetchGroup_clause hcl hmiss hfaults)]
  case mill =>
    intro r u w hag hint hturn s' hu hrow hw hd
    have hfetch : State.fetch s' (.mill r) = s'.fetchMill u := by simp only [State.fetch, hu]
    rw [step_turn hag hint hturn, hafter, hfetch.trans (fetchMill_word hrow hw hd)]

end Sys2Proof.Machine

/-! PROOFS. Words that raise ILLOPND (O15), the other scalar words (O2) and the vector words (O5): each word of a clause is `runWordTo` of what
its page allows. -/

namespace Sys2Proof.Machine

/-! ### Every word of a clause -/

/-- Every word of a clause checks its page's operands, and its budget, before anything else (R158, R232). -/
theorem exec_eq_runWordTo {i : Instr} {c : ClauseClass} (hc : i.ctx = some (.clause c)) :
    ∃ d top len body, ∀ s, exec i s = runWordTo d i.wf top len body s := by
  cases i
  all_goals cases hc
  all_goals exact ⟨_, _, _, _, fun _ => rfl⟩

/-- Settles O15: `runWordTo` looks at its operands first. -/
theorem badOperandsTakeIllopnd : Obligations.BadOperandsTakeIllopnd := by
  intro i c s u hc hbad hu
  obtain ⟨d, top, len, body, hrun⟩ := exec_eq_runWordTo hc
  rw [hrun, hbad, runWordTo_bad hu]
  rfl

end Sys2Proof.Machine

/-! ### The scalar words whose flags are those of flags_logic (R272, R274) -/

namespace Sys2Proof.Machine

theorem minS_eq (x y : W64) : minS x y = if x.toInt ≤ y.toInt then x else y := by
  simp only [minS, ← Int.not_le, ite_not]
theorem maxS_eq (x y : W64) : maxS x y = if y.toInt ≤ x.toInt then x else y := by
  simp only [maxS, ← Int.not_le, ite_not]
theorem minZ_eq (x y : W64) : minZ x y = if x.toNat ≤ y.toNat then x else y := by
  simp only [minZ, ← Nat.not_le, ite_not]
theorem maxZ_eq (x y : W64) : maxZ x y = if y.toNat ≤ x.toNat then x else y := by
  simp only [maxZ, ← Nat.not_le, ite_not]
theorem sar64_eq (x : W64) (n : Nat) : sar64 x n =
    if n < 64 then BitVec.ofInt 64 (x.toInt / 2 ^ n) else if x.getLsbD 63 = false then 0 else -1 := by
  rw [sar64, BitVec.msb_eq_getLsbD_last]
  cases x.getLsbD 63 <;> rfl

theorem append_eq_ofNat (hi lo : W32) : (hi ++ lo : W64) = BitVec.ofNat 64 (lo.toNat + 2 ^ 32 * hi.toNat) := by
  refine BitVec.eq_of_toNat_eq ?_
  rw [BitVec.toNat_append, BitVec.toNat_ofNat, ← Nat.shiftLeft_add_eq_or_of_lt lo.isLt, Nat.shiftLeft_eq]
  omega

section
variable {n : SReg} {a b c : Src} {k : Code} {s : State} {u : Issuer} {i : Instr} {r r' : W64}

/-- A scalar word over a checked operand list that leaves `r` with the flags of flags_logic. -/
theorem exec_logic_ready {ok : Bool} {len : Nat} {f : Issuer → W64} (h : s.Ready u 0 (.s n)) (hok : ok = true)
    (hi : exec i s = runPureTo (.s n) ok 0 len (fun u => u.g.putS (.s n) (logicOut (f u))) s) (hr : f u = r) :
    exec i s = .next (s.committed u len { u.g with s := u.g.s.set n r, flags := ⟨decide (r = 0), r.getLsbD 63, false, false⟩ }) := by
  rw [hi, hok, runPureTo_ready h, hr, logicOut, Group.putS_flags, flagsLogic, flagsOf_eq]

theorem okS4_uni (n : SReg) (ha : a.isUni = true) (hb : b.isUni = true) (hc : c.isUni = true) : okS4 (.s n) a b c = true := by
  simp only [okS4, Dst.isS, ha, hb, hc, Bool.and_self]

end

theorem scalarLogicResults : Claims.ScalarLogicResults := by
  intro n a b c k s u ha hb hc h x y p w put two mask
  have three {i : Instr} {r : W64} (f : W64 → W64 → W64) (hi : exec i s = scalar3 (.s n) a b (fun x y => logicOut (f x y)) s)
      (hf : f x y = r) : exec i s = .next (put two r) := exec_logic_ready h (okS3_uni n ha hb) hi hf
  have one {i : Instr} (f : W64 → W64) (hi : exec i s = scalar2 (.s n) a (fun x => logicOut (f x)) s) :
      exec i s = .next (put (1 + a.nlit) (f x)) := exec_logic_ready h (okS2_uni n ha) hi rfl
  refine ⟨three (· ||| ·) rfl rfl, three (· ^^^ ·) rfl rfl, three mulhS rfl rfl, three mulhZ rfl rfl,
    three (fun x y => shl64 x y.toNat) rfl rfl, three (fun x y => shr64 x y.toNat) rfl rfl, three (fun x y => sar64 x y.toNat) rfl (sar64_eq x p),
    three minS rfl (minS_eq x y), three maxS rfl (maxS_eq x y), three minZ rfl (minZ_eq x y), three maxZ rfl (maxZ_eq x y),
    one (fun x => BitVec.ofNat 64 (leadZeros 64 x.toNat)) rfl, one (fun x => BitVec.ofNat 64 (popcount 64 x.toNat)) rfl,
    one (fun x => (x.setWidth 32).signExtend 64) rfl, one (fun x => (x.setWidth 32).setWidth 64) rfl, ?mad, ?bfx, ?bfi⟩
  case mad => exact exec_logic_ready (f := fun u => u.g.scalar a * u.g.scalar b + u.g.scalar c) h (okS4_uni n ha hb hc) rfl rfl
  case bfx =>
    exact exec_logic_ready (f := fun u => bfx64 (u.g.scalar a) (u.g.scalar b).toNat (fieldWidth 64 k.val)) h (okS3_uni n ha hb) rfl rfl
  case bfi =>
    exact exec_logic_ready (f := fun u => bfi64 u.g.s[n] (u.g.scalar a) (u.g.scalar b).toNat (fieldWidth 64 k.val)) h (okS3_uni n ha hb) rfl rfl

theorem scalarMoves : Claims.ScalarMoves := by
  intro n lo hi s u h
  have hnop : exec .nop s = runPure true 0 1 (fun u => u.g) s := rfl
  have hmovl : exec (.smovl (.s n) lo hi) s = runPureTo (.s n) true 0 3 (fun u => u.g.putS (.s n) (hi ++ lo, none)) s := rfl
  rw [hnop, runPure_ready h, hmovl, runPureTo_ready h, Group.putS_none, append_eq_ofNat]
  exact ⟨rfl, rfl⟩

/-- Settles O2: the words whose flags are those of flags_logic, and the moves that leave FLAGS. -/
theorem scalarResults : Obligations.ScalarResults := ⟨scalarLogicResults, scalarMoves⟩

/-! ### The vector words (R285 to R289) -/

section
variable {d e : Dst} {a b c : Src} {s : State} {u : Issuer} {i : Instr}

theorem vector3_ready (hd : d.isVec = true) (ha : a.isSrc = true) (hb : b.isSrc = true) (h : s.Ready u (vtop3 d a b) e)
    (f : W32 → W32 → W32) : vector3 d a b f s =
      .next (s.committed u (1 + a.nlit + b.nlit) (u.g.writeVec u.w d fun i => f (u.g.laneSrc a i) (u.g.laneSrc b i))) := by
  have hok : okV3 d a b = true := by rw [okV3, hd, ha, hb]; rfl
  rw [vector3, hok, runPure_ready h]

theorem vector4_ready (hd : d.isVec = true) (ha : a.isSrc = true) (hb : b.isSrc = true) (hc : c.isSrc = true)
    (h : s.Ready u (max (vtop3 d a b) (c.vtop 1)) e) (f : W32 → W32 → W32 → W32) : vector4 d a b c f s =
      .next (s.committed u (1 + a.nlit + b.nlit + c.nlit)
        (u.g.writeVec u.w d fun i => f (u.g.laneSrc a i) (u.g.laneSrc b i) (u.g.laneSrc c i))) := by
  have hok : okV4 d a b c = true := by rw [okV4, hd, ha, hb, hc]; rfl
  rw [vector4, hok, runPure_ready h]

/-- The registers that a word of one source names are among those of a word of two or three. -/
theorem vtop2_le_vtop3 (d : Dst) (a b : Src) : max (d.vtop 1) (a.vtop 1) ≤ vtop3 d a b :=
  Nat.max_le.2 ⟨Nat.le_max_left .., Nat.le_trans (Nat.le_max_left ..) (Nat.le_max_right ..)⟩

end

theorem clamp32_eq (v : Int) : clamp32 v = BitVec.ofInt 32 (max (-(2 ^ 31)) (min v (2 ^ 31 - 1))) := by
  rw [clamp32]
  congr 1
  omega
theorem vminS_eq (x y : W32) : vminS x y = if x.toInt ≤ y.toInt then x else y := by
  simp only [vminS, ← Int.not_le, ite_not]
theorem vmaxS_eq (x y : W32) : vmaxS x y = if y.toInt ≤ x.toInt then x else y := by
  simp only [vmaxS, ← Int.not_le, ite_not]
theorem vminZ_eq (x y : W32) : vminZ x y = if x.toNat ≤ y.toNat then x else y := by
  simp only [vminZ, ← Nat.not_le, ite_not]
theorem vmaxZ_eq (x y : W32) : vmaxZ x y = if y.toNat ≤ x.toNat then x else y := by
  simp only [vmaxZ, ← Nat.not_le, ite_not]
theorem sar32_eq (x y : W32) : sar32 x y =
    if y.toNat < 32 then BitVec.ofInt 32 (x.toInt / 2 ^ y.toNat) else if x.getLsbD 31 = false then 0 else 0xFFFFFFFF := by
  rw [sar32, BitVec.msb_eq_getLsbD_last]
  cases x.getLsbD 31 <;> rfl
/-- −2^31 has no opposite, and its magnitude wraps to itself. -/
theorem vabsS_eq (x : W32) : vabsS x = if x = BitVec.intMin 32 then x else if x.toInt < 0 then -x else x := by
  rw [vabsS]
  split
  case isTrue h => subst h; decide
  split
  case isTrue h => rw [Int.ofNat_natAbs_of_nonpos (Int.le_of_lt h), BitVec.ofInt_neg, BitVec.ofInt_toInt]
  case isFalse h => rw [Int.natAbs_of_nonneg (Int.not_lt.1 h), BitVec.ofInt_toInt]

/-- Each row of R285's table is a word of two sources with the row's lane result. -/
theorem vectorIntegerResults : Claims.VectorIntegerResults := by
  unfold Claims.VectorIntegerResults
  intro clamp rows r hr d a b s u hd ha hb h
  have word : ∃ f, exec (r.1 d a b) s = vector3 d a b f s ∧ ∀ x y, f x y = r.2 x y := by
    revert r
    simp only [rows, List.forall_mem_cons]
    exact ⟨⟨_, rfl, fun _ _ => rfl⟩, ⟨_, rfl, fun _ _ => rfl⟩, ⟨_, rfl, fun _ _ => rfl⟩, ⟨_, rfl, fun _ _ => rfl⟩, ⟨_, rfl, fun _ _ => rfl⟩,
      ⟨_, rfl, fun _ _ => clamp32_eq _⟩, ⟨_, rfl, fun _ _ => clamp32_eq _⟩, ⟨_, rfl, vminS_eq⟩, ⟨_, rfl, vmaxS_eq⟩, ⟨_, rfl, vminZ_eq⟩,
      ⟨_, rfl, vmaxZ_eq⟩, ⟨_, rfl, fun _ _ => rfl⟩, ⟨_, rfl, fun _ _ => rfl⟩, ⟨_, rfl, fun _ _ => rfl⟩, ⟨_, rfl, fun _ _ => rfl⟩,
      ⟨_, rfl, fun _ _ => rfl⟩, ⟨_, rfl, sar32_eq⟩, nofun⟩
  obtain ⟨f, hi, hf⟩ := word
  rw [hi, vector3_ready hd ha hb h]
  simp only [hf]

theorem vectorFieldResults : Claims.VectorFieldResults := by
  intro d a b c k s u hd ha hb hc h x y n w mask old one two
  have h2 := h.mono (Nat.le_trans (vtop2_le_vtop3 d a b) (Nat.le_max_left ..))
  have h3 := h.mono (Nat.le_max_left (vtop3 d a b) (c.vtop 1))
  have ones {i : Instr} (f : W32 → W32) (hi : exec i s = vector2 d a f s) : exec i s = one fun i => f (x i) := by
    rw [hi, vector2_ready hd ha h2]
  have twos {i : Instr} {ok : Bool} (f : Issuer → Nat → W32) (hok : ok = true)
      (hi : exec i s = runPure ok (vtop3 d a b) (1 + a.nlit + b.nlit) (fun u => u.g.writeVec u.w d (f u)) s) : exec i s = two (f u) := by
    rw [hi, hok, runPure_ready h3]
  have below (m : Nat) (hk : k.val < m) : (d.isVec && a.isSrc && b.isSrc && k.below m) = true := by
    rw [hd, ha, hb, Code.below, decide_eq_true hk]
    rfl
  refine ⟨?abs, ones (fun x => BitVec.ofNat 32 (leadZeros 32 x.toNat)) rfl,
    ones (fun x => BitVec.ofNat 32 (popcount 32 x.toNat)) rfl, ones (fun x => x) rfl, vector4_ready hd ha hb hc h (fun x y z => x * y + z),
    fun hk => ?bfx, fun hk => ?bfi, fun hk => ?sel⟩
  case abs => rw [ones vabsS rfl, funext fun i => vabsS_eq (x i)]
  case bfx =>
    exact twos (fun u i => bfx32 (fieldWidth 32 k.val) (u.g.laneSrc a i) (u.g.laneSrc b i)) (below 33 (Nat.lt_succ_of_le hk)) rfl
  case bfi =>
    exact twos (fun u i => bfi32 (fieldWidth 32 k.val) (u.g.oldLane d i) (u.g.laneSrc a i) (u.g.laneSrc b i)) (below 33 (Nat.lt_succ_of_le hk)) rfl
  case sel => exact twos (fun u i => if (u.g.mask k.val).getLsbD i then u.g.laneSrc a i else u.g.laneSrc b i) (below 8 hk) rfl

theorem vectorFloatResults : Claims.VectorFloatResults := by
  unfold Claims.VectorFloatResults
  intro twos ones d a b c k s u hd ha hb hc h x y
  have h2 := h.mono (Nat.le_trans (vtop2_le_vtop3 d a b) (Nat.le_max_left ..))
  have h3 := h.mono (Nat.le_max_left (vtop3 d a b) (c.vtop 1))
  have two (f : W32 → W32 → W32) := vector3_ready hd ha hb h3 f
  have one (f : W32 → W32) := vector2_ready hd ha h2 f
  refine ⟨?twos, ?ones, vector4_ready hd ha hb hc h f32Fma, fun hk => ?rnd⟩
  case twos =>
    simp only [twos, List.forall_mem_cons]
    exact ⟨two _, two _, two _, two _, two _, two _, nofun⟩
  case ones =>
    simp only [ones, List.forall_mem_cons]
    exact ⟨one _, one _, one _, one _, one _, one _, one _, one _, one _, one _, nofun⟩
  case rnd =>
    have hok : okVrnd d a k = true := by
      rw [okVrnd, hd, ha, Code.below, decide_eq_true hk]
      rfl
    have hi : exec (.vfrnd d a k) s = execVfrnd d a k s := rfl
    rw [hi, execVfrnd, hok, runPure_ready h2]

/-- Settles O5: each word is `vector3`, `vector2` or `vector4` of its lane result, or writes the field its page gives. -/
theorem vectorResults : Obligations.VectorResults := ⟨vectorIntegerResults, vectorFieldResults, vectorFloatResults⟩

end Sys2Proof.Machine

/-! PROOFS. What a vector result and a loaded value write (O8), the compares and mask words (O9), lane exchanges, reductions and scans (O10), and
the conversions (O11). -/

namespace Sys2Proof.Machine

/-! ### What a vector result writes (R162, R284) -/

@[simp] theorem pushQ_zero (q : Vector Lanes 16) (x : Lanes) : (pushQ q x)[0] = x := by simp [pushQ]
@[simp] theorem pushQ_succ (q : Vector Lanes 16) (x : Lanes) (i : Nat) (h : i + 1 < 16) : (pushQ q x)[i + 1] = q[i] := by simp [pushQ]

/-- The queue after a push, by age. -/
theorem pushQ_toList_getD_zero (q : Vector Lanes 16) (x : Lanes) : (pushQ q x).toList.getD 0 [] = x := by
  simp [List.getD_eq_getElem?_getD]
theorem pushQ_toList_getD_succ (q : Vector Lanes 16) (x : Lanes) {j : Nat} (h : j + 1 < 16) :
    (pushQ q x).toList.getD (j + 1) [] = q.toList.getD j [] := by
  have hj : j < 16 := Nat.lt_of_succ_lt h
  simp [List.getD_eq_getElem?_getD, h, hj]

theorem lane_map_range (w : Nat) (f : Nat → W32) {i : Nat} (h : i < w) : lane ((List.range w).map f) i = f i := by
  simp [lane, List.getD_eq_getElem?_getD, h]

/-- The lanes that a vector result pushes. -/
def Group.vecLanes (g : Group) (w : Nat) (d : Dst) (r : Nat → W32) : Lanes :=
  (List.range w).map fun i => if g.enabled i then r i else g.oldLane d i

/-- The named registers after a vector result. -/
def Dst.result (d : Dst) (v : Vector Lanes 24) (x : Lanes) : Vector Lanes 24 :=
  match d with | .v n => v.set n x | _ => v

theorem Group.writeVec_eq (g : Group) (w : Nat) (d : Dst) (r : Nat → W32) :
    g.writeVec w d r = { g with q := pushQ g.q (g.vecLanes w d r), v := Dst.result d g.v (g.vecLanes w d r) } := by
  cases d <;> rfl

theorem Dst.result_getElem (d : Dst) (v : Vector Lanes 24) (x : Lanes) (n : Fin 24) :
    (Dst.result d v x)[n] = if d = .v n then x else v[n] := by
  cases d with
  | v k =>
    by_cases hk : k = n
    · simp [Dst.result, hk]
    · have hne : k.val ≠ n.val := fun e => hk (Fin.ext e)
      simp [Dst.result, hk, hne]
  | push => rfl
  | s k => rfl
  | rsv k => rfl

theorem vectorWritePushes : Claims.VectorWritePushes := by
  intro g w d r hd h out
  have hout : out = g.vecLanes w d r := by
    show (g.writeVec w d r).q[0] = _
    rw [Group.writeVec_eq]
    exact pushQ_zero _ _
  have hh : h = { g with q := pushQ g.q out, v := Dst.result d g.v out } := by
    rw [hout]
    exact g.writeVec_eq w d r
  clear_value h out
  subst hh
  refine ⟨?len, fun i hi => ?lane, fun i => pushQ_succ _ _ _ _, fun n => Dst.result_getElem d g.v out n,
    rfl, rfl, rfl, rfl, rfl, rfl, rfl, rfl, rfl, rfl, rfl, rfl⟩
  case len => simp [hout, Group.vecLanes]
  case lane =>
    rw [hout, Group.vecLanes, lane_map_range w _ hi]
    cases d <;> rfl

/-! ### What a loaded value writes (R305) -/

/-- The lanes of word `j` of a loaded value; a lane that is not enabled keeps the old word of the named register. -/
def Group.wordLanes (g : Group) (w : Nat) (d : Dst) (val : Nat → Nat) (j : Nat) : Lanes :=
  (List.range w).map fun i => if g.enabled i then BitVec.ofNat 32 (val i / 2 ^ (32 * j)) else
    match d with | .v k => lane (g.v.getD (k.val + j) []) i | _ => 0

/-- The named registers after word `j` of a loaded value. -/
def Dst.named (d : Dst) (v : Vector Lanes 24) (j : Nat) (x : Lanes) : Vector Lanes 24 :=
  match d with | .v k => v.setIfInBounds (k.val + j) x | _ => v

theorem Group.pushWords_zero (g : Group) (w : Nat) (d : Dst) (val : Nat → Nat) : g.pushWords w d 0 val = g := rfl

/-- One word more of a loaded value is one push more. -/
theorem Group.pushWords_succ (g : Group) (w : Nat) (d : Dst) (n : Nat) (val : Nat → Nat) : g.pushWords w d (n + 1) val =
    { g.pushWords w d n val with
      q := pushQ (g.pushWords w d n val).q ((g.pushWords w d n val).wordLanes w d val n)
      v := Dst.named d (g.pushWords w d n val).v n ((g.pushWords w d n val).wordLanes w d val n) } := by
  rw [Group.pushWords, List.range_succ, List.foldl_append]
  cases d <;> rfl

/-- What the first `n` words of a loaded value leave in the queue, in the named registers, and elsewhere. -/
structure Group.Loaded (g : Group) (w : Nat) (d : Dst) (val : Nat → Nat) (n : Nat) (h : Group) : Prop where
  pushed : ∀ j, j < n → ∀ i, i < w → lane (h.q.toList.getD (n - 1 - j) []) i = lane (g.wordLanes w d val j) i
  named : ∀ k j, d = .v k → j < n → ∀ i, i < w → lane (h.v.toList.getD (k.val + j) []) i = lane (g.wordLanes w d val j) i
  older : ∀ j, n ≤ j → j < 16 → h.q.toList.getD j [] = g.q.toList.getD (j - n) []
  others : ∀ j, (∀ k, d = .v k → j < k.val ∨ k.val + n ≤ j) → h.v.toList.getD j [] = g.v.toList.getD j []
  rest : h = { g with q := h.q, v := h.v }

theorem vector_getD_eq_toList (v : Vector Lanes 24) (j : Nat) : v.getD j [] = v.toList.getD j [] := by
  simp [List.getD_eq_getElem?_getD, Vector.getD]

/-- A word's lanes are the same before and after other words, those of its own register being untouched. -/
theorem Group.wordLanes_of_loaded {g h : Group} {w n : Nat} {d : Dst} {val : Nat → Nat} (l : g.Loaded w d val n h) :
    h.wordLanes w d val n = g.wordLanes w d val n := by
  have hexm : h.enabled = g.enabled := by rw [l.rest]; rfl
  unfold Group.wordLanes
  rw [hexm]
  cases d with
  | v k =>
    have hold : h.v.getD (k.val + n) [] = g.v.getD (k.val + n) [] := by
      rw [vector_getD_eq_toList, vector_getD_eq_toList]
      exact l.others _ fun k' e => by cases e; exact .inr (Nat.le_refl _)
    simp only [hold]
  | push => rfl
  | s m => rfl
  | rsv m => rfl

theorem Dst.named_toList_self {d : Dst} {v : Vector Lanes 24} {k : Fin 24} {j : Nat} {x : Lanes} (hd : d = .v k) (hj : k.val + j < 24) :
    (Dst.named d v j x).toList.getD (k.val + j) [] = x := by
  subst hd
  simp [Dst.named, List.getD_eq_getElem?_getD, hj]

theorem Dst.named_toList_ne {d : Dst} {v : Vector Lanes 24} {i j : Nat} {x : Lanes} (h : ∀ k, d = .v k → i ≠ k.val + j) :
    (Dst.named d v j x).toList.getD i [] = v.toList.getD i [] := by
  cases d with
  | v k =>
    have hne : k.val + j ≠ i := (h k rfl).symm
    simp [Dst.named, List.getD_eq_getElem?_getD, hne]
  | push => rfl
  | s m => rfl
  | rsv m => rfl

theorem Group.loaded_pushWords (g : Group) (w : Nat) (d : Dst) (val : Nat → Nat) {n : Nat} (hn : n ≤ 4) (hk : ∀ k, d = .v k → k.val + n ≤ 24) :
    g.Loaded w d val n (g.pushWords w d n val) := by
  induction n with
  | zero => exact ⟨nofun, nofun, fun _ _ _ => rfl, fun _ _ => rfl, rfl⟩
  | succ n ih =>
    have l := ih (by omega) fun k e => by have := hk k e; omega
    have hx := Group.wordLanes_of_loaded l
    rw [Group.pushWords_succ, hx]
    generalize g.pushWords w d n val = h at l
    refine ⟨fun j hj i hi => ?_, fun k j e hj i hi => ?_, fun j h1 h2 => ?_, fun j hj => ?_, ?_⟩
    · dsimp only
      rcases Nat.lt_succ_iff_lt_or_eq.1 hj with hlt | rfl
      · rw [show n + 1 - 1 - j = (n - 1 - j) + 1 by omega, pushQ_toList_getD_succ _ _ (by omega)]
        exact l.pushed j hlt i hi
      · rw [show j + 1 - 1 - j = 0 by omega, pushQ_toList_getD_zero]
    · dsimp only
      have := hk k e
      rcases Nat.lt_succ_iff_lt_or_eq.1 hj with hlt | rfl
      · rw [Dst.named_toList_ne fun k' e' => by rw [e] at e'; cases e'; omega]
        exact l.named k j e hlt i hi
      · rw [Dst.named_toList_self e (by omega)]
    · dsimp only
      obtain ⟨m, rfl⟩ : ∃ m, j = m + 1 := ⟨j - 1, by omega⟩
      rw [pushQ_toList_getD_succ _ _ h2, l.older m (by omega) (by omega), Nat.add_sub_add_right]
    · dsimp only
      rw [Dst.named_toList_ne fun k e => by have := hj k e; omega]
      exact l.others j fun k e => by have := hj k e; omega
    · rw [l.rest]

theorem loadedWordsPushInOrder : Claims.LoadedWordsPushInOrder := by
  intro g w n d val hd hn hk h word
  obtain ⟨pushed, named, older, others, rest⟩ := g.loaded_pushWords w d val hn hk
  have hword {j i : Nat} (hi : i < w) : lane (g.wordLanes w d val j) i = word j i := by
    rw [Group.wordLanes, lane_map_range w _ hi]
    cases d <;> rfl
  have hrest : h = { g with q := h.q, v := h.v } := rest
  refine ⟨fun j hj i hi => (pushed j hj i hi).trans (hword hi), fun k j e hj i hi => (named k j e hj i hi).trans (hword hi), older, others, ?_⟩
  rw [hrest]
  exact ⟨rfl, rfl, rfl, rfl, rfl, rfl, rfl⟩

/-- Settles O8: `writeVec` by its one push, `pushWords` by induction on the words pushed. -/
theorem resultsArePushed : Obligations.ResultsArePushed := ⟨vectorWritePushes, loadedWordsPushInOrder⟩

end Sys2Proof.Machine

namespace Sys2Proof.Machine

/-! ### Masks (R290 to R292) -/

theorem Issuer.w_le (u : Issuer) : u.w ≤ 64 := by
  unfold Issuer.w Launch.lanes
  split <;> decide

/-- The number whose bit i is `f i`, for i below `w`. -/
def maskNat (w : Nat) (f : Nat → Bool) : Nat := (List.range w).foldr (fun i acc => acc + b2n (f i) * 2 ^ i) 0

theorem foldr_add_init (f : Nat → Nat) (l : List Nat) (a : Nat) :
    l.foldr (fun i acc => acc + f i) a = l.foldr (fun i acc => acc + f i) 0 + a := by
  induction l with
  | nil => exact (Nat.zero_add a).symm
  | cons x l ih => rw [List.foldr_cons, List.foldr_cons, ih, Nat.add_right_comm]

theorem maskNat_succ (w : Nat) (f : Nat → Bool) : maskNat (w + 1) f = 2 ^ w * b2n (f w) + maskNat w f := by
  rw [maskNat, List.range_succ, List.foldr_append, foldr_add_init, List.foldr_cons, List.foldr_nil, Nat.zero_add, Nat.mul_comm, Nat.add_comm]
  rfl

theorem maskNat_lt (w : Nat) (f : Nat → Bool) : maskNat w f < 2 ^ w := by
  induction w with
  | zero => exact Nat.one_pos
  | succ w ih =>
    have hb : b2n (f w) ≤ 1 := by cases f w <;> decide
    rw [maskNat_succ, Nat.pow_succ]
    calc 2 ^ w * b2n (f w) + maskNat w f < 2 ^ w * 1 + 2 ^ w := Nat.add_lt_add_of_le_of_lt (Nat.mul_le_mul_left _ hb) ih
      _ = 2 ^ w * 2 := by omega

theorem testBit_b2n (b : Bool) (i : Nat) : (b2n b).testBit i = (decide (i = 0) && b) := by
  cases b <;> cases i <;> simp [b2n, Nat.testBit_succ]

theorem testBit_maskNat (w : Nat) (f : Nat → Bool) (i : Nat) : (maskNat w f).testBit i = (decide (i < w) && f i) := by
  induction w with
  | zero => simp [maskNat]
  | succ w ih =>
    rw [maskNat_succ, Nat.testBit_two_pow_mul_add _ (maskNat_lt w f)]
    split
    case isTrue h => simp [ih, h, Nat.lt_succ_of_lt h]
    case isFalse h =>
      rw [testBit_b2n]
      by_cases he : i = w
      · simp [he]
      · have h1 : ¬i - w = 0 := by omega
        have h2 : ¬i < w + 1 := by omega
        simp [h1, h2]

theorem getLsbD_maskOf {w : Nat} (hw : w ≤ 64) (f : Nat → Bool) (i : Nat) : (maskOf w f).getLsbD i = (decide (i < w) && f i) := by
  have h : maskOf w f = BitVec.ofNat 64 (maskNat w f) := rfl
  rw [h, BitVec.getLsbD_ofNat, testBit_maskNat]
  by_cases hi : i < w
  · simp [hi, Nat.lt_of_lt_of_le hi hw]
  · simp [hi]

/-- The comparisons of vcmp.s and of vcmp.z, in the order of their codes. -/
theorem cmpS_eq {c : Nat} (h : c < 6) (x y : W32) : cmpS c x y = ([x == y, x != y, decide (x.toInt < y.toInt), decide (x.toInt ≤ y.toInt),
    decide (x.toInt > y.toInt), decide (x.toInt ≥ y.toInt)] : List Bool).getD c false := by
  match c, h with
  | 0, _ | 1, _ | 2, _ | 3, _ | 4, _ | 5, _ => rfl
theorem cmpZ_eq {c : Nat} (h : c < 2 ∨ 6 ≤ c ∧ c < 10) (x y : W32) : cmpZ c x y = ([x == y, x != y, false, false, false, false,
    decide (x.toNat < y.toNat), decide (x.toNat ≤ y.toNat), decide (x.toNat > y.toNat), decide (x.toNat ≥ y.toNat)] : List Bool).getD c false := by
  match c, h with
  | 0, _ | 1, _ | 6, _ | 7, _ | 8, _ | 9, _ => rfl

theorem compareWritesMask : Claims.CompareWritesMask := by
  intro d a b c s u ha hb hc h done
  have cmp {i : Instr} {ok : Bool} {f g : W32 → W32 → Bool} (hi : exec i s = runPure ok (max (a.vtop 1) (b.vtop 1)) (1 + a.nlit + b.nlit)
      (fun u => u.g.compare u.w c.val a b f) s) (hok : ok = true) (hf : ∀ x y, f x y = g x y) : done g (exec i s) := by
    refine ⟨maskOf u.w fun i => u.g.enabled i && f (u.g.laneSrc a i) (u.g.laneSrc b i), ?_, fun i => ?_⟩
    · rw [hi, hok, runPure_ready h]
      rfl
    · rw [getLsbD_maskOf u.w_le, hf, Bool.and_assoc]
      rfl
  have ok {p : Bool} (hp : p = true) : (p && a.isSrc && b.isSrc && c.below 8) = true := by
    rw [hp, ha, hb, Code.below, decide_eq_true hc]
    rfl
  have hz (hd : d.val < 2 ∨ 6 ≤ d.val ∧ d.val < 10) : d.isCondZ = true := by
    rw [Code.isCondZ, Bool.or_eq_true, Bool.and_eq_true, decide_eq_true_iff, decide_eq_true_iff, decide_eq_true_iff]
    exact hd
  exact ⟨fun hd => cmp (f := cmpS d.val) rfl (ok (p := d.isCondS) (decide_eq_true hd)) (cmpS_eq hd),
    fun hd => cmp (f := cmpZ d.val) rfl (ok (p := d.isCondZ) (hz hd)) (cmpZ_eq hd),
    fun hd => cmp (f := cmpF d.val) rfl (ok (p := d.below 8) (decide_eq_true hd)) fun _ _ => rfl⟩

/-- The lowest one bit: it is one, and every bit before it is zero. -/
theorem lowestBit_spec (k i x : Nat) : ∃ j, lowestBit k i x = i + j ∧ j ≤ k ∧ (j < k → x.testBit j = true) ∧ ∀ n, n < j → x.testBit n = false := by
  induction k generalizing i x with
  | zero => exact ⟨0, rfl, Nat.le_refl 0, nofun, nofun⟩
  | succ k ih =>
    rw [lowestBit]
    split
    case isTrue h => exact ⟨0, rfl, Nat.zero_le _, fun _ => by simp [Nat.testBit_zero, h], nofun⟩
    case isFalse h =>
      obtain ⟨j, hj, hle, hone, hzero⟩ := ih (i + 1) (x / 2)
      refine ⟨j + 1, by omega, Nat.succ_le_succ hle, fun hlt => ?_, fun n hn => ?_⟩
      · rw [Nat.testBit_succ]
        exact hone (Nat.lt_of_succ_lt_succ hlt)
      · cases n with
        | zero => simpa [Nat.testBit_zero] using h
        | succ n =>
          rw [Nat.testBit_succ]
          exact hzero n (Nat.lt_of_succ_lt_succ hn)

theorem maskWords : Claims.MaskWords := by
  intro n i j k a s u hi hj hk ha h mi mj mk full mask put
  have below {c : Code} (hc : c.val < 8) : c.below 8 = true := decide_eq_true hc
  have h3 : okM3 i j k = true := by
    rw [okM3, below hi, below hj, below hk]
    rfl
  have h2 : okM2 i k = true := by
    rw [okM2, below hi, below hk]
    rfl
  have hd : okDM (.s n) k = true := by
    rw [okDM, below hk]
    rfl
  have hf : okMfroms a k = true := by
    rw [okMfroms, ha, below hk]
    rfl
  have word {i : Instr} {ok : Bool} {len : Nat} (f : Issuer → Group) (hi : exec i s = runPure ok 0 len f s) (hok : ok = true) :
      exec i s = .next (s.committed u len (f u)) := by rw [hi, hok, runPure_ready h]
  have wordTo {i : Instr} (f : Issuer → Group) (hi : exec i s = runPureTo (.s n) (okDM (.s n) k) 0 1 f s) :
      exec i s = .next (s.committed u 1 (f u)) := by rw [hi, hd, runPureTo_ready h]
  obtain ⟨f, hval, hle, hone, hzero⟩ := lowestBit_spec u.w 0 mk.toNat
  rw [Nat.zero_add] at hval
  refine ⟨word (fun u => u.g.setMask k.val (u.g.mask i.val &&& u.g.mask j.val)) rfl h3, word (fun u => u.g.setMask k.val (u.g.mask i.val ||| u.g.mask j.val)) rfl h3,
    word (fun u => u.g.setMask k.val (u.g.mask i.val ^^^ u.g.mask j.val)) rfl h3, word (fun u => u.g.setMask k.val (~~~(u.g.mask i.val) &&& maskOnes u.w)) rfl h2,
    word (fun u => { u.g with exm := u.g.mask k.val }) rfl (below hk), word (fun u => u.g.setMask k.val u.g.exm) rfl (below hk),
    wordTo (fun u => u.g.setS (.s n) (BitVec.ofNat 64 (popcount 64 (u.g.mask k.val).toNat))) rfl, wordTo (fun u => u.g.setS (.s n) (u.g.mask k.val)) rfl,
    word (fun u => u.g.setMask k.val (u.g.scalar a &&& maskOnes u.w)) rfl hf, f, ?first, hle, hone, hzero⟩
  case first =>
    rw [← hval]
    exact wordTo (fun u => u.g.setS (.s n) (BitVec.ofNat 64 (lowestBit u.w 0 (u.g.mask k.val).toNat))) rfl

/-- Settles O9: compares through the bits of `maskOf`, mfirst through the place `lowestBit` finds. -/
theorem masksAreWritten : Obligations.MasksAreWritten := ⟨compareWritesMask, maskWords⟩

end Sys2Proof.Machine

namespace Sys2Proof.Machine

/-! ### Lane exchanges, reductions and scans (R294 to R297) -/

theorem vtop_sources_le_vtop3 (d : Dst) (a b : Src) : max (a.vtop 1) (b.vtop 1) ≤ vtop3 d a b := Nat.le_max_right ..

theorem shflLane_eq (w c i k : Nat) : shflLane w c i k = if c = 0 then k % w else if c = 1 then (if k ≤ i then i - k else i)
    else if c = 2 then (if i + k < w then i + k else i) else (i ^^^ k) % w := by
  match c with
  | 0 | 1 | 2 | _ + 3 => rfl

theorem laneExchange : Claims.LaneExchange := by
  intro d n a b c s u hd ha hb hu htop hres hown x j p
  have h : s.Ready u (vtop3 d a b) (.s n) := ⟨hu, htop, hres, hown⟩
  refine ⟨fun hc => ?shfl, fun hbu => ?bcast, fun hbu => ?vtos⟩
  case shfl =>
    have hi : exec (.vshfl d a b c) s = execVshfl d a b c s := rfl
    have hok : okVc4 d a b c = true := by
      rw [okVc4, hd, ha, hb, Code.below, decide_eq_true hc]
      rfl
    rw [hi, execVshfl, hok, runPure_ready h]
    simp only [shflLane_eq]
    rfl
  case bcast =>
    have hi : exec (.vbcast d a b) s = execVbcast d a b s := rfl
    have hok : okBcast d a b = true := by
      rw [okBcast, hd, ha, hbu]
      rfl
    rw [hi, execVbcast, hok, runPure_ready h]
    rfl
  case vtos =>
    have hi : exec (.vtos (.s n) a b) s = execVtos (.s n) a b s := rfl
    have hok : okVtos (.s n) a b = true := by
      rw [okVtos, ha, hbu]
      rfl
    rw [hi, execVtos, hok, runPureTo_ready (h.mono (vtop_sources_le_vtop3 d a b))]
    rfl

/-- A reduction writes its scalar, whatever the combining operation and the identity. -/
theorem reduction_ready {n : SReg} {a : Src} {s : State} {u : Issuer} (ha : a.isSrc = true) (h : s.Ready u (a.vtop 1) (.s n))
    (op : W32 → W32 → W32) (unit : W32) (ext : W32 → W64) : reduction (.s n) a op unit ext s = .next (s.committed u (1 + a.nlit)
      { u.g with s := u.g.s.set n (ext (treeRed op (lanesLog u.w)
        ((List.range u.w).map fun i => if u.g.exm.getLsbD i then u.g.laneSrc a i else unit))) }) := by
  have hok : okRed (.s n) a = true := by
    rw [okRed, ha]
    rfl
  rw [reduction, hok, runPureTo_ready h]
  rfl

theorem scan_ready {d e : Dst} {a : Src} {s : State} {u : Issuer} (hd : d.isVec = true) (ha : a.isSrc = true)
    (h : s.Ready u (max (d.vtop 1) (a.vtop 1)) e) (op : W32 → W32 → W32) (unit : W32) : scan d a op unit s =
      .next (s.committed u (1 + a.nlit) (u.g.writeVec u.w d fun i =>
        lane (scanRed op ((List.range u.w).map fun i => if u.g.exm.getLsbD i then u.g.laneSrc a i else unit)) i)) := by
  have hok : okV2 d a = true := by
    rw [okV2, hd, ha]
    rfl
  rw [scan, hok, runPure_ready h]
  rfl

theorem vminS_eq_fun : vminS = fun x y => if x.toInt ≤ y.toInt then x else y := funext fun x => funext (vminS_eq x)
theorem vmaxS_eq_fun : vmaxS = fun x y => if y.toInt ≤ x.toInt then x else y := funext fun x => funext (vmaxS_eq x)

theorem reductionsAndScans : Claims.ReductionsAndScans := by
  unfold Claims.ReductionsAndScans
  intro reds scans n d a s u hd ha hu htop hres hown xs
  have h : s.Ready u (max (d.vtop 1) (a.vtop 1)) (.s n) := ⟨hu, htop, hres, hown⟩
  refine ⟨fun r hr => ?red, fun r hr => ?scan⟩
  case red =>
    have hi : exec (r.1 (.s n) a) s = reduction (.s n) a r.2.1 r.2.2.1 r.2.2.2 s := by
      revert r
      simp only [reds, List.forall_mem_cons, ← vminS_eq_fun, ← vmaxS_eq_fun]
      exact ⟨rfl, rfl, rfl, rfl, rfl, rfl, nofun⟩
    rw [hi, reduction_ready ha (h.mono (Nat.le_max_right ..))]
  case scan =>
    have hi : exec (r.1 d a) s = scan d a r.2.1 r.2.2 s := by
      revert r
      simp only [scans, List.forall_mem_cons]
      exact ⟨rfl, rfl, nofun⟩
    rw [hi, scan_ready hd ha h]

/-- Settles O10: a reduction and a scan each through their one shape, the exchanges by the lane they read. -/
theorem lanesCombine : Obligations.LanesCombine := ⟨laneExchange, reductionsAndScans⟩

/-! ### Conversions (R299 to R302) -/

section
variable {d e : Dst} {a b : Src} {s : State} {u : Issuer}

theorem convert_ready (h : s.Ready u (max (d.vtop 1) (a.vtop 1)) e) {ok : Bool} (hok : ok = true) (f : W32 → W32) : convert ok d a f s =
    .next (s.committed u (1 + a.nlit) (u.g.writeVec u.w d fun i => f (u.g.laneSrc a i))) := by
  rw [convert, hok, runPure_ready h]

theorem convertScaled_ready (h : s.Ready u (vtop3 d a b) e) {ok : Bool} (hok : ok = true) (f : Nat → W32 → W32) : convertScaled ok d a b f s =
    .next (s.committed u (1 + a.nlit + b.nlit) (u.g.writeVec u.w d fun i => f ((u.g.laneSrc b i).toNat % 256) (u.g.laneSrc a i))) := by
  rw [convertScaled, hok, runPure_ready h]

end

/-- A vector result depends on the values of the group's own lanes alone. -/
theorem Group.writeVec_congr (g : Group) (w : Nat) (d : Dst) {r r' : Nat → W32} (h : ∀ i, i < w → r i = r' i) :
    g.writeVec w d r = g.writeVec w d r' := by
  have hout : g.vecLanes w d r = g.vecLanes w d r' := by
    refine List.map_congr_left fun i hi => ?_
    rw [h i (List.mem_range.1 hi)]
  rw [Group.writeVec_eq, Group.writeVec_eq, hout]

/-- A lane of the group is in the first or in the second block of 32. -/
theorem lane_pair {w i : Nat} (hw : w ≤ 64) (hi : i < w) (f : Nat → W32) : lane [f 0, f 1] (i / 32) = f (i / 32) := by
  have h : i / 32 < 2 := by omega
  match i / 32, h with
  | 0, _ | 1, _ => rfl

/-- The scale of a block of 32 lanes (R302). -/
def Group.blockScale (g : Group) (a : Src) (c : Code) (k : Nat) : W32 :=
  BitVec.ofNat 32 (mxScale (mxSetOf c.val) ((List.range 32).map fun j => if g.exm.getLsbD (32 * k + j) then g.laneSrc a (32 * k + j) else 0))

theorem exec_vmxscale_ready {d e : Dst} {a : Src} {c : Code} {s : State} {u : Issuer} (h : s.Ready u (max (d.vtop 1) (a.vtop 1)) e)
    (hok : okScale d a c = true) : exec (.vmxscale d a c) s =
      .next (s.committed u (1 + a.nlit) (u.g.writeVec u.w d fun i => u.g.blockScale a c (i / 32))) := by
  have hi : exec (.vmxscale d a c) s = runPure (okScale d a c) (max (d.vtop 1) (a.vtop 1)) (1 + a.nlit) (fun u =>
      u.g.writeVec u.w d fun i => lane [u.g.blockScale a c 0, u.g.blockScale a c 1] (i / 32)) s := rfl
  rw [hi, hok, runPure_ready h, Group.writeVec_congr _ _ _ fun i hi => lane_pair u.w_le hi (u.g.blockScale a c)]

/-- Settles O11: every conversion is `convert` or `convertScaled` of its function, and vmxscale gives each lane its block's scale. -/
theorem conversions : Obligations.Conversions := by
  intro d a b c s u hd ha hb h one two md
  have h2 : s.Ready u (max (d.vtop 1) (a.vtop 1)) .push := h.mono (vtop2_le_vtop3 d a b)
  have cvt {i : Instr} {ok : Bool} {f : W32 → W32} (hi : exec i s = convert ok d a f s) (hok : ok = true) : exec i s = one f := by
    rw [hi, convert_ready h2 hok]
  have scaled {i : Instr} {ok : Bool} {f : Nat → W32 → W32} (hi : exec i s = convertScaled ok d a b f s) (hok : ok = true) : exec i s = two f := by
    rw [hi, convertScaled_ready h hok]
  have below (m : Nat) (hc : c.val < m) : (d.isVec && a.isSrc && b.isSrc && c.below m) = true := by
    rw [hd, ha, hb, Code.below, decide_eq_true hc]
    rfl
  have half (hc : c.val < 2) : okHalf d a c = true := by
    rw [okHalf, hd, ha, Code.below, decide_eq_true hc]
    rfl
  have hv3 : okV3 d a b = true := by
    rw [okV3, hd, ha, hb]
    rfl
  clear_value one two
  exact ⟨fun hok => ⟨cvt rfl hok, cvt rfl hok, cvt rfl hok, cvt rfl hok, cvt rfl hok, cvt rfl hok⟩, fun hc => ⟨cvt rfl (half hc), cvt rfl (half hc)⟩,
    fun hok => scaled rfl hok, fun hc => scaled rfl (below 4 hc), scaled rfl hv3, fun hc => scaled rfl (below 8 hc), exec_vmxscale_ready h2⟩

end Sys2Proof.Machine

/-! PROOFS. Clauses and the PC (O12), control words and the mask stack (O13), faults as they are taken (O14), barriers and tethers (O16), and tail
writes (O17). -/

namespace Sys2Proof.Machine

/-! ### Where a committed word leaves the PC (R183, R220) -/

theorem Group.clauseEnd_eq (g : Group) : g.clauseEnd = g.pc + 4 * BitVec.ofNat 64 (g.clauseN + 1) := by
  refine congrArg (g.pc + ·) (BitVec.eq_of_toNat_eq ?_)
  simp [BitVec.toNat_mul]

theorem commitAdvancesThePc : Claims.CommitAdvancesThePc := by
  intro u len g h n
  have hadv : h = if n < u.g.widx + len then { g.retire with pc := u.g.clauseEnd, widx := 0, clause := [] }
      else { g.retire with widx := u.g.widx + len } := rfl
  clear_value h
  subst hadv
  refine ⟨fun hin => ?inside, fun hout => ?past, ?issued, ?wait, ?fence, ?rest⟩
  case inside =>
    rw [if_neg (Nat.not_lt.2 hin)]
    exact ⟨rfl, rfl, rfl⟩
  case past =>
    rw [if_pos hout, Group.clauseEnd_eq]
    exact ⟨rfl, rfl, rfl⟩
  case issued => split <;> rfl
  case wait => split <;> rfl
  case fence => split <;> rfl
  case rest => split <;> rfl

/-! ### The clause header (R164, R219, R220) -/

section
variable {s : State} {u : Issuer}

/-- A group that has no copy in its core's queue meets no parked, cancelled or failed copy, and waits for none. -/
theorem header_without_copies {c : CoreId} {g : GroupRef} (h : ((s.core c).cq.all fun q => q.g != g) = true) :
    s.parkedCopy c g = none ∧ s.cancelledCopy c g = none ∧ s.errCopy c g = none ∧ ((s.core c).cq.any fun q => q.g == g && q.pending) = false := by
  have hne : ∀ q ∈ (s.core c).cq, q.g ≠ g := by simpa using h
  have hidx : ∀ p ∈ (s.core c).cq.mapIdx fun i q => (i, q), p.2.g ≠ g := by
    intro p hp
    obtain ⟨i, hi, rfl⟩ := List.mem_mapIdx.1 hp
    exact hne _ (List.getElem_mem hi)
  refine ⟨List.findSome?_eq_none_iff.2 fun q hq => if_neg (hne q hq), List.find?_eq_none.2 fun p hp => ?_, List.find?_eq_none.2 fun p hp => ?_, ?_⟩
  · simp [hidx p hp]
  · simp [hidx p hp]
  · rw [List.any_eq_false]
    intro q hq
    simp [hne q hq]

theorem State.onCore_eq (s : State) (c : CoreId) (g : Group) : s.onCore c g = decide ((s.team? g.id.tid g.id.team).map (fun t => t.core) = some c) := by
  unfold State.onCore
  cases s.team? g.id.tid g.id.team with
  | none => rfl
  | some t =>
    show (t.core == c) = decide (some t.core = some c)
    rw [Bool.beq_eq_decide_eq, decide_eq_decide, Option.some_inj]

end

theorem clauseHeaderStarts : Claims.ClauseHeaderStarts := by
  intro n cls mbw sdr cpw s u hu hw
  have hexec : exec (.clauseHeader n cls mbw sdr cpw) s = execClauseHeader n cls mbw sdr cpw s := rfl
  refine ⟨fun hok => ?bad, fun hok hlate hcq hsdr hmbw => ?starts⟩
  case bad => simp only [hexec, execClauseHeader, hu, hw, hok, ne_eq, not_true_eq_false, if_false, if_true, cBADCLAUSE]
  case starts =>
    obtain ⟨hparked, hcancel, herr, hpending⟩ := header_without_copies hcq
    have howes : (sdr && s.owesWrites u.g.id) = false := by
      cases sdr with
      | false => rfl
      | true => exact hsdr rfl
    have hbatch : ¬(mbw.val ≠ 15 ∧ mbw.val < (u.outstanding s).length) := fun h => Nat.not_lt.2 (hmbw h.1) h.2
    have hheader : s.header u mbw.val sdr cpw = s.headerDone u := by
      simp only [State.header, hlate, hcancel, hparked, herr, hpending, howes, if_neg hbatch, Bool.and_false, ite_self, if_false, Bool.false_eq_true]
    simp only [hexec, execClauseHeader, hu, hw, hok, hheader, ne_eq, not_true_eq_false, if_false, Bool.true_eq_false, State.headerDone,
      State.seeStart, State.onCore_eq, decide_eq_true_eq]

/-- Settles O12: `advance` by its two cases, the header with every wait excluded. -/
theorem clausesAdvance : Obligations.ClausesAdvance := ⟨commitAdvancesThePc, clauseHeaderStarts⟩

/-! ### Control transfers (R275 to R278) -/

theorem getLsbD_maskOnes {w : Nat} (hw : w ≤ 64) (i : Nat) : (maskOnes w).getLsbD i = decide (i < w) := by
  rw [maskOnes, ones, BitVec.getLsbD_ofNat, Nat.testBit_two_pow_sub_one]
  by_cases hi : i < w
  · simp [hi, Nat.lt_of_lt_of_le hi hw]
  · simp [hi]

theorem Issuer.maskBits_eq_zero_iff (u : Issuer) (x : W64) : u.maskBits x = 0 ↔ ∀ i, i < u.w → x.getLsbD i = false := by
  unfold Issuer.maskBits
  constructor
  · intro h i hi
    have hbit := congrArg (fun y : W64 => y.getLsbD i) h
    simpa [BitVec.getLsbD_and, getLsbD_maskOnes u.w_le, hi] using hbit
  · intro h
    refine BitVec.eq_of_getLsbD_eq fun i _ => ?_
    by_cases hi : i < u.w
    · simp [h i hi]
    · simp [getLsbD_maskOnes u.w_le, hi]

theorem branchOutcomes : Claims.BranchOutcomes := by
  intro f o s u h go fall g m holds zero
  have taken {i : Instr} {ok : Bool} {p : Issuer → Bool} (hi : exec i s = branch ok o p s) (hok : ok = true) (hp : p u = true) : exec i s = go := by
    rw [hi, branch, hok, runWord_ready h, if_pos hp]
    rfl
  have falls {i : Instr} {ok : Bool} {p : Issuer → Bool} (hi : exec i s = branch ok o p s) (hok : ok = true) (hp : p u = false) : exec i s = fall := by
    rw [hi, branch, hok, runWord_ready h, hp]
    rfl
  have hz {x : W64} (hx : zero x) : (u.maskBits x == 0) = true := beq_iff_eq.2 ((u.maskBits_eq_zero_iff x).2 hx)
  have hnz {x : W64} (hx : ¬zero x) : (u.maskBits x == 0) = false := beq_eq_false_iff_ne.2 fun e => hx ((u.maskBits_eq_zero_iff x).1 e)
  have hz' {x : W64} (hx : zero x) : (u.maskBits x != 0) = false := by rw [bne, hz hx]; rfl
  have hnz' {x : W64} (hx : ¬zero x) : (u.maskBits x != 0) = true := by rw [bne, hnz hx]; rfl
  have below (hf : f.val < 8) : f.below 8 = true := decide_eq_true hf
  refine ⟨taken (p := fun _ => true) rfl rfl rfl, fun hf => ?_, fun hf hx => ⟨?_, ?_⟩, fun hf hx => ⟨?_, ?_⟩, fun hx => ⟨?_, ?_⟩,
    fun hx => ⟨?_, ?_⟩⟩
  · have hcond : condHolds u.g.flags f.val = holds := condHolds_eq_getD u.g.flags hf
    rw [exec_bcc_ready h hf, hcond, apply_ite Host.Outcome.next]
  · exact taken (p := fun u => u.maskBits (u.g.mask f.val) == 0) rfl (below hf) (hz hx)
  · exact falls (p := fun u => u.maskBits (u.g.mask f.val) != 0) rfl (below hf) (hz' hx)
  · exact falls (p := fun u => u.maskBits (u.g.mask f.val) == 0) rfl (below hf) (hnz hx)
  · exact taken (p := fun u => u.maskBits (u.g.mask f.val) != 0) rfl (below hf) (hnz' hx)
  · exact taken (p := fun u => u.maskBits u.g.exm == 0) rfl rfl (hz hx)
  · exact falls (p := fun u => u.maskBits u.g.exm != 0) rfl rfl (hz' hx)
  · exact falls (p := fun u => u.maskBits u.g.exm == 0) rfl rfl (hnz hx)
  · exact taken (p := fun u => u.maskBits u.g.exm != 0) rfl rfl (hnz' hx)

/-- A transfer to a value raises ALIGN unless its target is aligned. -/
theorem Issuer.settle_transferVal (s : State) (u : Issuer) (len : Nat) (g : Group) (x : W64) : s.settle u len (u.transferVal s g x) =
    if x.toNat % 4 = 0 then s.jumped g x else s.takeFault u 0x05 x 0 := by
  unfold Issuer.transferVal
  by_cases h : x.toNat % 4 = 0
  · rw [if_pos h, if_neg (Classical.not_not.2 h)]
    rfl
  · rw [if_neg h, if_pos h]
    rfl

theorem callsAndReturns : Claims.CallsAndReturns := by
  intro k t o s u h ht link dest
  have hlink : u.link = link := by rw [Issuer.link, Group.clauseEnd_eq]
  have hdest (g : Group) (x : W64) (len : Nat) : Host.Outcome.next (s.settle u len (u.transferVal s g x)) = dest g x := by
    rw [Issuer.settle_transferVal, apply_ite Host.Outcome.next]
  have hcall : exec (.call o) s = runWordTo (.s 15) true 0 1 (fun u s => u.transferTo s u.link (u.relative o)) s := rfl
  have hcallIndirect : exec (.callIndirect k) s = runWordTo (.s 15) true 0 1 (fun u s => u.transferVal s u.link u.g.s[k]) s := rfl
  have hret : exec .ret s = runWord true 0 1 (fun u s => u.transferVal s u.g u.g.s[15]) s := rfl
  have hjmpi : exec (.jmpi t) s = runWord (okJmpi t) 0 (1 + t.nlit) (fun u s => u.transferVal s u.g (u.g.scalar t)) s := rfl
  refine ⟨?_, ?_, ?_, ?_⟩
  · rw [hcall, runWordTo_ready h, hlink]
    rfl
  · rw [hcallIndirect, runWordTo_ready h, hdest, hlink]
  · rw [hret, runWord_ready h, hdest]
  · rw [hjmpi, ht, runWord_ready h, hdest]

/-! ### The mask stack (R280) -/

theorem maskStack : Claims.MaskStack := by
  intro f s u h hf d stackFault
  have below : f.below 8 = true := decide_eq_true hf
  have hexif : exec (.exif f) s = execExif f s := rfl
  have hexelse : exec .exelse s = execExelse s := rfl
  have hexend : exec .exend s = execExend s := rfl
  rw [hexif, hexelse, hexend, execExif, execExelse, execExend, below, runWord_ready h, runWord_ready h, runWord_ready h]
  refine ⟨fun hd => ?_, fun hd => ?_, fun hd => ⟨?_, ?_⟩, fun hd => ?_, fun hd => ?_⟩
  · rw [if_pos hd]
    rfl
  · rw [if_neg (Nat.ne_of_lt hd)]
    rfl
  · rw [if_pos hd]
    rfl
  · rw [if_pos hd]
    rfl
  · rw [if_neg (Nat.ne_of_gt hd)]
    rfl
  · rw [if_neg (Nat.ne_of_gt hd)]
    rfl

/-- Settles O13: a branch by whether it is taken, a transfer to a value by its alignment, the stack words by their depth. -/
theorem controlWords : Obligations.ControlWords := ⟨branchOutcomes, callsAndReturns, maskStack⟩

end Sys2Proof.Machine

namespace Sys2Proof.Machine

/-! ### Faults (R73, R175 to R178) -/

theorem trapHandlerEntry : Claims.TrapHandlerEntry := by
  intro s u code va lanes hcode hactive htraph hg t h
  have ht : t = s.setGroup h := by
    have hpc : u.g.clauseEnd = u.g.pc + 4 * BitVec.ofNat 64 (u.g.clauseN + 1) := u.g.clauseEnd_eq
    show s.takeFault u code va lanes = _
    rw [State.takeFault, cRESIDUE, if_neg hcode, hactive, if_neg Bool.false_ne_true, if_neg htraph, State.trapEntry, hpc]
    rfl
  rw [ht]
  exact ⟨State.group?_setGroup s (g := h) hg, fun r hr => State.group?_setGroup_ne s (g := h) hr, rfl⟩

theorem trapAndBreak : Claims.TrapAndBreak := by
  intro o s u h
  have htrap : exec (.trap o) s = runWord true 0 1 (fun _ _ => .fault cTRAP 0 0) s := rfl
  have hbrk : exec (.brk o) s = runWord true 0 1 (fun _ _ => .fault cBRK 0 0) s := rfl
  rw [htrap, hbrk, runWord_ready h, runWord_ready h]
  exact ⟨rfl, rfl⟩

/-- The code a fault that no handler takes ends the task with (R178). -/
theorem State.takeFault_unhandled {s : State} {u : Issuer} {code : Nat} {va lanes : W64}
    (h : u.g.trap.active = true ∨ u.k.launch.traph = 0 ∨ code = 0x12) :
    s.takeFault u code va lanes = s.faultEnd u (if code ≠ 0x12 ∧ u.g.trap.active = true then 0x13 else code) := by
  rw [State.takeFault, cRESIDUE]
  by_cases hc : code = 0x12
  · rw [if_pos hc, if_neg fun hn => hn.1 hc]
  · rw [if_neg hc]
    by_cases ha : u.g.trap.active = true
    · rw [if_pos ha, if_pos ⟨hc, ha⟩]
      rfl
    · rw [if_neg ha, if_pos ((h.resolve_left ha).resolve_right hc), if_neg fun hn => ha hn.2]

theorem State.faultEnd_first {s : State} {u : Issuer} (h : u.k.faulted = false) (code : Nat) : s.faultEnd u code =
    ((s.setGroup { u.g with stat := .stopped, wait := none, fence := none, stall := MemStall.none }).logDie 0x06 u.die u.k.tid u.g.pc.toNat
      (code + u.g.widx * 2 ^ 8 + u.g.id.grp * 2 ^ 12) u.t.team).setTask { u.k with faulted := true, fcode := code } := by
  rw [State.faultEnd, h]
  rfl

theorem unhandledFaultEndsTask : Claims.UnhandledFaultEndsTask := by
  intro s u code va lanes htask hfirst hun t c
  have ht : t = s.faultEnd u c := State.takeFault_unhandled hun
  have hgroups : ∀ r, r ≠ u.g.id → t.group? r = s.group? r := fun r hr => State.group?_takeFault_ne s u code va lanes hr
  refine ⟨?_, ?_, State.takeFault_mem .., State.takeFault_teams .., State.takeFault_cores .., State.takeFault_mills .., hgroups⟩
  · rw [ht, State.faultEnd_first hfirst]
    exact State.task?_setTask _ (k := { u.k with faulted := true, fcode := c }) (j := u.k) htask
  · rw [ht, State.faultEnd_first hfirst]
    rfl

/-- Settles O14: `takeFault` by its three ways out. -/
theorem faultsAreTaken : Obligations.FaultsAreTaken := ⟨trapHandlerEntry, trapAndBreak, unhandledFaultEndsTask⟩

/-! ### Barriers (R171, R339) -/

theorem Issuer.release_free {u : Issuer} {s : State} (hfence : u.g.fence = none) (howes : s.owesWrites u.g.id = false) : u.release s 0 = none := by
  simp only [Issuer.release, hfence, howes, and_self, if_true]
theorem Issuer.release_fenced {u : Issuer} {s : State} {f : FenceSt} (hfence : u.g.fence = some f) (scope : Nat) : u.release s scope = none := by
  simp only [Issuer.release, hfence]

/-- An acquire at .cr has nothing to wait for; at every other scope its Drain is sent. -/
theorem Issuer.acquire_core (u : Issuer) (s : State) (g : Group) : u.acquire s g 0 = .done g s := rfl
theorem Issuer.acquire_wider {scope : Nat} (u : Issuer) (s : State) (g : Group) (h : scope ≠ 0) :
    u.acquire s g scope = .acquire g scope (s.sendDrain u.g.id u.t.core true scope) := if_neg h

theorem barriersComplete : Claims.BarriersComplete := by
  intro f s u h hf here s'
  have below {m : Nat} (hm : f.val < m) : f.below m = true := decide_eq_true hm
  have htarr : exec (.tarr f) s = execTarr f s := rfl
  have htwait : exec (.twait f) s = execTwait f s := rfl
  have htbar : exec (.tbar f) s = execTbar f s := rfl
  have hcbar : exec (.cbar f) s = execCbar f s := rfl
  rw [htarr, htwait, htbar, hcbar, execTarr, execTwait, execTbar, execCbar, below hf, runWord_ready h, runWord_ready h, runWord_ready h]
  refine ⟨fun hn => ?_, fun hn => ?_, fun hy => ⟨?_, ?_⟩, fun hn hw => ?_, fun hn hw hfe ho t ht => ?_, fun hf8 hw hn hcol => ?_⟩
  · rw [show u.arrived f.val = false from hn]
    rfl
  · rw [show u.arrived f.val = false from hn]
    rfl
  · rw [show u.arrived f.val = true from hy]
    rfl
  · rw [show u.arrived f.val = true from hy]
    rfl
  · rw [hw, show u.arrived f.val = false from hn]
    rfl
  · have ht' : (s.arrive u.g.id f.val).team? u.t.tid u.t.team = some t := ht
    simp only [hw, Issuer.release_free hfe ho, show u.arrived f.val = false from hn, ht', Bool.false_eq_true, if_false]
    show _ = Host.Outcome.next (if Issuer.arrived { u with t := t } f.val then _ else _)
    cases Issuer.arrived { u with t := t } f.val <;> rfl
  · rw [below hf8, runWord_ready h, hw, hn, if_neg Bool.false_ne_true, Issuer.acquire_wider _ _ _ hcol]
    rfl

theorem barrierGenerationEnds : Claims.BarrierGenerationEnds := by
  intro b gs hb all
  have hall : (live gs).all (fun g => bit b.arrived g.id.grp) = true ↔ all := by
    simp [live, all, Classical.or_iff_not_imp_left]
  refine ⟨fun h => if_pos ⟨hb, hall.2 h⟩, fun h => if_neg fun hn => h (hall.1 hn.2)⟩

/-! ### Tethers (R172, R173) -/

theorem tethersComplete : Claims.TethersComplete := by
  intro f s u h t
  have harr : exec (.tethArr f) s = execTethArr f s := rfl
  have hwait : exec (.tethWait f) s = execTethWait f s := rfl
  rw [harr, hwait, execTethArr, execTethWait, runWord_ready h, runWord_ready h]
  refine ⟨fun hshut => ⟨fun hw => ?_, fun hw => ?_⟩, fun hopen => ?_⟩
  · rw [if_pos ⟨hw, hshut⟩]
    rfl
  · rw [if_pos ⟨hw, hshut⟩]
    rfl
  · have hno {w : Wait} : ¬(u.g.wait ≠ some w ∧ s.tethOpen f.val u.k.asid = false) := fun hn => Bool.false_ne_true (hn.2.symm.trans hopen)
    rw [if_neg hno, if_neg hno]
    refine ⟨fun ha => ?_, fun hl => ?_, fun hl ha => ?_⟩
    · rw [ha]
      rfl
    · rw [hl]
      rfl
    · rw [hl, ha]
      rfl

/-- Settles O16: each word by whether the group has arrived, or may use the tether. -/
theorem barriersAndTethers : Obligations.BarriersAndTethers := ⟨barriersComplete, barrierGenerationEnds, tethersComplete⟩

end Sys2Proof.Machine

namespace Sys2Proof.Machine

/-! ### Tail writes (R340, R341) -/

theorem bits_eq_zero_iff_above {x : Nat} (hx : x < 2 ^ 64) {k : Nat} (hk : k ≤ 64) : bits x 63 k = 0 ↔ x / 2 ^ k = 0 := by
  have hlt : x / 2 ^ k < 2 ^ (64 - k) := Nat.div_lt_of_lt_mul (by rwa [← Nat.pow_add, Nat.add_sub_cancel' hk])
  rw [bits, Nat.mod_eq_of_lt hlt]

theorem Issuer.queueBarred_iff {u : Issuer} {s : State} {q : Nat} :
    u.queueBarred s q = true ↔ bits (s.reg (offQCFG q)) 15 0 ≠ u.k.asid ∧ u.k.asid ≠ 0 := by
  simp [Issuer.queueBarred, Issuer.priv]

section
variable {k : SReg} {s : State} {u : Issuer} {d : Dst}

/-- What tlaunch's word does once nothing holds it. -/
theorem exec_tlaunch_ready (h : s.Ready u 0 d) (hx : u.g.s[k].toNat / 2 ^ 40 = 0)
    (hfree : (u.g.fence.isNone && !u.g.stall.sent && u.queueBarred s (u.g.s[k].toNat / 2 ^ 32 % 256)) = false) {f : FenceSt} (hf : u.g.fence = some f) :
    exec (.tlaunch k) s = .next ((u.tail s .device (u.g.s[k].toNat / 2 ^ 32 % 256) (u.g.s[k].setWidth 32)).setGroup (u.g.advance 1 u.g)) := by
  have hexec : exec (.tlaunch k) s = execTlaunch k s := rfl
  have hbits : bits u.g.s[k].toNat 39 32 = u.g.s[k].toNat / 2 ^ 32 % 256 := rfl
  rw [hexec, execTlaunch, runWord_ready h, if_neg (Classical.not_not.2 ((bits_eq_zero_iff_above u.g.s[k].isLt (by decide)).2 hx)), hbits, hfree,
    if_neg Bool.false_ne_true, hf]
  rfl

theorem exec_tlaunch_reserved (h : s.Ready u 0 d) (hx : u.g.s[k].toNat / 2 ^ 40 ≠ 0) :
    exec (.tlaunch k) s = .next (s.takeFault u 0x02 0 0) := by
  have hexec : exec (.tlaunch k) s = execTlaunch k s := rfl
  rw [hexec, execTlaunch, runWord_ready h, if_pos fun e => hx ((bits_eq_zero_iff_above u.g.s[k].isLt (by decide)).1 e)]
  rfl

theorem exec_tlaunch_barred (h : s.Ready u 0 d) (hx : u.g.s[k].toNat / 2 ^ 40 = 0)
    (hb : u.queueBarred s (u.g.s[k].toNat / 2 ^ 32 % 256) = true) (hf : u.g.fence = none) (hs : u.g.stall.sent = false) :
    exec (.tlaunch k) s = .next (s.takeFault u 0x07 0 0) := by
  have hexec : exec (.tlaunch k) s = execTlaunch k s := rfl
  have hbits : bits u.g.s[k].toNat 39 32 = u.g.s[k].toNat / 2 ^ 32 % 256 := rfl
  rw [hexec, execTlaunch, runWord_ready h, if_neg (Classical.not_not.2 ((bits_eq_zero_iff_above u.g.s[k].isLt (by decide)).2 hx)), hbits, hb, hf, hs]
  rfl

theorem exec_qtail_reserved (h : s.Ready u 0 d)
    (hx : bits u.g.s[k].toNat 63 51 ≠ 0 ∨ bit u.g.s[k].toNat 50 = false ∧ bits u.g.s[k].toNat 49 40 ≠ 0) :
    exec (.qtail k) s = .next (s.takeFault u 0x02 0 0) := by
  have hexec : exec (.qtail k) s = execQtail k s := rfl
  rw [hexec, execQtail, runWord_ready h, if_pos hx]
  rfl

/-- A tail write to a queue of this package. -/
theorem exec_qtail_local (h : s.Ready u 0 d) (hx : ¬(bits u.g.s[k].toNat 63 51 ≠ 0 ∨ bit u.g.s[k].toNat 50 = false ∧ bits u.g.s[k].toNat 49 40 ≠ 0))
    (h50 : bit u.g.s[k].toNat 50 = false) : exec (.qtail k) s = .next (if u.queueBarred s (u.g.s[k].toNat / 2 ^ 32 % 256) then s.takeFault u 0x07 0 0
      else (u.tail s .device (u.g.s[k].toNat / 2 ^ 32 % 256) (u.g.s[k].setWidth 32)).setGroup (u.g.advance 1 u.g)) := by
  have hexec : exec (.qtail k) s = execQtail k s := rfl
  have hbits : bits u.g.s[k].toNat 39 32 = u.g.s[k].toNat / 2 ^ 32 % 256 := rfl
  rw [hexec, execQtail, runWord_ready h, if_neg hx, if_pos h50, hbits]
  cases u.queueBarred s (u.g.s[k].toNat / 2 ^ 32 % 256) <;> rfl

/-- A tail write that names a package. -/
theorem exec_qtail_package (h : s.Ready u 0 d) (hx : ¬(bits u.g.s[k].toNat 63 51 ≠ 0 ∨ bit u.g.s[k].toNat 50 = false ∧ bits u.g.s[k].toNat 49 40 ≠ 0))
    (h50 : bit u.g.s[k].toNat 50 = true) : exec (.qtail k) s = .next (s.settle u 1
      (if u.g.s[k].toNat / 2 ^ 40 % 1024 = s.pkgNum then
        .done u.g (u.tail s (.remote (u.g.s[k].toNat / 2 ^ 40 % 1024) 0) (u.g.s[k].toNat / 2 ^ 32 % 256) (u.g.s[k].setWidth 32))
      else .done u.g (match s.sendPacket (s.ownPacket .ctl (u.g.s[k].toNat / 2 ^ 40 % 1024) 0) with
        | some t => { t with out := t.out ++ [.remoteTail (u.g.s[k].toNat / 2 ^ 40 % 1024) (u.g.s[k].toNat / 2 ^ 32 % 256)
            (u.g.s[k].setWidth 32 : W32).toNat] }
        | none => s))) := by
  have hexec : exec (.qtail k) s = execQtail k s := rfl
  rw [hexec, execQtail, runWord_ready h, if_neg hx, if_neg (Bool.not_eq_false _ ▸ h50 : ¬bit u.g.s[k].toNat 50 = false)]
  rfl

end

/-- Settles O17: bits 63 to 40 of the scalar say which of the model's branches the tail write takes. -/
theorem tailWrites : Obligations.TailWrites := by
  intro k s u h x q barred sent
  have hlt : x < 2 ^ 64 := u.g.s[k].isLt
  have hbarred : u.queueBarred s q = true ↔ barred := Issuer.queueBarred_iff
  have hhigh : bits x 63 51 = 0 ↔ x / 2 ^ 51 = 0 := bits_eq_zero_iff_above hlt (by decide)
  have h50 : bit x 50 = decide (x / 2 ^ 50 % 2 = 1) := Bool.beq_eq_decide_eq ..
  have h49 : bits x 49 40 = x / 2 ^ 40 % 1024 := rfl
  have hfree (hx : x / 2 ^ 40 = 0) : ¬(bits x 63 51 ≠ 0 ∨ bit x 50 = false ∧ bits x 49 40 ≠ 0) := by
    rw [ne_eq, hhigh, h49]
    omega
  have hno50 (hx : x / 2 ^ 40 = 0) : bit x 50 = false := by
    rw [h50, decide_eq_false_iff_not]
    omega
  have hfree' (hx : x / 2 ^ 50 = 1) : ¬(bits x 63 51 ≠ 0 ∨ bit x 50 = false ∧ bits x 49 40 ≠ 0) := by
    rw [ne_eq, hhigh, h50, decide_eq_false_iff_not]
    omega
  have hyes50 (hx : x / 2 ^ 50 = 1) : bit x 50 = true := by
    rw [h50, hx]
    rfl
  refine ⟨exec_tlaunch_reserved h, fun hx hb hf hs => exec_tlaunch_barred h hx (hbarred.2 hb) hf hs, fun hx hb => ?_, fun hx hf => ?_, fun hx hb => ?_,
    fun hx => exec_qtail_reserved h ?_, fun hx hpkg => ?_, fun hx hpkg => ?_⟩
  · rw [exec_qtail_local h (hfree hx) (hno50 hx), if_pos (hbarred.2 hb)]
  · exact exec_tlaunch_ready h hx (by rw [hf]; rfl) hf
  · rw [exec_qtail_local h (hfree hx) (hno50 hx), if_neg (mt hbarred.1 hb)]
    rfl
  · show bits x 63 51 ≠ 0 ∨ bit x 50 = false ∧ bits x 49 40 ≠ 0
    rw [ne_eq, hhigh, h50, decide_eq_false_iff_not, h49]
    omega
  · rw [exec_qtail_package h (hfree' hx) (hyes50 hx), if_pos hpkg, hpkg]
    rfl
  · rw [exec_qtail_package h (hfree' hx) (hyes50 hx), if_neg hpkg]
    rfl

end Sys2Proof.Machine

/-! PROOFS. A word of the ALU class changes nothing but its own group (O55). -/

namespace Sys2Proof.Machine

/-! ### What a result leaves of its group -/

theorem Group.putS_id (g : Group) (d : Dst) (x : ScalarOut) : (g.putS d x).id = g.id := by
  obtain ⟨r, f⟩ := x
  cases d <;> cases f <;> rfl
theorem Group.setS_id (g : Group) (d : Dst) (x : W64) : (g.setS d x).id = g.id := by cases d <;> rfl
theorem Group.writeVec_id (g : Group) (w : Nat) (d : Dst) (r : Nat → W32) : (g.writeVec w d r).id = g.id := by cases d <;> rfl
theorem Group.setMask_id (g : Group) (k : Nat) (x : W64) : (g.setMask k x).id = g.id := rfl
theorem Group.compare_id (g : Group) (w k : Nat) (a b : Src) (holds : W32 → W32 → Bool) : (g.compare w k a b holds).id = g.id := rfl
theorem Group.advance_id (u : Group) (len : Nat) (g : Group) : (u.advance len g).id = g.id := by
  unfold Group.advance
  split <;> rfl

/-- Every ALU word leaves a group under its own name and is nothing else. -/
theorem exec_alu_eq_runPureTo {i : Instr} (hc : i.ctx = some (.clause .alu)) :
    ∃ d ok top len f, (∀ s, exec i s = runPureTo d ok top len f s) ∧ ∀ u, (f u).id = u.g.id := by
  cases i
  all_goals cases hc
  all_goals refine ⟨_, _, _, _, _, fun _ => rfl, fun u => ?_⟩
  all_goals simp only [Group.putS_id, Group.setS_id, Group.writeVec_id, Group.setMask_id, Group.compare_id]

/-- What changes nothing but a group, and at most that group's task. -/
structure State.OnlyGroup (s t : State) (u : Issuer) : Prop where
  mem : t.mem = s.mem
  teams : t.teams = s.teams
  cores : t.cores = s.cores
  mills : t.mills = s.mills
  mgmt : t.mgmt = s.mgmt
  link : t.link = s.link
  boot : t.boot = s.boot
  out : t.out = s.out
  groups : ∀ r, r ≠ u.g.id → t.group? r = s.group? r
  tasks : ∀ n, n ≠ u.k.tid → t.task? n = s.task? n

theorem State.onlyGroup_setGroup (s : State) {u : Issuer} {g : Group} (hg : g.id = u.g.id) : s.OnlyGroup (s.setGroup g) u where
  mem := rfl
  teams := rfl
  cores := rfl
  mills := rfl
  mgmt := rfl
  link := rfl
  boot := rfl
  out := rfl
  groups _ hr := State.group?_setGroup_ne s (hg ▸ hr)
  tasks _ _ := rfl

theorem State.task?_faultEnd_ne (s : State) (u : Issuer) (code : Nat) {n : Nat} (hn : n ≠ u.k.tid) : (s.faultEnd u code).task? n = s.task? n := by
  unfold State.faultEnd
  cases u.k.faulted with
  | true => rfl
  | false => exact State.task?_setTask_ne _ (k := { u.k with faulted := true, fcode := code }) hn

theorem State.task?_takeFault_ne (s : State) (u : Issuer) (code : Nat) (va lanes : W64) {n : Nat} (hn : n ≠ u.k.tid) :
    (s.takeFault u code va lanes).task? n = s.task? n := by
  unfold State.takeFault
  split
  · exact s.task?_faultEnd_ne u code hn
  split
  · exact s.task?_faultEnd_ne u _ hn
  split
  · exact s.task?_faultEnd_ne u code hn
  · rfl

theorem State.onlyGroup_takeFault (s : State) (u : Issuer) (code : Nat) (va lanes : W64) : s.OnlyGroup (s.takeFault u code va lanes) u where
  mem := s.takeFault_mem ..
  teams := s.takeFault_teams ..
  cores := s.takeFault_cores ..
  mills := s.takeFault_mills ..
  mgmt := s.takeFault_mgmt ..
  link := s.takeFault_link ..
  boot := s.takeFault_boot ..
  out := s.takeFault_out ..
  groups _ hr := s.group?_takeFault_ne u code va lanes hr
  tasks _ hn := s.task?_takeFault_ne u code va lanes hn

/-- A word that is only an effect on its group commits it, waits, or faults. -/
theorem onlyGroup_of_runPureTo {d : Dst} {ok : Bool} {top len : Nat} {f : Issuer → Group} {s t : State} {u : Issuer} (hf : (f u).id = u.g.id)
    (hu : s.issuer = some u) (hr : s.residue = .clean) (h : runPureTo d ok top len f s = .next t) : s.OnlyGroup t u := by
  simp only [runPureTo, runWordTo, hu, hr] at h
  split at h
  · cases h
    exact s.onlyGroup_takeFault u _ _ _
  split at h
  · cases h
    exact s.onlyGroup_setGroup rfl
  · cases h
    exact s.onlyGroup_setGroup (g := u.g.advance len (f u)) ((Group.advance_id ..).trans hf)

/-- Settles O55: every ALU word is an effect on its group alone. -/
theorem aluWordsKeepTheRest : Obligations.AluWordsKeepTheRest := by
  intro i s t u hc hu hr h
  obtain ⟨d, ok, top, len, f, hexec, hid⟩ := exec_alu_eq_runPureTo hc
  rw [hexec] at h
  obtain ⟨mem, teams, cores, mills, mgmt, link, boot, out, groups, tasks⟩ := onlyGroup_of_runPureTo (hid u) hu hr h
  exact ⟨mem, teams, cores, mills, mgmt, link, boot, out, groups, tasks⟩

end Sys2Proof.Machine

/-! PROOFS. The mill's scalar words (O34), its local memory and vectors (O35), its tower accesses (O36), and its system words and traps (O37). -/

namespace Sys2Proof.Machine

section
variable {s : State} {u : MillIssuer} {i : Instr}

/-- A mill word that is an effect on its mill's registers. -/
theorem millAlu_ready (h : s.millIssuer = some u) (d a b : GReg) (f : W64 → W64 → W64) :
    millAlu d a b f s = .next (millDone s (putG u.m d (f (u.m.gr a) (u.m.gr b)))) := runMill_ready h _

theorem millImm_ready (h : s.millIssuer = some u) (d a : GReg) (f : W64 → W64) :
    millImm d a f s = .next (millDone s (putG u.m d (f (u.m.gr a)))) := runMill_ready h _

end

theorem millRegisterWords : Claims.MillRegisterWords := by
  unfold Claims.MillRegisterWords
  intro rows r hr d a b s u h x y
  have word : ∃ f, exec (r.1 d a b) s = millAlu d a b f s ∧ ∀ x y, f x y = r.2 x y := by
    revert r
    simp only [rows, List.forall_mem_cons]
    exact ⟨⟨_, rfl, fun _ _ => rfl⟩, ⟨_, rfl, fun _ _ => rfl⟩, ⟨_, rfl, fun _ _ => rfl⟩, ⟨_, rfl, fun _ _ => rfl⟩, ⟨_, rfl, fun _ _ => rfl⟩,
      ⟨_, rfl, fun _ _ => rfl⟩, ⟨_, rfl, fun _ _ => rfl⟩, ⟨_, rfl, fun _ _ => rfl⟩, ⟨_, rfl, fun _ _ => rfl⟩, ⟨_, rfl, fun x y => sar64_eq x y.toNat⟩,
      ⟨_, rfl, fun _ _ => rfl⟩, ⟨_, rfl, fun _ _ => rfl⟩, ⟨_, rfl, minS_eq⟩, ⟨_, rfl, maxS_eq⟩, nofun⟩
  obtain ⟨f, hi, hf⟩ := word
  rw [hi, millAlu_ready h, hf]
  rfl

theorem shiftLeft_signExtend (imm : BitVec 16) : (imm.signExtend 64 : W64) <<< 16 = BitVec.ofInt 64 (imm.toInt * 2 ^ 16) := by
  rw [BitVec.shiftLeft_eq_mul_twoPow, BitVec.signExtend, BitVec.ofInt_mul]
  rfl

theorem millImmediateWords : Claims.MillImmediateWords := by
  intro d a imm n s u h x put
  have word {i : Instr} {v : W64} (f : W64 → W64) (hi : exec i s = millImm d a f s) (hf : f x = v) : exec i s = put v := by
    rw [hi, millImm_ready h, ← hf]
    rfl
  have hn : n.val < 64 := n.isLt
  have hlui : exec (.millLui d imm) s = runMill true (fun u s => .done (u.m.setG d (imm.signExtend 64 <<< 16)) s) s := rfl
  refine ⟨word (fun x => x + imm.signExtend 64) rfl rfl, word (fun x => x &&& imm.setWidth 64) rfl rfl, word (fun x => x ||| imm.setWidth 64) rfl rfl,
    word (fun x => x ^^^ imm.setWidth 64) rfl rfl, word (fun x => shl64 x n.val) rfl (if_pos hn), word (fun x => shr64 x n.val) rfl (if_pos hn),
    word (fun x => sar64 x n.val) rfl (if_pos hn), ?_⟩
  rw [hlui, runMill_ready h, shiftLeft_signExtend]
  rfl

theorem millTransfers : Claims.MillTransfers := by
  intro d a b o s u h x y t br
  have branch {i : Instr} {p : Bool} (f : W64 → W64 → Bool) (hi : exec i s = millBranch a b o f s) (hf : f x y = p) : exec i s = br p := by
    have hx : u.m.gr a = x := rfl
    have hy : u.m.gr b = y := rfl
    rw [hi, millBranch, runMill_ready h, hx, hy, hf]
    cases p <;> rfl
  have hjal : exec (.millJal d o) s = execMillJal d o s := rfl
  have hjr : exec (.millJr d a) s = execMillJr d a s := rfl
  have hgr : (u.m.gr a).toNat = x.toNat := rfl
  refine ⟨branch (fun x y => x == y) rfl (Bool.beq_eq_decide_eq x y), branch (fun x y => x != y) rfl (by rw [bne, Bool.beq_eq_decide_eq, decide_not]),
    branch (fun x y => decide (x.toInt < y.toInt)) rfl rfl, branch (fun x y => decide (y.toInt ≤ x.toInt)) rfl rfl, ?_, fun hx => ?_, fun hx => ?_⟩
  · rw [hjal, execMillJal, runMill_ready h]
    rfl
  · rw [hjr, execMillJr, runMill_ready h, hgr, if_neg (Classical.not_not.2 hx)]
    rfl
  · rw [hjr, execMillJr, runMill_ready h, hgr, if_pos hx]
    rfl

/-- Settles O34: each word is `millAlu`, `millImm` or `millBranch` of its function, or a jump. -/
theorem millScalarWords : Obligations.MillScalarWords := ⟨millRegisterWords, millImmediateWords, millTransfers⟩

end Sys2Proof.Machine

namespace Sys2Proof.Machine

/-! ### Local memory and the row buffer (R361, R365) -/

section
variable {s : State} {u : MillIssuer}

theorem MillIssuer.localCode_of_misaligned {buf : Bool} {x : Int} {n : Nat} (reads : Bool) (h : x % (n : Int) ≠ 0) :
    u.localCode buf x n reads = some 0x05 := if_pos h

theorem MillIssuer.localCode_of_outside {buf : Bool} {x : Int} {n : Nat} (reads : Bool) (h : x % (n : Int) = 0)
    (hout : x < 0 ∨ (if buf then (2048 : Int) else u.k.launch.locbytes) < x + n) : u.localCode buf x n reads = some 0x06 := by
  have htop : x < 0 ∨ (((if buf then 2048 else u.k.launch.locbytes : Nat) : Int)) < x + n := by cases buf <;> exact hout
  rw [MillIssuer.localCode, if_neg (Classical.not_not.2 h), if_pos htop]
  rfl

theorem MillIssuer.localCode_of_inside {buf : Bool} {x : Int} {n : Nat} (reads : Bool) (hbad : u.m.bad = []) (h : x % (n : Int) = 0)
    (hlo : 0 ≤ x) (hhi : x + n ≤ if buf then (2048 : Int) else u.k.launch.locbytes) : u.localCode buf x n reads = none := by
  have htop : ¬(x < 0 ∨ (((if buf then 2048 else u.k.launch.locbytes : Nat) : Int)) < x + n) := by
    cases buf <;> exact fun hout => hout.elim (Int.not_lt.2 hlo) (Int.not_lt.2 hhi)
  rw [MillIssuer.localCode, if_neg (Classical.not_not.2 h), if_neg htop, hbad, List.any_nil, Bool.and_false, if_neg Bool.false_ne_true]

/-- With no row operation, no local access waits. -/
theorem Mill.localWaits_idle {m : Mill} (h : m.inRow = false) (buf : Bool) (a n : Nat) : m.localWaits buf a n = false := by
  simp [Mill.localWaits, Mill.rowHolds, h]

theorem clearBad_nil (a n : Nat) : clearBad [] a n = [] := rfl

/-- A store to local memory leaves the other parts of a mill without errors alone. -/
theorem Mill.writeLocal_loc {m : Mill} (h : m.bad = []) (a n x : Nat) : m.writeLocal false a n x = { m with loc := m.loc.putNat a n x } := by
  rw [Mill.writeLocal, if_neg Bool.false_ne_true, h, clearBad_nil, ← h]

/-- How a local access ends: ALIGN, SPACE, or its effect on the mill. -/
theorem millLocal_outcomes (hu : s.millIssuer = some u) (hbad : u.m.bad = []) (hrow : u.m.inRow = false) (buf : Bool) (a : GReg) (imm : BitVec 16)
    (n : Nat) (reads : Bool) (f : Mill → Nat → Mill) :
    (u.addr a imm % (n : Int) ≠ 0 → millLocal buf a imm n reads f s = .next (s.millTrap u 0x05 u.m.pc)) ∧
    (u.addr a imm % (n : Int) = 0 → (u.addr a imm < 0 ∨ (if buf then (2048 : Int) else u.k.launch.locbytes) < u.addr a imm + n) →
      millLocal buf a imm n reads f s = .next (s.millTrap u 0x06 u.m.pc)) ∧
    (u.addr a imm % (n : Int) = 0 → 0 ≤ u.addr a imm → u.addr a imm + n ≤ (if buf then (2048 : Int) else u.k.launch.locbytes) →
      millLocal buf a imm n reads f s = .next (millDone s (f u.m (u.addr a imm).toNat))) := by
  rw [millLocal, runMill_ready hu]
  refine ⟨fun h => ?_, fun h hout => ?_, fun h hlo hhi => ?_⟩
  · simp only [MillIssuer.localCode_of_misaligned reads h]
    rfl
  · simp only [MillIssuer.localCode_of_outside reads h hout]
    rfl
  · simp only [MillIssuer.localCode_of_inside reads hbad h hlo hhi, Mill.localWaits_idle hrow]
    rfl

end

theorem millLocalAccesses : Claims.MillLocalAccesses := by
  intro d a w buf imm s u hu hbad hrow x y top mem fit
  have access {i : Instr} {n : Nat} {b reads : Bool} {t : Mill} (f : Mill → Nat → Mill) (hi : exec i s = millLocal b a imm n reads f s)
      (ht : f u.m x.toNat = t) : fit n b i t := by
    obtain ⟨halign, hspace, hdone⟩ := millLocal_outcomes hu hbad hrow b a imm n reads f
    rw [← hi] at halign hspace hdone
    exact ⟨halign, hspace, fun h hlo hhi => by rw [← ht]; exact hdone h hlo hhi⟩
  clear_value fit
  refine ⟨access (n := 8) (reads := true) (fun m x => m.setG d (BitVec.ofNat 64 (m.readLocal false x 8))) rfl rfl,
    access (n := 4) (reads := true) (fun m x => m.setG d (BitVec.ofNat 64 (m.readLocal false x 4))) rfl rfl,
    access (n := 8) (reads := false) (fun m x => m.writeLocal false x 8 (m.gr d).toNat) rfl (Mill.writeLocal_loc hbad _ _ _),
    access (n := 4) (reads := false) (fun m x => m.writeLocal false x 4 ((m.gr d).toNat % 2 ^ 32)) rfl (Mill.writeLocal_loc hbad _ _ _),
    access (n := 64) (reads := true) (fun m x => { m with
      w := m.w.set w ((List.range 16).map fun i => BitVec.ofNat 32 (m.readLocal buf (x + 4 * i) 4)) }) rfl ?load,
    access (n := 64) (reads := false) (fun m x => (List.range 16).foldl (fun m' i => m'.writeLocal buf (x + 4 * i) 4 (lane m.w[w] i).toNat) m) rfl rfl⟩
  cases buf <;> rfl

/-! ### Vector words (R364) -/

/-- The lanes that a mask enables; k0 enables all of the sixteen. -/
theorem Mill.getLsbD_kr (m : Mill) (k : Fin 4) (i : Nat) :
    (m.kr k).getLsbD i = if k = 0 then decide (i < 16) else (m.k[k] : BitVec 16).getLsbD i := by
  unfold Mill.kr
  split
  · exact BitVec.getLsbD_allOnes
  · rfl

theorem getLsbD_ofNat_maskNat (f : Nat → Bool) {i : Nat} (hi : i < 16) : (BitVec.ofNat 16 (maskNat 16 f)).getLsbD i = f i := by
  rw [BitVec.getLsbD_ofNat, testBit_maskNat, decide_eq_true hi, Bool.true_and, Bool.true_and]

theorem millVectorWords : Claims.MillVectorWords := by
  unfold Claims.MillVectorWords
  intro rows d a b c k kc kd cond s u hu on x y put
  have hon (k : Fin 4) (i : Nat) : (u.m.kr k).getLsbD i = on k i := u.m.getLsbD_kr k i
  have hset (f : Nat → W32) : Host.Outcome.next (s.millSettle u (.done (u.m.setW d k f) s)) = put f := by
    simp only [Mill.setW, hon]
    rfl
  have hffma : exec (.millWffma d a b c k) s = execMillWffma d a b c k s := rfl
  have hsel : exec (.millWsel d a b kc k) s = execMillWsel d a b kc k s := rfl
  have hbcast : exec (.millWbcast d a b k) s = execMillWbcast d a b k s := rfl
  have hred : exec (.millWredaddF32 d a k) s = execMillWredaddF32 d a k s := rfl
  have hcmp : exec (.millWcmp kd a b k cond) s = execMillWcmp kd a b k cond s := rfl
  refine ⟨fun r hr => ?rows, ?ffma, ?sel, ?bcast, ?red, fun hkd hcond => ?cmp⟩
  case rows =>
    have word : exec (r.1 d a b k) s = millVec d a b k r.2 s := by
      revert r
      simp only [rows, List.forall_mem_cons]
      exact ⟨rfl, rfl, rfl, rfl, rfl, rfl, rfl, nofun⟩
    rw [word, millVec, runMill_ready hu, hset]
  case ffma => rw [hffma, execMillWffma, runMill_ready hu, hset]
  case sel =>
    rw [hsel, execMillWsel, runMill_ready hu, hset]
    simp only [hon]
    rfl
  case bcast => rw [hbcast, execMillWbcast, runMill_ready hu, hset]
  case red =>
    rw [hred, execMillWredaddF32, runMill_ready hu]
    simp only [hon]
    rfl
  case cmp =>
    have hok : okWcmp kd cond = true := by
      rw [okWcmp, decide_eq_true hcond, Bool.and_true]
      exact decide_eq_true fun e => hkd (Fin.ext e)
    refine ⟨BitVec.ofNat 16 (maskNat 16 fun i => (u.m.kr k).getLsbD i && wcmpHolds cond.val (x i) (y i)), ?_, fun i hi => ?_⟩
    · have hk (r : BitVec 16) : u.m.setK kd r = { u.m with k := u.m.k.set kd r } := if_neg hkd
      rw [hcmp, execMillWcmp, hok, runMill_ready hu]
      simp only [hk]
      rfl
    · rw [getLsbD_ofNat_maskNat _ hi, hon]

/-- Settles O35: a local access by its address, a vector word by the lanes its mask enables. -/
theorem millLocalAndVectorWords : Obligations.MillLocalAndVectorWords := ⟨millLocalAccesses, millVectorWords⟩

end Sys2Proof.Machine

namespace Sys2Proof.Machine

/-! ### Tower accesses (R151, R188, R362, R371) -/

section
variable {s : State} {u : MillIssuer} {va : Int} {wr : Option Nat} {k : Nat → MillOut}

theorem MillIssuer.access_of_misaligned (h : va % 8 ≠ 0) : u.access s va wr k = .trap 0x05 := if_pos h

/-- With no row operation, an aligned global address is named by none. -/
theorem MillIssuer.access_of_global (hrow : u.m.inRow = false) (hfaults : u.m.stall.faults = []) (h : va % 8 = 0) (hin : inGlobal va = true) :
    u.access s va wr k = match u.m.stall.result with
      | some vals => k (vals.headD 0)
      | none => if u.m.stall.sent then .wait u.m s else match u.home s (vaOf va) with
        | none => .trap cNOHOME
        | some h => .wait { u.m with wait := some .mem, stall := { u.m.stall with sent := true } }
            (s.request .req u.site (.tower h) (.millAcc u.m.id u.k.asid u.priv (vaOf va) wr)) := by
  have hnames : u.m.rowNames (vaOf va) = false := by
    rw [Mill.rowNames, hrow, Bool.false_and, Bool.false_and]
  rw [MillIssuer.access, if_neg (Classical.not_not.2 h), hin, hnames, hfaults]
  rfl

theorem MillIssuer.access_sends (hrow : u.m.inRow = false) (hfaults : u.m.stall.faults = []) (h : va % 8 = 0) (hin : inGlobal va = true)
    (hres : u.m.stall.result = none) (hsent : u.m.stall.sent = false) {t : Nat} (ht : u.home s (vaOf va) = some t) :
    u.access s va wr k = .wait { u.m with wait := some .mem, stall := { u.m.stall with sent := true } }
      (s.request .req u.site (.tower t) (.millAcc u.m.id u.k.asid u.priv (vaOf va) wr)) := by
  rw [MillIssuer.access_of_global hrow hfaults h hin, hres, hsent, ht]
  rfl

theorem MillIssuer.access_completes (hrow : u.m.inRow = false) (hfaults : u.m.stall.faults = []) (h : va % 8 = 0) (hin : inGlobal va = true)
    {v : Nat} {vs : List Nat} (hres : u.m.stall.result = some (v :: vs)) : u.access s va wr k = k v := by
  rw [MillIssuer.access_of_global hrow hfaults h hin, hres]
  rfl

end

/-- Settles O36: ldt and stt through the one access of R362, mpark by the end of its wait. -/
theorem millTowerAccesses : Obligations.MillTowerAccesses := by
  intro d a imm lim s u hu hrow hfaults va y asked
  have hldt : exec (.millLdt d a imm) s = .next (s.millSettle u (u.access s va none fun x => .done (u.m.setG d (BitVec.ofNat 64 x)) s)) :=
    runMill_ready hu fun u s => u.access s (u.addr a imm) none fun x => .done (u.m.setG d (BitVec.ofNat 64 x)) s
  have hstt : exec (.millStt d a imm) s = .next (s.millSettle u (u.access s va (some y.toNat) fun _ => .done u.m s)) :=
    runMill_ready hu fun u s => u.access s (u.addr a imm) (some (u.m.gr d).toNat) fun _ => .done u.m s
  refine ⟨fun h => ⟨?_, ?_⟩, fun h hin => ⟨fun t hres hsent ht => ⟨?_, ?_⟩, fun v vs hres => ⟨?_, ?_⟩⟩, fun tier tower pa val limit hw hends => ?_⟩
  · rw [hldt, MillIssuer.access_of_misaligned h]
    rfl
  · rw [hstt, MillIssuer.access_of_misaligned h]
    rfl
  · rw [hldt, MillIssuer.access_sends hrow hfaults h hin hres hsent ht]
    rfl
  · rw [hstt, MillIssuer.access_sends hrow hfaults h hin hres hsent ht]
    rfl
  · rw [hldt, MillIssuer.access_completes hrow hfaults h hin hres]
    rfl
  · rw [hstt, MillIssuer.access_completes hrow hfaults h hin hres]
    rfl
  · have hpark : exec (.millMpark a lim) s = execMillMpark a lim s := rfl
    rw [hpark, execMillMpark, runMill_ready hu, hw]
    exact congrArg (fun o => Host.Outcome.next (s.millSettle u o)) (if_pos hends)

/-! ### System words and traps (R354, R358, R370) -/

/-- k1, k2 and k3 are the system registers 0x11 to 0x13. -/
theorem millWritable_k : ∀ k : Fin 4, k ≠ 0 → millWritable (BitVec.ofNat 16 (0x10 + k.val)) = true ∧
    Fin.ofNat 4 ((BitVec.ofNat 16 (0x10 + k.val)).toNat - 0x10) = k := by decide

theorem millSystemWords : Claims.MillSystemWords := by
  intro d a imm id k s u hu x
  have hmsync : exec .millMsync s = execMillMsync s := rfl
  have hmhalt : exec .millMhalt s = execMillMhalt s := rfl
  have hmtrap : exec (.millMtrap imm) s = execMillMtrap imm s := rfl
  have hmrdsr : exec (.millMrdsr d id) s = execMillMrdsr d id s := rfl
  have hmwrsr (id : BitVec 16) : exec (.millMwrsr a id) s = execMillMwrsr a id s := rfl
  refine ⟨fun hrow => ?_, fun hrow => ?_, ?_, fun hok => ?_, fun hok => ?_, fun hk => ?_⟩
  · rw [hmsync, execMillMsync, runMill_ready hu, hrow]
    rfl
  · rw [hmhalt, execMillMhalt, runMill_ready hu, hrow]
    rfl
  · rw [hmtrap, execMillMtrap, runMill_ready hu]
    rfl
  · rw [hmrdsr, execMillMrdsr, hok, runMill_ready hu]
    rfl
  · rw [hmrdsr, execMillMrdsr, hok, runMill_bad hu]
    rfl
  · obtain ⟨hok, hreg⟩ := millWritable_k k hk
    have hset (r : BitVec 16) : u.m.setK k r = { u.m with k := u.m.k.set k r } := if_neg hk
    rw [hmwrsr, execMillMwrsr, hok, runMill_ready hu, hreg, hset]
    rfl

theorem State.millTrap_first {s : State} {u : MillIssuer} (h : u.k.faulted = false) (code : Nat) (addr : W64) : s.millTrap u code addr =
    (((s.setMill { u.m with st := .trapped code, wait := none, rowBusy := [] }).releaseLocks u.m.id).logTower 0x06 u.tower u.k.tid addr.toNat
      code u.m.m).setTask { u.k with faulted := true, fcode := code } := by
  rw [State.millTrap, h]
  rfl

theorem millTrapEndsTask : Claims.MillTrapEndsTask := by
  intro s u code addr htask hfirst hmill t
  have ht := State.millTrap_first (s := s) hfirst code addr
  obtain ⟨hmem, hmgmt, hgroups, hteams⟩ := s.millTrap_mem u code addr
  refine ⟨?mill, ?task, fun l hl => ?locks, ?dram, hgroups, ?log⟩
  case mill =>
    show (s.millTrap u code addr).mill? u.m.id = _
    rw [ht]
    exact State.mill?_setMill s (m := { u.m with st := .trapped code, wait := none, rowBusy := [] }) hmill
  case task =>
    show (s.millTrap u code addr).task? u.k.tid = _
    rw [ht]
    exact State.task?_setTask _ (k := { u.k with faulted := true, fcode := code }) (j := u.k) htask
  case locks =>
    rw [show t.mem = _ from hmem] at hl
    exact bne_iff_ne.1 (List.mem_filter.1 hl).2
  case dram => rw [show t.mem = _ from hmem]
  case log =>
    show (s.millTrap u code addr).log = _
    rw [ht]
    rfl

/-- Settles O37: each word by the equation of its page, a trap by what it writes. -/
theorem millSystemAndTraps : Obligations.MillSystemAndTraps := ⟨millSystemWords, millTrapEndsTask⟩

end Sys2Proof.Machine

/-! PROOFS. Row operations and bank locks of a mill (O38). -/

namespace Sys2Proof.Machine

/-! ### Issue of the row words (R366, R367, R369) -/

theorem W64.toNat_eq_zero_iff {x : W64} : x.toNat = 0 ↔ x = 0 := by
  rw [← BitVec.toNat_inj]
  rfl

section
variable {s : State} {u : MillIssuer} {op : Nat} {d a b : GReg} {mask : Mill → Nat} {index : Mill → Option Nat} {pages : Mill → List W64}

theorem rowWord_ready (hu : s.millIssuer = some u) (hrow : u.m.inRow = false) (hcodes : rowCodes (mask u.m) (index u.m) (pages u.m) = none) :
    rowWord op d a b mask index pages s = .next (millDone s (u.m.capture op d a b (mask u.m) none)) := by
  rw [rowWord, runMill_ready hu, hrow, if_neg Bool.false_ne_true, hcodes]
  rfl

theorem rowWord_traps {c : Nat} (hu : s.millIssuer = some u) (hrow : u.m.inRow = false)
    (hcodes : rowCodes (mask u.m) (index u.m) (pages u.m) = some c) : rowWord op d a b mask index pages s = .next (s.millTrap u c u.m.pc) := by
  rw [rowWord, runMill_ready hu, hrow, if_neg Bool.false_ne_true, hcodes]
  rfl

end

theorem rowCodes_bad_mask {mask : Nat} {pages : List W64} (h : 2 ^ 32 ≤ mask) (index : Option Nat) : rowCodes mask index pages = some 0x02 :=
  if_pos (.inl h)
theorem rowCodes_bad_index {mask i : Nat} {pages : List W64} (h : 32 ≤ i) : rowCodes mask (some i) pages = some 0x02 :=
  if_pos (.inr (decide_eq_true h))
theorem rowCodes_misaligned {mask : Nat} {p : W64} {ps : List W64} (h : mask < 2 ^ 32) (hp : p.toNat % 65536 ≠ 0) :
    rowCodes mask none (p :: ps) = some 0x05 := by
  have hany : (p :: ps).any (fun p => p.toNat % 65536 != 0) = true := by simp [hp]
  rw [rowCodes, if_neg fun e => e.elim (Nat.not_le.2 h) Bool.false_ne_true, if_pos hany]
  rfl
theorem rowCodes_good {mask : Nat} {index : Option Nat} {pages : List W64} (h : mask < 2 ^ 32) (hi : ∀ i, index = some i → i < 32)
    (hp : ∀ p ∈ pages, p.toNat % 65536 = 0) : rowCodes mask index pages = none := by
  have hany : pages.any (fun p => p.toNat % 65536 != 0) = false := by
    rw [List.any_eq_false]
    intro p hm
    simp [hp p hm]
  unfold rowCodes
  rw [if_neg, hany]
  · rfl
  · rintro (e | e)
    · omega
    · cases index with
      | none => cases e
      | some i => exact Nat.not_le.2 (hi i rfl) (of_decide_eq_true e)

theorem millRowWordsIssue : Claims.MillRowWordsIssue := by
  intro d a b s u hu hrow g word masked indexed
  have hg (r : GReg) : u.m.gr r = g r := rfl
  have hcapture (op : Nat) (x y z : GReg) : u.m.capture op x y z (g x).toNat none = if g x = 0 then u.m else word op x y z := by
    rw [Mill.capture]
    by_cases h : g x = 0
    · rw [if_pos h, if_pos (W64.toNat_eq_zero_iff.2 h)]
    · rw [if_neg h, if_neg (mt W64.toNat_eq_zero_iff.1 h)]
      rfl
  have masks {op : Nat} {i : Instr} {z : GReg} {pages : Mill → List W64}
      (hi : exec i s = rowWord op d a z (fun x => (x.gr d).toNat) (fun _ => none) pages s)
      (hp : ∃ ps, pages u.m = g a :: ps ∧ ((g z).toNat % 65536 = 0 → ∀ p ∈ ps, p.toNat % 65536 = 0)) : masked op i z := by
    obtain ⟨ps, hpages, hrest⟩ := hp
    refine ⟨fun hmask ha hz => ?_, fun hmask => ?_, fun hmask ha => ?_⟩
    · rw [hi, rowWord_ready hu hrow (rowCodes_good hmask (fun _ e => by cases e) ?_), hg, hcapture]
      rw [hpages]
      exact List.forall_mem_cons.2 ⟨ha, hrest hz⟩
    · rw [hi, rowWord_traps hu hrow (rowCodes_bad_mask hmask none)]
    · rw [hi, rowWord_traps hu hrow (by rw [hpages]; exact rowCodes_misaligned hmask ha)]
  have indexes {op : Nat} {i : Instr} (hi : exec i s =
      rowWord op 0 a b (fun _ => 1) (fun x => some (x.gr b).toNat) (fun x => [x.gr a]) s) : indexed op i := by
    refine ⟨fun hb ha => ?_, fun hb => ?_⟩
    · rw [hi, rowWord_ready hu hrow (rowCodes_good (by decide) (fun i e => by cases e; exact hb) fun p hp => by rw [List.mem_singleton.1 hp]; exact ha)]
      rfl
    · rw [hi, rowWord_traps hu hrow (rowCodes_bad_index hb)]
  have hwait : exec .millRowwait s = execMillRowwait s := rfl
  clear_value masked indexed
  refine ⟨masks (pages := fun x => [x.gr a, x.gr b]) rfl ⟨[g b], rfl, fun hz p hp => by rw [List.mem_singleton.1 hp]; exact hz⟩,
    masks (pages := fun x => [x.gr a]) rfl ⟨[], rfl, nofun⟩, masks (pages := fun x => [x.gr a]) rfl ⟨[], rfl, nofun⟩,
    indexes rfl, indexes rfl, ?_⟩
  rw [hwait, execMillRowwait, runMill_ready hu, hrow]
  rfl

/-! ### Bank locks (R195, R368) and rowmac (R196) -/

section
variable {s t : State} {u : MillIssuer} {p : GReg} {v : Attr} {k : Attr → State → MillOut}

theorem MillIssuer.bankPage_misaligned (h : (u.m.gr p).toNat % 65536 ≠ 0) : u.bankPage s p k = .trap 0x05 := if_pos h

theorem MillIssuer.bankPage_found (h : (u.m.gr p).toNat % 65536 = 0) (hstall : u.pageStalls s (u.m.gr p).toNat = false)
    (hframe : u.frame s (u.m.gr p).toNat .read true = .at v t) : u.bankPage s p k = k v t := by
  rw [MillIssuer.bankPage, if_neg (Classical.not_not.2 h), hstall, if_neg Bool.false_ne_true, hframe]

end

theorem millBankWords : Claims.MillBankWords := by
  intro o p m v s t u hu hrow g pair
  have hlk : exec (.millBanklk p) s = execMillBanklk p s := rfl
  have hul : exec (.millBankul p) s = execMillBankul p s := rfl
  have hmac : exec (.millRowmac o p m) s = execMillRowmac o p m s := rfl
  refine ⟨fun hp => ⟨?_, ?_⟩, fun hp hstall hframe => ⟨fun hheld => ?_, fun t' hheld hmine htower htry => ?_, ?_, fun hmask hout hfit hheld => ?_⟩⟩
  · rw [hlk, execMillBanklk, runMill_ready hu, MillIssuer.bankPage_misaligned hp]
    rfl
  · rw [hul, execMillBankul, runMill_ready hu, hrow, if_neg Bool.false_ne_true, MillIssuer.bankPage_misaligned hp]
    rfl
  · rw [hlk, execMillBanklk, runMill_ready hu, MillIssuer.bankPage_found hp hstall hframe, if_pos hheld]
    rfl
  · have hroom : ¬(4 ≤ (t.mem.locks.filter fun l => l.holder == u.m.id).length ∨ 16 ≤ t.towerLocks u.tower) := by
      rintro (h | h)
      · exact Nat.not_le.2 hmine h
      · exact Nat.not_le.2 htower h
    have hheld' : ¬t.holdsLock u.m.id (pairOf v.pa) = true := fun e => Bool.false_ne_true (hheld.symm.trans e)
    have htry' : t.tryLock u.m (pairOf v.pa) = some (true, t') := htry
    rw [hlk, execMillBanklk, runMill_ready hu, MillIssuer.bankPage_found hp hstall hframe, if_neg hheld', if_neg hroom, htry']
    rfl
  · rw [hul, execMillBankul, runMill_ready hu, hrow, if_neg Bool.false_ne_true, MillIssuer.bankPage_found hp hstall hframe]
    rfl
  · have halign : ¬((g p).toNat % 65536 ≠ 0 ∨ (g o).toNat % 4 ≠ 0) := by
      rintro (h | h)
      · exact h hp
      · exact h hout
    have hrowmac : execMillRowmac o p m s = .next (s.millSettle u (.done (u.m.capture 0x24 o p m (g m).toNat
        (some ((g o).toNat, 4 * popcount 32 (g m).toNat))) t)) := by
      rw [execMillRowmac, runMill_ready hu]
      have hg (r : GReg) : u.m.gr r = g r := rfl
      have hstall' : u.pageStalls s (g p).toNat = false := hstall
      have hframe' : u.frame s (g p).toNat .read true = .at v t := hframe
      have hheld' : t.holdsLock u.m.id (pairOf v.pa) = true := hheld
      simp only [hg, hrow, if_neg (Nat.not_le.2 hmask), if_neg halign, if_neg (Nat.not_lt.2 hfit), hstall', hframe', hheld', Bool.false_eq_true,
        if_false, if_true]
    rw [hmac, hrowmac, Mill.capture]
    by_cases h : g m = 0
    · rw [if_pos h, if_pos (W64.toNat_eq_zero_iff.2 h)]
      rfl
    · rw [if_neg h, if_neg (mt W64.toNat_eq_zero_iff.1 h)]
      rfl

/-! ### What the home's own operations leave of the mills and the teams -/

/-- An operation that works on memory, messages and instruction lines leaves every mill and every team as it is. -/
structure State.KeepsMills (s t : State) : Prop where
  mills : t.mills = s.mills
  teams : t.teams = s.teams
  sched : t.sched = s.sched

theorem State.KeepsMills.refl (s : State) : s.KeepsMills s := ⟨rfl, rfl, rfl⟩
theorem State.KeepsMills.trans {s t r : State} (h : s.KeepsMills t) (h' : t.KeepsMills r) : s.KeepsMills r :=
  ⟨h'.mills.trans h.mills, h'.teams.trans h.teams, h'.sched.trans h.sched⟩
theorem State.KeepsMills.mapMem {s t : State} (h : s.KeepsMills t) (f : MemState → MemState) : s.KeepsMills (t.mapMem f) :=
  ⟨h.mills, h.teams, h.sched⟩
theorem State.KeepsMills.foldl {α : Type} {f : State → α → State} (hf : ∀ (t : State) (x : α), t.KeepsMills (f t x)) (xs : List α) (s : State) :
    s.KeepsMills (xs.foldl f s) := by
  induction xs generalizing s with
  | nil => exact .refl s
  | cons x xs ih => exact (hf s x).trans (ih _)

theorem State.keepsMills_sendInv (s : State) (par : Node) (k : Kid) : s.KeepsMills (s.sendInv par k) := ⟨by simp [sendInv], by simp [sendInv], by simp [sendInv]⟩

theorem State.keepsMills_dropNode (s : State) (n : Node) (a : LineId) : s.KeepsMills (s.dropNode n a) := by
  unfold State.dropNode
  cases n <;> exact ⟨rfl, rfl, rfl⟩

theorem State.keepsMills_pull (also : Node → Bool) (fuel : Nat) : ∀ (n : Node) (a : LineId) (s : State), s.KeepsMills (State.pull also fuel n a s).2.2 := by
  induction fuel with
  | zero => exact fun _ _ s => .refl s
  | succ fuel ih =>
    intro n a s
    unfold State.pull
    split
    · exact .refl s
    · rename_i l _
      have gen (ks : List Kid) : ∀ acc : BitVec 2048 × BitVec 2048 × State, acc.2.2.KeepsMills (ks.foldl (fun acc k =>
          if k.yields also then
            (lineMerge acc.1 (State.pull also fuel k.node k.a acc.2.2).1 (State.pull also fuel k.node k.a acc.2.2).2.1,
              acc.2.1 ||| (State.pull also fuel k.node k.a acc.2.2).2.1, (State.pull also fuel k.node k.a acc.2.2).2.2)
          else (acc.1, acc.2.1, acc.2.2.sendInv n k)) acc).2.2 := by
        induction ks with
        | nil => exact fun acc => .refl _
        | cons k ks ih2 =>
          intro acc
          rw [List.foldl_cons]
          refine State.KeepsMills.trans ?_ (ih2 _)
          split
          · exact ih _ _ _
          · exact State.keepsMills_sendInv _ _ _
      exact State.KeepsMills.trans ((s.keepsMills_dropNode n a).mapMem fun x => x.emptyUp n a)
        (gen (l.owners ++ l.sharers) (l.val, l.dirty, (s.dropNode n a).mapMem fun x => x.emptyUp n a))

theorem State.keepsMills_callBack (s : State) (p : Borrow → Bool) : s.KeepsMills (s.callBack p) := by
  unfold State.callBack
  dsimp only
  refine State.KeepsMills.trans ((State.KeepsMills.refl s).mapMem fun x => { x with borrowed := x.borrowed.filter fun b => !p b })
    (State.KeepsMills.foldl (fun t b => ?_) _ _)
  split
  · split <;> exact ⟨rfl, rfl, rfl⟩
  · exact ⟨rfl, rfl, rfl⟩

theorem State.keepsMills_callBorrowers (s : State) (p : Place) : s.KeepsMills (s.callBorrowers p) := by
  unfold State.callBorrowers
  split
  · exact s.keepsMills_callBack _
  · exact .refl s

theorem State.keepsMills_homeTake (s : State) (p : Place) (also : Node → Bool) : s.KeepsMills (s.homeTake p also) := by
  unfold State.homeTake
  refine (s.keepsMills_callBorrowers p).trans ?_
  dsimp only
  split
  · exact .refl _
  · rename_i l _
    refine State.KeepsMills.trans ((State.KeepsMills.refl _).mapMem fun x => x.dropLine l.node l.a) (State.KeepsMills.foldl (fun t k => ?_) _ _)
    split
    · exact (State.keepsMills_pull also 4 k.node k.a t).mapMem _
    · exact t.keepsMills_sendInv _ _

theorem State.keepsMills_writeDuty (s : State) (r : Nat × Nat) (dk : Bool) : s.KeepsMills (s.writeDuty r dk) := by
  unfold State.writeDuty
  refine State.KeepsMills.foldl (fun t p => ?_) _ s
  dsimp only
  cases dk
  · exact (t.keepsMills_homeTake _ _).mapMem _
  · exact (State.KeepsMills.refl t).mapMem _

/-! ### Steps, refresh and locks as events (R191, R194, R195) -/

/-- A mill whose step of slice `c` has ended (R366). -/
def Mill.stepDone (m : Mill) (c : Nat) (x : RowStep) : Mill :=
  let n := { m with rowBusy := m.rowBusy.erase x, rowprog := m.rowprog ||| BitVec.ofNat 32 (2 ^ c) }
  if n.slicesLeft = [] then { n with rowop := 0, rowOut := none } else n

theorem Mill.stepDone_fields (m : Mill) (c : Nat) (x : RowStep) : (m.stepDone c x).id = m.id ∧
    (m.stepDone c x).rowprog = m.rowprog ||| BitVec.ofNat 32 (2 ^ c) ∧ (m.stepDone c x).rowBusy = m.rowBusy.erase x ∧
    (m.stepDone c x).loc = m.loc ∧ (m.stepDone c x).g = m.g ∧ (m.stepDone c x).w = m.w := by
  unfold Mill.stepDone
  dsimp only
  split <;> exact ⟨rfl, rfl, rfl, rfl, rfl, rfl⟩

/-- A step of rowzero works on memory alone. -/
theorem State.performStep_rowzero {s : State} {m : Mill} {asid : Nat} {x : RowStep} (hcode : m.rowCode = 0x21) (hsrc : x.src = none) :
    (s.performStep m asid x).1 = m ∧ s.KeepsMills (s.performStep m asid x).2 := by
  rw [State.performStep, hcode, hsrc]
  cases x.dst with
  | none => exact ⟨rfl, .refl s⟩
  | some p => exact ⟨rfl, (s.keepsMills_writeDuty p x.dstDk).mapMem fun y => y.putRow p (List.replicate 8 0)⟩

theorem exec_rowStepComplete_rowzero {id : MillRef} {c : Nat} {s : State} {m : Mill} {k : Task} {x : RowStep} (hm : s.mill? id = some m)
    (hk : s.task? m.tid = some k) (hx : (m.rowBusy.find? fun y => y.slice == c) = some x) (hcode : m.rowCode = 0x21) (hsrc : x.src = none)
    (hheld : s.rowHeld id x.dst = false) (hquiet : s.rowQuiet x.dst x.dstDk = true) (hrecall : s.recallRow x.dst x.dstDk = none) :
    exec (.rowStepComplete id c) s = .next ((s.performStep m k.asid x).2.setMill (m.stepDone c x)) := by
  have hexec : exec (.rowStepComplete id c) s = execRowStepComplete id c s := rfl
  have hinv : s.invQuiet m k.asid x = true := by
    rw [State.invQuiet, hcode]
    rfl
  have hfar : x.far = none := by rw [RowStep.far, hsrc]
  have hstep : s.performStep m k.asid x = (m, (s.performStep m k.asid x).2) := Prod.ext (State.performStep_rowzero hcode hsrc).1 rfl
  rw [hexec, execRowStepComplete]
  have hfree : s.rowHeld id none = false := rfl
  have hstill : s.rowQuiet none x.srcDk = true := rfl
  have hno : s.recallRow none x.srcDk = none := rfl
  simp only [hm, hx, hk, hsrc, hheld, hquiet, hrecall, hinv, hfar, hfree, hstill, hno]
  rw [hstep]
  rfl

theorem rowStepsRun : Claims.RowStepsRun := by
  intro r m k x c tower ch bank pair s t
  have hstart : exec (.rowStepStart r c) s = execRowStepStart r c s := rfl
  have htaken : exec (.bankLockTaken r) s = execBankLockTaken r s := rfl
  have hforced : exec (.bankLockForcedRelease r pair) s = execBankLockForcedRelease r pair s := rfl
  have hrefresh : exec (.refresh tower ch bank) s = execRefresh tower ch bank s := rfl
  have hrefreshed : exec (.refreshComplete tower ch bank) s = execRefreshComplete tower ch bank s := rfl
  refine ⟨fun u hu hrow hfault hnext hstall hstall' hprep hmay => ?start, fun hm hk hx hcode hsrc hheld hquiet hrecall => ?complete,
    fun htower hch hbank => ⟨fun hfree hidle => ?refresh, fun hbusy => ?refreshed⟩, fun hm hst hrun hre hw hroom htry => ?taken,
    fun l hl hm hk hrun hlimit => ?forced⟩
  case start =>
    have hgo : ¬(u.m.inRow = false ∨ u.m.rowFault.isSome = true ∨ u.m.nextSlice ≠ some c ∨ u.pageStalls s u.m.rowa.toNat = true ∨
        (u.m.rowCode = 0x20 ∧ u.pageStalls s u.m.rowb.toNat = true)) := by
      rw [hrow, hfault, hnext, hstall]
      rintro (h | h | h | h | ⟨h20, h⟩)
      · cases h
      · cases h
      · exact h rfl
      · cases h
      · exact Bool.false_ne_true ((hstall' h20).symm.trans h)
    rw [hstart, execRowStepStart, hu]
    simp only [if_neg hgo, hprep, hmay, if_true]
    rfl
  case complete =>
    obtain ⟨hid, hfields⟩ := m.stepDone_fields c x
    obtain ⟨-, hkeeps⟩ := State.performStep_rowzero (s := s) (asid := k.asid) hcode hsrc
    refine ⟨_, m.stepDone c x, exec_rowStepComplete_rowzero hm hk hx hcode hsrc hheld hquiet hrecall, ?_, hfields⟩
    have hr : (m.stepDone c x).id = r := hid.trans (State.mill?_id s hm)
    have hfound : (s.performStep m k.asid x).2.mill? (m.stepDone c x).id = some m := by
      rw [hr, State.mill?, hkeeps.mills]
      exact hm
    rw [← hr]
    exact State.mill?_setMill _ hfound
  case refresh =>
    have hsteps : (s.mills.any fun m => m.rowBusy.any fun r => (inBank r.src tower (ch / 32 * 2 ^ 16 + ch % 32 * 2 ^ 8 + bank * 2 ^ 17) ||
        inBank r.dst tower (ch / 32 * 2 ^ 16 + ch % 32 * 2 ^ 8 + bank * 2 ^ 17)) && !s.rowHeld m.id r.src && !s.rowHeld m.id r.dst) = false := by
      rw [List.any_eq_false]
      intro y hy
      rw [hidle y hy]
      exact Bool.false_ne_true
    rw [hrefresh, execRefresh, if_neg (by omega)]
    simp only [hfree, hsteps]
    rfl
  case refreshed => rw [hrefreshed, execRefreshComplete, if_pos hbusy]
  case taken =>
    have hgo : ¬(m.st ≠ .run ∨ s.siteRuns (.tower r.tower) = false) := by
      rw [hst, hrun]
      rintro (h | h)
      · exact h rfl
      · cases h
    have hdone : execBankLockTaken r s = .next (t.setMill (m.retire (m.pc + 4))) := by
      rw [execBankLockTaken, hm]
      simp only [if_neg hgo, hre, hw, if_neg (Nat.not_le.2 hroom), htry]
      rfl
    rw [htaken, hdone]
    rfl
  case forced =>
    have hgo : ¬(s.siteRuns (.tower r.tower) = false ∨ s.now (.tower r.tower) < l.since + l.limit) := by
      rw [hrun]
      rintro (h | h)
      · cases h
      · exact Nat.not_lt.2 hlimit h
    rw [hforced, execBankLockForcedRelease, hl, hm]
    simp only [hk, if_neg hgo]
    rfl

/-- Settles O38: a row word by its codes, a bank word by its page, a step of rowzero through what `performStep` leaves of the mills. -/
theorem millRowOperations : Obligations.MillRowOperations := ⟨millRowWordsIssue, millBankWords, rowStepsRun⟩

end Sys2Proof.Machine


/-! The matrix unit, the copy engine, the copy words. -/

namespace Sys2Proof.Machine

/-! ### Matrix operations at issue (O31) -/

section
variable {s : State} {u : Issuer} {top : Nat} {e : Dst}

/-- A word that enters an operation, on a tile below NACC with an entry free. -/
theorem Issuer.settle_enqueue (s : State) (u : Issuer) (n : Nat) (o : MatOp) : s.settle u n (u.enqueue s o) =
    (s.setCore { s.core u.t.core with mq := (s.core u.t.core).mq ++ [o] }).setGroup (u.g.advance n u.g) := rfl

theorem isBlock_eq_decide (c : Nat) : isBlock c = decide (c = 0x10 ∨ c = 0x20) := by simp [isBlock, Bool.beq_eq_decide_eq]

/-- mma and mmaz on a tile at or above NACC. -/
theorem mmaWord_tileBad (h : s.Ready u 0 e) {t : Fin 16} (ht : u.k.launch.nacc ≤ t.val) (z : Bool) (a b f : SReg) (ra rb : Bool) :
    mmaWord z t a b f ra rb s = .next (s.takeFault u 0x02 0 0) := by
  have hbad : u.tileBad t.val = true := decide_eq_true ht
  rw [mmaWord, runWord_ready h, if_pos hbad]
  rfl

/-- mma and mmaz whose checks pass. -/
theorem mmaWord_enters (h : s.Ready u 0 e) {t : Fin 16} (ht : t.val < u.k.launch.nacc) (hq : u.queueFull s t.val = false) {a b f : SReg}
    (hc : u.mmaCodes s (OpMap.ofWord u.g.s[a]) (OpMap.ofWord u.g.s[b]) u.g.s[f].toNat = []) (z : Bool) (ra rb : Bool) :
    mmaWord z t a b f ra rb s = .next (s.settle u 1 (u.enqueue s { u.blankOp (if z then .mmaz else .mma) t.val with
      ra := ra, rb := rb, amap := u.g.s[a], bmap := u.g.s[b], fmt := u.t.spBytes u.g.s[f].toNat 16
      ascale := if isBlock (FmtBlock.ofBytes (u.t.spBytes u.g.s[f].toNat 16)).acode then
        u.t.spBytes (FmtBlock.ofBytes (u.t.spBytes u.g.s[f].toNat 16)).ascale 32 else []
      bscale := if isBlock (FmtBlock.ofBytes (u.t.spBytes u.g.s[f].toNat 16)).bcode then
        u.t.spBytes (FmtBlock.ofBytes (u.t.spBytes u.g.s[f].toNat 16)).bscale 32 else [] })) := by
  have hbad : ¬u.tileBad t.val = true := by simpa [Issuer.tileBad] using ht
  have hfull : ¬u.queueFull s t.val = true := by simp [hq]
  rw [mmaWord, runWord_ready h, if_neg hbad, if_neg hfull]
  dsimp only
  rw [hc]
  rfl

end

/-- Settles O31: one lemma for the multiplications, and the other words' checks one after another. -/
theorem matrixOperationsEnter : Obligations.MatrixOperationsEnter := by
  intro t ra rb rf ka kb a b c d s u hd ha hb hc h enter op at' fmt f mul
  have h0 : s.Ready u 0 .push := h.mono (Nat.zero_le _)
  have hmma : exec (.mma t ra rb rf ka kb) s = mmaWord false t ra rb rf ka kb s := rfl
  have hmmaz : exec (.mmaz t ra rb rf ka kb) s = mmaWord true t ra rb rf ka kb s := rfl
  have hmzero : exec (.mzero d) s = execMzero d s := rfl
  have hmwrv : exec (.mwrv d a b c) s = execMwrv d a b c s := rfl
  have hd16 : d.below 16 = true := decide_eq_true (hd ▸ t.isLt)
  have hokw : okMwrv d a b c = true := by
    simp [okMwrv, Code.below, hd, ha, hb, hc]
  refine ⟨fun ht => ⟨hmma.trans (mmaWord_tileBad h0 ht ..), hmmaz.trans (mmaWord_tileBad h0 ht ..), ?_⟩, fun ht hq => ?_⟩
  · have hbad : u.tileBad d.val = true := decide_eq_true (hd ▸ ht)
    rw [hmzero, execMzero, hd16, runWord_ready h0, if_pos hbad]
    rfl
  · have hbad : ¬u.tileBad d.val = true := by simpa [Issuer.tileBad, hd] using ht
    have hfull : ¬u.queueFull s d.val = true := by simp [hd, hq]
    refine ⟨fun hcodes => ⟨?_, ?_⟩, ?_, fun e he hmap => ?_, ?_⟩
    · rw [hmma, mmaWord_enters h0 ht hq hcodes]
      simp only [isBlock_eq_decide, decide_eq_true_eq]
      rfl
    · rw [hmmaz, mmaWord_enters h0 ht hq hcodes]
      simp only [isBlock_eq_decide, decide_eq_true_eq]
      rfl
    · rw [hmzero, execMzero, hd16, runWord_ready h0, if_neg hbad, if_neg hfull, hd]
      rfl
    · have hexec : exec (.mfill d b e) s = execMfill d b e s := rfl
      rw [hexec, execMfill, he, runWord_ready h0, if_neg hbad, if_neg hfull, hmap, hd]
      rfl
    · rw [hmwrv, execMwrv, hokw, runWord_ready h, if_neg hbad, if_neg hfull, hd]
      rfl

/-! ### Tile reads (O33) -/

/-- A read of a tile that no operation is on goes ahead. -/
theorem Issuer.tileRead_free {s : State} {u : Issuer} {t : Nat} (ht : t < u.k.launch.nacc) (h : u.onTile s t = []) (k : Unit → WordOut) :
    u.tileRead s t k = k () := by
  have hbad : ¬u.tileBad t = true := by simpa [Issuer.tileBad] using ht
  rw [Issuer.tileRead, if_neg hbad, if_neg (by simp [h])]

/-- Settles O33: each word's read of its tile goes ahead, and its checks raise nothing. -/
theorem tileReadsComplete : Obligations.TileReadsComplete := by
  intro t d a b c s u ht hfree ha hb hd h p n at' row scales
  have h0 : s.Ready u 0 .push := h.mono (Nat.zero_le _)
  refine ⟨fun hok hmap => ?_, fun hok hmap hrange => ?_, fun h16 hc => ?_⟩
  · have hexec : exec (.mdrain t a c) s = execMdrain t a c s := rfl
    rw [hexec, execMdrain, hok, runWord_ready h0, Issuer.tileRead_free ht hfree]
    dsimp only
    rw [hmap]
    rfl
  · have hexec : exec (.mdrainx t a b c) s = execMdrainx t a b c s := rfl
    rw [hexec, execMdrainx, hok, runWord_ready h0, Issuer.tileRead_free ht hfree]
    dsimp only
    rw [hmap, hrange]
    rfl
  · have hexec : exec (.mrdv d t b c) s = execMrdv d t b c s := rfl
    have hok : okMrdv d t b c = true := by simp [okMrdv, Code.below, hd, hb, hc, h16]
    rw [hexec, execMrdv, hok, runWord_ready h, Issuer.tileRead_free ht hfree]
    have hcell : (fun i => u.t.tileAt t.val (tileCell n (c.val == 1) i).1 (tileCell n (c.val == 1) i).2) = fun i =>
        if c.val = 1 then u.t.tileAt t.val (i % 32) ((n + i / 32) % 32) else u.t.tileAt t.val ((n + i / 32) % 32) (i % 32) := by
      funext i
      by_cases h1 : c.val = 1 <;> simp [tileCell, h1]
    rw [← hcell]
    rfl

/-! ### The engines (O30) -/

/-- The engine takes the oldest queued copy. -/
theorem exec_copyStart {s : State} {c : CoreId} {k : Nat} {q : Copy} (hq : (s.core c).cq[k]? = some q) (hr : s.siteRuns (.die c.die) = true)
    (hst : q.state = .queued) (hold : ∀ e ∈ (s.core c).cq.take k, e.state ≠ .queued) :
    exec (.copyStart c k) s = .next (s.putCopy c k { q with state := .active }) := by
  have hexec : exec (.copyStart c k) s = execCopyStart c k s := rfl
  have hall : ((s.core c).cq.take k).all (fun e => e.state != .queued) = true := List.all_eq_true.2 fun e he => bne_iff_ne.2 (hold e he)
  rw [hexec, execCopyStart, hq]
  exact if_pos ⟨hst, hr, hall⟩

/-- Settles O30: the engine's branches for a copy that is queued and for one that is active, and a step of the oldest operation. -/
theorem enginesRun : Obligations.EnginesRun := by
  refine ⟨fun c k q s hq hr => ⟨exec_copyStart hq hr, ?_⟩, ?_⟩
  · intro u ecc q' t hst hu hunit d
    have hexec : exec (.copyUnitComplete c k ecc) s = execCopyUnitComplete c k ecc s := rfl
    rw [hexec, execCopyUnitComplete, hq]
    dsimp only
    rw [hu]
    dsimp only
    rw [if_neg (by simp [hst, hr]), hunit]
    rfl
  · intro c o rest t s hmq ht hr hheld hbad r o'
    have hexec : exec (.matrixKStep c .clean) s = execMatrixKStep c .clean s := rfl
    have hread : o.badRead t = none := by rw [MatOp.badRead, hbad]
    rw [hexec, execMatrixKStep, hmq]
    dsimp only
    rw [ht]
    dsimp only
    rw [if_neg (by simp [hr, hheld]), State.kStep, hread]

end Sys2Proof.Machine


/-! The copy words (O29). -/

namespace Sys2Proof.Machine

section
variable {s : State} {u : Issuer} {op : CopyOp} {st desc : SReg} {sp dp vs md : Nat}

/-- The copy that a word's descriptor describes, as it enters the queue. -/
def Issuer.newCopy (u : Issuer) (op : CopyOp) (st desc : SReg) (sp dp vs md : Nat) : Copy :=
  ⟨u.g.id, op, st, sp, dp, vs, md,
    op.code * 2 ^ 24 + (0x28 + st.val) * 2 ^ 18 + (0x28 + desc.val) * 2 ^ 12 + sp * 2 ^ 9 + dp * 2 ^ 6 + vs * 2 ^ 3 + md,
    u.spBytes u.g.s[desc].toNat 32, [], .queued, 0, 0, 0, false⟩

/-- The copy with the index list that a scatter reads at issue (R322). -/
def Issuer.listed (u : Issuer) (c : Copy) : Copy :=
  if c.op = .cpys then { c with index := (List.range c.descr.rows).map fun i => leNat (u.spBytes (c.descr.dstr + 4 * i) 4) } else c

/-- The word may enter its core's queue: an entry is free, and no pending copy of the group owns its status scalar. -/
def Issuer.MayQueue (u : Issuer) (s : State) (st : SReg) : Prop :=
  (s.core u.t.core).cq.length < 16 ∧ ((s.core u.t.core).cq.all fun c => !(c.g == u.g.id && c.st == st && c.pending)) = true

theorem Issuer.MayQueue.free (h : u.MayQueue s st) :
    ¬(16 ≤ (s.core u.t.core).cq.length ∨ ((s.core u.t.core).cq.any fun c => c.g == u.g.id && c.st == st && c.pending) = true) := by
  rintro (hlen | hany)
  · exact absurd h.1 (Nat.not_lt.2 hlen)
  · obtain ⟨c, hc, hp⟩ := List.any_eq_true.1 hany
    have := List.all_eq_true.1 h.2 c hc
    simp [hp] at this

theorem Issuer.issueCopy_misaligned (h : u.MayQueue s st) (ha : u.g.s[desc].toNat % 32 ≠ 0) :
    u.issueCopy s op st desc sp dp vs md = .fault cALIGN u.g.s[desc] 0 := by
  rw [Issuer.issueCopy]
  dsimp only
  rw [if_neg h.free, if_pos ha]

theorem Issuer.issueCopy_outside (h : u.MayQueue s st) (ha : u.g.s[desc].toNat % 32 = 0)
    (ho : u.g.s[desc].toNat < (u.range .sp).1 ∨ (u.range .sp).2 < u.g.s[desc].toNat + 32) :
    u.issueCopy s op st desc sp dp vs md = .fault cSPACE u.g.s[desc] 0 := by
  rw [Issuer.issueCopy]
  dsimp only
  rw [if_neg h.free, if_neg (Classical.not_not.2 ha), if_pos ho]

/-- The descriptor can be read. -/
def Issuer.Readable (u : Issuer) (s : State) (a : Nat) : Prop :=
  a % 32 = 0 ∧ ¬(a < (u.range .sp).1 ∨ (u.range .sp).2 < a + 32) ∧ u.badWord s .sp a 32 = none

/-- What a copy word does once it has read its descriptor: the steps of R321 from the fields on. -/
def Issuer.checkCopy (u : Issuer) (s : State) (st : SReg) (c : Copy) : WordOut :=
  if c.descr.rows = 0 ∨ c.descr.rowb = 0 then .done { u.g with s := u.g.s.set st (BitVec.ofNat 64 (2 ^ 31)) } s
  else if c.badFields then .fault cILLOPND 0 0
  else
    match (match c.listAt with
      | some a => if a % 4 ≠ 0 ∨ a < (u.range .sp).1 ∨ (u.range .sp).2 < a + 4 * c.descr.rows then some a else none
      | none => none) with
    | some a => .fault cSPACE (BitVec.ofNat 64 a) 0
    | none =>
      match (if c.op = .cpys then u.badWord s .sp c.descr.dstr (4 * c.descr.rows) else none) with
      | some w => .fault cLOSTLINE (BitVec.ofNat 64 w) 0
      | none =>
        match pickCopy (u.boundCodes s (u.listed c)) with
        | some (code, va) => .fault code (BitVec.ofNat 64 va) 0
        | none =>
          if u.rowsStall s (u.listed c) then .wait { u.g with wait := some .other } s
          else match u.copyFault (u.sideCodes s (u.listed c)).2 (u.sideCodes s (u.listed c)).1 with
          | some o => o
          | none =>
            match u.takeLines (u.sideCodes s (u.listed c)).2 (u.listed c) with
            | (false, s) => .wait { u.g with wait := some .other } s
            | (true, s) => .done { u.g with s := u.g.s.set st 0 } (s.setCore { s.core u.t.core with cq := (s.core u.t.core).cq ++ [u.listed c] })

theorem Issuer.issueCopy_readable (h : u.MayQueue s st) (hr : u.Readable s u.g.s[desc].toNat) :
    u.issueCopy s op st desc sp dp vs md = u.checkCopy s st (u.newCopy op st desc sp dp vs md) := by
  obtain ⟨ha, hin, hbad⟩ := hr
  rw [Issuer.issueCopy]
  dsimp only
  rw [if_neg h.free, if_neg (Classical.not_not.2 ha), if_neg hin, hbad]
  rfl

/-- Every check of R321 passes: the fields, the index list, the bounds, and the codes of both sides. -/
structure Issuer.Passes (u : Issuer) (s : State) (c : Copy) (s1 : State) : Prop where
  rows : c.descr.rows ≠ 0
  rowb : c.descr.rowb ≠ 0
  fields : c.badFields = false
  list : ∀ a, c.listAt = some a → a % 4 = 0 ∧ (u.range .sp).1 ≤ a ∧ a + 4 * c.descr.rows ≤ (u.range .sp).2 ∧
    (c.op = .cpys → u.badWord s .sp a (4 * c.descr.rows) = none)
  bounds : u.boundCodes s (u.listed c) = []
  stall : u.rowsStall s (u.listed c) = false
  sides : u.sideCodes s (u.listed c) = ([], s1)

theorem Issuer.checkCopy_empty {c : Copy} (he : c.descr.rows = 0 ∨ c.descr.rowb = 0) :
    u.checkCopy s st c = .done { u.g with s := u.g.s.set st (BitVec.ofNat 64 (2 ^ 31)) } s := if_pos he

/-- The index list of a copy that passes lies in the scratchpad. -/
theorem Issuer.Passes.listed_within {c : Copy} {s1 : State} (hp : u.Passes s c s1) : (match c.listAt with
    | some a => if a % 4 ≠ 0 ∨ a < (u.range .sp).1 ∨ (u.range .sp).2 < a + 4 * c.descr.rows then some a else none
    | none => none) = none := by
  rcases hl : c.listAt with _ | a
  · rfl
  · obtain ⟨h4, hlo, hhi, -⟩ := hp.list a hl
    exact if_neg (by omega)

/-- The index list of a scatter that passes has no word with an error. -/
theorem Issuer.Passes.listed_sound {c : Copy} {s1 : State} (hp : u.Passes s c s1) :
    (if c.op = .cpys then u.badWord s .sp c.descr.dstr (4 * c.descr.rows) else none) = none := by
  split
  next hop => exact (hp.list _ (by rw [Copy.listAt, hop])).2.2.2 hop
  next => rfl

theorem Issuer.copyFault_nil (u : Issuer) (s : State) : u.copyFault s [] = none := rfl

theorem Issuer.checkCopy_passes {c : Copy} {s1 s2 : State} (hp : u.Passes s c s1) (ht : u.takeLines s1 (u.listed c) = (true, s2)) :
    u.checkCopy s st c = .done { u.g with s := u.g.s.set st 0 }
      (s2.setCore { s2.core u.t.core with cq := (s2.core u.t.core).cq ++ [u.listed c] }) := by
  rw [Issuer.checkCopy, if_neg (not_or.2 ⟨hp.rows, hp.rowb⟩), if_neg (by simp [hp.fields]), hp.listed_within]
  dsimp only
  rw [hp.listed_sound]
  dsimp only
  rw [hp.bounds]
  dsimp only [pickCopy]
  rw [if_neg (by simp [hp.stall]), hp.sides]
  dsimp only
  rw [Issuer.copyFault_nil]
  dsimp only
  rw [ht]

end

/-- Settles O29: the eight words differ in their codes and fields only, and each runs the steps of R321. -/
theorem copiesEnterTheQueue : Obligations.CopiesEnterTheQueue := by
  intro st desc sp dp vs md s u h rows at' lo hi queue hlen hown r hr hwf
  have hq : u.MayQueue s st := ⟨hlen, hown⟩
  have hword : ∃ ok, exec r.1 s = copyWord ok r.2.1 st desc r.2.2.1 r.2.2.2.1 vs.val r.2.2.2.2 s ∧ (r.1.wf = true → ok = true) := by
    clear hwf
    revert r
    simp only [rows, List.forall_mem_cons]
    exact ⟨⟨_, rfl, id⟩, ⟨_, rfl, id⟩, ⟨_, rfl, id⟩, ⟨_, rfl, id⟩, ⟨_, rfl, id⟩, ⟨_, rfl, id⟩, ⟨_, rfl, id⟩, ⟨_, rfl, id⟩, List.forall_mem_nil _⟩
  have hexec : exec r.1 s = .next (s.settle u 1 (u.issueCopy s r.2.1 st desc r.2.2.1 r.2.2.2.1 vs.val r.2.2.2.2)) := by
    obtain ⟨ok, hi, hok⟩ := hword
    rw [hi, hok hwf, copyWord, runWord_ready h]
  refine ⟨fun ha => ?_, fun ha ho => ?_, ?_⟩
  · rw [hexec, Issuer.issueCopy_misaligned hq ha]
    rfl
  · rw [hexec, Issuer.issueCopy_outside hq ha ho]
    rfl
  · intro ha hlo hhi hbad c
    have hread : u.Readable s u.g.s[desc].toNat := ⟨ha, not_or.2 ⟨Nat.not_lt.2 hlo, Nat.not_lt.2 hhi⟩, hbad⟩
    rw [hexec, Issuer.issueCopy_readable hq hread]
    refine ⟨fun he => ?_, ?_⟩
    · exact congrArg (fun o => Host.Outcome.next (s.settle u 1 o)) (Issuer.checkCopy_empty (st := st) he)
    · intro s1 s2 hrows hrowb hfields hlist c' hbound hstall hside htake
      have hp : u.Passes s c s1 := ⟨hrows, hrowb, hfields, hlist, hbound, hstall, hside⟩
      have hpass := Issuer.checkCopy_passes (st := st) hp htake
      exact congrArg (fun o => Host.Outcome.next (s.settle u 1 o)) hpass

end Sys2Proof.Machine


/-! Fences and drains (O21). -/

namespace Sys2Proof.Machine

/-! ### Fences (R112, R138, R139, R313) -/

section
variable {s : State} {u : Issuer} {top : Nat} {e : Dst}

theorem Issuer.release_begins {scope : Nat} (h : u.g.fence = none) (hs : scope ≠ 0) : u.release s scope =
    some (.wait { u.g with fence := some ⟨.release, scope⟩, wait := some .mem } (s.sendDrain u.g.id u.t.core false scope)) := by
  rw [Issuer.release, h]
  exact if_neg fun hc => hs hc.1

theorem fencesComplete : Claims.FencesComplete := by
  intro scope order s u hok h relDone acquiring
  have hexec : exec (.fence scope order) s = .next (s.settle u 1 (if order.val = 1 then u.acquire s u.g scope.val
      else match u.release s scope.val with
        | some o => o
        | none => if order.val = 3 then u.acquire s u.g scope.val else .done u.g s)) := by
    have hfence : exec (.fence scope order) s = execFence scope order s := rfl
    rw [hfence, execFence, hok]
    exact runWord_ready h 1 _
  have hacq : scope.val ≠ 0 → Host.Outcome.next (s.settle u 1 (u.acquire s u.g scope.val)) = acquiring := fun hs => by
    rw [Issuer.acquire, if_neg hs]
    rfl
  refine ⟨fun h0 howes hf => ?_, fun hs h1 => ?_, fun h2 hrel => ?_, fun hs h3 hrel => ?_, fun hs h1 hf => ?_⟩
  · have hnone : u.acquire s u.g scope.val = .done u.g s := if_pos h0
    rw [hexec, hnone, h0, Issuer.release_free hf howes]
    simp only [ite_self]
    rfl
  · rw [hexec, if_pos h1, hacq hs]
  · rw [hexec, if_neg (by omega), Issuer.release_fenced hrel]
    simp only [h2]
    rfl
  · rw [hexec, if_neg (by omega), Issuer.release_fenced hrel]
    simp only [h3, if_true]
    exact hacq hs
  · rw [hexec, if_neg h1, Issuer.release_begins hf hs]
    rfl

end

/-! ### Drains (R112) -/

section
variable {s t u : State} {j : Nat} {m : Msg}

/-- A message that can be taken is given to its event. -/
theorem onMsg_taken (h : s.takeMsg j = some (m, t)) (f : Msg → State → Option State) : onMsg j s f = .next ((f m t).getD s) := by
  rw [onMsg, h]
  rfl

/-- A list's only element with a property is the one found. -/
theorem find?_only {α : Type} {p : α → Bool} {l : List α} {k : α} (hk : k ∈ l) (h : ∀ x, p x = true ↔ x = k) : l.find? p = some k := by
  obtain ⟨x, hx⟩ := Option.isSome_iff_exists.1 (List.find?_isSome.2 ⟨k, hk, (h k).2 rfl⟩)
  rw [hx, (h x).1 (List.find?_some hx)]

variable {r : GroupRef} {c : CoreId} {n : Node} {acq : Bool} {scope : Nat}

/-- What a Drain does at a level whose lines are registered and whose Invs are acknowledged. -/
def State.drainOn (t : State) (m : Msg) (r : GroupRef) (c : CoreId) (n : Node) (acq : Bool) (scope : Nat) : State :=
  match t.nextDrain n c acq scope none with
  | some n' =>
    if m.dst = nodeSite n' then t.passOn m m.dst (.drain r n' acq scope none)
    else match n with
      | .l2 _ => t.request .fwd m.dst (nodeSite n') (.drain r n' acq scope none)
      | _ => t.passOn m (nodeSite n') (.drain r n' acq scope none)
  | none => (if scope = 5 ∧ acq = false then t.flushHost c.die else t).respond m .rsp (.drainAck r)

theorem exec_drain_registers (h : s.takeMsg j = some (m, t)) (hc : t.coreOf r = some c) (hm : m.body = .drain r n acq scope none)
    (ha : acq = false) (hn : nodeDepth n < scope) (hcan : (t.toRegister n c.die none).filter (fun l => t.canRegister l.node l.a) ≠ []) :
    exec (.drain j) s = .next ((((t.toRegister n c.die none).filter fun l => t.canRegister l.node l.a).foldl
      (fun x l => x.register l.node l.a) t).putBack j m) := by
  have hexec : exec (.drain j) s = execDrain j s := rfl
  have htodo : ¬(acq = true ∨ scope ≤ nodeDepth n) := by
    rw [ha]
    simpa using hn
  rw [hexec, execDrain, onMsg_taken h, hm]
  dsimp only
  rw [hc]
  dsimp only
  rw [if_neg htodo, if_pos hcan]
  rfl

theorem exec_drain_on (h : s.takeMsg j = some (m, t)) (hc : t.coreOf r = some c) (hm : m.body = .drain r n acq scope none)
    (hinv : t.invOut c n = false) (htodo : acq = true ∨ scope ≤ nodeDepth n ∨ t.toRegister n c.die none = []) :
    exec (.drain j) s = .next (t.drainOn m r c n acq scope) := by
  have hexec : exec (.drain j) s = execDrain j s := rfl
  have hnone : (if acq = true ∨ scope ≤ nodeDepth n then [] else t.toRegister n c.die none) = [] := by
    split
    next => rfl
    next hno => exact (htodo.resolve_left fun h => hno (.inl h)).resolve_left fun h => hno (.inr h)
  rw [hexec, execDrain, onMsg_taken h, hm]
  dsimp only
  rw [hc]
  dsimp only
  rw [hnone, List.filter_nil, if_neg (by simp), if_neg (by simp [hinv]), State.drainOn]
  cases t.nextDrain n c acq scope none with
  | none => rfl
  | some n' => cases n <;> rfl

/-- The slices and homes beyond a die's L2, in the order a Drain visits them. -/
theorem State.nextDrain_l2 (d : Nat) : t.nextDrain (.l2 d) c acq scope none =
    ((if 3 ≤ scope then (sheetTowers (dieSheet c.die)).map Node.slice else []) ++ (if 4 ≤ scope then (List.range 72).map Node.home else [])).find?
      (t.drains c acq none) := rfl

theorem State.nextDrain_l2_none (h : ∀ x, t.drains c acq none x = false) (d : Nat) : t.nextDrain (.l2 d) c acq scope none = none :=
  List.find?_eq_none.2 fun x _ => by simp [h x]

theorem State.nextDrain_l2_slice {k : Nat} (hs : 3 ≤ scope) (hk : k ∈ sheetTowers (dieSheet c.die))
    (h : ∀ x, t.drains c acq none (.slice x) = true ↔ x = k) (d : Nat) : t.nextDrain (.l2 d) c acq scope none = some (.slice k) := by
  have hfind : ((sheetTowers (dieSheet c.die)).map Node.slice).find? (t.drains c acq none) = some (.slice k) := by
    rw [List.find?_map]
    exact congrArg (Option.map Node.slice) (find?_only hk h)
  rw [State.nextDrain_l2, if_pos hs, List.find?_append, hfind]
  rfl

/-- The last level of a Drain below .sy, or of an acquire, answers. -/
theorem State.drainOn_last (hnext : t.nextDrain n c acq scope none = none) (hs : ¬(scope = 5 ∧ acq = false)) :
    t.drainOn m r c n acq scope = t.respond m .rsp (.drainAck r) := by
  rw [State.drainOn, hnext]
  exact congrArg (fun x : State => x.respond m .rsp (.drainAck r)) (if_neg hs)

theorem State.drainOn_lastSy (hnext : t.nextDrain n c acq scope none = none) (hs : scope = 5 ∧ acq = false) :
    t.drainOn m r c n acq scope = (t.flushHost c.die).respond m .rsp (.drainAck r) := by
  rw [State.drainOn, hnext]
  exact congrArg (fun x : State => x.respond m .rsp (.drainAck r)) (if_pos hs)

/-- A Drain goes on within its die. -/
theorem State.drainOn_within {n' : Node} (hnext : t.nextDrain n c acq scope none = some n') (hd : m.dst = nodeSite n') :
    t.drainOn m r c n acq scope = t.passOn m m.dst (.drain r n' acq scope none) := by
  rw [State.drainOn, hnext]
  exact if_pos hd

/-- An accepted DrainAck ends a release that owes nothing any more. -/
theorem exec_drainack_release {g : Group} (h : s.takeMsg j = some (m, t)) (hm : m.body = .drainAck r) (hg : t.group? r = some g)
    (hc : t.coreOf r = some c) (ha : t.accept m = (true, u)) (hf : g.fence = some ⟨.release, scope⟩) (ho : t.owesPath r scope = false)
    (hb : scope = 5 → t.mem.backInv = []) : exec (.drainack j) s = .next (u.setGroup { g with fence := some ⟨.released, scope⟩ }) := by
  have hexec : exec (.drainack j) s = execDrainack j s := rfl
  have hsy : (scope == 5 && !t.mem.backInv.isEmpty) = false := by
    by_cases h5 : scope = 5 <;> simp [h5, hb]
  rw [hexec, execDrainack, onMsg_taken h, hm]
  dsimp only
  rw [ha, hg, hc]
  dsimp only
  rw [hf]
  dsimp only
  rw [ho, hsy]
  rfl

/-- An accepted DrainAck ends an acquire toward which no Inv is out. -/
theorem exec_drainack_acquire {g : Group} (h : s.takeMsg j = some (m, t)) (hm : m.body = .drainAck r) (hg : t.group? r = some g)
    (hc : t.coreOf r = some c) (ha : t.accept m = (true, u)) (hf : g.fence = some ⟨.acquire, scope⟩) (hi : t.invToward c scope = false)
    (hb : scope = 5 → t.mem.backInv = []) : exec (.drainack j) s = .next ((u.setGroup { g with fence := none }).acquired c scope) := by
  have hexec : exec (.drainack j) s = execDrainack j s := rfl
  have hsy : (scope == 5 && !t.mem.backInv.isEmpty) = false := by
    by_cases h5 : scope = 5 <;> simp [h5, hb]
  rw [hexec, execDrainack, onMsg_taken h, hm]
  dsimp only
  rw [ha, hg, hc]
  dsimp only
  rw [hf]
  dsimp only
  rw [hi, hsy]
  rfl

theorem drainsAreAcknowledged : Claims.DrainsAreAcknowledged := by
  intro j scope port m r g c acq n s t
  refine ⟨?_, fun u h hm hg hc ha => ⟨exec_drainack_release h hm hg hc ha, exec_drainack_acquire h hm hg hc ha⟩, fun h => if_pos h⟩
  intro h hc hm todo can ack within
  refine ⟨exec_drain_registers h hc hm, fun hinv htodo hd => ?_⟩
  have hexec : exec (.drain j) s = .next (t.drainOn m r c n acq scope) := exec_drain_on h hc hm hinv htodo
  have hack (hnext : t.nextDrain n c acq scope none = none) (hs : ¬(scope = 5 ∧ acq = false)) : ack t := by
    show exec (.drain j) s = _
    rw [hexec, State.drainOn_last hnext hs]
  have hackSy (hnext : t.nextDrain n c acq scope none = none) (hs : scope = 5 ∧ acq = false) : ack (t.flushHost c.die) := by
    show exec (.drain j) s = _
    rw [hexec, State.drainOn_lastSy hnext hs]
  have hwithin {n' : Node} (hnext : t.nextDrain n c acq scope none = some n') (hsite : nodeSite n' = .die c.die) : within n' := by
    show exec (.drain j) s = _
    rw [hexec, State.drainOn_within hnext (hd.trans hsite.symm)]
  clear_value ack within
  refine ⟨?_, ?_, ?_⟩
  · rintro rfl
    exact ⟨fun h0 => hack (if_neg (by omega)) (by omega), fun h1 => hwithin (if_pos h1) rfl⟩
  · rintro rfl
    exact ⟨fun h1 => hack (if_neg (by omega)) (by omega), fun h2 => hwithin (if_pos h2) rfl⟩
  · rintro rfl
    refine ⟨fun h2 => hack ?_ (by omega), fun hno => ⟨fun _ hs => hack (State.nextDrain_l2_none hno _) ?_, fun h5 ha => ?_⟩, fun k hs hk honly => ?_⟩
    · rw [State.nextDrain_l2, if_neg (by omega), if_neg (by omega)]
      rfl
    · rintro ⟨h5, ha⟩
      exact hs.elim (by omega) (by simp [ha])
    · exact hackSy (State.nextDrain_l2_none hno _) ⟨h5, ha⟩
    · rw [hexec, State.drainOn, State.nextDrain_l2_slice hs hk honly]
      exact congrArg Host.Outcome.next (if_neg (by rw [hd]; exact nofun))

end

/-- Settles O21. -/
theorem fencesAndDrains : Obligations.FencesAndDrains := ⟨fencesComplete, drainsAreAcknowledged⟩

end Sys2Proof.Machine


/-! Exit, wfa and tether generations (O18). -/

namespace Sys2Proof.Machine

/-! ### The exit stall (R170, R179, R342) -/

section
variable {s : State} {u : Issuer} {c : CoreId} {r : GroupRef}

/-- No copy of a group stands in ERR. -/
theorem State.errCopy_none (h : ∀ q ∈ (s.core c).cq, q.g = r → q.state ≠ .err) : s.errCopy c r = none := by
  refine List.find?_eq_none.2 fun p hp => ?_
  obtain ⟨i, hi, rfl⟩ := List.mem_mapIdx.1 hp
  have hfree := h _ (List.getElem_mem hi)
  simpa [Classical.or_iff_not_imp_left] using hfree

theorem exitStalls : Claims.ExitStalls := by
  intro s u h hcq
  have hexec : exec .exit s = execExit s := rfl
  have hnone : s.errCopy u.t.core u.g.id = none := State.errCopy_none fun q hq hg => by
    have := List.all_eq_true.1 hcq q hq
    simpa [hg] using this
  rw [hexec, execExit, runWord_ready h, hnone]
  rfl

/-! ### wfa (R343) -/

/-- The group whose word issues now is found under its name. -/
theorem State.issuerOf_of_issuer (h : s.issuer = some u) : s.issuerOf u.g.id = some u := by
  unfold State.issuer at h
  split at h
  next r hr =>
    have hid : u.g.id = r := by
      unfold State.issuerOf at h
      split at h
      next g t k hg ht hk =>
        split at h
        · cases h
          exact State.group?_id _ hg
        · cases h
      next => cases h
    rw [hid, h]
  next => cases h

theorem waitForChangeEnds : Claims.WaitForChangeEnds := by
  intro k l s u a val deadline h hw
  refine ⟨fun hends => ?_, ?_⟩
  · have hexec : exec (.wfa k l) s = execWfa k l s := rfl
    rw [hexec, execWfa, runWord_ready h]
    dsimp only
    rw [hw]
    dsimp only
    rw [if_pos (hends.symm.imp (fun hl => by rw [hl]) id)]
    rfl
  · have hexec : exec (.wfaWake u.g.id) s = execWfaWake u.g.id s := rfl
    rw [hexec, execWfaWake, State.issuerOf_of_issuer h.1]
    dsimp only
    rw [hw]
    rfl

end

/-! ### Tether generations (R24, R173) -/

section
variable {s : State} {x : Team} {n : Nat}

theorem State.tethCount_lt (s : State) (n : Nat) : s.tethCount n < 2 ^ 16 := Nat.mod_lt _ (by decide)
theorem State.tethGen_lt (s : State) (n : Nat) : s.tethGen n < 2 ^ 16 := Nat.mod_lt _ (by decide)

/-- A tether's state register after it is written. -/
theorem State.tethState_setReg (h : (s.mgmt.map fun e => e.1).Pairwise (· < ·)) {a g : Nat} (ha : a < 2 ^ 16) (hg : g < 2 ^ 16) :
    (s.setReg (offTeth n + 8) (a * 2 ^ 16 + g)).tethArrived n = a ∧ (s.setReg (offTeth n + 8) (a * 2 ^ 16 + g)).tethGen n = g := by
  have hreg := State.reg_setReg h (offTeth n + 8) (offTeth n + 8) (a * 2 ^ 16 + g)
  rw [if_pos rfl] at hreg
  rw [State.tethArrived, State.tethGen, hreg]
  simp only [bits]
  omega

theorem State.tethCountIn_groups (s : State) (x : Team) (n : Nat) : (s.tethCountIn x n).groups = s.groups := by
  simp only [State.tethCountIn]
  split <;> rfl

/-- The root counts an arrival short of COUNT. -/
theorem State.tethCountIn_short (h : (s.mgmt.map fun e => e.1).Pairwise (· < ·)) (hn : s.tethArrived n + 1 < s.tethCount n) :
    (s.tethCountIn x n).tethArrived n = s.tethArrived n + 1 ∧ (s.tethCountIn x n).tethGen n = s.tethGen n := by
  have heq : s.tethCountIn x n = (s.setTeam { x with tethCounted := x.tethCounted ||| bitOf n, tethLatched := x.tethLatched &&& ~~~bitOf n }).setReg
      (offTeth n + 8) ((s.tethArrived n + 1) * 2 ^ 16 + s.tethGen n) := if_pos hn
  rw [heq]
  exact State.tethState_setReg h (by have := s.tethCount_lt n; omega) (s.tethGen_lt n)

/-- The arrival that reaches COUNT ends the generation. -/
theorem State.tethCountIn_last (h : (s.mgmt.map fun e => e.1).Pairwise (· < ·)) (hn : s.tethCount n ≤ s.tethArrived n + 1) :
    (s.tethCountIn x n).tethArrived n = 0 ∧ (s.tethCountIn x n).tethGen n = (s.tethGen n + 1) % 2 ^ 16 := by
  have hmgmt : (s.tethCountIn x n).mgmt = (s.setReg (offTeth n + 8) (0 * 2 ^ 16 + (s.tethGen n + 1) % 2 ^ 16)).mgmt := by
    have hno : ¬s.tethArrived n + 1 < s.tethCount n := by omega
    rw [Nat.zero_mul, Nat.zero_add, State.tethCountIn]
    dsimp only
    split
    next h' => exact absurd h' hno
    next => rfl
  have hreg : (s.tethCountIn x n).reg = (s.setReg (offTeth n + 8) (0 * 2 ^ 16 + (s.tethGen n + 1) % 2 ^ 16)).reg := by
    funext o
    rw [State.reg, State.reg, hmgmt]
  rw [State.tethArrived, State.tethGen, hreg]
  exact State.tethState_setReg h (by decide) (Nat.mod_lt _ (by decide))

/-- TETHER_ARRIVAL of a team that is due. -/
theorem exec_tetherArrival {tid team : Nat} (hn : n < 64) (hx : s.team? tid team = some x) (hdue : s.tethDue x n = true)
    (hr : s.sheetRuns (dieSheet x.core.die) = true) (h0 : s.sheetRuns 0 = true) :
    exec (.tetherArrival tid team n) s = .next (s.tethCountIn x n) := by
  have hexec : exec (.tetherArrival tid team n) s = execTetherArrival tid team n s := rfl
  rw [hexec, execTetherArrival, if_neg (Nat.not_le.2 hn), hx]
  exact if_pos ⟨hdue, hr, h0⟩

end

/-! ### Leaving the exit stall (R171, R179) -/

section
variable {s : State} {r : GroupRef} {g : Group} {x : Team} {k : Task}

/-- Settling the barriers of a team or of a set leaves every group's name and state. -/
theorem State.settleBarriers_groups (s : State) (tid team : Nat) : (s.settleBarriers tid team).groups = s.groups := by
  unfold State.settleBarriers
  split <;> rfl
theorem State.settleCbar_teams (s : State) (tid set : Nat) : (s.settleCbar tid set).teams = s.teams := by
  simp only [State.settleCbar]
  split <;> rfl
theorem State.mem_settleCbar_groups {tid set : Nat} {h : Group} (hh : h ∈ (s.settleCbar tid set).groups) :
    ∃ h' ∈ s.groups, h.id = h'.id ∧ h.stat = h'.stat := by
  simp only [State.settleCbar] at hh
  split at hh
  · exact ⟨h, hh, rfl, rfl⟩
  · obtain ⟨h', hmem, rfl⟩ := List.mem_map.1 hh
    refine ⟨h', hmem, ?_⟩
    split <;> exact ⟨rfl, rfl⟩

theorem State.tethLast_groups (s : State) (x : Team) : (s.tethLast x).groups = s.groups := by
  unfold State.tethLast
  generalize List.range 64 = l
  induction l generalizing s with
  | nil => rfl
  | cons n l ih =>
    rw [List.foldl_cons, ih]
    split
    · split
      · exact State.tethCountIn_groups ..
      · rfl
    · rfl

/-- Putting a task back changes the scheduler only. -/
theorem State.putTask_frame (s : State) (k : Task) : ∃ sc, s.putTask k = { s with sched := sc } := by
  unfold State.putTask
  dsimp only
  split
  · exact ⟨_, rfl⟩
  · exact ⟨s.sched, rfl⟩
theorem State.putTask_groups (s : State) (k : Task) : (s.putTask k).groups = s.groups := by
  obtain ⟨sc, h⟩ := s.putTask_frame k
  rw [h]
theorem State.putTask_teams (s : State) (k : Task) : (s.putTask k).teams = s.teams := by
  obtain ⟨sc, h⟩ := s.putTask_frame k
  rw [h]

/-- Freeing a team takes its groups and its entry. -/
theorem State.freeTeam_groups (s : State) (x : Team) :
    (s.freeTeam x).groups = s.groups.filter fun g => !(g.id.tid == x.tid && g.id.team == x.team) := by
  simp only [State.freeTeam]
  split
  · simp
  · split <;> simp [State.putTask_groups]
theorem State.freeTeam_teams (s : State) (x : Team) :
    (s.freeTeam x).teams = s.teams.filter fun y => !(y.tid == x.tid && y.team == x.team) := by
  simp only [State.freeTeam]
  split
  · simp
  · split <;> simp [State.putTask_teams]

/-- What EXIT_COMPLETE does to a group in its stall whose copies are done. -/
theorem exec_exitComplete (hg : s.group? r = some g) (hx : s.team? r.tid r.team = some x) (hk : s.task? r.tid = some k) (hst : g.stat = .exiting)
    (hr : s.siteRuns (.die x.core.die) = true) (hc : ∀ c ∈ (s.core x.core).cq, c.g = r → c.state = .done) :
    let last := (live (s.teamGroups r.tid r.team)).length = 1
    (¬last → exec (.exitComplete r) s = .next (((s.setGroup { g with stat := .exited, wait := none, fence := none }).settleBarriers r.tid r.team).settleCbar x.tid x.set)) ∧
    (last → ¬((s.core x.core).mq.any (fun o => o.g.tid == r.tid && o.g.team == r.team) = true ∨ s.multicastTo x k = true) →
      exec (.exitComplete r) s = .next ((((s.tethLast x).setGroup { g with stat := .exited, wait := none, fence := none }).freeTeam x).settleCbar x.tid x.set)) := by
  intro last
  have hexec : exec (.exitComplete r) s = execExitComplete r s := rfl
  have herr : s.errCopy x.core r = none := State.errCopy_none fun q hq hqr => by simp [hc q hq hqr]
  have hpend : ¬(s.core x.core).cq.any (fun c => c.g == r && c.pending) = true := by
    rw [List.any_eq_true]
    rintro ⟨q, hq, hp⟩
    obtain ⟨hqr, hqp⟩ := Bool.and_eq_true_iff.1 hp
    simp [Copy.pending, hc q hq (eq_of_beq hqr)] at hqp
  rw [hexec, execExitComplete, hg, hx, hk]
  dsimp only
  rw [if_neg (by simp [hst, hr]), if_neg hpend, herr]
  dsimp only
  refine ⟨fun hlast => ?_, fun hlast hfree => ?_⟩
  · rw [if_neg fun h => hlast h.1, if_neg hlast, if_neg hlast, State.happens, Option.getD_some]
  · rw [if_neg fun h => hfree h.2, if_pos hlast, if_pos hlast, State.happens, Option.getD_some]

end

theorem tethersAndExits : Claims.TethersAndExits := by
  intro tid team n x r g k s
  refine ⟨fun hn hx hdue hr h0 hreg => ⟨_, exec_tetherArrival hn hx hdue hr h0, State.tethCountIn_groups .., State.tethCountIn_short hreg,
    State.tethCountIn_last hreg⟩, ?_, ?_⟩
  · intro lands b hn hany
    have hexec : exec (.tetherRelease n) s = execTetherRelease n s := rfl
    rw [hexec, execTetherRelease, if_neg (Nat.not_le.2 hn)]
    exact if_pos hany
  · intro hg hx hk hst hr hc others
    obtain ⟨hmore, hlast⟩ := exec_exitComplete hg hx hk hst hr hc
    have hothers : live (s.teamGroups r.tid r.team) = others := by
      simp only [live, State.teamGroups, List.filter_filter, others]
      congr 1
      funext h
      rw [Bool.and_comm]
    rw [hothers] at hmore hlast
    obtain ⟨hxtid, hxteam⟩ : x.tid = r.tid ∧ x.team = r.team := by simpa using List.find?_some hx
    refine ⟨fun hlen hall => ⟨_, hmore (by omega), fun h hh hid => ?_⟩, fun hlen hmq hmc => ⟨_, hlast hlen ?_, fun h hh htid hteam => ?_, fun y hy htid hteam => ?_⟩⟩
    · obtain ⟨h', hmem, hid', hstat⟩ := State.mem_settleCbar_groups hh
      rw [State.settleBarriers_groups, State.setGroup_groups] at hmem
      obtain ⟨h'', -, rfl⟩ := List.mem_map.1 hmem
      have hgid : g.id = r := State.group?_id _ hg
      rw [hstat]
      split at hid' <;> rename_i hcond
      · rw [if_pos hcond]
      · exact absurd (hid'.symm.trans (hid.trans hgid.symm)) hcond
    · rintro (hany | hmulti)
      · obtain ⟨o, ho, hp⟩ := List.any_eq_true.1 hany
        obtain ⟨h1, h2⟩ := Bool.and_eq_true_iff.1 hp
        exact hmq o ho (eq_of_beq h1) (eq_of_beq h2)
      · simp [hmc] at hmulti
    · obtain ⟨h', hmem, hid', -⟩ := State.mem_settleCbar_groups hh
      rw [State.freeTeam_groups, List.mem_filter] at hmem
      rw [hid'] at htid hteam
      simp [htid, hteam, hxtid, hxteam] at hmem
    · rw [State.settleCbar_teams, State.freeTeam_teams, List.mem_filter] at hy
      simp [htid, hteam, hxtid, hxteam] at hy

/-- Settles O18. -/
theorem waitsAndExits : Obligations.WaitsAndExits := ⟨exitStalls, waitForChangeEnds, tethersAndExits⟩

end Sys2Proof.Machine


/-! System registers and privileged words (O19). -/

namespace Sys2Proof.Machine

section
variable {s : State} {u : Issuer}

/-! ### Reads and writes (R344 to R348) -/

theorem systemReads : Claims.SystemReads := by
  intro n id c s u h put
  have hsys (hok : okRdsys (.s n) id = true) : exec (.rdsys (.s n) id) s = .next (s.settle u 1 (if sysPriv id.toNat && !u.priv then .fault cPRIV 0 0
      else .done (u.g.setS (.s n) (BitVec.ofNat 64 (u.sysReg s id.toNat))) s)) := by
    have hexec : exec (.rdsys (.s n) id) s = execRdsys (.s n) id s := rfl
    rw [hexec, execRdsys, hok, runWordTo_ready h]
  refine ⟨fun hok huser => ?_, fun hok hid hasid => ?_, fun hok => ?_, ?_, fun x xs hlo hhi hres => ?_, fun hc => ?_⟩
  · rw [hsys hok, if_neg]
    · rfl
    · rw [sysPriv, Issuer.priv]
      rcases huser with hid | hasid
      · simp [Nat.not_le.2 hid]
      · simp [hasid]
  · rw [hsys hok, if_pos (by simp [sysPriv, Issuer.priv, hid, hasid])]
    rfl
  · have hexec : exec (.topo (.s n) c) s = execTopo (.s n) c s := rfl
    rw [hexec, execTopo, hok, runWordTo_ready h]
    rfl
  · have hexec : exec (.tnow (.s n) 0) s = execTnow (.s n) 0 s := rfl
    have hok : okTnow (.s n) 0 = true := rfl
    rw [hexec, execTnow, hok, runWordTo_ready h]
    rfl
  · have hexec : exec (.tnow (.s n) c) s = execTnow (.s n) c s := rfl
    have hok : okTnow (.s n) c = true := by simp [okTnow, Dst.isS, Code.isTnow, hlo, hhi]
    rw [hexec, execTnow, hok, runWordTo_ready h]
    dsimp only
    rw [if_neg (by omega), hres]
    rfl
  · have hexec : exec (.pmrd (.s n) c) s = execPmrd (.s n) c s := rfl
    have hok : okDM (.s n) c = true := by simp [okDM, Dst.isS, Code.below, hc]
    rw [hexec, execPmrd, hok, runWordTo_ready h]
    rfl

theorem Flags.ofNat_toNat (x : W64) : Flags.ofNat x.toNat = ⟨x.getLsbD 0, x.getLsbD 1, x.getLsbD 2, x.getLsbD 3⟩ := by
  have hbit (i : Nat) : bit x.toNat i = x.getLsbD i := (Bool.beq_eq_decide_eq ..).trans (Nat.testBit_eq_decide_div_mod_eq).symm
  simp only [Flags.ofNat, hbit]

theorem systemWrites : Claims.SystemWrites := by
  intro a s u ha h x put
  have hwrite (id : BitVec 12) (hid : sysWritable id = true) : exec (.wrsys a id) s = put (u.g.wrsys id.toNat x) := by
    have hexec : exec (.wrsys a id) s = execWrsys a id s := rfl
    have hok : okWrsys a id = true := by simp [okWrsys, ha, hid]
    rw [hexec, execWrsys, hok, runWord_ready h]
    rfl
  refine ⟨(hwrite 0x10 rfl).trans ?_, hwrite 0x12 rfl, hwrite 0x17 rfl⟩
  rw [← Flags.ofNat_toNat]
  rfl

end

/-! ### fltack (R129, R349) -/

section
variable {s : State} {u : Issuer} {fid : Nat}

/-- The groups after a fault is taken: the group that takes it keeps its state or is stopped. -/
theorem State.takeFault_groups (s : State) (u : Issuer) (code : Nat) (va lanes : W64) :
    ∃ g, g.id = u.g.id ∧ (g.stat = u.g.stat ∨ g.stat = .stopped) ∧ (s.takeFault u code va lanes).groups = (s.setGroup g).groups := by
  have hend (c : Nat) : ∃ g, g.id = u.g.id ∧ (g.stat = u.g.stat ∨ g.stat = .stopped) ∧ (s.faultEnd u c).groups = (s.setGroup g).groups :=
    ⟨{ u.g with stat := .stopped, wait := none, fence := none, stall := MemStall.none }, rfl, .inr rfl, by
      unfold State.faultEnd
      dsimp only
      split
      · rfl
      · simp [State.logDie]⟩
  unfold State.takeFault
  split
  · exact hend _
  split
  · exact hend _
  split
  · exact hend _
  · exact ⟨{ u.g with trap := ⟨true, u.g.widx, code, u.g.pc, u.g.clauseEnd, va, lanes, u.g.exm⟩, exm := maskOnes u.w, pc := u.k.launch.traph
                      clause := [], widx := 0, wait := none, fence := none, stall := MemStall.none }, rfl, .inl rfl, rfl⟩

/-- A group that is set takes every place of its name. -/
theorem State.mem_setGroup {g h : Group} (hh : h ∈ (s.setGroup g).groups) : h = g ∨ h ∈ s.groups ∧ h.id ≠ g.id := by
  rw [State.setGroup_groups] at hh
  obtain ⟨h', hmem, rfl⟩ := List.mem_map.1 hh
  split
  · exact .inl rfl
  · next hne => exact .inr ⟨hmem, hne⟩

/-- Every group parked under a FID stands in a list. -/
def State.ParkedIn (s : State) (fid : Nat) (l : List Group) : Prop := ∀ h ∈ s.groups, h.stat = .parked fid → h ∈ l

/-- A group that takes the action is parked no more, and no other group begins to be. -/
theorem State.ParkedIn.ackGroup {g : Group} {l : List Group} (hs : s.ParkedIn fid (g :: l)) (cancel : Bool) :
    (s.ackGroup fid cancel g).ParkedIn fid l := by
  unfold State.ackGroup
  split
  next hst =>
    intro h hh hpark
    rcases List.mem_cons.1 (hs h hh hpark) with rfl | hl
    · exact absurd hpark hst
    · exact hl
  next hst =>
    have hset : (s.setGroup { g with stat := .ready }).ParkedIn fid l := by
      intro h hh hpark
      rcases State.mem_setGroup hh with rfl | ⟨hmem, hne⟩
      · cases hpark
      · rcases List.mem_cons.1 (hs h hmem hpark) with rfl | hl
        · exact absurd rfl hne
        · exact hl
    dsimp only
    split
    next t k _ _ =>
      split
      · obtain ⟨g', hid, hstat, hgroups⟩ := State.takeFault_groups (s.setGroup { g with stat := .ready }) ⟨{ g with stat := .ready }, t, k⟩ cTRANSL g.faultVa g.faultLanes
        intro h hh hpark
        rw [hgroups] at hh
        rcases State.mem_setGroup hh with rfl | ⟨hmem, -⟩
        · rcases hstat with hst | hst <;> rw [hpark] at hst <;> cases hst
        · exact hset h hmem hpark
      · exact hset
    next => exact hset

theorem State.ParkedIn.ackGroups (cancel : Bool) (l : List Group) (hs : s.ParkedIn fid l) :
    (l.foldl (fun s g => s.ackGroup fid cancel g) s).ParkedIn fid [] := by
  induction l generalizing s with
  | nil => exact hs
  | cons g l ih => exact ih (hs.ackGroup cancel)

/-- No copy is parked under a FID. -/
def State.NoCopyParked (s : State) (fid : Nat) : Prop := ∀ k ∈ s.cores, ∀ q ∈ k.cq, q.state ≠ .parked fid

theorem Copy.ack_state (c : Copy) (fid : Nat) (cancel : Bool) : (c.ack fid cancel).state ≠ .parked fid := by
  unfold Copy.ack
  split
  · split <;> exact nofun
  · assumption

/-- Showing the status of some copies changes no group's state and no core. -/
theorem State.ackCopies_shows (hs : s.ParkedIn fid []) (cancel : Bool) :
    (s.ackCopies fid cancel).ParkedIn fid [] ∧ (s.ackCopies fid cancel).NoCopyParked fid := by
  unfold State.ackCopies
  dsimp only
  have hbase : State.NoCopyParked { s with cores := s.cores.map fun k => { k with cq := k.cq.map fun c => c.ack fid cancel } } fid := by
    intro k hk q hq
    obtain ⟨k', -, rfl⟩ := List.mem_map.1 hk
    obtain ⟨q', -, rfl⟩ := List.mem_map.1 hq
    exact Copy.ack_state q' fid cancel
  have hpark : State.ParkedIn { s with cores := s.cores.map fun k => { k with cq := k.cq.map fun c => c.ack fid cancel } } fid [] := hs
  generalize ((s.cores.flatMap fun k => k.cq).filter fun c => c.state == .parked fid) = hit
  generalize ({ s with cores := s.cores.map fun k => { k with cq := k.cq.map fun c => c.ack fid cancel } } : State) = t at hbase hpark
  induction hit generalizing t with
  | nil => exact ⟨hpark, hbase⟩
  | cons c hit ih =>
    rw [List.foldl_cons]
    refine ih _ ?_ ?_ <;> split
    next g hg => exact hbase
    next => exact hbase
    next g hg =>
      intro h hh hst
      rcases State.mem_setGroup hh with rfl | ⟨hmem, -⟩
      · exact absurd (hpark g (List.mem_of_find?_eq_some hg) hst) List.not_mem_nil
      · exact hpark h hmem hst
    next => exact hpark

/-- A mill's action leaves groups and cores alone. -/
theorem State.ackMill_frame (s : State) (fid : Nat) (cancel : Bool) (m : Mill) :
    (s.ackMill fid cancel m).groups = s.groups ∧ (s.ackMill fid cancel m).cores = s.cores := by
  unfold State.ackMill
  split
  · exact ⟨rfl, rfl⟩
  split
  · exact ⟨rfl, rfl⟩
  dsimp only
  split
  · unfold State.millTrap
    dsimp only
    split <;> exact ⟨rfl, rfl⟩
  · exact ⟨rfl, rfl⟩

theorem State.ackMills_frame (fid : Nat) (cancel : Bool) (l : List Mill) (s : State) :
    (l.foldl (fun s m => s.ackMill fid cancel m) s).groups = s.groups ∧ (l.foldl (fun s m => s.ackMill fid cancel m) s).cores = s.cores := by
  induction l generalizing s with
  | nil => exact ⟨rfl, rfl⟩
  | cons m l ih =>
    obtain ⟨hg, hc⟩ := s.ackMill_frame fid cancel m
    rw [List.foldl_cons, (ih _).1, (ih _).2, hg, hc]
    exact ⟨rfl, rfl⟩

/-- Where no agent is saved under the FID, no block is written. -/
theorem State.ackSaved_none (die : Nat) (cancel : Bool) (hsaved : (s.sched.saved.all fun x => !x.fids.contains fid) = true)
    (hmills : (s.sched.savedMills.all fun x => x.fid != fid) = true) : ∃ sc, s.ackSaved die fid cancel = .ok () { s with sched := sc } := by
  have h1 : s.sched.saved.filter (fun x => x.fids.contains fid) = [] := List.filter_eq_nil_iff.2 fun x hx => by
    simpa using List.all_eq_true.1 hsaved x hx
  have h2 : s.sched.savedMills.filter (fun x => x.fid == fid) = [] := List.filter_eq_nil_iff.2 fun x hx => by
    simpa using List.all_eq_true.1 hmills x hx
  unfold State.ackSaved
  rw [h1, h2]
  exact ⟨_, rfl⟩

/-- A word that advances leaves its group's state. -/
theorem Group.advance_stat (u g : Group) (len : Nat) : (u.advance len g).stat = g.stat := by
  unfold Group.advance
  split <;> rfl

/-- The group whose word issues is ready. -/
theorem Issuer.ready_of_issuer (h : s.issuer = some u) : u.g.stat = .ready := by
  unfold State.issuer at h
  split at h
  · unfold State.issuerOf at h
    split at h
    · split at h
      next hcond =>
        cases h
        exact hcond.1
      next => cases h
    · cases h
  · cases h

theorem faultAcknowledgement : Claims.FaultAcknowledgement := by
  intro a c s u ha hc h fid hfid
  have hexec : exec (.fltack a c) s = execFltack a c s := rfl
  have hok : okFltack a c = true := by simp [okFltack, Code.below, ha, hc]
  rw [hexec, execFltack, hok, runWord_ready h]
  dsimp only
  rw [if_neg hfid]
  refine ⟨fun hasid => ?_, fun hasid hsaved hmills => ?_⟩
  · rw [if_pos (by simp [Issuer.priv, hasid])]
    rfl
  · obtain ⟨sc, hsc⟩ := State.ackSaved_none u.die (c.val == 1) hsaved hmills
    rw [if_neg (by simp [Issuer.priv, hasid]), hsc]
    obtain ⟨hpark, hcopy⟩ := State.ackCopies_shows (State.ParkedIn.ackGroups (s := { s with sched := sc }) (fid := fid) (c.val == 1) s.groups
      fun h hh _ => hh) (c.val == 1)
    obtain ⟨hgroups, hcores⟩ := State.ackMills_frame fid (c.val == 1)
      ((s.groups.foldl (fun (s : State) g => s.ackGroup fid (c.val == 1) g) { s with sched := sc }).ackCopies fid (c.val == 1)).mills
      ((s.groups.foldl (fun (s : State) g => s.ackGroup fid (c.val == 1) g) { s with sched := sc }).ackCopies fid (c.val == 1))
    refine ⟨_, rfl, fun g hg hst => ?_, fun k hk q hq => ?_⟩
    · rcases State.mem_setGroup hg with rfl | ⟨hmem, -⟩
      · exact absurd (hst.symm.trans ((Group.advance_stat ..).trans (Issuer.ready_of_issuer h.1))) nofun
      · rw [hgroups] at hmem
        exact absurd (hpark g hmem hst) List.not_mem_nil
    · rw [State.settle, State.setGroup_cores, hcores] at hk
      exact hcopy k hk q hq

end

/-! ### xlinv (R124, R125, R350) -/

theorem translationRemoval : Claims.TranslationRemoval := by
  intro a b c s u ha hb hc h start len asid lo hi n
  have hexec : exec (.xlinv a b c) s = execXlinv a b c s := rfl
  have hok : okXlinv a b c = true := by simp [okXlinv, ha, hb, hc]
  rw [hexec, execXlinv, hok, runWord_ready h]
  refine ⟨fun hasid => ?_, fun hasid hlen => ?_, fun hasid hlen hend hnet htxns hpromos hpin hlines => ?_⟩
  · dsimp only
    rw [if_pos (by simp [Issuer.priv, hasid])]
    rfl
  · dsimp only
    rw [if_neg (by simp [Issuer.priv, hasid]), if_pos hlen]
    rfl
  · have hcanon : ¬(canonical start = false ∨ (if start < 2 ^ 56 then 2 ^ 56 else 2 ^ 64) < start + len) := by
      have hlow : start < 2 ^ 56 := by omega
      have hbits : bits start 63 56 = 0 := by
        simp only [bits]
        omega
      rw [if_pos hlow, canonical, hbits]
      simp
      omega
    have hnone : s.mem.lines.filter (fun l => lineIn asid lo hi l.a && nodeDepth l.node != 4) = [] := List.filter_eq_nil_iff.2 fun l hl => by
      have := List.all_eq_true.1 hlines l hl
      simp only [Bool.or_eq_true, beq_iff_eq, Bool.not_eq_true'] at this
      rcases this with hd | hin
      · simp [hd]
      · simp [hin]
    dsimp only
    rw [if_neg (by simp [Issuer.priv, hasid]), if_neg (by omega), if_neg hcanon]
    rw [if_neg]
    · rw [State.mapMem_mem]
      dsimp only
      rw [hnone]
      rfl
    · have hany : (s.mem.lines.any fun l => lineIn asid lo hi l.a && nodeDepth l.node != 4 && l.dirty != 0 && l.attr.tier == 0 &&
          (s.mapMem fun x => { x with tlb := x.tlb.filter fun t => !(t.asid == asid && decide (t.page ≤ hi % 2 ^ 41) && decide (lo % 2 ^ 41 < t.page + t.pages)) }).bankHeld
            l.attr.home l.attr.pa) = false := List.any_eq_false.2 fun l hl => by
        have := List.filter_eq_nil_iff.1 hnone l hl
        simp only [Bool.and_eq_true] at this ⊢
        exact fun h => this h.1.1.1
      have hpinned : (s.groups.any fun g => !g.stall.pinned.isEmpty) = false := by
        simpa using hpin
      simp only [State.mapMem_mem, State.mapMem_groups, hnet, htxns, hpromos, List.any_nil, Bool.false_or, hpinned, Bool.or_false]
      rw [hany]
      exact nofun

/-- Settles O19. -/
theorem systemWords : Obligations.SystemWords := ⟨systemReads, systemWrites, faultAcknowledgement, translationRemoval⟩

end Sys2Proof.Machine


/-! Loads (O22), scalar loads and stores (O26), and when an access raises nothing (O23). -/

namespace Sys2Proof.Machine

section
variable {s : State} {u : Issuer}

/-! ### Codes (R176) -/

theorem Issuer.deliver_nil (u : Issuer) (s : State) (acc : Acc) : u.deliver s acc [] = none := rfl

/-! ### Committing a load (R139, R305) -/

/-- The value that a list of lanes gives one of them. -/
theorem laneVal_map {lanes : List Nat} {f : Nat → Nat} {i : Nat} (hi : i ∈ lanes) : laneVal lanes (lanes.map f) i = f i := by
  have hfind : ∃ p, (lanes.zip (lanes.map f)).find? (fun p => p.1 == i) = some p := by
    refine Option.isSome_iff_exists.1 (List.find?_isSome.2 ⟨(i, f i), ?_, beq_self_eq_true i⟩)
    rw [List.zip_map_right, List.mem_map]
    obtain ⟨n, hn, rfl⟩ := List.getElem_of_mem hi
    refine ⟨(lanes[n], lanes[n]), ?_, rfl⟩
    exact List.mem_iff_getElem.2 ⟨n, by simpa using hn, by simp⟩
  obtain ⟨p, hp⟩ := hfind
  have hmem := List.mem_of_find?_eq_some hp
  have hpi : p.1 = i := by simpa using List.find?_some hp
  rw [List.zip_map_right, List.mem_map] at hmem
  obtain ⟨q, hq, rfl⟩ := hmem
  have hsame : q.1 = q.2 := by
    obtain ⟨n, hn, rfl⟩ := List.mem_iff_getElem.1 hq
    simp
  rw [laneVal, hp]
  show f q.2 = f i
  rw [← hsame]
  exact congrArg f hpi

theorem Group.pushWords_exm (g : Group) (w : Nat) (d : Dst) (n : Nat) (f : Nat → Nat) : (g.pushWords w d n f).exm = g.exm := by
  induction n with
  | zero => rfl
  | succ n ih =>
    rw [Group.pushWords_succ]
    exact ih

/-- Pushed words depend on the enabled lanes only. -/
theorem Group.pushWords_congr {g : Group} {w : Nat} {f h : Nat → Nat} (hf : ∀ i, i < w → g.enabled i = true → f i = h i) (d : Dst) (n : Nat) :
    g.pushWords w d n f = g.pushWords w d n h := by
  induction n with
  | zero => rfl
  | succ n ih =>
    have hlanes : (g.pushWords w d n h).wordLanes w d f n = (g.pushWords w d n h).wordLanes w d h n := by
      refine List.map_congr_left fun i hi => ?_
      have hen : (g.pushWords w d n h).enabled i = g.enabled i := by rw [Group.enabled, Group.pushWords_exm, Group.enabled]
      rw [hen]
      split
      next he => rw [hf i (List.mem_range.1 hi) he]
      next => rfl
    rw [Group.pushWords_succ, Group.pushWords_succ, ih, hlanes]

/-- A vector load whose lanes read by their own number. -/
theorem Issuer.loaded_vector (u : Issuer) (w : LoadWord) (hw : w.scalar = false) (f : LaneAddr → Nat) :
    u.loaded w ((u.addrs false w.base w.off).map f) = u.g.pushWords u.w w.d (max 1 (w.bytes / 4)) fun i =>
      extend w.bytes w.sext (f (i, u.g.addrPart w.base i + u.g.addrPart w.off i)) := by
  rw [Issuer.loaded, hw]
  refine Group.pushWords_congr (fun i hi he => ?_) _ _
  have hmem : i ∈ u.lanes false := List.mem_filter.2 ⟨List.mem_range.2 hi, he⟩
  rw [Issuer.addrs, List.map_map, laneVal_map hmem]
  rfl

/-- A word that commits, and acquires when its order is 01. -/
theorem Issuer.settle_ordered (s t : State) (u : Issuer) (n : Nat) (m : MemMods) (g : Group) :
    s.settle u n (if m.order.val = 1 then u.acquire t g m.scope.val else .done g t) = acquireEnd t u m n g := by
  rw [acquireEnd]
  by_cases ho : m.order.val = 1
  · by_cases hs : m.scope.val = 0
    · rw [if_pos ho, hs, if_neg (by omega)]
      rfl
    · rw [if_pos ho, Issuer.acquire_wider _ _ _ hs, if_pos ⟨ho, hs⟩]
      rfl
  · rw [if_neg ho, if_neg fun h => ho h.1]
    rfl

theorem acquireEnd_plain {t : State} {m : MemMods} {n : Nat} {g : Group} (h : m.order.val = 0 ∨ m.scope.val = 0) :
    acquireEnd t u m n g = t.setGroup (u.g.advance n g) := if_neg (by omega)
theorem acquireEnd_acquires {t : State} {m : MemMods} {n : Nat} {g : Group} (ho : m.order.val = 1) (hs : m.scope.val ≠ 0) :
    acquireEnd t u m n g = (t.sendDrain u.g.id u.t.core true m.scope.val).setGroup { u.g.advance n g with fence := some ⟨.acquire, m.scope.val⟩ } :=
  if_pos ⟨ho, hs⟩

/-! ### Loads (R303, R305) -/

/-- A load from an SRAM space whose lanes raise no code reads every lane. -/
theorem Issuer.loadStep_sram {w : LoadWord} (hspace : w.space ≠ .glob) (hcw : w.space = .cw → u.windowLocal = true)
    (hcodes : u.sramCodes s w.space (u.addrs w.scalar w.base w.off) w.bytes true false = []) :
    u.loadStep s w = u.commitLoad s w ((u.addrs w.scalar w.base w.off).map fun a => u.readSram s w.space a.1 a.2.toNat w.bytes) := by
  have hlocal : ¬(w.space = .cw ∧ u.windowLocal = false ∧ u.addrs w.scalar w.base w.off ≠ []) := fun h => by simp [hcw h.1] at h
  rw [Issuer.loadStep]
  dsimp only
  split
  next hg => exact absurd hg hspace
  next => rw [hcodes, Issuer.deliver_nil, if_neg hlocal]

/-- A load from global memory whose lines are here takes them and reads every lane. -/
theorem Issuer.loadStep_glob {w : LoadWord} (hspace : w.space = .glob) (hgate : u.gate s (u.addrs w.scalar w.base w.off) w.bytes .read false = none) :
    u.loadStep s w = u.commitLoad ((u.touchAll s ((u.addrs w.scalar w.base w.off).map fun a => vaOf a.2)).trimL1 u.t.core) w
      ((u.addrs w.scalar w.base w.off).map fun a => u.readL1 (u.touchAll s ((u.addrs w.scalar w.base w.off).map fun a => vaOf a.2)) (vaOf a.2) w.bytes) := by
  rw [Issuer.loadStep, hspace]
  dsimp only
  rw [hgate]

theorem sramLoadsComplete : Claims.SramLoadsComplete := by
  unfold Claims.SramLoadsComplete
  intro rows r hr d base off m s u hwf h hcw hcodes n g
  have hword : ∃ ok, exec (r.1 d base off m) s = vload ok r.2.1 r.2.2.1 r.2.2.2 d base off m s ∧
      ((r.1 d base off m).wf = true → ok = true) ∧ r.2.1 ≠ .glob := by
    clear hwf h hcw hcodes n g
    revert r
    simp only [rows, List.forall_mem_cons]
    exact ⟨
      ⟨_, rfl, id, Space.noConfusion⟩, ⟨_, rfl, id, Space.noConfusion⟩, ⟨_, rfl, id, Space.noConfusion⟩, ⟨_, rfl, id, Space.noConfusion⟩, ⟨_, rfl, id, Space.noConfusion⟩, ⟨_, rfl, id, Space.noConfusion⟩, ⟨_, rfl, id, Space.noConfusion⟩,
      ⟨_, rfl, id, Space.noConfusion⟩, ⟨_, rfl, id, Space.noConfusion⟩, ⟨_, rfl, id, Space.noConfusion⟩, ⟨_, rfl, id, Space.noConfusion⟩, ⟨_, rfl, id, Space.noConfusion⟩, ⟨_, rfl, id, Space.noConfusion⟩, ⟨_, rfl, id, Space.noConfusion⟩,
      ⟨_, rfl, id, Space.noConfusion⟩, ⟨_, rfl, id, Space.noConfusion⟩, ⟨_, rfl, id, Space.noConfusion⟩, ⟨_, rfl, id, Space.noConfusion⟩, ⟨_, rfl, id, Space.noConfusion⟩, ⟨_, rfl, id, Space.noConfusion⟩, ⟨_, rfl, id, Space.noConfusion⟩,
      ⟨_, rfl, id, Space.noConfusion⟩, ⟨_, rfl, id, Space.noConfusion⟩, ⟨_, rfl, id, Space.noConfusion⟩, ⟨_, rfl, id, Space.noConfusion⟩, ⟨_, rfl, id, Space.noConfusion⟩, ⟨_, rfl, id, Space.noConfusion⟩, ⟨_, rfl, id, Space.noConfusion⟩,
      List.forall_mem_nil _⟩
  obtain ⟨ok, hi, hok, hspace⟩ := hword
  have hend : exec (r.1 d base off m) s = .next (acquireEnd s u m n g) := by
    rw [hi, hok hwf, vload, runWord_ready h, Issuer.loadStep_sram hspace hcw hcodes, Issuer.commitLoad, Issuer.settle_ordered,
      Issuer.loaded_vector u _ rfl fun a => u.readSram s r.2.1 a.1 a.2.toNat r.2.2.1]
    rfl
  exact ⟨fun h => hend.trans (by rw [acquireEnd_plain h]; rfl), fun ho hs => hend.trans (by rw [acquireEnd_acquires ho hs])⟩

theorem globalLoadsComplete : Claims.GlobalLoadsComplete := by
  unfold Claims.GlobalLoadsComplete
  intro rows r hr d base off m s u hwf h hgate n t g
  have hword : ∃ ok, exec (r.1 d base off m) s = vload ok .glob r.2.1 r.2.2 d base off m s ∧ ((r.1 d base off m).wf = true → ok = true) := by
    clear hwf h hgate n t g
    revert r
    simp only [rows, List.forall_mem_cons]
    exact ⟨⟨_, rfl, id⟩, ⟨_, rfl, id⟩, ⟨_, rfl, id⟩, ⟨_, rfl, id⟩, ⟨_, rfl, id⟩, ⟨_, rfl, id⟩, ⟨_, rfl, id⟩, List.forall_mem_nil _⟩
  obtain ⟨ok, hi, hok⟩ := hword
  have hend : exec (r.1 d base off m) s = .next (acquireEnd t u m n g) := by
    rw [hi, hok hwf, vload, runWord_ready h, Issuer.loadStep_glob rfl hgate, Issuer.commitLoad, Issuer.settle_ordered,
      Issuer.loaded_vector u _ rfl fun a => u.readL1 (u.touchAll s ((u.addrs false base off).map fun a => vaOf a.2)) (vaOf a.2) r.2.1]
    rfl
  exact ⟨fun h => hend.trans (by rw [acquireEnd_plain h]), fun ho hs => hend.trans (by rw [acquireEnd_acquires ho hs])⟩

/-- Settles O22. -/
theorem loadsComplete : Obligations.LoadsComplete := ⟨sramLoadsComplete, globalLoadsComplete⟩

/-! ### Stores (R306 to R308) -/

/-- A store to global memory whose lines are here, and which has released and registered what its order asks for. -/
theorem Issuer.storeStep_glob {xs : List LaneStore} {bytes : Nat} {m : MemMods}
    (hgate : u.gate s (xs.map fun e => (e.lane, e.addr)) bytes .write true = none) (hrel : m.order.val = 1 → u.release s m.scope.val = none)
    (hup : m.order.val = 1 → u.registerUp s (xs.map fun e => vaOf e.addr) m.scope.val = none) :
    u.storeStep s .glob xs bytes m = .done u.g (if m.order.val = 1 ∧ m.scope.val = 5 then
      (u.inL1 s (xs.map fun e => vaOf e.addr) fun s => xs.foldl (fun s e => u.storeL1 s e) s).flushHost u.die
      else u.inL1 s (xs.map fun e => vaOf e.addr) fun s => xs.foldl (fun s e => u.storeL1 s e) s) := by
  rw [Issuer.storeStep]
  dsimp only
  rw [hgate]
  by_cases ho : m.order.val = 1
  · simp only [if_pos ho, hrel ho, hup ho]
  · simp only [if_neg ho]

/-- A store to an SRAM space whose lanes raise no code writes every lane. -/
theorem Issuer.storeStep_sram {space : Space} {xs : List LaneStore} {bytes : Nat} {m : MemMods} (hspace : space ≠ .glob)
    (hcw : space = .cw → u.windowLocal = true) (hcodes : u.sramCodes s space (xs.map fun e => (e.lane, e.addr)) bytes false true = [])
    (hrel : m.order.val = 1 → u.release s m.scope.val = none) :
    u.storeStep s space xs bytes m = .done u.g (xs.foldl (fun s e => u.writeSram s space e) s) := by
  have hlocal : ¬(space = .cw ∧ u.windowLocal = false ∧ xs ≠ []) := fun h => by simp [hcw h.1] at h
  rw [Issuer.storeStep]
  · dsimp only
    rw [hcodes, Issuer.deliver_nil]
    dsimp only
    rw [if_neg hlocal]
    by_cases ho : m.order.val = 1
    · simp only [if_pos ho, hrel ho]
    · simp only [if_neg ho]
  · exact hspace

/-- Settles O26: the lemmas of the vector words, for lane 0 alone. -/
theorem scalarMemoryComplete : Obligations.ScalarMemoryComplete := by
  intro k x base off m s u hm hx hb ho h hrel a hup n t put done glob st
  have hload {i : Instr} {space : Space} {bytes : Nat} (hi : exec i s = sload (okSld (.s k) base off m) space bytes (.s k) base off m s) :
      exec i s = .next (s.settle u n (u.loadStep s ⟨space, bytes, false, .s k, base, off, m, true⟩)) := by
    have hok : okSld (.s k) base off m = true := by simp [okSld, Dst.isS, hb, ho, hm]
    rw [hi, hok, sload, runWordTo_ready h]
    rfl
  have hstore {i : Instr} {space : Space} {bytes : Nat} (hi : exec i s = sstore space bytes x base off m s) :
      exec i s = .next (s.settle u (n + x.nlit) (u.storeStep s space [st bytes] bytes m)) := by
    have hok : okSst x base off m = true := by simp [okSst, hx, hb, ho, hm]
    rw [hi, sstore, hok, runWord_ready h]
    rfl
  have hglobLoad {i : Instr} {bytes : Nat} (hi : exec i s = sload (okSld (.s k) base off m) .glob bytes (.s k) base off m s)
      (hgate : u.gate s [(0, a)] bytes .read false = none) : exec i s = put (t.trimL1 u.t.core) (u.readL1 t (vaOf a) bytes) := by
    rw [hload hi, Issuer.loadStep_glob rfl hgate, Issuer.commitLoad, Issuer.settle_ordered]
    rfl
  have hglobStore {i : Instr} {bytes : Nat} (hi : exec i s = sstore .glob bytes x base off m s)
      (hgate : u.gate s [(0, a)] bytes .write true = none) : exec i s = glob (st bytes) := by
    rw [hstore hi, Issuer.storeStep_glob (xs := [st bytes]) hgate hrel hup]
    rfl
  refine ⟨hglobLoad rfl, hglobLoad rfl, fun hcodes => ?_, hglobStore rfl, hglobStore rfl, fun hcodes => ?_⟩
  · rw [hload (i := .sldsB64 (.s k) base off m) rfl,
      Issuer.loadStep_sram (w := ⟨.sp, 8, false, .s k, base, off, m, true⟩) nofun nofun hcodes, Issuer.commitLoad, Issuer.settle_ordered]
    rfl
  · rw [hstore (i := .sstsB64 x base off m) rfl, Issuer.storeStep_sram (space := .sp) (xs := [st 8]) nofun nofun hcodes hrel]
    rfl

/-! ### When an access raises nothing (R97, R100, R198) -/

theorem alignCodes_eq_nil {addrs : List LaneAddr} {bytes : Nat} : alignCodes addrs bytes = [] ↔ ∀ a ∈ addrs, a.2 % (bytes : Int) = 0 := by
  simp [alignCodes, List.filter_eq_nil_iff]

/-- The condition of R97, R100 and R198 decides an access of any width, one of no byte included. -/
theorem Issuer.sramCodes_eq_nil (s : State) (u : Issuer) (space : Space) (addrs : List LaneAddr) (bytes : Nat) (reads writes : Bool) :
    u.sramCodes s space addrs bytes reads writes = [] ↔
      ∀ a ∈ addrs, a.2 % (bytes : Int) = 0 ∧ ((u.range space).1 : Int) ≤ a.2 ∧ a.2 + bytes ≤ ((u.range space).2 : Int) ∧
        (space = .ds → u.dieAllowed s a.2.toNat writes = true) ∧ (reads = true → u.badWord s space a.2.toNat bytes = none) := by
  rw [Issuer.sramCodes, List.append_eq_nil_iff, alignCodes_eq_nil, List.filterMap_eq_nil_iff, ← forall_and]
  simp only [← imp_and]
  refine forall_congr' fun a => imp_congr_right fun _ => and_congr_right fun _ => ?_
  by_cases hrange : a.2 < ((u.range space).1 : Int) ∨ ((u.range space).2 : Int) < a.2 + bytes
  · rw [if_pos hrange]
    exact ⟨nofun, fun h => absurd hrange (by omega)⟩
  rw [if_neg hrange]
  have hin : ((u.range space).1 : Int) ≤ a.2 ∧ a.2 + bytes ≤ ((u.range space).2 : Int) := by omega
  rw [← and_assoc, and_iff_right hin]
  by_cases hprot : space = .ds ∧ u.dieAllowed s a.2.toNat writes = false
  · rw [if_pos hprot]
    refine ⟨nofun, fun h => absurd (h.1 hprot.1) ?_⟩
    simp [hprot.2]
  rw [if_neg hprot]
  have hperm : space = .ds → u.dieAllowed s a.2.toNat writes = true := by simpa using hprot
  rw [and_iff_right hperm]
  cases reads <;> simp

theorem globalReadAllowed : Claims.GlobalReadAllowed := by
  intro s u addrs bytes hfaults hall
  have halign : alignCodes addrs bytes = [] := alignCodes_eq_nil.2 fun a ha => (hall a ha).1
  have hneed : addrs.filter (fun a => inGlobal a.2 && !(u.g.stall.faults.any fun f => f.line == vaOf a.2 / 256) && !u.ready s (vaOf a.2 / 256)) = [] :=
    List.filter_eq_nil_iff.2 fun a ha => by
      obtain ⟨-, -, -, hready, -⟩ := hall a ha
      simp [hready]
  have hcodes : addrs.filterMap (u.laneCode s bytes .read) = [] := List.filterMap_eq_nil_iff.2 fun a ha => by
    obtain ⟨-, hlo, hhi, -, l, hl, href, hdk⟩ := hall a ha
    have hglob : inGlobal a.2 = true := by
      rw [inGlobal, Bool.and_eq_true, decide_eq_true_eq, decide_eq_true_eq]
      exact ⟨hlo, hhi⟩
    have hdeckle : ¬(l.attr.dk && !u.k.declares (vaOf a.2) bytes Acc.read.rights.1 Acc.read.rights.2) = true := by
      rw [Bool.and_eq_true]
      rintro ⟨h1, h2⟩
      have := hdk h1
      simp only [Acc.rights] at h2
      simp [this] at h2
    rw [Issuer.laneCode]
    simp only [hglob, hfaults, List.find?_nil, hl, href, if_neg hdeckle]
    rfl
  rw [Issuer.gate, halign, Issuer.deliver_nil]
  dsimp only
  rw [hneed]
  dsimp only
  rw [hcodes, Issuer.deliver_nil]
  have hnone : addrs.filter (fun _ => false) = [] := List.filter_eq_nil_iff.2 fun _ _ => Bool.false_ne_true
  simp [hnone]

end

/-- The first group of a machine's first team, on the first core. -/
def firstIssuer : Issuer :=
  ⟨Group.fresh ⟨0, 0, 0⟩ plainLaunch, Team.reserved 0 0 0 ⟨⟨0, 0, 0⟩, 0⟩ (0, 0, 0) .none, plainTask .core⟩

/-- Refutes O23: `→` binds tighter than `↔`, so its first claim reads `(0 < bytes → …) ↔ …`. With no byte, and one lane at address 1, the left
side holds for want of `0 < bytes`, and the right side asks that 1 be a multiple of 0. With the hypothesis outside, the claim is
`Issuer.sramCodes_eq_nil`, and the second claim is `globalReadAllowed`. -/
theorem not_accessesAllowed : ¬ Obligations.AccessesAllowed := by
  rintro ⟨hsram, -⟩
  obtain ⟨halign, -⟩ := (hsram State.reset firstIssuer .sp [(0, 1)] 0 false false).1 (fun h => absurd h (Nat.lt_irrefl 0)) (0, 1) (List.mem_singleton.2 rfl)
  exact absurd halign (by decide)

end Sys2Proof.Machine


/-! Stores (O24). -/

namespace Sys2Proof.Machine

section
variable {x base off : Src} {m : MemMods} {s : State} {u : Issuer}

/-- A store's lanes and addresses, as its checks see them. -/
theorem Issuer.stores_addrs (u : Issuer) (x base off : Src) (bytes : Nat) (scalar : Bool) :
    (u.stores x base off bytes scalar).map (fun e => (e.lane, e.addr)) = u.addrs scalar base off := by
  rw [Issuer.stores, List.map_map]
  exact List.map_id _

theorem Issuer.nibStores_addrs (u : Issuer) (x base off : Src) :
    (u.nibStores x base off).map (fun e => (e.lane, e.addr)) = u.nibAddrs base off := by
  rw [Issuer.nibStores, List.map_map]
  exact List.map_id _

theorem sramStoresComplete : Claims.SramStoresComplete := by
  unfold Claims.SramStoresComplete
  intro rows x base off m s u hrel n done
  refine ⟨fun r hr hwf h hcw hcodes => ?_, fun hwf h hcodes => ?_⟩
  · have hword : ∃ ok, exec (r.1 x base off m) s = vstore ok r.2.1 r.2.2 x base off m s ∧ ((r.1 x base off m).wf = true → ok = true) ∧ r.2.1 ≠ .glob := by
      clear hwf h hcw hcodes done n
      revert r
      simp only [rows, List.forall_mem_cons]
      exact ⟨
        ⟨_, rfl, id, Space.noConfusion⟩, ⟨_, rfl, id, Space.noConfusion⟩, ⟨_, rfl, id, Space.noConfusion⟩, ⟨_, rfl, id, Space.noConfusion⟩, ⟨_, rfl, id, Space.noConfusion⟩,
        ⟨_, rfl, id, Space.noConfusion⟩, ⟨_, rfl, id, Space.noConfusion⟩, ⟨_, rfl, id, Space.noConfusion⟩, ⟨_, rfl, id, Space.noConfusion⟩, ⟨_, rfl, id, Space.noConfusion⟩,
        ⟨_, rfl, id, Space.noConfusion⟩, ⟨_, rfl, id, Space.noConfusion⟩, ⟨_, rfl, id, Space.noConfusion⟩, ⟨_, rfl, id, Space.noConfusion⟩, ⟨_, rfl, id, Space.noConfusion⟩,
        ⟨_, rfl, id, Space.noConfusion⟩, ⟨_, rfl, id, Space.noConfusion⟩, ⟨_, rfl, id, Space.noConfusion⟩, ⟨_, rfl, id, Space.noConfusion⟩, ⟨_, rfl, id, Space.noConfusion⟩,
        List.forall_mem_nil _⟩
    obtain ⟨ok, hi, hok, hspace⟩ := hword
    rw [← u.stores_addrs x base off r.2.2 false] at hcodes
    rw [hi, hok hwf, vstore, runWord_ready h, Issuer.storeStep_sram hspace hcw hcodes hrel]
    rfl
  · have hi : exec (.stsN4 x base off m) s = nstore .sp x base off m s := rfl
    have hok : okSt x base off m = true := hwf
    rw [← u.nibStores_addrs x base off] at hcodes
    rw [hi, nstore, hok, runWord_ready h, Issuer.storeStep_sram (space := .sp) nofun nofun hcodes hrel]
    rfl

theorem globalStoresComplete : Claims.GlobalStoresComplete := by
  unfold Claims.GlobalStoresComplete
  intro rows x base off m s u hrel n up done
  refine ⟨fun r hr hwf h hgate hup => ?_, fun hwf h hgate hup => ?_⟩
  · have hword : ∃ ok, exec (r.1 x base off m) s = vstore ok .glob r.2 x base off m s ∧ ((r.1 x base off m).wf = true → ok = true) := by
      clear hwf h hgate hup up done n
      revert r
      simp only [rows, List.forall_mem_cons]
      exact ⟨⟨_, rfl, id⟩, ⟨_, rfl, id⟩, ⟨_, rfl, id⟩, ⟨_, rfl, id⟩, ⟨_, rfl, id⟩, List.forall_mem_nil _⟩
    obtain ⟨ok, hi, hok⟩ := hword
    rw [← u.stores_addrs x base off r.2 false] at hgate
    rw [hi, hok hwf, vstore, runWord_ready h, Issuer.storeStep_glob hgate hrel hup]
    rfl
  · have hi : exec (.stN4 x base off m) s = nstore .glob x base off m s := rfl
    have hok : okSt x base off m = true := hwf
    rw [← u.nibStores_addrs x base off] at hgate
    rw [hi, nstore, hok, runWord_ready h, Issuer.storeStep_glob hgate hrel hup]
    rfl

/-- Settles O24: each word is `vstore` or `nstore`, whose step goes through its checks. -/
theorem storesComplete : Obligations.StoresComplete := ⟨sramStoresComplete, globalStoresComplete⟩

end

end Sys2Proof.Machine


/-! Which bytes a store changes (O25). -/

namespace Sys2Proof.Machine

/-! ### Bytes of a number -/

theorem getD_leBytes {n j : Nat} (hj : j < n) (x : Nat) (d : BitVec 8) : (leBytes n x).getD j d = BitVec.ofNat 8 (x / 2 ^ (8 * j)) := by
  induction n generalizing j x with
  | zero => exact absurd hj (Nat.not_lt_zero j)
  | succ n ih =>
    cases j with
    | zero => simp [leBytes]
    | succ j =>
      rw [leBytes, List.getD_cons_succ, ih (by omega), Nat.div_div_eq_div_mul, show 8 * (j + 1) = 8 + 8 * j by omega, Nat.pow_add]

/-- A store of whole bytes keeps nothing of the bytes it finds. -/
theorem mergeBytes_whole {val bytes : Nat} (old : Nat) (hv : val < 2 ^ (8 * bytes)) : mergeBytes old val (2 ^ (8 * bytes) - 1) bytes = leBytes bytes val := by
  have hmask : (2 ^ (8 * bytes) - 1) % 2 ^ (8 * bytes) = 2 ^ (8 * bytes) - 1 := Nat.mod_eq_of_lt (Nat.sub_lt (Nat.two_pow_pos _) Nat.one_pos)
  rw [mergeBytes, hmask, ones, Nat.xor_self, Nat.and_zero, Nat.zero_or, Nat.and_two_pow_sub_one_eq_mod, Nat.mod_eq_of_lt hv]

/-! ### Memories of undefined bytes (R159) -/

/-- A byte of such a memory after several are written. -/
theorem undefRead_write (m : Mem) (epoch a p : Nat) (bs : List (BitVec 8)) : undefRead (undefWrite m a bs) epoch p =
    if a ≤ p ∧ p < a + bs.length then bs.getD (p - a) 0 else undefRead m epoch p := by
  induction bs generalizing m a with
  | nil => rw [undefWrite, if_neg (by simp)]
  | cons b bs ih =>
    rw [undefWrite, ih, undefRead_put, List.length_cons]
    by_cases hpa : p = a
    · subst hpa
      rw [if_neg (by omega), if_pos rfl, if_pos (by omega), Nat.sub_self, List.getD_cons_zero]
    · by_cases hin : a + 1 ≤ p ∧ p < a + 1 + bs.length
      · rw [if_pos hin, if_pos (by omega), show p - a = (p - (a + 1)) + 1 by omega, List.getD_cons_succ]
      · rw [if_neg hin, if_neg hpa, if_neg (by omega)]

/-- What such a memory lists for an address that is not written. -/
theorem find?_undefPut_ne {m : Mem} {a p : Nat} (h : p ≠ a) (v : BitVec 8) :
    (undefPut m a v).find? (fun c => c.1 == p) = m.find? fun c => c.1 == p := by
  have hap : (a == p) = false := beq_false_of_ne (Ne.symm h)
  induction m with
  | nil => rw [undefPut, List.find?_cons, hap]
  | cons c m ih =>
    rw [undefPut]
    split
    · rw [List.find?_cons, hap]
    · split
      next hx =>
        obtain ⟨a', b'⟩ := c
        obtain rfl : a = a' := hx
        rw [List.find?_cons, List.find?_cons, hap]
      next => rw [List.find?_cons, List.find?_cons, ih]

theorem find?_undefPuts_ne {m : Mem} {p : Nat} {cells : List (Nat × BitVec 8)} (h : ∀ c ∈ cells, p ≠ c.1) :
    (cells.foldl (fun m c => undefPut m c.1 c.2) m).find? (fun c => c.1 == p) = m.find? fun c => c.1 == p := by
  induction cells generalizing m with
  | nil => rfl
  | cons c cells ih =>
    rw [List.foldl_cons, ih fun c' hc' => h c' (List.mem_cons_of_mem _ hc'), find?_undefPut_ne (h c (List.mem_cons_self ..))]

/-! ### The scratchpad (R306) -/

section
variable {s : State} {u : Issuer}

/-- A store of whole bytes. -/
def LaneStore.whole (e : LaneStore) : Prop := e.mask = 2 ^ (8 * e.bytes) - 1 ∧ e.val < 2 ^ (8 * e.bytes)
/-- A store writes a byte of an SRAM space. -/
abbrev LaneStore.covers (e : LaneStore) (p : Nat) : Prop := e.addr.toNat ≤ p ∧ p < e.addr.toNat + e.bytes

/-- A byte after some stores: the last one that covers it gives it. -/
def storedByte (p : Nat) (old : BitVec 8) (xs : List LaneStore) : BitVec 8 :=
  xs.foldl (fun b e => if e.addr.toNat ≤ p ∧ p < e.addr.toNat + e.bytes then BitVec.ofNat 8 (e.val / 2 ^ (8 * (p - e.addr.toNat))) else b) old

theorem storedByte_none {p : Nat} {old : BitVec 8} {xs : List LaneStore} (h : ∀ e ∈ xs, ¬e.covers p) : storedByte p old xs = old := by
  induction xs generalizing old with
  | nil => rfl
  | cons e xs ih =>
    rw [storedByte, List.foldl_cons, if_neg (h e (List.mem_cons_self ..))]
    exact ih fun e' he' => h e' (List.mem_cons_of_mem _ he')

theorem storedByte_last {p : Nat} {old : BitVec 8} {xs ys : List LaneStore} {e : LaneStore} (he : e.covers p) (h : ∀ e' ∈ ys, ¬e'.covers p) :
    storedByte p old (xs ++ e :: ys) = BitVec.ofNat 8 (e.val / 2 ^ (8 * (p - e.addr.toNat))) := by
  rw [storedByte, List.foldl_append, List.foldl_cons, if_pos he]
  exact storedByte_none h

/-- One lane's store to the scratchpad writes its team's bytes and nothing else. -/
theorem Issuer.writeSram_sp {t : Team} (ht : s.team? u.t.tid u.t.team = some t) (hid : t.tid = u.t.tid ∧ t.team = u.t.team) {e : LaneStore} (he : e.whole) :
    ∃ t', u.writeSram s .sp e = s.setTeam t' ∧ (t'.tid = u.t.tid ∧ t'.team = u.t.team) ∧ t'.epoch = t.epoch ∧
      ∀ p, undefRead t'.sp t'.epoch p = storedByte p (undefRead t.sp t.epoch p) [e] := by
  have hmerge := mergeBytes_whole (leNat ((List.range e.bytes).map fun j => undefRead t.sp t.epoch (e.addr.toNat + j))) he.2
  refine ⟨{ t with sp := undefWrite t.sp e.addr.toNat (leBytes e.bytes e.val), spBad := clearBad t.spBad e.addr.toNat e.bytes }, ?_, hid, rfl, fun p => ?_⟩
  · rw [Issuer.writeSram, ht]
    dsimp only
    rw [he.1, hmerge]
  · rw [undefRead_write, leBytes_length]
    show _ = if e.covers p then _ else _
    by_cases hc : e.addr.toNat ≤ p ∧ p < e.addr.toNat + e.bytes
    · rw [if_pos hc, getD_leBytes (by omega)]
      exact (if_pos hc).symm
    · rw [if_neg hc]
      exact (if_neg hc).symm

/-- The stores of a word to the scratchpad, one after another. -/
theorem Issuer.writeSrams_sp {t : Team} (ht : s.team? u.t.tid u.t.team = some t) (hid : t.tid = u.t.tid ∧ t.team = u.t.team) {xs : List LaneStore}
    (hx : ∀ e ∈ xs, e.whole) :
    (∃ ts, xs.foldl (fun s e => u.writeSram s .sp e) s = { s with teams := ts }) ∧
      ∃ t', (xs.foldl (fun s e => u.writeSram s .sp e) s).team? u.t.tid u.t.team = some t' ∧ t'.epoch = t.epoch ∧
        ∀ p, undefRead t'.sp t'.epoch p = storedByte p (undefRead t.sp t.epoch p) xs := by
  induction xs generalizing s t with
  | nil => exact ⟨⟨s.teams, rfl⟩, t, ht, rfl, fun _ => rfl⟩
  | cons e xs ih =>
    obtain ⟨t1, hw, hid1, hepoch, hread⟩ := Issuer.writeSram_sp ht hid (hx e (List.mem_cons_self ..))
    have ht1 : (s.setTeam t1).team? u.t.tid u.t.team = some t1 := by
      have := State.team?_setTeam s (t := t1) (u := t) (by rw [hid1.1, hid1.2, ht])
      rwa [hid1.1, hid1.2] at this
    obtain ⟨⟨ts, hts⟩, t2, hteam, hepoch2, hread2⟩ := ih ht1 hid1 fun e' he' => hx e' (List.mem_cons_of_mem _ he')
    rw [List.foldl_cons, hw]
    refine ⟨⟨ts, hts.trans rfl⟩, t2, hteam, hepoch2.trans hepoch, fun p => ?_⟩
    rw [hread2, hread]
    rfl

theorem Issuer.stores_whole {x base off : Src} {bytes : Nat} {scalar : Bool} : ∀ e ∈ u.stores x base off bytes scalar, e.whole := by
  intro e he
  obtain ⟨a, -, rfl⟩ := List.mem_map.1 he
  exact ⟨rfl, Nat.mod_lt _ (Nat.two_pow_pos _)⟩

/-- A byte of a value that is cut to the bytes of a store. -/
theorem ofNat_mod_div {j b : Nat} (h : j < b) (x : Nat) : BitVec.ofNat 8 (x % 2 ^ (8 * b) / 2 ^ (8 * j)) = BitVec.ofNat 8 (x / 2 ^ (8 * j)) := by
  refine BitVec.eq_of_getLsbD_eq fun k hk => ?_
  have hin : 8 * j + k < 8 * b := by omega
  simp only [BitVec.getLsbD_ofNat, Nat.testBit_div_two_pow, Nat.testBit_mod_two_pow]
  rw [Nat.add_comm k, decide_eq_true hin, Bool.true_and]

/-- The enabled lanes, ascending. -/
theorem Issuer.lanes_sorted (u : Issuer) : (u.lanes false).Pairwise (· < ·) := List.pairwise_lt_range.filter _
theorem Issuer.mem_lanes {i : Nat} : i ∈ u.lanes false ↔ i < u.w ∧ u.g.exm.getLsbD i = true := by
  show i ∈ (List.range u.w).filter u.g.enabled ↔ _
  rw [List.mem_filter, List.mem_range]
  rfl

theorem scratchpadStoreBytes : Claims.ScratchpadStoreBytes := by
  intro x base off k s u ht bytes a on hpos t
  obtain ⟨⟨ts, hts⟩, t', hteam, hepoch, hread⟩ := Issuer.writeSrams_sp ht ⟨rfl, rfl⟩ (u.stores_whole (x := x) (base := base) (off := off) (bytes := bytes) (scalar := false))
  let st (i : Nat) : LaneStore := ⟨i, u.g.addrPart base i + u.g.addrPart off i, bytes, u.storeData x bytes i false % 2 ^ (8 * bytes), ones (8 * bytes)⟩
  have hstores : u.stores x base off bytes false = (u.lanes false).map st := by
    rw [Issuer.stores, Issuer.addrs, List.map_map]
    rfl
  have hcovers (i p : Nat) : (st i).covers p ↔ a i ≤ p ∧ p < a i + bytes := Iff.rfl
  rw [hstores] at hread
  refine ⟨by rw [show t = _ from hts], t', hteam, hepoch, fun p hp => ?_, fun i j hi hj hlast => ?_⟩
  · rw [hread, storedByte_none]
    rw [List.forall_mem_map]
    intro i hi
    have := hp i (Issuer.mem_lanes.1 hi)
    rw [hcovers]
    omega
  · obtain ⟨l1, l2, hl⟩ := List.append_of_mem (Issuer.mem_lanes.2 hi)
    have hsorted := u.lanes_sorted
    rw [hl, List.pairwise_append, List.pairwise_cons] at hsorted
    obtain ⟨-, ⟨hgt, -⟩, -⟩ := hsorted
    rw [hread, hl, List.map_append, List.map_cons, storedByte_last]
    · show BitVec.ofNat 8 (u.storeData x bytes i false % 2 ^ (8 * bytes) / 2 ^ (8 * (a i + j - a i))) = _
      rw [Nat.add_sub_cancel_left, ofNat_mod_div hj]
    · rw [hcovers]
      omega
    · rw [List.forall_mem_map]
      intro i' hi'
      have hmem : i' ∈ u.lanes false := by
        rw [hl]
        exact List.mem_append_right _ (List.mem_cons_of_mem _ hi')
      have := hlast i' (Issuer.mem_lanes.1 hmem) (hgt i' hi')
      rw [hcovers]
      omega

/-! ### Lines (R102, R104) -/

theorem testBit_lineNat (v : BitVec 2048) (i n k : Nat) : (lineNat v i n).testBit k = (decide (k < 8 * n) && v.getLsbD (8 * i + k)) := by
  rw [lineNat, Nat.testBit_mod_two_pow, Nat.testBit_div_two_pow, BitVec.testBit_toNat, Nat.add_comm k]

theorem getLsbD_linePlace (i x k : Nat) : (linePlace i x).getLsbD k = (decide (k < 2048) && (decide (8 * i ≤ k) && x.testBit (k - 8 * i))) := by
  rw [linePlace, BitVec.getLsbD_ofNat, Nat.testBit_mul_two_pow]

theorem getLsbD_lineMerge (old new mask : BitVec 2048) {k : Nat} (hk : k < 2048) :
    (lineMerge old new mask).getLsbD k = if mask.getLsbD k then new.getLsbD k else old.getLsbD k := by
  simp only [lineMerge, BitVec.getLsbD_or, BitVec.getLsbD_and, BitVec.getLsbD_not, decide_eq_true hk]
  cases mask.getLsbD k <;> simp

/-- The bits of a line that a store of whole bytes writes. -/
theorem getLsbD_storeMask {o b k : Nat} (hk : k < 2048) : (linePlace o (2 ^ (8 * b) - 1)).getLsbD k = decide (8 * o ≤ k ∧ k < 8 * o + 8 * b) := by
  rw [getLsbD_linePlace, decide_eq_true hk, Bool.true_and, Nat.testBit_two_pow_sub_one, ← Bool.decide_and]
  exact decide_eq_decide.2 (by omega)

/-- A byte that a store leaves out keeps its value. -/
theorem lineNat_merge_outside {old : BitVec 2048} {o b p v : Nat} (hp : p < 256) (h : p < o ∨ o + b ≤ p) :
    lineNat (lineMerge old (linePlace o v) (linePlace o (2 ^ (8 * b) - 1))) p 1 = lineNat old p 1 := by
  refine Nat.eq_of_testBit_eq fun k => ?_
  rw [testBit_lineNat, testBit_lineNat]
  by_cases hk : k < 8 * 1
  · have hbit : 8 * p + k < 2048 := by omega
    have hout : ¬(8 * o ≤ 8 * p + k ∧ 8 * p + k < 8 * o + 8 * b) := by omega
    rw [getLsbD_lineMerge _ _ _ hbit, getLsbD_storeMask hbit, decide_eq_false hout]
    rfl
  · rw [decide_eq_false hk, Bool.false_and, Bool.false_and]

/-- The bytes that a store writes hold its value. -/
theorem lineNat_merge_inside {old : BitVec 2048} {o b v : Nat} (ho : o + b ≤ 256) (hv : v < 2 ^ (8 * b)) :
    lineNat (lineMerge old (linePlace o v) (linePlace o (2 ^ (8 * b) - 1))) o b = v := by
  refine Nat.eq_of_testBit_eq fun k => ?_
  rw [testBit_lineNat]
  by_cases hk : k < 8 * b
  · have hbit : 8 * o + k < 2048 := by omega
    have hin : 8 * o ≤ 8 * o + k ∧ 8 * o + k < 8 * o + 8 * b := by omega
    rw [getLsbD_lineMerge _ _ _ hbit, getLsbD_storeMask hbit, decide_eq_true hin, if_pos rfl, getLsbD_linePlace, decide_eq_true hbit,
      decide_eq_true hk, decide_eq_true hin.1, Nat.add_sub_cancel_left]
    rfl
  · have hbig : v < 2 ^ k := Nat.lt_of_lt_of_le hv (Nat.pow_le_pow_right (by omega) (by omega))
    rw [decide_eq_false hk, Bool.false_and, Nat.testBit_lt_two_pow hbig]

/-! ### Global memory (R102, R110) -/

/-- A line after it is set, and every other one. -/
theorem MemState.line?_setLine (x : MemState) (l : Line) (n : Node) (a : LineId) :
    (x.setLine l).line? n a = if n = l.node ∧ a = l.a then some l else x.line? n a := by
  have hother (hne : ¬(n = l.node ∧ a = l.a)) : (l.node == n && l.a == a) = false := Bool.eq_false_iff.2 fun h => by
    obtain ⟨h1, h2⟩ := Bool.and_eq_true_iff.1 h
    exact hne ⟨(eq_of_beq h1).symm, (eq_of_beq h2).symm⟩
  unfold MemState.setLine
  split
  next hsome =>
    obtain ⟨h, hh⟩ := Option.isSome_iff_exists.1 hsome
    split
    next heq =>
      obtain ⟨rfl, rfl⟩ := heq
      exact find_map_self (by simp) (fun z => by simp) hh
    next hne => exact find_map_other (hother hne) fun z hz => by rw [hz.1, hz.2, hother hne]
  next hnone =>
    have hfind : x.line? l.node l.a = none := by simpa using hnone
    rw [MemState.line?, List.find?_append]
    split
    next heq =>
      obtain ⟨rfl, rfl⟩ := heq
      rw [show x.lines.find? _ = none from hfind]
      simp
    next hne =>
      rw [List.find?_cons, hother hne, List.find?_nil, Option.or_none]
      rfl

/-- The core's lines after its copy of one is replaced. -/
theorem Issuer.l1_setLine (s : State) (u : Issuer) {l : Line} {k : Nat} (hn : l.node = .l1 u.t.core) (ha : l.a = ⟨u.k.asid, k⟩) (line : Nat) :
    (s.mem.setLine l).line? (.l1 u.t.core) ⟨u.k.asid, line⟩ = if line = k then some l else u.l1 s line := by
  rw [MemState.line?_setLine, hn, ha]
  by_cases h : line = k
  · rw [if_pos h, if_pos ⟨rfl, by rw [h]⟩]
  · rw [if_neg h, if_neg fun he => h (by simpa using he.2)]
    rfl

theorem Line.written_node (l : Line) (now : Nat) : (l.written now).node = l.node ∧ (l.written now).a = l.a := by
  unfold Line.written
  split <;> exact ⟨rfl, rfl⟩

/-- A store to a line that is here merges its bytes into the core's copy, and leaves the core's other lines. -/
theorem Issuer.l1_writeL1 {va : Nat} {l : Line} (hl : u.l1 s (va / 256) = some l) (val mask : BitVec 2048) :
    ∃ l', l'.val = lineMerge l.val val mask ∧ ∀ line, u.l1 (u.writeL1 s va val mask) line = if line = va / 256 then some l' else u.l1 s line := by
  obtain ⟨hn, ha⟩ : l.node = .l1 u.t.core ∧ l.a = ⟨u.k.asid, va / 256⟩ := by simpa using List.find?_some hl
  unfold Issuer.writeL1
  rw [hl]
  dsimp only
  split
  · refine ⟨{ l with val := lineMerge l.val val mask }, rfl, fun line => ?_⟩
    split
    next e he =>
      obtain ⟨hen, -⟩ : e.node = .l2 u.die ∧ e.a = l.a := by simpa using List.find?_some he
      have hne (a : LineId) : ¬(Node.l1 u.t.core = e.node ∧ a = e.a) := fun h => by rw [hen] at h; exact nomatch h.1
      refine (MemState.line?_setLine _ _ _ _).trans ((if_neg (hne _)).trans ?_)
      exact Issuer.l1_setLine (l := { l with val := lineMerge l.val val mask }) s u hn ha line
    next => exact Issuer.l1_setLine (l := { l with val := lineMerge l.val val mask }) s u hn ha line
  · obtain ⟨hwn, hwa⟩ := l.written_node (s.now (.die u.die))
    exact ⟨{ l.written (s.now (.die u.die)) with val := lineMerge l.val val mask, dirty := l.dirty ||| mask }, rfl,
      fun line => Issuer.l1_setLine (l := { l.written (s.now (.die u.die)) with val := lineMerge l.val val mask, dirty := l.dirty ||| mask }) s u
        (hwn.trans hn) (hwa.trans ha) line⟩

/-- What one lane's store leaves in global memory. -/
theorem Issuer.readL1_storeL1 {e : LaneStore} (he : e.whole) (hin : vaOf e.addr % 256 + e.bytes ≤ 256) :
    (∀ v, v < vaOf e.addr ∨ vaOf e.addr + e.bytes ≤ v → u.readL1 (u.storeL1 s e) v 1 = u.readL1 s v 1) ∧
      ((u.l1 s (vaOf e.addr / 256)).isSome = true → u.readL1 (u.storeL1 s e) (vaOf e.addr) e.bytes = e.val) := by
  rcases hl : u.l1 s (vaOf e.addr / 256) with _ | l
  · have hsame : u.storeL1 s e = s := by
      rw [Issuer.storeL1, Issuer.writeL1, hl]
    exact ⟨fun v _ => by rw [hsame], nofun⟩
  · obtain ⟨l', hval, hline⟩ := Issuer.l1_writeL1 hl (linePlace (vaOf e.addr % 256) e.val) (linePlace (vaOf e.addr % 256) e.mask)
    rw [he.1] at hval hline
    have hstore : u.storeL1 s e = u.writeL1 s (vaOf e.addr) (linePlace (vaOf e.addr % 256) e.val) (linePlace (vaOf e.addr % 256) (2 ^ (8 * e.bytes) - 1)) := by
      rw [Issuer.storeL1, he.1]
    refine ⟨fun v hv => ?_, fun _ => ?_⟩
    · rw [hstore, Issuer.readL1, Issuer.readL1, hline]
      by_cases hsame : v / 256 = vaOf e.addr / 256
      · rw [if_pos hsame, hsame, hl]
        dsimp only
        rw [hval, lineNat_merge_outside (Nat.mod_lt _ (by decide)) (by omega)]
      · rw [if_neg hsame]
    · rw [hstore, Issuer.readL1, hline, if_pos rfl]
      dsimp only
      rw [hval, lineNat_merge_inside hin he.2]

/-! ### The SRAM spaces of a die (R99, R100) -/

/-- What one lane's store leaves in a cluster window. -/
theorem Issuer.writeSram_cw {e : LaneStore} (he : e.whole) (s : State) (u : Issuer) : u.writeSram s .cw e = s.mapMem fun m => { m with
    window := m.window.write (u.windowBase + e.addr.toNat) (leBytes e.bytes e.val)
    winBad := clearBad m.winBad (u.windowBase + e.addr.toNat) e.bytes } := by
  have hmerge := mergeBytes_whole (s.mem.window.nat (u.windowBase + e.addr.toNat) e.bytes) he.2
  rw [Issuer.writeSram, State.mapMem, he.1, hmerge]
  rfl

theorem storedInWindow {e : LaneStore} (he : e.whole) (hs : s.Canonical) (u : Issuer) :
    (∀ v, v < u.windowBase + e.addr.toNat ∨ u.windowBase + e.addr.toNat + e.bytes ≤ v →
      (u.writeSram s .cw e).mem.window.byte v = s.mem.window.byte v) ∧
    (u.writeSram s .cw e).mem.window.nat (u.windowBase + e.addr.toNat) e.bytes = e.val := by
  obtain ⟨-, hwin, -⟩ := MemState.canonical_iff.1 hs
  rw [Issuer.writeSram_cw he, State.mapMem_mem]
  refine ⟨fun v hv => Mem.byte_write_outside hwin (by rwa [leBytes_length]), ?_⟩
  exact (Mem.nat_putNat hwin _ _ _).trans (Nat.mod_eq_of_lt he.2)

/-- What one lane's store leaves in the die scratchpad. -/
theorem Issuer.writeSram_ds {e : LaneStore} (he : e.whole) (s : State) (u : Issuer) : u.writeSram s .ds e =
    if 0xF11000 ≤ e.addr.toNat then s else s.mapMem fun m => { m with
      dieSp := m.dieSp.write (u.die * 2 ^ 24 + e.addr.toNat) ((leBytes e.bytes e.val).mapIdx fun j y => y &&& dieSpKeep (e.addr.toNat + j))
      dspBad := clearBad m.dspBad (u.die * 2 ^ 24 + e.addr.toNat) e.bytes } := by
  have hmerge := mergeBytes_whole (s.mem.dieSp.nat (u.die * 2 ^ 24 + e.addr.toNat) e.bytes) he.2
  rw [Issuer.writeSram, State.mapMem, he.1, hmerge]
  rfl

theorem storedInDieScratchpad {e : LaneStore} (he : e.whole) (hs : s.Canonical) (u : Issuer) :
    (∀ v, v < u.die * 2 ^ 24 + e.addr.toNat ∨ u.die * 2 ^ 24 + e.addr.toNat + e.bytes ≤ v →
      (u.writeSram s .ds e).mem.dieSp.byte v = s.mem.dieSp.byte v) ∧
    (e.addr.toNat < 0xF11000 → ∀ j, j < e.bytes → (u.writeSram s .ds e).mem.dieSp.byte (u.die * 2 ^ 24 + e.addr.toNat + j) =
      BitVec.ofNat 8 (e.val / 2 ^ (8 * j)) &&& dieSpKeep (e.addr.toNat + j)) := by
  obtain ⟨-, -, hdsp, -⟩ := MemState.canonical_iff.1 hs
  rw [Issuer.writeSram_ds he]
  by_cases hres : 0xF11000 ≤ e.addr.toNat
  · rw [if_pos hres]
    exact ⟨fun _ _ => rfl, fun h => absurd hres (by omega)⟩
  · rw [if_neg hres, State.mapMem_mem]
    refine ⟨fun v hv => Mem.byte_write_outside hdsp (by rwa [List.length_mapIdx, leBytes_length]), fun _ j hj => ?_⟩
    dsimp only
    rw [Mem.byte_write hdsp, if_pos (Nat.le_add_right ..), Nat.add_sub_cancel_left, List.getD_eq_getElem?_getD, List.getElem?_mapIdx,
      ← getD_leBytes hj e.val 0, List.getD_eq_getElem?_getD, List.getElem?_eq_getElem (by rwa [leBytes_length])]
    rfl

/-- What one lane's store leaves in the memory that each lane has of its own. -/
theorem storedInPrivate (s : State) (u : Issuer) (e : LaneStore) :
    (u.writeSram s .priv e).mem = s.mem ∧ (u.writeSram s .priv e).groups = s.groups ∧
      ∀ t x, s.team? u.t.tid u.t.team = some t → (u.writeSram s .priv e).team? u.t.tid u.t.team = some x →
        x.sp = t.sp ∧ x.tiles = t.tiles ∧ ∀ v, (∀ j, j < e.bytes → v ≠ u.privOff e.lane (e.addr.toNat + j)) →
          (x.priv.find? fun c => c.1 == v) = t.priv.find? fun c => c.1 == v := by
  rcases ht : s.team? u.t.tid u.t.team with _ | t
  · rw [Issuer.writeSram, ht]
    exact ⟨rfl, rfl, nofun⟩
  · rw [Issuer.writeSram, ht]
    refine ⟨rfl, rfl, fun t' x ht' hx => ?_⟩
    cases ht'
    obtain ⟨htid, hteam⟩ : t.tid = u.t.tid ∧ t.team = u.t.team := by simpa using List.find?_some ht
    have hset := State.team?_setTeam s (u := t) (t := { t with
      priv := ((leBytes e.bytes e.val).mapIdx fun j b => (u.privOff e.lane (e.addr.toNat + j), b)).foldl (fun p c => undefPut p c.1 c.2) t.priv })
      (by rw [htid, hteam, ht])
    rw [← htid, ← hteam] at hx
    obtain rfl := Option.some.inj (hset.symm.trans hx)
    refine ⟨rfl, rfl, fun v hv => find?_undefPuts_ne fun c hc => ?_⟩
    obtain ⟨j, hj, rfl⟩ := List.mem_mapIdx.1 hc
    exact hv j (by rwa [leBytes_length] at hj)

theorem storesTouchOnlyTheirBytes : Claims.StoresTouchOnlyTheirBytes := by
  intro s u e hs hmask hval at' a cw ds outside g w d p
  have he : e.whole := ⟨hmask, hval⟩
  obtain ⟨hcwOut, hcwIn⟩ := storedInWindow he hs u
  obtain ⟨hdsOut, hdsIn⟩ := storedInDieScratchpad he hs u
  refine ⟨Issuer.readL1_storeL1 he, ⟨hcwOut, hcwIn, ?window⟩, ⟨hdsOut, hdsIn, ?reserved, ?scratchpad⟩, storedInPrivate s u e⟩
  case window =>
    have hw : w = _ := Issuer.writeSram_cw he s u
    rw [hw]
    exact ⟨rfl, rfl, rfl, rfl, rfl⟩
  case reserved =>
    intro hres
    exact (Issuer.writeSram_ds he s u).trans (if_pos hres)
  case scratchpad =>
    have hd : d = _ := Issuer.writeSram_ds he s u
    rw [hd]
    split <;> exact ⟨rfl, rfl, rfl, rfl⟩

/-- Settles O25: the scratchpad by the stores of a word in turn, the other spaces by one store. -/
theorem storedBytes : Obligations.StoredBytes := ⟨scratchpadStoreBytes, storesTouchOnlyTheirBytes⟩

end

end Sys2Proof.Machine


/-! Atomics and reductions (O27). -/

namespace Sys2Proof.Machine

section
variable {s : State} {u : Issuer} {acc : Acc} {op : AtomOp} {xs : List LaneAtom} {m : MemMods} {commit : List (Nat × Nat) → Group}

/-! ### Below the home (R145, R311) -/

/-- A gate that lets a word through found every lane aligned. -/
theorem Issuer.deliver_of_gate {addrs : List LaneAddr} {bytes : Nat} {excl : Bool} (h : u.gate s addrs bytes acc excl = none) :
    u.deliver s acc (alignCodes addrs bytes) = none := by
  unfold Issuer.gate at h
  split at h
  · cases h
  · assumption

/-- How an atomic or a reduction ends, from the values its lanes read. -/
def Issuer.atomEnd (u : Issuer) (s : State) (acc : Acc) (m : MemMods) (g : Group) : WordOut :=
  if m.order.val = 1 ∧ acc = .atomic then u.acquire s g m.scope.val else .done g s

/-- What must stand for an operation to be performed below the home: its lines are held exclusively and registered up to its scope, and no home
works on one of them. -/
structure Issuer.NearReady (u : Issuer) (s : State) (acc : Acc) (op : AtomOp) (xs : List LaneAtom) (m : MemMods) : Prop where
  scope : ¬(4 ≤ m.scope.val ∨ acc = .red ∧ 3 ≤ m.scope.val)
  coherent : m.scope.val = 3 → (xs.all fun e => !u.deckled s e.addr) = true
  homing : u.g.stall.homing = false
  gate : u.gate s (xs.map fun e => (e.lane, e.addr)) op.bytes acc true = none
  release : m.order.val = 1 → u.release s m.scope.val = none
  registered : u.registerUp s ((xs.filter fun e => !u.deckled s e.addr).map fun e => vaOf e.addr) m.scope.val = none
  quiet : 1 ≤ m.scope.val → ((xs.filter fun e => !u.deckled s e.addr).any fun e => u.homeWorks s ⟨u.k.asid, vaOf e.addr / 256⟩) = false

theorem Issuer.atomStep_near (h : u.NearReady s acc op xs m) (commit : List (Nat × Nat) → Group) : u.atomStep s acc op xs m commit =
    u.atomEnd (u.atomNear s op m.scope.val xs).2 acc m (commit (u.atomNear s op m.scope.val xs).1) := by
  have hhoming : ¬u.g.stall.homing = true := by simp [h.homing]
  have hquiet : ¬(1 ≤ m.scope.val ∧ ((xs.filter fun e => !u.deckled s e.addr).any fun e => u.homeWorks s ⟨u.k.asid, vaOf e.addr / 256⟩) = true) :=
    fun hw => by simp [h.quiet hw.1] at hw
  have hwhole : m.scope.val < 3 ∨ (xs.filter fun e => !u.deckled s e.addr).length = xs.length := by
    by_cases h3 : m.scope.val = 3
    · exact .inr (congrArg List.length (List.filter_eq_self.2 (List.all_eq_true.1 (h.coherent h3))))
    · have := h.scope
      omega
  rw [Issuer.atomStep]
  dsimp only
  rw [Issuer.deliver_of_gate h.gate]
  dsimp only
  rw [if_neg h.scope, if_neg hhoming, h.gate]
  dsimp only
  rw [h.registered]
  dsimp only
  rw [if_neg hquiet, if_pos hwhole]
  by_cases ho : m.order.val = 1
  · rw [if_pos ho, h.release ho]
    rfl
  · rw [if_neg ho]
    rfl

/-! ### At the home (R145, R311) -/

/-- An operation whose home has answered, or that has no lane, commits. -/
theorem Issuer.atomStep_far {vals : List Nat} (hscope : 4 ≤ m.scope.val ∨ acc = .red ∧ 3 ≤ m.scope.val)
    (haligned : (xs.all fun e => decide (e.addr % (op.bytes : Int) = 0) && inGlobal e.addr) = true)
    (hrel : m.order.val = 1 → u.release s m.scope.val = none) (hres : xs = [] ∨ u.g.stall.result = some vals)
    (commit : List (Nat × Nat) → Group) : u.atomStep s acc op xs m commit = u.atomEnd s acc m (commit ((xs.map fun e => e.lane).zip vals)) := by
  have halign : alignCodes (xs.map fun e => (e.lane, e.addr)) op.bytes = [] := alignCodes_eq_nil.2 <| List.forall_mem_map.2 fun e he => by
    have := List.all_eq_true.1 haligned e he
    rw [Bool.and_eq_true, decide_eq_true_eq] at this
    exact this.1
  have hinside : ((xs.map fun e => (e.lane, e.addr)).any fun a => !inGlobal a.2) = false := List.any_eq_false.2 <| List.forall_mem_map.2 fun e he => by
    have := List.all_eq_true.1 haligned e he
    rw [Bool.and_eq_true] at this
    simp [this.2]
  have hfirst : u.homeFirst s (xs.map fun e => (e.lane, e.addr)) = none := by
    rw [Issuer.homeFirst]
    split
    · rfl
    next hno =>
      rcases hres with rfl | hsome
      · rfl
      · exact absurd (.inr (.inl (by rw [hsome]; rfl))) hno
  have hhome : u.atHome s acc (xs.map fun e => (e.lane, e.addr)) (xs.map (atomOp op)) = .inr ((xs.map fun e => e.lane).zip vals) := by
    have hlanes : (xs.map (atomOp op)).map (fun o => o.lane) = xs.map fun e => e.lane := List.map_map ..
    cases xs with
    | nil => rfl
    | cons e es =>
      have hsome : u.g.stall.result = some vals := hres.resolve_left (List.cons_ne_nil e es)
      rw [List.map_cons] at hinside
      rw [List.map_cons, Issuer.atHome]
      dsimp only
      rw [hsome, hinside, hlanes]
      rfl
  rw [Issuer.atomStep]
  dsimp only
  rw [halign, Issuer.deliver_nil]
  dsimp only
  rw [if_pos hscope, hfirst]
  dsimp only
  rw [hhome]
  by_cases ho : m.order.val = 1
  · rw [if_pos ho, hrel ho]
    rfl
  · rw [if_neg ho]
    rfl

theorem Issuer.settle_atomEnd (s t : State) (u : Issuer) (n : Nat) (m : MemMods) (g : Group) :
    s.settle u n (u.atomEnd t .atomic m g) = acquireEnd t u m n g := by
  rw [Issuer.atomEnd, ← Issuer.settle_ordered s]
  simp only [and_true]
theorem Issuer.settle_redEnd (s t : State) (u : Issuer) (n : Nat) (m : MemMods) (g : Group) :
    s.settle u n (u.atomEnd t .red m g) = t.setGroup (u.g.advance n g) :=
  congrArg (s.settle u n) (if_neg fun h => nomatch h.2)

theorem atomicsComplete : Claims.AtomicsComplete := by
  unfold Claims.AtomicsComplete
  intro atoms scalars d base off m s u hrel n near far
  have hends {i : Instr} {op : AtomOp} {sc : Bool} (hi : exec i s = .next (s.settle u n
      (u.atomStep s .atomic op (u.atoms op d base off sc) m (u.atomed op d sc)))) : near i op sc ∧ far i op sc := by
    refine ⟨?_, ?_⟩
    · intro hscope hdk hhoming hgate hup hquiet r
      have hnear : u.NearReady s .atomic op (u.atoms op d base off sc) m := ⟨fun h => h.elim (by omega) nofun, hdk, hhoming, hgate, hrel, hup, hquiet⟩
      rw [hi, Issuer.atomStep_near hnear, Issuer.settle_atomEnd]
    · intro vals hscope hall hres
      rw [hi, Issuer.atomStep_far (.inl hscope) hall hrel hres, Issuer.settle_atomEnd]
  clear_value near far
  refine ⟨fun r hr hwf h => ?_, fun r hr hwf h => ?_⟩
  · have hword : ∃ ok, exec (r.1 d base off m) s = vatom ok r.2 d base off m s ∧ ((r.1 d base off m).wf = true → ok = true) := by
      clear hwf h
      revert r
      simp only [atoms, List.forall_mem_cons]
      exact ⟨⟨_, rfl, id⟩, ⟨_, rfl, id⟩, ⟨_, rfl, id⟩, ⟨_, rfl, id⟩, ⟨_, rfl, id⟩, ⟨_, rfl, id⟩, ⟨_, rfl, id⟩, ⟨_, rfl, id⟩, ⟨_, rfl, id⟩, ⟨_, rfl, id⟩,
        ⟨_, rfl, id⟩, ⟨_, rfl, id⟩, ⟨_, rfl, id⟩, List.forall_mem_nil _⟩
    obtain ⟨ok, hi, hok⟩ := hword
    refine hends ?_
    rw [hi, hok hwf, vatom, runWord_ready h]
    rfl
  · have hword : ∃ ok, exec (r.1 d base off m) s = satom ok r.2 d base off m s ∧ ((r.1 d base off m).wf = true → ok = true) := by
      clear hwf h
      revert r
      simp only [scalars, List.forall_mem_cons]
      exact ⟨⟨_, rfl, id⟩, ⟨_, rfl, id⟩, List.forall_mem_nil _⟩
    obtain ⟨ok, hi, hok⟩ := hword
    refine hends ?_
    rw [hi, hok hwf, satom, runWordTo_ready h]
    rfl

/-! ### The core scratchpad (R309 to R311) -/

theorem scratchpadAtomicsComplete : Claims.ScratchpadAtomicsComplete := by
  unfold Claims.ScratchpadAtomicsComplete
  intro rows r hr d base off m s u hwf h hrel op xs hcodes out
  have hword : ∃ ok, exec (r.1 d base off m) s = vatoms ok r.2 d base off m s ∧ ((r.1 d base off m).wf = true → ok = true) := by
    clear hwf h hcodes xs op out
    revert r
    simp only [rows, List.forall_mem_cons]
    exact ⟨⟨_, rfl, id⟩, ⟨_, rfl, id⟩, ⟨_, rfl, id⟩, ⟨_, rfl, id⟩, ⟨_, rfl, id⟩, ⟨_, rfl, id⟩, ⟨_, rfl, id⟩, ⟨_, rfl, id⟩, ⟨_, rfl, id⟩, ⟨_, rfl, id⟩,
      ⟨_, rfl, id⟩, ⟨_, rfl, id⟩, ⟨_, rfl, id⟩, List.forall_mem_nil _⟩
  obtain ⟨ok, hi, hok⟩ := hword
  rw [hi, hok hwf, vatoms, runWord_ready h, Issuer.atomsStep]
  dsimp only
  rw [hcodes, Issuer.deliver_nil]
  dsimp only
  rw [← Issuer.settle_ordered s]
  by_cases ho : m.order.val = 1
  · rw [if_pos ho, hrel ho]
    rfl
  · rw [if_neg ho]
    rfl

/-! ### Reductions (R312) -/

theorem reductionsToMemoryComplete : Claims.ReductionsToMemoryComplete := by
  unfold Claims.ReductionsToMemoryComplete
  intro rows r hr x base off m s u hwf h hrel op xs n held
  have hword : exec (r.1 x base off m) s = vred r.2 x base off m s ∧ ((r.1 x base off m).wf = true → okRedm x base off m = true) ∧ r.2.bytes = 4 := by
    clear hwf h held n xs op
    revert r
    simp only [rows, List.forall_mem_cons]
    exact ⟨⟨rfl, id, rfl⟩, ⟨rfl, id, rfl⟩, ⟨rfl, id, rfl⟩, ⟨rfl, id, rfl⟩, ⟨rfl, id, rfl⟩, ⟨rfl, id, rfl⟩, ⟨rfl, id, rfl⟩, List.forall_mem_nil _⟩
  obtain ⟨hi, hok, hbytes⟩ := hword
  have hstep : exec (r.1 x base off m) s = .next (s.settle u n (u.atomStep s .red op xs m fun _ => u.g)) := by
    rw [hi, vred, hok hwf, runWord_ready h]
    rfl
  refine ⟨fun hscope hhoming hgate hup hquiet => ?_, fun vals hscope hall hres => ?_⟩
  · have hnear : u.NearReady s .red op xs m :=
      ⟨by omega, fun h3 => absurd h3 (by omega), hhoming, by rw [hbytes]; exact hgate, hrel, hup, hquiet⟩
    rw [hstep, Issuer.atomStep_near hnear, Issuer.settle_redEnd]
  · have hall' : (xs.all fun e => decide (e.addr % (op.bytes : Int) = 0) && inGlobal e.addr) = true := by
      rw [hbytes]
      exact hall
    rw [hstep, Issuer.atomStep_far (.inr ⟨rfl, hscope⟩) hall' hrel hres, Issuer.settle_redEnd]
    rfl

/-- Settles O27. -/
theorem atomicWords : Obligations.AtomicWords := ⟨atomicsComplete, scratchpadAtomicsComplete, reductionsToMemoryComplete⟩

end

end Sys2Proof.Machine

/-! PROOFS. Cache maintenance (O28): a prefetch of .pk that walks page tables may end the wait of another group. -/

namespace Sys2Proof.Machine

/-- A group of the same team that waits at a wfa on the line at 0. -/
def watcher : Group := { Group.fresh ⟨0, 0, 1⟩ plainLaunch with wait := some (.wfa ⟨0, 0⟩ 0 1) }

/-- The group that prefetches, with one lane enabled. -/
def prefetcher : Issuer := { firstIssuer with g := { firstIssuer.g with exm := 1 }, t := { firstIssuer.t with started := true } }

/-- The home of the line at 0 serves a request for it. -/
def homeBusy : Txn := ⟨.home 0, ⟨0, 0⟩, [], false, false, 0, 0, 0, 0, some ⟨true, false, false, false, 0, 0, 0⟩,
  ⟨.req, .die 0, .tower 0, .tower 0, 0, 0, 0, .getS ⟨0, 0⟩ (.slice 0) ⟨.slice 0, .read, false, 0, none⟩⟩⟩

/-- Tower memory holds one page-table entry, at 0, whose A bit is clear: it is the root's, and that of every level of the walk of VA 0. The
core of both groups has a copy of its line, which `watcher` watches while the line's home is busy. -/
def watchedTable : State :=
  { State.reset with
    groups := [prefetcher.g, watcher], teams := [prefetcher.t], focus := some (.group ⟨0, 0, 0⟩), residue := .clean
    sched := { State.reset.sched with tasks := [prefetcher.k] }
    mem := { MemState.reset with
      dieSp := [(0xF00003, 0x80), (0xF00004, 0xFF), (0xF00005, 0xFF), (0xF00006, 0xFF), (0xF00007, 0x7F)]
      dram := [(0, 1)]
      lines := [⟨.l1 ⟨0, 0, 0⟩, ⟨0, 0⟩, .s, [], 1, 0, ⟨true, false, false, false, 0, 0, 0⟩, 0⟩]
      txns := [homeBusy] } }

/-- What the second group of a machine waits for after an operation. -/
def secondWait (o : Out) : Option Wait :=
  match o with
  | .next t => (t.groups[1]?).bind fun g => g.wait
  | _ => none

theorem pref_ends_wfa : secondWait (exec (.pref (.s 0) (.s 1) 4 false) watchedTable) = some (.wfa ⟨0, 0⟩ 0 0) := by decide +kernel

theorem watchedTable_ready : watchedTable.Ready prefetcher (max ((Src.s 0).vtop 1) ((Src.s 1).vtop 1)) .push := by
  refine ⟨?_, ?_, ?_, ?_⟩ <;> decide +kernel

/-- Refutes O28: its first claim says that a prefetch leaves every group but its own as it is. One of .pk walks the page tables, the walk sets
A in the entry (R123), and while the entry's home is busy this write stands at once in every copy, which ends the wait of a group that
watches one (R343). -/
theorem not_cacheMaintenanceCompletes : ¬ Obligations.CacheMaintenanceCompletes := by
  intro h
  obtain ⟨hpref, -⟩ := h (.s 0) (.s 1) 4 false watchedTable prefetcher watchedTable_ready
  obtain ⟨t, hexec, hgroups, -⟩ := hpref (by decide)
  have hwait := pref_ends_wfa
  rw [hexec, secondWait, State.setGroup_groups, hgroups] at hwait
  exact absurd hwait (by decide +kernel)

end Sys2Proof.Machine

/-! PROOFS. Part reset, boot, freezes and the services of the part (O39, O40). -/

namespace Sys2Proof.Machine

/-! ### Part reset and boot (R19, R20) -/

theorem partResetRestarts : Claims.PartResetRestarts := by
  intro s
  refine ⟨s.partReset, rfl, rfl, rfl, rfl, rfl, rfl, rfl, rfl, rfl, rfl, rfl, rfl, rfl, rfl, rfl, rfl, rfl, rfl, rfl, rfl, fun h => ?_, fun h => ?_⟩
  all_goals
    have hexec : exec .frzctlReset s = execFrzctlReset s := rfl
    rw [hexec, execFrzctlReset, h]
    rfl

theorem State.foldl_boot {α : Type} {f : State → α → State} (hf : ∀ (t : State) (x : α), (f t x).boot = t.boot) (xs : List α) (s : State) :
    (xs.foldl f s).boot = s.boot := by
  induction xs generalizing s with
  | nil => rfl
  | cons x xs ih => exact (ih _).trans (hf s x)

theorem State.notifyReset_boot (s : State) (x : Site) : (s.notifyReset x).boot = s.boot := by
  unfold State.notifyReset
  generalize allSites = sites
  exact State.foldl_boot (fun t y => State.send_boot t _ _ _ _) sites (s.advanceWm x)

theorem State.phaseDone_six (s : State) (r : BootReport) : s.phaseDone 6 r = allSites.foldl State.notifyReset (s.mapMem fun x =>
    { MemState.reset with dram := x.dram, host := x.host, pool := x.pool, nextTag := x.nextTag, marks := x.marks }) := rfl

theorem State.phaseDone_seven_boot (s : State) (r : BootReport) : (s.phaseDone 7 r).boot = s.boot := by
  simp only [State.phaseDone]
  exact State.foldl_boot (f := fun t f => t.logTower 0x09 (portTower (f / 4)) noTask f 0 0) (fun _ _ => rfl) _ _

/-- Before the eighth, a phase that has passed leaves the part as far as it was: neither ready nor stopped. -/
theorem State.phaseDone_boot {s : State} {p : Nat} (r : BootReport) (hp : p < 8) :
    (s.phaseDone p r).boot.ready = s.boot.ready ∧ (s.phaseDone p r).boot.fail = s.boot.fail := by
  have h6 : (s.phaseDone 6 r).boot = s.boot := by
    rw [State.phaseDone_six]
    exact State.foldl_boot State.notifyReset_boot _ _
  have h7 := s.phaseDone_seven_boot r
  match p, hp with
  | 0, _ => exact ⟨rfl, rfl⟩
  | 1, _ => exact ⟨rfl, rfl⟩
  | 2, _ => exact ⟨rfl, rfl⟩
  | 3, _ => exact ⟨rfl, rfl⟩
  | 4, _ => exact ⟨rfl, rfl⟩
  | 5, _ => exact ⟨rfl, rfl⟩
  | 6, _ => exact ⟨congrArg BootState.ready h6, congrArg BootState.fail h6⟩
  | 7, _ => exact ⟨congrArg BootState.ready h7, congrArg BootState.fail h7⟩

theorem State.sheetRuns_of_stopped {s : State} {i : Fin 4} (h : s.boot.stopped[i] = false) : s.sheetRuns i.val = true := by
  have hget : s.boot.stopped.getD i.val false = s.boot.stopped[i] := by simp [Vector.getD]
  rw [State.sheetRuns, hget, h]
  rfl

section
variable {r : BootReport} {s : State} (hready : s.boot.ready = false) (hfail : s.boot.fail = false) (hrun : s.frozen = false)
include hready hfail hrun

theorem bootPhase_open : exec (.bootPhase r) s =
    if s.boot.phase = 0 then .next { s with boot := { s.boot with phase := 1, timer := 0 } }
    else if phaseLimit s.boot.phase < s.boot.timer then .next (s.bootFail 3)
    else match s.phaseEnd r with
    | .failed c => .next (s.bootFail c)
    | .goesOn => .next (if s.boot.phase = 2 then { s with boot := { s.boot with sheetsUp := r.sheets % 16 } } else s)
    | .passed => .next (if 8 ≤ s.boot.phase then s.phaseDone s.boot.phase r
        else { s.phaseDone s.boot.phase r with boot := { (s.phaseDone s.boot.phase r).boot with phase := s.boot.phase + 1, timer := 0 } }) := by
  have hexec : exec (.bootPhase r) s = execBootPhase r s := rfl
  rw [hexec, execBootPhase]
  dsimp only
  rw [hready, hfail, hrun]
  rfl

theorem bootPhaseLimitExpiry_over (hp : s.boot.phase ≠ 0) (hlimit : phaseLimit s.boot.phase < s.boot.timer) :
    exec .bootPhaseLimitExpiry s = .next (s.bootFail 3) := by
  have hexec : exec .bootPhaseLimitExpiry s = execBootPhaseLimitExpiry s := rfl
  rw [hexec, execBootPhaseLimitExpiry, hready, hfail, hrun, beq_eq_false_iff_ne.2 hp, decide_eq_false (Nat.not_le.2 hlimit)]
  rfl

end

theorem State.phaseDone_two (s : State) (r : BootReport) : s.phaseDone 2 r =
    { s with boot := { s.boot with started := true, sheetsUp := 15, time := Vector.ofFn fun i => r.offsets.getD i.val 0 } } := rfl

theorem State.phaseDone_eight (s : State) (r : BootReport) : ∃ f : MemState → MemState,
    s.phaseDone 8 r = { s.mapMem f with boot := { (s.mapMem f).boot with ready := true } } := ⟨_, rfl⟩

/-- What the firmware of the four farriers lets phase 1 come to (R208). -/
theorem State.phaseEnd_firmware {s : State} {r : BootReport} (hp : s.boot.phase = 1) (hlen : r.firmware.length = 4) :
    ((∃ f ∈ r.firmware, f.1 = false) → s.phaseEnd r = .failed 1) ∧
      ((∀ f ∈ r.firmware, f.1 = true) → ((∃ f ∈ r.firmware, f.2.1 < s.boot.minVersion) → s.phaseEnd r = .failed 2) ∧
        ((∀ f ∈ r.firmware, s.boot.minVersion ≤ f.2.1) → s.phaseEnd r = .passed)) := by
  have hend : s.phaseEnd r = if r.firmware.length ≠ 4 then .goesOn
      else if (r.firmware.all fun f => f.1) = false then .failed 1
      else if (r.firmware.all fun f => decide (s.boot.minVersion ≤ f.2.1)) = false then .failed 2
      else .passed := by
    rw [State.phaseEnd, hp]
    rfl
  rw [hend, if_neg (Classical.not_not.2 hlen)]
  refine ⟨fun ⟨f, hf, hbad⟩ => if_pos (List.all_eq_false.2 ⟨f, hf, by simp [hbad]⟩), fun hgood => ?_⟩
  rw [if_neg (by simpa using hgood)]
  refine ⟨fun ⟨f, hf, hold⟩ => if_pos (List.all_eq_false.2 ⟨f, hf, by simpa using hold⟩), fun hnew => if_neg ?_⟩
  simpa using hnew

theorem bootPhasesAdvance : Claims.BootPhasesAdvance := by
  intro r s hready hfail hrun p stop
  have hopen := bootPhase_open (r := r) hready hfail hrun
  refine ⟨fun hp => ?_, fun hp hlimit => ⟨bootPhaseLimitExpiry_over hready hfail hrun hp hlimit, ?_⟩, fun hp hlimit => ⟨fun c hend => ?_, fun hend => ?_,
    fun hend hlt => ?_, fun hend h8 => ?_⟩, fun hp hlen => State.phaseEnd_firmware hp hlen, fun hp => ?_, fun hp => ?_, fun hp => ?_⟩
  · rw [hopen, if_pos hp]
  · rw [hopen, if_neg hp, if_pos hlimit]
    rfl
  · rw [hopen, if_neg hp, if_neg (Nat.not_lt.2 hlimit), hend]
    rfl
  · rw [hopen, if_neg hp, if_neg (Nat.not_lt.2 hlimit), hend]
  · obtain ⟨hdone, hstop⟩ := State.phaseDone_boot (s := s) r hlt
    rw [hopen, if_neg hp, if_neg (Nat.not_lt.2 hlimit), hend]
    dsimp only
    rw [if_neg (Nat.not_le.2 hlt)]
    refine ⟨_, rfl, rfl, rfl, hstop.trans hfail, hdone.trans hready, fun h2 => ?_⟩
    have hphase : s.phaseDone s.boot.phase r = s.phaseDone 2 r := congrArg (s.phaseDone · r) h2
    rw [hphase, State.phaseDone_two]
    refine ⟨rfl, rfl, fun i => ?_⟩
    exact Vector.getElem_ofFn i.isLt
  · have hphase : s.phaseDone s.boot.phase r = s.phaseDone 8 r := congrArg (s.phaseDone · r) h8
    rw [hopen, if_neg hp, if_neg (Nat.not_lt.2 hlimit), hend]
    dsimp only
    obtain ⟨f, height⟩ := s.phaseDone_eight r
    rw [if_pos (Nat.le_of_eq h8.symm), hphase, height]
    exact ⟨_, rfl, rfl, hfail⟩
  all_goals
    rw [State.phaseEnd, show s.boot.phase = _ from hp]
    rfl

/-- Settles O39: what a part reset keeps, and each end of a boot phase. -/
theorem resetAndBoot : Obligations.ResetAndBoot := ⟨partResetRestarts, bootPhasesAdvance⟩

/-! ### Freeze and thaw (R22, R23, R205) -/

theorem freezeAndThaw : Claims.FreezeAndThaw := by
  intro q s asked
  have hask : exec .freezeRequest s = execFreezeRequest s := rfl
  have hdebug : exec .debugFreezeRequest s = execDebugFreezeRequest s := rfl
  have hthaw : exec .thaw s = execThaw s := rfl
  have hsheet : exec (.sheetFreeze q) s = execSheetFreeze q s := rfl
  refine ⟨fun h => ?_, fun h => ?_, fun hfreezing hstopped => ?_⟩
  · rw [hask, hdebug, hthaw, execFreezeRequest, execDebugFreezeRequest, execThaw, h]
    exact ⟨rfl, rfl, rfl⟩
  · rw [hask, hdebug, hthaw, execFreezeRequest, execDebugFreezeRequest, execThaw, h]
    exact ⟨rfl, rfl, rfl⟩
  · have hruns := State.sheetRuns_of_stopped hstopped
    have hgo : ¬(s.boot.freezing = false ∨ s.sheetRuns q.val = false) := by simp [hfreezing, hruns]
    rw [hsheet, execSheetFreeze, if_neg hgo]
    refine ⟨_, rfl, ?_⟩
    dsimp only
    split
    · rename_i hall
      refine ⟨rfl, rfl, ?_, rfl⟩
      exact (congrArg Bool.not hall).symm
    · rename_i hall
      refine ⟨rfl, rfl, ?_, rfl⟩
      rw [Bool.not_eq_true] at hall
      rw [hall]
      exact hfreezing

/-! ### Services (R17, R206 to R209, R351) -/

/-- Without a grant a debug agent reads nothing but the error log and the window (R206). -/
theorem State.readout_ungranted {s : State} {what : ReadTarget} (h : s.boot.granted = false) (hlog : ∀ k, what ≠ .errorLog k)
    (hreg : ∀ a k, what ≠ .register a k) : s.readout what = none := by
  cases what with
  | errorLog k => exact absurd rfl (hlog k)
  | register a k => exact absurd rfl (hreg a k)
  | _ => exact if_neg (by rw [h]; exact Bool.false_ne_true)

theorem partServices : Claims.PartServices := by
  intro q n what m v s
  have hstretch : exec (.clockStretchChange q n) s = execClockStretchChange q n s := rfl
  have hlost : exec (.farrierLost q) s = execFarrierLost q s := rfl
  have hgo : exec (.attestationGo v) s = execAttestationGo v s := rfl
  have hdone : exec .attestationDone s = execAttestationDone s := rfl
  have hread : exec (.readout1687 what) s = execReadout1687 what s := rfl
  refine ⟨fun hn hstopped => ?_, rfl, rfl, ?_, State.readout_ungranted, fun h => ?_, fun h h' => ?_, fun h h' => ?_, fun h => ?_, fun h hstopped => ?_⟩
  · rw [hstretch, execClockStretchChange, if_neg (by simp [State.sheetRuns_of_stopped hstopped, Nat.not_lt.2 hn])]
  · rw [hread, execReadout1687]
    cases s.readout what <;> rfl
  · rw [hlost, execFarrierLost, if_pos h]
    rfl
  · rw [hlost, execFarrierLost, h, h']
    rfl
  · rw [hgo, execAttestationGo, if_neg (by simp [h, h'])]
  · rw [hgo, execAttestationGo, if_pos h]
  · rw [hdone, execAttestationDone, if_neg (by simpa [h] using State.sheetRuns_of_stopped hstopped)]

/-- Settles O40: each freeze and each service, by its definition. -/
theorem freezeAndServices : Obligations.FreezeAndServices := ⟨freezeAndThaw, partServices⟩

end Sys2Proof.Machine

/-! PROOFS. Queue registers and tail writes (O45). -/

namespace Sys2Proof.Machine

/-! ### Bits of registers -/

theorem bit_eq_testBit (x i : Nat) : bit x i = x.testBit i := by
  rw [bit, Nat.testBit_eq_decide_div_mod_eq, Bool.beq_eq_decide_eq]

theorem bit_or (x y i : Nat) : bit (x ||| y) i = (bit x i || bit y i) := by simp only [bit_eq_testBit, Nat.testBit_or]
theorem bit_and (x y i : Nat) : bit (x &&& y) i = (bit x i && bit y i) := by simp only [bit_eq_testBit, Nat.testBit_and]

/-- Clearing the bits of a mask. -/
theorem bit_sub_and (x y i : Nat) : bit (x - (x &&& y)) i = (bit x i && !bit y i) := by
  simp only [bit_eq_testBit]
  induction i generalizing x y with
  | zero =>
    have hle : x &&& y ≤ x := Nat.and_le_left
    have hmod : (x &&& y) % 2 = x % 2 &&& y % 2 := Nat.and_mod_two_pow (n := 1)
    have hx := Nat.mod_two_eq_zero_or_one x
    have hy := Nat.mod_two_eq_zero_or_one y
    have hsub : (x - (x &&& y)) % 2 = (x % 2 + (x &&& y) % 2) % 2 := by omega
    simp only [Nat.testBit_zero, hsub, hmod]
    rcases hx with hx | hx <;> rcases hy with hy | hy <;> simp [hx, hy]
  | succ i ih =>
    have hdiv : (x - (x &&& y)) / 2 = x / 2 - (x / 2 &&& y / 2) := by
      have hle : x &&& y ≤ x := Nat.and_le_left
      have hand : (x &&& y) / 2 = x / 2 &&& y / 2 := Nat.and_div_two
      have hmod : (x &&& y) % 2 = x % 2 &&& y % 2 := Nat.and_mod_two_pow (n := 1)
      have hmodle : (x &&& y) % 2 ≤ x % 2 := hmod ▸ Nat.and_le_left
      omega
    simp only [Nat.testBit_succ, hdiv]
    exact ih _ _

/-- The top bit of a 32-bit field taken out. -/
theorem setBits_31 (x : Nat) : setBits x 31 31 0 = x - x / 2 ^ 31 % 2 * 2 ^ 31 := by
  rw [setBits, bits, Nat.zero_mod, Nat.zero_mul, Nat.add_zero, show 31 + 1 - 31 = 1 from rfl, Nat.pow_one]

theorem bit_setBits_31_low (x : Nat) {i : Nat} (h : i < 31) : bit (setBits x 31 31 0) i = bit x i := by
  rw [setBits_31, bit, bit]
  have hsplit : 2 ^ 31 = 2 ^ i * 2 ^ (30 - i) * 2 := by rw [← Nat.pow_add, ← Nat.pow_succ]; congr 1; omega
  generalize hb : x / 2 ^ 31 % 2 = b
  have hle : b * 2 ^ 31 ≤ x := by
    subst hb
    omega
  have hsub : x = (x - b * 2 ^ 31) + 2 ^ i * (2 * (2 ^ (30 - i) * b)) := by
    have : b * 2 ^ 31 = 2 ^ i * (2 * (2 ^ (30 - i) * b)) := by
      rw [hsplit, Nat.mul_comm b, Nat.mul_assoc, Nat.mul_assoc, Nat.mul_left_comm 2]
    omega
  conv => rhs; rw [hsub, Nat.add_mul_div_left _ _ (Nat.two_pow_pos i)]
  congr 1
  omega

theorem bit_setBits_31 (x : Nat) : bit (setBits x 31 31 0) 31 = false := by
  rw [setBits_31, bit, beq_eq_false_iff_ne]
  omega

/-! ### Queues (R54) -/

section
variable {s : State} {q : Nat} {v : BitVec 32} (hrise : (s.mgmt.map fun e => e.1).Pairwise (· < ·))
include hrise

theorem State.reg_setReg_same (a x : Nat) : (s.setReg a x).reg a = x := by rw [State.reg_setReg hrise, if_pos rfl]
theorem State.reg_setReg_other {a b : Nat} (x : Nat) (h : b ≠ a) : (s.setReg a x).reg b = s.reg b := by rw [State.reg_setReg hrise, if_neg h]
omit hrise in
theorem State.setReg_rising (hrise : (s.mgmt.map fun e => e.1).Pairwise (· < ·)) (a x : Nat) :
    ((s.setReg a x).mgmt.map fun e => e.1).Pairwise (· < ·) := regInsert_rising hrise a x

theorem State.enableQueue_bad (x : Nat) (hbad : qcfgBad x = true) : let t := s.enableQueue q x
    t.qEn q = false ∧ t.reg (offQSTAT q) = s.reg (offQSTAT q) ||| 2 ^ 28 ∧ t.qHead q = s.qHead q ∧ t.qTail q = s.qTail q := by
  intro t
  have hrise' := State.setReg_rising hrise (offQCFG q) (x &&& maskQCFG)
  have ht : t = (s.setReg (offQCFG q) (x &&& maskQCFG)).qSet q (2 ^ 28) := if_pos hbad
  have hstat : (s.setReg (offQCFG q) (x &&& maskQCFG)).reg (offQSTAT q) = s.reg (offQSTAT q) :=
    State.reg_setReg_other hrise _ (by simp [offQSTAT, offQCFG])
  rw [ht, State.qSet, hstat, State.qEn, State.qHead, State.qTail, State.reg_setReg_same hrise',
    State.reg_setReg_other hrise' _ (by simp [offQSTAT, offQCFG]), State.reg_setReg_same hrise,
    State.reg_setReg_other hrise' _ (by simp [offQSTAT, offQHEAD]), State.reg_setReg_other hrise _ (by simp [offQCFG, offQHEAD]),
    State.reg_setReg_other hrise' _ (by simp [offQSTAT, offQTAIL]), State.reg_setReg_other hrise _ (by simp [offQCFG, offQTAIL])]
  refine ⟨?_, rfl, rfl, rfl⟩
  rw [bit_and, show bit maskQCFG 31 = false by decide, Bool.and_false]

theorem State.enableQueue_good (x : Nat) (hgood : qcfgBad x = false) : let t := s.enableQueue q x
    t.qEn q = true ∧ t.qHead q = 0 ∧ t.qTail q = 0 ∧ t.qStop q = false ∧ t.boot.pkgLocked = true := by
  intro t
  let t₁ := (s.setReg (offQCFG q) (x &&& maskQCFG)).setReg (offQCFG q) ((x &&& maskQCFG) + 2 ^ 31)
  let t₂ := t₁.setReg (offQSTAT q) (setBits (t₁.reg (offQSTAT q)) 31 31 0)
  have h₁ : (t₁.mgmt.map fun e => e.1).Pairwise (· < ·) := State.setReg_rising (State.setReg_rising hrise _ _) _ _
  have h₂ : (t₂.mgmt.map fun e => e.1).Pairwise (· < ·) := State.setReg_rising h₁ _ _
  have h₃ := State.setReg_rising h₂ (offQHEAD q) 0
  have ht (a : Nat) : t.reg a = ((t₂.setReg (offQHEAD q) 0).setReg (offQTAIL q) 0).reg a := by
    have : t.mgmt = ((t₂.setReg (offQHEAD q) 0).setReg (offQTAIL q) 0).mgmt := by
      show (s.enableQueue q x).mgmt = _
      rw [State.enableQueue, hgood]
      rfl
    rw [State.reg, this, State.reg]
  have hlock : t.boot.pkgLocked = true := by
    show (s.enableQueue q x).boot.pkgLocked = true
    rw [State.enableQueue, hgood]
    rfl
  refine ⟨?_, ?_, ?_, ?_, hlock⟩
  · rw [State.qEn, ht, State.reg_setReg_other h₃ _ (by simp [offQTAIL, offQCFG]), State.reg_setReg_other h₂ _ (by simp [offQHEAD, offQCFG]),
      State.reg_setReg_other h₁ _ (by simp [offQSTAT, offQCFG]), State.reg_setReg_same (State.setReg_rising hrise _ _)]
    have hlt : x &&& maskQCFG < 2 ^ 31 := Nat.lt_of_le_of_lt Nat.and_le_right (by decide)
    rw [bit, Nat.add_div_right _ (by decide), Nat.div_eq_of_lt hlt]
    rfl
  · rw [State.qHead, ht, State.reg_setReg_other h₃ _ (by simp [offQTAIL, offQHEAD]), State.reg_setReg_same h₂]
  · rw [State.qTail, ht, State.reg_setReg_same h₃]
  · rw [State.qStop, ht, State.reg_setReg_other h₃ _ (by simp [offQTAIL, offQSTAT]), State.reg_setReg_other h₂ _ (by simp [offQHEAD, offQSTAT]),
      State.reg_setReg_same h₁]
    exact bit_setBits_31 _

omit hrise in
theorem bits_30_29 (x : Nat) : bits x 30 29 = 0 ↔ bit x 29 = false ∧ bit x 30 = false := by
  simp only [bits, bit, beq_eq_false_iff_ne]
  omega

/-- The bits of QSTAT that a write of ones clears. -/
def qstatClears (old : Nat) (v : BitVec 32) : Nat := old - (old &&& (v.toNat &&& (ones 4 * 2 ^ 27)))

omit hrise in
theorem bit_qstatClears (old : Nat) (v : BitVec 32) {i : Nat} (hlo : 27 ≤ i) (hhi : i ≤ 30) :
    bit (qstatClears old v) i = (bit old i && !v.getLsbD i) := by
  have hmask : bit (ones 4 * 2 ^ 27) i = true := by
    have hall : ∀ k : Fin 4, bit (ones 4 * 2 ^ 27) (27 + k.val) = true := by decide
    have h := hall ⟨i - 27, by omega⟩
    rwa [show 27 + (i - 27) = i by omega] at h
  rw [qstatClears, bit_sub_and, bit_and, hmask, Bool.and_true, bit_toNat]

omit hrise in
theorem bit_qstatClears_31 (old : Nat) (v : BitVec 32) : bit (qstatClears old v) 31 = bit old 31 := by
  rw [qstatClears, bit_sub_and, bit_and, show bit (ones 4 * 2 ^ 27) 31 = false by decide, Bool.and_false, Bool.not_false, Bool.and_true]

/-- What is left of QSTAT by a write of ones to BADCFG, HSHERR, PULLERR and BADTAIL (R54). -/
theorem State.qstatClear_bits (t : State) (hexec : execQstatClear q v s = .next t) (hq : q < 256) :
    t = { s with mgmt := t.mgmt } ∧
      (∀ i, 27 ≤ i → i ≤ 30 → bit (t.reg (offQSTAT q)) i = (bit (s.reg (offQSTAT q)) i && !v.getLsbD i)) ∧
      t.qStop q = (bit (s.reg (offQSTAT q)) 31 && !((bit (s.reg (offQSTAT q)) 29 || bit (s.reg (offQSTAT q)) 30) &&
        !bit (t.reg (offQSTAT q)) 29 && !bit (t.reg (offQSTAT q)) 30)) := by
  let old := s.reg (offQSTAT q)
  let final := if bits old 30 29 ≠ 0 ∧ bits (qstatClears old v) 30 29 = 0 then setBits (qstatClears old v) 31 31 0 else qstatClears old v
  have ht : t = s.setReg (offQSTAT q) final := by
    rw [execQstatClear, if_neg (Nat.not_le.2 hq)] at hexec
    exact (Host.Outcome.next.inj hexec).symm
  have hlow {i : Nat} (hi : i < 31) : bit final i = bit (qstatClears old v) i := by
    show bit (if _ then _ else _) i = _
    split
    · exact bit_setBits_31_low _ hi
    · rfl
  rw [ht, State.qStop, State.reg_setReg_same hrise]
  refine ⟨rfl, fun i hlo hhi => (hlow (by omega)).trans (bit_qstatClears old v hlo hhi), ?_⟩
  rw [hlow (i := 29) (by omega), hlow (i := 30) (by omega)]
  have hstop : bit final 31 = if ¬(bit old 29 = false ∧ bit old 30 = false) ∧ bit (qstatClears old v) 29 = false ∧ bit (qstatClears old v) 30 = false
      then false else bit old 31 := by
    show bit (if _ then _ else _) 31 = _
    simp only [Ne, bits_30_29]
    split
    · exact bit_setBits_31 _
    · exact bit_qstatClears_31 _ _
  rw [hstop]
  show _ = (bit old 31 && !((bit old 29 || bit old 30) && _ && _))
  generalize bit old 29 = o29, bit old 30 = o30, bit old 31 = o31, bit (qstatClears old v) 29 = n29, bit (qstatClears old v) 30 = n30
  revert o29 o30 o31 n29 n30
  decide

end

theorem State.admittingOf_eq_false {s : State} {q : Nat} : s.admittingOf q = false ↔ ∀ a ∈ s.sched.admitting, a.q ≠ q := by
  simp [State.admittingOf]
theorem State.admittingOf_eq_true {s : State} {q : Nat} : s.admittingOf q = true ↔ ∃ a ∈ s.sched.admitting, a.q = q := by
  simp [State.admittingOf]

theorem qcfgBad_iff {v : BitVec 32} : qcfgBad v.toNat = true ↔
    2 < v.toNat / 2 ^ 24 % 8 ∨ v.toNat / 2 ^ 16 % 32 < 4 ∨ 16 < v.toNat / 2 ^ 16 % 32 := by
  rw [qcfgBad, Bool.or_eq_true, Bool.or_eq_true, decide_eq_true_iff, decide_eq_true_iff, decide_eq_true_iff, or_assoc]
  rfl

section
variable {s : State} {q : Nat} {v : BitVec 32} (hq : q < 256)
include hq

theorem exec_queueEnable (hset : v.getLsbD 31 = true) (hoff : s.qEn q = false) : exec (.queueEnable q v) s =
    if s.admittingOf q then .next { s with sched := { s.sched with heldEnable := s.sched.heldEnable ++ [(q, v)] } }
    else .next (s.enableQueue q v.toNat) := by
  have hexec : exec (.queueEnable q v) s = execQueueEnable q v s := rfl
  rw [hexec, execQueueEnable, if_neg (Nat.not_le.2 hq), if_neg (by simp [hset, hoff])]

theorem exec_queueDisable (hclear : v.getLsbD 31 = false) (hon : s.qEn q = true) :
    ∃ known, exec (.queueDisable q v) s = .next
      { (s.setReg (offQCFG q) (setBits (s.reg (offQCFG q)) 31 31 0)).dropPending q with
        sched := { ((s.setReg (offQCFG q) (setBits (s.reg (offQCFG q)) 31 31 0)).dropPending q).sched with known := known } } := by
  have hgo : ¬(v.getLsbD 31 = true ∨ s.qEn q = false) := by
    rw [hclear, hon]
    exact not_or.2 ⟨Bool.false_ne_true, Bool.false_ne_true.symm⟩
  have hexec : exec (.queueDisable q v) s = execQueueDisable q v s := rfl
  rw [hexec, execQueueDisable, if_neg (Nat.not_le.2 hq), if_neg hgo]
  exact ⟨_, rfl⟩

end

theorem State.logArbiter_foldl {α : Type} (xs : List α) (kind tid : Nat) (addr aux : α → Nat) (s : State) :
    ∃ l, xs.foldl (fun s i => s.logArbiter kind tid (addr i) (aux i)) s = { s with log := l } := by
  induction xs generalizing s with
  | nil => exact ⟨s.log, rfl⟩
  | cons x xs ih => exact ih (s.logArbiter kind tid (addr x) (aux x))

/-- The pending entries of a queue are all that its disabling takes from the scheduler. -/
theorem State.dropPending_eq (s : State) (q : Nat) : ∃ l, s.dropPending q =
    { s with log := l, sched := { s.sched with pending := s.sched.pending.filter fun p => p.q != q } } := by
  unfold State.dropPending
  dsimp only
  obtain ⟨l, hl⟩ := State.logArbiter_foldl ((s.sched.pending.filter fun p => p.q == q).map fun p => p.index).eraseDups 0x0D noTask
    (fun i => q * 2 ^ 32 + i) (fun i => ((s.sched.pending.filter fun p => p.q == q).filter fun p => p.index == i).length) s
  rw [hl]
  exact ⟨l, rfl⟩

theorem setBits_31_of_set {x : Nat} (h : bit x 31 = true) : setBits x 31 31 0 = x - 2 ^ 31 := by
  rw [bit, beq_iff_eq] at h
  rw [setBits_31, h, Nat.one_mul]

/-! ### Tail writes (R56) -/

/-- Where no message of that body is on its way, none is taken. -/
theorem State.takeMsg_absent {s : State} {b : Body} (h : ∀ m ∈ s.mem.net, m.body ≠ b) : s.takeMsg (s.mem.net.findIdx fun m => m.body == b) = none := by
  have hlen : (s.mem.net.findIdx fun m => m.body == b) = s.mem.net.length := List.findIdx_eq_length_of_false fun m hm => beq_eq_false_iff_ne.2 (h m hm)
  rw [State.takeMsg, hlen, List.getElem?_eq_none (Nat.le_refl _)]

section
variable {s : State} {q : Nat} {v : BitVec 32} (hq : q < 256) (hrun : s.arbRuns = true)
include hq hrun

theorem exec_tailWrite_host {port size : Nat} (habsent : ∀ m ∈ s.mem.net, m.body ≠ .tailWrite (.host port size) q v) :
    exec (.tailWrite (.host port size) q v) s = .next (if s.boot.ready && (size == 4 || size == 8) then s.tailIn (.host port size) q v
      else { s with out := s.out ++ [.unsupported port] }) := by
  have hexec : exec (.tailWrite (.host port size) q v) s = execTailWrite (.host port size) q v s := rfl
  rw [hexec, execTailWrite, if_neg (Nat.not_le.2 hq), if_neg (by simp [hrun])]
  dsimp only
  rw [State.takeMsg_absent habsent]
  rfl

theorem exec_tailWrite_remote {pkg hops : Nat} (habsent : ∀ m ∈ s.mem.net, m.body ≠ .tailWrite (.remote pkg hops) q v) (hready : s.boot.ready = true)
    (hhops : hops < 5) : exec (.tailWrite (.remote pkg hops) q v) s = .next (s.tailIn (.remote pkg hops) q v) := by
  have hexec : exec (.tailWrite (.remote pkg hops) q v) s = execTailWrite (.remote pkg hops) q v s := rfl
  rw [hexec, execTailWrite, if_neg (Nat.not_le.2 hq), if_neg (by simp [hrun])]
  dsimp only
  rw [State.takeMsg_absent habsent, hready]
  dsimp only
  rw [if_pos rfl, State.arrives, if_neg (Nat.not_le.2 hhops)]
  rfl

end

theorem State.tailIn_disabled {s : State} {src : TailSource} {q : Nat} {v : BitVec 32} (h : bit (s.reg (offQCFG q)) 31 = false) :
    s.tailIn src q v = s := if_pos h

/-- Settles O45: the registers that an enable, a disable and a clear leave, and each row of R56's table. -/
theorem queueRegisters : Obligations.QueueRegisters := by
  intro q port size pkg v s hq hrise off cfg head tail stat log
  refine ⟨fun hset hoff hadm => ?_, fun hset hoff hadm => ?_, fun hclear hon => ?_, ?_, fun hrun => ?_⟩
  · rw [exec_queueEnable hq hset hoff, State.admittingOf_eq_false.2 hadm]
    refine ⟨_, rfl, fun hbad => State.enableQueue_bad hrise _ (qcfgBad_iff.2 hbad), fun hloc hlo hhi => State.enableQueue_good hrise _ ?_⟩
    rw [← Bool.not_eq_true, qcfgBad_iff]
    omega
  · rw [exec_queueEnable hq hset hoff, State.admittingOf_eq_true.2 hadm]
    rfl
  · obtain ⟨l, hdrop⟩ := (s.setReg (offQCFG q) (setBits (s.reg (offQCFG q)) 31 31 0)).dropPending_eq q
    obtain ⟨known, hexec⟩ := exec_queueDisable hq hclear hon
    refine ⟨_, hexec, ?_, ?_, ?_⟩
    · rw [hdrop]
      exact (State.reg_setReg_same hrise _ _).trans (setBits_31_of_set hon)
    · rw [hdrop]
      rfl
    · rw [hdrop]
      rfl
  · have hexec : exec (.qstatClear q v) s = execQstatClear q v s := rfl
    have hnext : ∃ t, execQstatClear q v s = .next t := by
      rw [execQstatClear, if_neg (Nat.not_le.2 hq)]
      exact ⟨_, rfl⟩
    obtain ⟨t, ht⟩ := hnext
    exact ⟨t, hexec.trans ht, State.qstatClear_bits hrise t ht hq⟩
  intro d h rmt row
  refine ⟨fun habsent => ⟨fun hready hsize => ?_, fun hbad => ?_⟩, fun hops hhops habsent hready => ?_⟩
  · have hsz : (size == 4 || size == 8) = true := by simpa using hsize
    rw [exec_tailWrite_host hq hrun habsent, hready, hsz, Bool.true_and, if_pos rfl]
    cases hen : bit cfg 31 with
    | false => rw [State.tailIn_disabled hen, if_neg Bool.false_ne_true]
    | true =>
      have hon : ¬s.qEn q = false := fun e => Bool.false_ne_true (e.symm.trans hen)
      rw [State.tailIn]
      · dsimp only
        rw [if_neg hon, if_pos rfl]
        rfl
      · nofun
  · have hno : (s.boot.ready && (size == 4 || size == 8)) = false := by
      rcases hbad with h | ⟨h4, h8⟩
      · rw [h, Bool.false_and]
      · rw [beq_eq_false_iff_ne.2 h4, beq_eq_false_iff_ne.2 h8]
        exact Bool.and_false _
    rw [exec_tailWrite_host hq hrun habsent, hno]
    rfl
  · rw [exec_tailWrite_remote hq hrun habsent hready hhops]
    cases hen : bit cfg 31 with
    | false => rw [State.tailIn_disabled hen, if_pos rfl]
    | true =>
      have hon : ¬s.qEn q = false := fun e => Bool.false_ne_true (e.symm.trans hen)
      rw [State.tailIn, if_neg Bool.false_ne_true.symm]
      dsimp only
      by_cases hmine : bit rmt 31 = true ∧ bits rmt 9 0 = pkg
      · have hfree : ¬(bit (s.reg (offQRMT q)) 31 = false ∨ bits (s.reg (offQRMT q)) 9 0 ≠ pkg) := by
          rintro (h | h)
          · exact Bool.false_ne_true (h.symm.trans hmine.1)
          · exact h hmine.2
        rw [if_neg hfree, if_neg hon, if_pos hmine]
        rfl
      · have hbar : bit (s.reg (offQRMT q)) 31 = false ∨ bits (s.reg (offQRMT q)) 9 0 ≠ pkg := by
          refine Classical.byContradiction fun h => ?_
          rw [not_or, Bool.not_eq_false, Classical.not_not] at h
          exact hmine h
        rw [if_pos hbar, if_neg hon, if_neg hmine]
        rfl

end Sys2Proof.Machine

/-! PROOFS. Registers, tables and memory reached from outside (O44). -/

namespace Sys2Proof.Machine

theorem bits_zero (x hi : Nat) : bits x hi 0 = x % 2 ^ (hi + 1) := by simp [bits]

/-! ### Registers of the links and of the package's number (R36, R42, R52) -/

theorem linkRegisters : Claims.LinkRegisters := by
  intro site p n v s
  have hxto : exec (.xtocfgWrite site v) s = execXtocfgWrite site v s := rfl
  have hroute : exec (.routeEntryWrite p n v) s = execRouteEntryWrite p n v s := rfl
  have hpkg : exec (.pkgnumWrite v) s = execPkgnumWrite v s := rfl
  refine ⟨fun h => ?_, fun hp hn => ?_, ?_⟩
  · rw [hxto, execXtocfgWrite, if_neg (by rw [h]; exact Bool.false_ne_true.symm), bits_zero]
  · rw [hroute, execRouteEntryWrite, if_neg (by omega)]
    rfl
  · rw [hpkg, execPkgnumWrite, bits_zero]
    rfl

/-! ### Writes of the window and of its tables (R51, R52) -/

section
variable {s : State} {port n : Nat} {x : BitVec 64} (hport : port < 4)
include hport

theorem exec_registerWrite_unsupported {size : Nat} (h : (size ≠ 4 ∧ size ≠ 8) ∨ n % size ≠ 0) :
    exec (.registerWrite ⟨port, n, size⟩ x) s = .next { s with out := s.out ++ [.unsupported port] } := by
  have hexec : exec (.registerWrite ⟨port, n, size⟩ x) s = execRegisterWrite ⟨port, n, size⟩ x s := rfl
  rw [hexec, execRegisterWrite]
  dsimp only
  rw [if_neg (Nat.not_le.2 hport), if_pos h]

variable (hcfg : (blockIndex n 0x00200000 0x40 256).isNone = true ∨ n % 0x40 ≠ 8)
include hcfg

omit hport in
theorem not_queueConfig : ¬((blockIndex n 0x00200000 0x40 256).getD 256 < 256 ∧ n % 0x40 = 8 ∧ x.getLsbD 31 ≠ s.qEn ((blockIndex n 0x00200000 0x40 256).getD 256)) := by
  rintro ⟨hlt, hmod, -⟩
  rcases hcfg with h | h
  · rw [Option.isNone_iff_eq_none.1 h] at hlt
    exact Nat.lt_irrefl _ hlt
  · exact h hmod

theorem exec_registerWrite_wide (halign : n % 8 = 0) (hwide : wideAt n = true) : exec (.registerWrite ⟨port, n, 8⟩ x) s =
    s.happens (match s.regKind n with
      | .special => none
      | .ignores => some s
      | .stores m => some (s.regWrite n x.toNat m)) := by
  have hexec : exec (.registerWrite ⟨port, n, 8⟩ x) s = execRegisterWrite ⟨port, n, 8⟩ x s := rfl
  rw [hexec, execRegisterWrite]
  dsimp only
  rw [if_neg (Nat.not_le.2 hport), if_neg (by omega), if_neg (not_queueConfig hcfg), if_neg (by decide), hwide]
  rfl

theorem exec_registerWrite_word (halign : n % 4 = 0) : exec (.registerWrite ⟨port, n, 4⟩ x) s = s.happens (s.storeWord n x.toNat) := by
  have hexec : exec (.registerWrite ⟨port, n, 4⟩ x) s = execRegisterWrite ⟨port, n, 4⟩ x s := rfl
  rw [hexec, execRegisterWrite]
  dsimp only
  rw [if_neg (Nat.not_le.2 hport), if_neg (by omega), if_neg (not_queueConfig hcfg), if_pos rfl]

end

theorem State.storeWord_whole {s : State} {n x : Nat} (h : n % 8 = 0 ∨ wideAt (n - 4) = false) : s.storeWord n x =
    match s.regKind n with
    | .special => none
    | .ignores => some s
    | .stores m => some (s.regWrite n (x % 2 ^ 32) (m % 2 ^ 32)) := by
  have hlow : (n % 8 == 4 && wideAt (n - 4)) = false := by
    rcases h with h | h
    · rw [h]
      rfl
    · rw [h, Bool.and_false]
  rw [State.storeWord, hlow]
  rfl

theorem State.storeWord_upper {s : State} {n x m : Nat} (h : n % 8 = 4) (hwide : wideAt (n - 4) = true) (hkind : s.regKind (n - 4) = .stores m) :
    s.storeWord n x = some (s.regWrite (n - 4) (x % 2 ^ 32 * 2 ^ 32) (m / 2 ^ 32 * 2 ^ 32)) := by
  have hup : (n % 8 == 4 && wideAt (n - 4)) = true := by
    rw [h, hwide]
    rfl
  rw [State.storeWord, hup, if_pos rfl, hkind]
  rfl

theorem tableWrites : Claims.TableWrites := by
  intro i n port v w x s hi hport
  have howner : exec (.ownerTableWrite i n v) s = execOwnerTableWrite i n v s := rfl
  have hhome : exec (.homeTableWrite i n w) s = execHomeTableWrite i n w s := rfl
  have htower : exec (.towerHomeTableWrite i n w) s = execTowerHomeTableWrite i n w s := rfl
  have hlost : exec (.lostMarkClear i v) s = execLostMarkClear i v s := rfl
  have hcfg : exec (.tethcfgWrite n v) s = execTethcfgWrite n v s := rfl
  have hcnt : exec (.tethcntWrite n v) s = execTethcntWrite n v s := rfl
  refine ⟨fun hn => ?_, fun hn => ?_, fun hn => ?_, ?_, fun hn harr => ?_, fun hn harr => ?_, fun size h => exec_registerWrite_unsupported hport h, fun hq =>
    ⟨fun halign hwide => ⟨fun hkind => ?_, fun mask hkind => ?_⟩, fun halign hlow => ⟨fun hkind => ?_, fun mask hkind => ?_⟩,
      fun halign hwide mask hkind => ?_⟩⟩
  · rw [howner, execOwnerTableWrite, if_neg (by omega)]
    rfl
  · rw [hhome, execHomeTableWrite, if_neg (by omega)]
  · rw [htower, execTowerHomeTableWrite, if_neg (by omega)]
  · rw [hlost, execLostMarkClear, if_neg (by omega), bits_zero] <;> rfl
  · have hin : ¬64 ≤ n := Nat.not_le.2 hn
    rw [hcfg, hcnt, execTethcfgWrite, execTethcntWrite, if_neg hin, if_neg hin, if_pos harr, if_pos harr]
    exact ⟨rfl, rfl⟩
  · have hin : ¬64 ≤ n := Nat.not_le.2 hn
    have hzero : ¬s.tethArrived n ≠ 0 := Classical.not_not.2 harr
    rw [hcfg, hcnt, execTethcfgWrite, execTethcntWrite, if_neg hin, if_neg hin, if_neg hzero, if_neg hzero]
    exact ⟨rfl, rfl⟩
  · rw [exec_registerWrite_wide hport hq halign hwide, hkind]
    rfl
  · rw [exec_registerWrite_wide hport hq halign hwide, hkind]
    rfl
  · rw [exec_registerWrite_word hport hq halign, State.storeWord_whole hlow, hkind]
    rfl
  · rw [exec_registerWrite_word hport hq halign, State.storeWord_whole hlow, hkind]
    rfl
  · rw [exec_registerWrite_word hport hq (by omega), State.storeWord_upper halign hwide hkind]
    rfl

/-! ### Reading back (R4, R52) -/

theorem registerReadBack : Claims.RegisterReadBack := by
  intro s a b v mask i hrise hv hmask hreg t
  refine ⟨?_, fun hne => State.reg_setReg_other hrise _ hne, State.setReg_rising hrise _ _, rfl⟩
  have hread : t.reg a = (s.reg a &&& (ones 64 ^^^ (mask % 2 ^ 64))) ||| (v &&& mask) := State.reg_setReg_same hrise _ _
  rw [hread, Nat.mod_eq_of_lt hmask, ones, Nat.testBit_or, Nat.testBit_and, Nat.testBit_xor, Nat.testBit_and, Nat.testBit_two_pow_sub_one]
  by_cases hi : i < 64
  · rw [decide_eq_true hi]
    cases mask.testBit i <;> simp
  · have hlow {y : Nat} (hy : y < 2 ^ 64) : y.testBit i = false :=
      Nat.testBit_lt_two_pow (Nat.lt_of_lt_of_le hy (Nat.pow_le_pow_right (by decide) (Nat.le_of_not_lt hi)))
    simp [hlow hv, hlow hmask, hlow hreg]

/-! ### The loan table (R44) -/

/-- No borrower that `p` holds of is left after it has been called back. -/
theorem State.callBack_borrowed (s : State) (p : Borrow → Bool) : (s.callBack p).mem.borrowed = s.mem.borrowed.filter fun b => !p b := by
  have hfold (xs : List Borrow) {f : State → Borrow → State} (hf : ∀ t b, (f t b).mem.borrowed = t.mem.borrowed) (t : State) :
      (xs.foldl f t).mem.borrowed = t.mem.borrowed := by
    induction xs generalizing t with
    | nil => rfl
    | cons x xs ih => exact (ih _).trans (hf t x)
  unfold State.callBack
  dsimp only
  refine (hfold _ (fun t b => ?_) _).trans rfl
  split
  · split <;> rfl
  · rfl

theorem loanTable : Claims.LoanTable := by
  intro r g v s hr hg old new top put grant
  have hbase : exec (.lrbaseWrite r v) s = execLrbaseWrite r v s := rfl
  have hgrant : exec (.lrgrantWrite r g v) s = execLrgrantWrite r g v s := rfl
  have hdone : exec (.grantWithdrawComplete r) s = execGrantWithdrawComplete r s := rfl
  have hany : ((List.range 16).any fun k => bit (s.reg (offLGrant r k)) 63) = true ↔ ∃ k < 16, bit (grant k) 63 = true := by
    simp only [List.any_eq_true, List.mem_range]
    rfl
  have hopen : exec (.lrbaseWrite r v) s =
      if bit old 63 then
        if new % 2 ^ 63 ≠ old % 2 ^ 63 then .next s
        else if bit new 63 = false ∧ ((List.range 16).any fun g => bit (s.reg (offLGrant r g)) 63) = true then .next s
        else put
      else if bit new 63 = true ∧ (72 ≤ bits new 54 48 ∨ dramTop < top ∨ s.loanOverlap r new = true) then .next s
      else put := by
    rw [hbase, execLrbaseWrite, if_neg (Nat.not_le.2 hr)]
    rfl
  clear_value put
  refine ⟨fun hlent hnew => ?_, fun hlent hnew => ⟨fun hoff hsome => ?_, fun h => ?_⟩, fun hfree => ⟨fun hon hbad => ?_, fun h => ?_⟩, ?_, fun hbusy hquiet => ?_⟩
  · rw [hopen, if_pos hlent, if_pos hnew]
  · rw [hopen, if_pos hlent, if_neg (Classical.not_not.2 hnew), if_pos ⟨hoff, hany.2 hsome⟩]
  · rw [hopen, if_pos hlent, if_neg (Classical.not_not.2 hnew), if_neg]
    rintro ⟨hoff, hsome⟩
    obtain ⟨k, hk, hon⟩ := hany.1 hsome
    rcases h with h | h
    · exact Bool.false_ne_true (hoff.symm.trans h)
    · exact Bool.false_ne_true ((h k hk).symm.trans hon)
  · rw [hopen, if_neg (by rw [hfree]; exact Bool.false_ne_true), if_pos ⟨hon, .inr hbad⟩]
  · rw [hopen, if_neg (by rw [hfree]; exact Bool.false_ne_true), if_neg]
    rintro ⟨hon, hbad⟩
    rcases h with h | ⟨htower, htop, hover⟩
    · exact Bool.false_ne_true (h.symm.trans hon)
    · rcases hbad with hbad | hbad | hbad
      · omega
      · omega
      · exact Bool.false_ne_true (hover.symm.trans hbad)
  · rw [hgrant, execLrgrantWrite, if_neg (by omega)]
    rfl
  · rw [hdone, execGrantWithdrawComplete, if_neg (Nat.not_le.2 hr), if_neg (by rw [hbusy]; exact Bool.false_ne_true.symm)]
    dsimp only
    rw [if_neg]
    · refine ⟨_, rfl, ?_⟩
      rw [State.callBack_borrowed]
      exact List.all_eq_true.2 fun b hb => (List.mem_filter.1 hb).2
    · rw [List.any_eq_true]
      rintro ⟨l, hl, hno⟩
      rw [hquiet l (List.mem_filter.1 hl).1] at hno
      exact Bool.false_ne_true hno

/-! ### The pool, CXL.mem and the aperture (R43 to R48, R51, R152) -/

/-- What the host on a port sees of its lender's answer (R46, R47, R132). -/
def State.cxlAnswer (s : State) (port dpa : Nat) (acc : ExtAccess) : ExtOut → Out
  | .wait => .next s
  | .refused c => if c = cLOSTLINE then .next { s with out := s.out ++ [.abort port, .aer port] } else .next (s.compMiss port dpa acc)
  | .ok bs s => .next { s with out := s.out ++ (match acc with | .read _ => [.readData port bs] | .write _ => []) }

section
variable {s : State} {port dpa off : Nat} {acc : ExtAccess} (hport : port < 4) (hfrozen : s.frozen = false)
include hport hfrozen

theorem exec_cxlMemAccess_closed (h : s.boot.ready = false ∨ s.boot.cxl.getD port false = false) :
    exec (.cxlMemAccess port dpa acc) s = .next { s with out := s.out ++ [.unsupported port] } := by
  have hexec : exec (.cxlMemAccess port dpa acc) s = execCxlMemAccess port dpa acc s := rfl
  rw [hexec, execCxlMemAccess, if_neg (Nat.not_le.2 hport), if_neg (by rw [hfrozen]; exact Bool.false_ne_true), if_pos h]

variable (hready : s.boot.ready = true) (hcxl : s.boot.cxl.getD port false = true)
include hready hcxl

theorem exec_cxlMemAccess_miss (h : 2 ^ 40 ≤ dpa ∨ bit (s.reg (offComp (dpa / 2 ^ 26))) 63 = false) :
    exec (.cxlMemAccess port dpa acc) s = .next (s.compMiss port dpa acc) := by
  have hexec : exec (.cxlMemAccess port dpa acc) s = execCxlMemAccess port dpa acc s := rfl
  have hopen : ¬(s.boot.ready = false ∨ s.boot.cxl.getD port false = false) := by
    rw [hready, hcxl]
    exact not_or.2 ⟨Bool.false_ne_true.symm, Bool.false_ne_true.symm⟩
  rw [hexec, execCxlMemAccess, if_neg (Nat.not_le.2 hport), if_neg (by rw [hfrozen]; exact Bool.false_ne_true), if_neg hopen]
  exact if_pos h

/-- What a composition entry leads to, by what its lender answers. -/
theorem exec_cxlMemAccess_hit {o : ExtOut} (hdpa : dpa < 2 ^ 40) (hvalid : bit (s.reg (offComp (dpa / 2 ^ 26))) 63 = true)
    (ho : (let e := s.reg (offComp (dpa / 2 ^ 26))
      let byte := bits e 5 0 * 2 ^ 26 + dpa % 2 ^ 26
      if bits e 41 32 = s.pkgNum then s.loanAccess (bits e 21 12) byte (.host (bits e 41 32) port) acc
      else s.farAccess port (bits e 41 32) (bits e 21 12) byte acc) = o) :
    exec (.cxlMemAccess port dpa acc) s = s.cxlAnswer port dpa acc o := by
  have hexec : exec (.cxlMemAccess port dpa acc) s = execCxlMemAccess port dpa acc s := rfl
  have hopen : ¬(s.boot.ready = false ∨ s.boot.cxl.getD port false = false) := by
    rw [hready, hcxl]
    exact not_or.2 ⟨Bool.false_ne_true.symm, Bool.false_ne_true.symm⟩
  have hhit : ¬(2 ^ 40 ≤ dpa ∨ bit (s.reg (offComp (dpa / 2 ^ 26))) 63 = false) := by
    rw [hvalid]
    exact not_or.2 ⟨Nat.not_le.2 hdpa, Bool.false_ne_true.symm⟩
  subst ho
  rw [hexec, execCxlMemAccess, if_neg (Nat.not_le.2 hport), if_neg (by rw [hfrozen]; exact Bool.false_ne_true), if_neg hopen]
  exact if_neg hhit

omit hcxl in
theorem exec_bar4Access_ready {va asid : Nat} (hap : s.aperture off = some (va, asid)) :
    (∀ k, acc = .read k → exec (.bar4Access port off acc) s = match s.ownRead s.arbHome asid va k with
      | .ok bs s => .next { s with out := s.out ++ [.readData port bs] }
      | .bad _ s => .next { s with out := s.out ++ [.abort port] ++ [.aer port] }
      | .busy => .next s) ∧
    (∀ xs, acc = .write xs → exec (.bar4Access port off acc) s = match s.ownWrite s.arbHome asid va xs with
      | .ok _ s => .next s
      | .bad _ s => .next { s with out := s.out ++ [] ++ [.aer port] }
      | .busy => .next s) := by
  have hexec : exec (.bar4Access port off acc) s = execBar4Access port off acc s := rfl
  rw [hexec, execBar4Access.eq_def, if_neg (Nat.not_le.2 hport), if_neg (by rw [hfrozen]; exact Bool.false_ne_true),
    if_neg (by rw [hready]; exact Bool.false_ne_true.symm), hap]
  constructor
  · rintro k rfl
    rfl
  · rintro xs rfl
    rfl

end

theorem exec_poolAccess_ready {s : State} {who : Grantee} {hops r off : Nat} {acc : ExtAccess} (hfrozen : s.frozen = false) (hready : s.boot.ready = true) :
    exec (.poolAccess ⟨who, hops⟩ r off acc) s = if 5 ≤ hops then .next (s.arrives .req (granteePkg who) hops (r * 2 ^ 32 + off) id)
      else match s.loanAccess r off who acc with
      | .wait => .next s
      | .refused c => .next { s with out := s.out ++ [.refused who c] }
      | .ok bs s => .next { s with out := s.out ++ [.poolData who bs] } := by
  have hexec : exec (.poolAccess ⟨who, hops⟩ r off acc) s = execPoolAccess ⟨who, hops⟩ r off acc s := rfl
  rw [hexec, execPoolAccess]
  dsimp only
  rw [hfrozen, hready]
  rfl

theorem outsideAccesses : Claims.OutsideAccesses := by
  intro r n port dpa off hops v who acc s hn hport hfrozen put data miss
  have hcomp : exec (.compositionEntryWrite n v) s = execCompositionEntryWrite n v s := rfl
  have hpool : exec (.poolAccess ⟨who, hops⟩ r off acc) s = execPoolAccess ⟨who, hops⟩ r off acc s := rfl
  have hbar : exec (.bar4Access port off acc) s = execBar4Access port off acc s := rfl
  have hlive : ¬s.frozen = true := by
    rw [hfrozen]
    exact Bool.false_ne_true
  refine ⟨?_, fun hready => ⟨?_, ?_, ?_⟩, fun hready => ⟨fun hhops => ⟨fun bs t h => ?_, fun c h => ?_⟩, fun hhops => ?_, fun hcxl => ?_, fun hcxl => ?_,
    fun hap => ?_, fun va asid hap => ⟨fun k hk => ⟨fun bs t h => ?_, fun c t h => ?_⟩, fun xs hxs => ⟨fun u t h => ?_, fun c t h => ?_⟩⟩⟩⟩
  · rw [hcomp, execCompositionEntryWrite, if_neg (Nat.not_le.2 hn)]
    rfl
  · rw [exec_cxlMemAccess_closed hport hfrozen (.inl hready)]
  · rw [hbar, execBar4Access.eq_def, if_neg (Nat.not_le.2 hport), if_neg hlive, if_pos hready]
  · rw [hpool, execPoolAccess]
    dsimp only
    rw [hready, hfrozen]
    rfl
  · rw [exec_poolAccess_ready hfrozen hready, if_neg (Nat.not_le.2 hhops), h]
  · rw [exec_poolAccess_ready hfrozen hready, if_neg (Nat.not_le.2 hhops), h]
  · rw [exec_poolAccess_ready hfrozen hready, if_pos hhops, State.arrives, if_pos hhops]
    exact ⟨_, rfl, rfl, rfl, List.length_append⟩
  · rw [exec_cxlMemAccess_closed hport hfrozen (.inr hcxl)]
  · intro e byte pkg out
    refine ⟨fun hmiss => exec_cxlMemAccess_miss hport hfrozen hready hcxl hmiss, fun hdpa hvalid => ⟨fun bs t h => ?_, fun h => ?_, fun c h hc => ?_⟩⟩
    · exact exec_cxlMemAccess_hit hport hfrozen hready hcxl hdpa hvalid (o := .ok bs t) h
    · exact exec_cxlMemAccess_hit hport hfrozen hready hcxl hdpa hvalid (o := .refused 0x0B) h
    · exact (exec_cxlMemAccess_hit hport hfrozen hready hcxl hdpa hvalid (o := .refused c) h).trans (if_neg hc)
  · rw [hbar, execBar4Access.eq_def, if_neg (Nat.not_le.2 hport), if_neg hlive, if_neg (by rw [hready]; exact Bool.false_ne_true.symm), hap]
  · rw [(exec_bar4Access_ready hport hfrozen hready hap).1 k hk, h]
  · rw [(exec_bar4Access_ready hport hfrozen hready hap).1 k hk, h]
    dsimp only
    rw [List.append_assoc]
    rfl
  · rw [(exec_bar4Access_ready hport hfrozen hready hap).2 xs hxs, h]
  · rw [(exec_bar4Access_ready hport hfrozen hready hap).2 xs hxs, h]
    dsimp only
    rw [List.append_nil]

/-- Settles O44: each table's write, the reading of a register after it, and each way that memory is reached. -/
theorem outsideReachesIn : Obligations.OutsideReachesIn := ⟨linkRegisters, tableWrites, registerReadBack, loanTable, outsideAccesses⟩

end Sys2Proof.Machine

/-! PROOFS. Links and fibres (O41). -/

namespace Sys2Proof.Machine

/-! ### Panel links (R26, R28, R34, R198, R199, R201) -/

/-- The corrections of a unit that count towards the three of R201. -/
def State.recentFixes (s : State) (u : EccUnit) (site : Site) : List (EccUnit × Nat) :=
  s.link.fixes.filter fun f => f.1 == u && decide (s.now site < f.2 + 1000000000)

theorem State.correct_fst (s : State) (u : EccUnit) (site : Site) (tid addr : Nat) :
    (s.correct u site tid addr).1 = decide (2 ≤ (s.recentFixes u site).length) := rfl

theorem State.correct_log (s : State) (u : EccUnit) (site : Site) (tid addr : Nat) : (s.correct u site tid addr).2.log =
    s.log ++ [⟨if 2 ≤ (s.recentFixes u site).length then 0x02 else 0x01, siteSheet site, siteField site, tid, s.now site, addr, 0, 0⟩] := by
  have hkind : (if decide (2 ≤ (s.recentFixes u site).length) = true then 0x02 else 0x01) =
      if 2 ≤ (s.recentFixes u site).length then 0x02 else 0x01 := by simp only [decide_eq_true_iff]
  rw [← hkind]
  rfl

theorem State.linkSt_setLinkSt (s : State) (l j : LinkId) (x : LinkSt) : (s.setLinkSt l x).linkSt j = if j = l then x else s.linkSt j := by
  have hrest : ((s.link.links.filter fun y => y.1 != l).find? fun y => y.1 == j) = if j = l then none else s.link.links.find? fun y => y.1 == j := by
    rw [List.find?_filter]
    by_cases h : j = l
    · rw [if_pos h, List.find?_eq_none]
      intro y _ hy
      simp [h] at hy
    · rw [if_neg h]
      congr 1
      funext y
      by_cases hy : y.1 = j
      · simp [hy, h]
      · simp [hy]
  have hlinks : (s.setLinkSt l x).link.links = if x = .up 0 then s.link.links.filter fun y => y.1 != l
      else (s.link.links.filter fun y => y.1 != l) ++ [(l, x)] := rfl
  rw [State.linkSt, hlinks]
  by_cases hx : x = .up 0
  · rw [if_pos hx, hrest]
    by_cases h : j = l
    · rw [if_pos h, if_pos h, hx]
    · rw [if_neg h, if_neg h, State.linkSt]
  · rw [if_neg hx, List.find?_append, hrest]
    by_cases h : j = l
    · rw [if_pos h, if_pos h, h]
      simp
    · rw [if_neg h, if_neg h, State.linkSt]
      have hlast : ([(l, x)].find? fun y => y.1 == j) = none := by simp [Ne.symm h]
      rw [hlast, Option.or_none]

theorem panelLinks : Claims.PanelLinks := by
  intro l k m s next fixes c failed
  have hcrc : exec (.linkFlitCrcFail l) s = execLinkFlitCrcFail l s := rfl
  have hretrain : exec (.linkRetrain l) s = execLinkRetrain l s := rfl
  have hback : exec (.linkRetrainComplete l) s = execLinkRetrainComplete l s := rfl
  have hfail : exec (.linkRetrainFail l) s = execLinkRetrainFail l s := rfl
  have hforward : exec (.routerForward k) s = execRouterForward k s := rfl
  refine ⟨fun hin => ⟨fun n hup => ⟨?_, s.correct_log _ _ _ _⟩, fun hup => ?_, fun hst => ⟨?_, ?_⟩⟩, fun x j => s.linkSt_setLinkSt l j x,
    fun n hm hmoving hlink hup hn hhere hthere halone => ?_⟩
  all_goals try have hpanel : ¬linkInPanel l = false := by rw [hin]; exact Bool.false_ne_true.symm
  · have hlasting : (if c.1 = true then 8 else min 8 (n + 1)) = if 2 ≤ fixes.length then 8 else min 8 (n + 1) := by
      rw [show c.1 = decide (2 ≤ fixes.length) from rfl]
      simp only [decide_eq_true_iff]
    rw [hcrc, execLinkFlitCrcFail, if_neg hpanel, hup, ← hlasting]
    rfl
  · rw [hretrain, execLinkRetrain, if_neg hpanel, if_pos hup]
  · rw [hback, execLinkRetrainComplete, if_neg hpanel, if_pos hst]
  · rw [hfail, execLinkRetrainFail, if_neg hpanel, if_neg (Classical.not_not.2 hst)]
    rfl
  · have hahead : ((s.mem.net.take k).any fun e => e.cls == m.cls && e.src == m.src && e.dst == m.dst && e.at' == m.at') = false := by
      rw [List.any_eq_false]
      intro e he
      have hno := List.all_eq_true.1 halone e he
      rw [Bool.not_eq_true'] at hno
      exact Bool.eq_false_iff.1 hno
    rw [hforward, execRouterForward, hm]
    dsimp only
    have hlink' : linkBetween m.at' (siteAt (nextHop (siteXY m.at') (siteXY m.dst))) = some l := hlink
    have hthere' : s.siteRuns (siteAt (nextHop (siteXY m.at') (siteXY m.dst))) = true := hthere
    rw [if_neg hmoving, hlink']
    dsimp only
    rw [hup]
    dsimp only
    rw [hahead, hhere, hthere', decide_eq_false (Nat.not_le.2 hn)]
    rfl

/-! ### Fibres (R38 to R42) -/

theorem State.fibre?_id {s : State} {f : Nat} {x : Fibre} (h : s.fibre? f = some x) : x.id = f := by
  simpa using List.find?_some h

theorem State.fibre?_setFibre {s : State} {f : Nat} {x y : Fibre} (h : s.fibre? f = some x) (hy : y.id = f) : (s.setFibre y).fibre? f = some y := by
  show (s.link.fibres.map fun z => if z.id = y.id then y else z).find? (fun z => z.id == f) = some y
  rw [hy]
  exact find_map_self (beq_iff_eq.2 hy) (fun z => beq_iff_eq.symm) h

theorem State.logFibre_foldl (f : Nat) (xs : List Nat) (s : State) :
    ∃ l, xs.foldl (fun s _ => s.logFibre f) s = { s with log := l } ∧ l.length = s.log.length + xs.length := by
  induction xs generalizing s with
  | nil => exact ⟨s.log, rfl, rfl⟩
  | cons x xs ih =>
    obtain ⟨l, hl, hlen⟩ := ih (s.logFibre f)
    refine ⟨l, hl, ?_⟩
    have hone : (s.logFibre f).log.length = s.log.length + 1 := List.length_append
    rw [hlen, hone, List.length_cons]
    omega

/-- A flit given to a fibre: it is kept for replay, and sent while fewer than 512 wait (R39). -/
theorem State.sendPacket_on {s : State} {g : Nat} {y : Fibre} {q : Packet} (hfor : s.fibreFor q = some g) (hy : s.fibre? g = some y) :
    ∃ t, s.sendPacket q = some t ∧ t.log = s.log ∧ t.fibre? g = some { y with next := y.next + 1, flits := y.flits ++ [⟨y.next, q, 0, 0⟩] } ∧
      t.out = s.out ++ (if y.flits.length < 512 then [.packet g y.next q] else []) := by
  have hid : y.id = g := State.fibre?_id hy
  rw [State.sendPacket, hfor, Option.bind_some, hy]
  refine ⟨_, rfl, rfl, State.fibre?_setFibre (x := y) hy hid, rfl⟩

theorem opticalFibres : Claims.OpticalFibres := by
  intro f good b p x pkt s
  have hback : exec (.fibreComesBack f) s = execFibreComesBack f s := rfl
  have hmove : exec (.hashBucketMove b f) s = execHashBucketMove b f s := rfl
  have hretrain : exec (.fibreRetrain f good) s = execFibreRetrain f good s := rfl
  have htransit : exec (.opticalTransit p pkt) s = execOpticalTransit p pkt s := rfl
  refine ⟨fun hf hx hup => ⟨fun seq hseq => ?_, fun hworn hgood => ?_⟩, fun hf hx hdown => ?_, fun old hold hmay hfree => ?_, fun hp hother hrun => ?_⟩
  · have hnak : exec (.opticalNak ⟨f, seq⟩) s = execOpticalNak ⟨f, seq⟩ s := rfl
    have hany : (x.sent.any fun y => y.seq == seq) = true := by
      obtain ⟨y, hy, hs⟩ := hseq
      exact List.any_eq_true.2 ⟨y, hy, beq_iff_eq.2 hs⟩
    rw [hnak, execOpticalNak]
    dsimp only
    rw [if_neg (Nat.not_le.2 hf), hx]
    dsimp only
    rw [if_neg (by simp [hup, hany])]
    rfl
  · have hany : (x.flits.any fun y => decide (16 ≤ y.replays)) = true := by
      obtain ⟨y, hy, hs⟩ := hworn
      exact List.any_eq_true.2 ⟨y, hy, decide_eq_true hs⟩
    have hgo : ¬(x.up = false ∨ (x.flits.any fun y => decide (16 ≤ y.replays)) = false ∨ x.waves < good) := by
      rw [hup, hany]
      exact fun e => e.elim Bool.false_ne_true.symm fun e => e.elim Bool.false_ne_true.symm (Nat.not_lt.2 hgood)
    have hid : x.id = f := State.fibre?_id hx
    obtain ⟨l, hl, hlen⟩ := State.logFibre_foldl f (List.range (x.waves - good)) s
    rw [List.length_range] at hlen
    have hset : ∀ y : Fibre, y.id = f → (({ s with log := l } : State).setFibre y).fibre? f = some y :=
      fun y hy => State.fibre?_setFibre (s := { s with log := l }) (x := x) hx hy
    rw [hretrain, execFibreRetrain, if_neg (Nat.not_le.2 hf), hx]
    dsimp only
    rw [if_neg hgo, hl, State.happens, Option.getD_some]
    refine ⟨_, rfl, ?_⟩
    by_cases h4 : good < 4
    · rw [if_pos h4, if_pos h4]
      exact ⟨hset _ hid, List.length_append.trans (congrArg (· + 1) hlen)⟩
    · rw [if_neg h4, if_neg h4]
      exact ⟨hset _ hid, hlen⟩
  · rw [hback, execFibreComesBack, if_neg (Nat.not_le.2 hf), hx]
    dsimp only
    rw [hdown]
    rfl
  · rw [hmove, execHashBucketMove, hold]
    exact if_pos ⟨hmay, hfree⟩
  · have hgo : ¬(pkt.dst = s.pkgNum ∨ s.siteRuns (.tower (portTower p)) = false) := by
      rw [hrun]
      exact not_or.2 ⟨hother, Bool.false_ne_true.symm⟩
    intro drop
    refine ⟨fun hhops => ?_, fun hhops => ?_⟩
    · rw [htransit, execOpticalTransit, if_neg (Nat.not_le.2 hp), if_neg hgo]
      exact if_pos (by omega)
    intro q
    refine ⟨fun hnone => ?_, fun g y hfor hy => ?_⟩
    · have hsend : s.sendPacket q = none := by
        rw [State.sendPacket, hnone]
        rfl
      rw [htransit, execOpticalTransit, if_neg (Nat.not_le.2 hp), if_neg hgo]
      dsimp only
      rw [if_neg (by omega), hsend]
      rfl
    · obtain ⟨t, hsend, hrest⟩ := State.sendPacket_on hfor hy
      refine ⟨t, ?_, hrest⟩
      rw [htransit, execOpticalTransit, if_neg (Nat.not_le.2 hp), if_neg hgo]
      dsimp only
      rw [if_neg (by omega), hsend]
      rfl

/-- Settles O41: each event of a link, a router and a fibre, by its definition. -/
theorem linksAndFibres : Obligations.LinksAndFibres := ⟨panelLinks, opticalFibres⟩

end Sys2Proof.Machine

/-! PROOFS. Responses and time-outs (O43). -/

namespace Sys2Proof.Machine

/-- What an answer does to the agent that waits for it (R31, R121, R347). -/
def Body.lands : Body → Option (State → State)
  | .refuse a n r c dk => some fun u => u.refuseAt a n r c dk
  | .homeRsp g vals fs => some fun u => u.stallGroup g fun x => x.homeAnswer vals fs
  | .windowRsp g vals => some fun u => u.stallGroup g fun x => x.answered vals
  | .tnowRsp g ns => some fun u => u.stallGroup g fun x => x.answered [ns]
  | .millRsp r v c _ => some fun u => u.stallMill r fun x => if c = 0 then x.answered [v] else x.failed [⟨0, 0, c, false⟩]
  | _ => none

section
variable {s t : State} {k : Nat} {m : Msg} (htake : s.takeMsg k = some (m, t))
include htake

/-- An answer reaches the agent that waits, once it has passed the check of R32 and R35. -/
theorem responseArrival_lands {f : State → State} (hf : m.body.lands = some f) :
    exec (.responseArrival k) s = .next (if (t.accept m).1 then f (t.accept m).2 else (t.accept m).2) := by
  have hexec : exec (.responseArrival k) s = execResponseArrival k s := rfl
  rw [hexec, execResponseArrival, onMsg_taken htake]
  cases hm : m.body with
  | refuse | homeRsp | windowRsp | tnowRsp | millRsp =>
    rw [hm] at hf
    cases hf
    rfl
  | _ =>
    rw [hm] at hf
    cases hf

theorem watermarkNotice_taken {x : Site} {v : Nat} (hbody : m.body = .watermark x v) :
    let late : OutReq → Bool := fun r => r.site == m.dst && r.responder == x && r.respWm != v
    exec (.watermarkNotice k) s = .next ((t.mem.reqs.filter late).foldl (fun u r => u.failReq r 0x0C)
      (t.mapMem fun y => { y with reqs := y.reqs.filter fun r => !late r })) := by
  have hexec : exec (.watermarkNotice k) s = execWatermarkNotice k s := rfl
  rw [hexec, execWatermarkNotice, onMsg_taken htake, hbody]
  rfl

theorem tnowRequestArrival_taken {g : GroupRef} {q : Nat} (hbody : m.body = .tnow g q) :
    exec (.tnowRequestArrival k) s = .next (t.respond m .rsp (.tnowRsp g (t.now m.dst))) := by
  have hexec : exec (.tnowRequestArrival k) s = execTnowRequestArrival k s := rfl
  rw [hexec, execTnowRequestArrival, onMsg_taken htake, hbody]
  rfl

end

/-- A response of an older watermark is dropped and counted (R32). -/
theorem State.accept_stale {s : State} {m : Msg} (h : s.wm m.dst ≠ m.reqWm) : s.accept m = (false, s.regCount (offLink m.dst + 4)) := if_pos h

/-- A response whose request is no longer outstanding is dropped and counted (R35). -/
theorem State.accept_late {s : State} {m : Msg} (hwm : s.wm m.dst = m.reqWm) (htag : m.tag ≠ 0)
    (hnone : (s.mem.reqs.all fun r => !(r.site == m.dst && r.tag == m.tag)) = true) : s.accept m = (false, s.regCount (offLink m.dst + 8)) := by
  have hany : (s.mem.reqs.any fun r => r.site == m.dst && r.tag == m.tag) = false := by
    rw [List.all_eq_not_any_not] at hnone
    simpa only [Bool.not_not, Bool.not_eq_true'] using hnone
  rw [State.accept, if_neg (Classical.not_not.2 hwm), if_neg htag, hany]
  rfl

/-- Settles O43: what each answer leaves of the agent it reaches, and when a request and its tag end. -/
theorem responsesAndTimeouts : Obligations.ResponsesAndTimeouts := by
  intro k m s t site tag
  refine ⟨fun htake => ?_, State.accept_stale, State.accept_late, fun r since hr hruns hsent hlimit => ?_, fun r hr hruns hlimit => ?_⟩
  · intro landed
    refine ⟨fun g vals fs hbody => responseArrival_lands htake (congrArg Body.lands hbody), fun g vals hbody => responseArrival_lands htake (congrArg Body.lands hbody),
      fun g ns hbody => responseArrival_lands htake (congrArg Body.lands hbody), fun r v c w hbody => responseArrival_lands htake (congrArg Body.lands hbody),
      fun a n r c dk hbody => responseArrival_lands htake (congrArg Body.lands hbody), fun x v hbody => watermarkNotice_taken htake hbody,
      fun g q hbody => tnowRequestArrival_taken htake hbody⟩
  · have hexec : exec (.requestTimeout site tag) s = execRequestTimeout site tag s := rfl
    have hgo : ¬(s.siteRuns site = false ∨ (match some since with | some t => decide (s.now site - t < r.limit) | none => true) = true) := by
      rw [hruns]
      rintro (h | h)
      · exact Bool.false_ne_true h.symm
      · exact Nat.not_lt.2 hlimit (of_decide_eq_true h)
    rw [hexec, execRequestTimeout, hr]
    dsimp only
    rw [hsent]
    exact if_neg hgo
  · have hexec : exec (.retiredTagRelease site tag) s = execRetiredTagRelease site tag s := rfl
    have hgo : ¬(s.siteRuns site = false ∨ s.now site - r.since < 2 * r.xto) := by
      rw [hruns]
      exact not_or.2 ⟨Bool.false_ne_true.symm, Nat.not_lt.2 hlimit⟩
    rw [hexec, execRetiredTagRelease, hr]
    exact if_neg hgo

end Sys2Proof.Machine

/-! PROOFS. Records (O46). -/

namespace Sys2Proof.Machine

/-! ### Pulling a record (R54, R55, R57, R59) -/

section
variable {s : State} {q : Nat} (hq : q < 256) (hready : s.boot.ready = true) (hrun : s.arbRuns = true)
include hready hrun in
theorem State.mayPull_of (hon : bit (s.reg (offQCFG q)) 31 = true) (hgo : bit (s.reg (offQSTAT q)) 31 = false) (hmore : s.reg (offQHEAD q) ≠ s.reg (offQTAIL q))
    (hfree : ∀ a ∈ s.sched.admitting, a.q ≠ q) : s.mayPull q = true := by
  have hmore' : (s.qHead q != s.qTail q) = true := bne_iff_ne.2 hmore
  have hon' : s.qEn q = true := hon
  have hgo' : s.qStop q = false := hgo
  rw [State.mayPull, hready, hrun, hon', hgo', hmore', State.admittingOf_eq_false.2 hfree]
  rfl

include hq

/-- A record in host memory, of a queue without a head shadow, is copied as it stands. -/
theorem exec_recordPull_host (ext : List (BitVec 8)) (hpull : s.mayPull q = true) (hloc : s.qLoc q = 1) (hshadow : s.reg (offQHSH q) = 0)
    (hrise : (s.mgmt.map fun e => e.1).Pairwise (· < ·)) : exec (.recordPull q ext) s = .next { s with
      mgmt := (s.setReg (offQHEAD q) ((s.qHead q + 1) % 2 ^ 32)).mgmt
      sched := { s.sched with admitting := s.sched.admitting ++ [⟨q, s.qHead q,
        s.mem.host.read (s.qPort q * 2 ^ 64 + s.reg (offQBASE q) + 256 * (s.qHead q % 2 ^ s.qLog q)) 256, s.qAsid q, s.qPort q, s.qLoc q,
        bits (s.reg (offQBASE q)) 57 48, false⟩] } } := by
  have hexec : exec (.recordPull q ext) s = execRecordPull q ext s := rfl
  have hmay : ¬s.mayPull q = false := by
    rw [hpull]
    exact Bool.false_ne_true.symm
  have hbytes : s.recordBytes q ext = .ok (s.mem.host.read (s.qPort q * 2 ^ 64 + s.reg (offQBASE q) + 256 * (s.qHead q % 2 ^ s.qLog q)) 256) s := by
    rw [State.recordBytes, hloc]
    rfl
  rw [hexec, execRecordPull, if_neg (Nat.not_le.2 hq), if_neg hmay, if_neg (by rw [hloc]; decide)]
  dsimp only
  rw [hbytes]
  dsimp only
  have hzero : (s.setReg (offQHEAD q) ((s.qHead q + 1) % 2 ^ 32)).reg (offQHSH q) = 0 := by
    rw [State.reg_setReg_other hrise _ (by simp [offQHEAD, offQHSH]), hshadow]
  rw [State.headShadow]
  exact congrArg s.happens (if_pos hzero)

end

theorem recordsArePulled : Claims.RecordsArePulled := by
  intro q s hq hready hrun off cfg head base stat shadow
  have hfail : exec (.recordReadFail q) s = execRecordReadFail q s := rfl
  have hsh : exec (.headShadowFail q) s = execHeadShadowFail q s := rfl
  refine ⟨fun hon hgo hmore hfree => ?_, fun hshadow hhead => ?_⟩
  · have hpull := State.mayPull_of hready hrun hon hgo hmore hfree
    refine ⟨fun ext hloc hshadow hrise => ?_, ?_⟩
    · have hloc' : s.qLoc q = 1 := hloc
      rw [exec_recordPull_host hq ext hpull hloc hshadow hrise, hloc']
      rfl
    · rw [hfail, execRecordReadFail, if_neg (Nat.not_le.2 hq), if_neg (by rw [hpull]; exact Bool.false_ne_true.symm)]
      rfl
  · have hgo : ¬(s.reg (offQHSH q) = 0 ∨ s.qHead q = 0 ∨ s.arbRuns = false) := by
      rw [hrun]
      exact not_or.2 ⟨hshadow, not_or.2 ⟨hhead, Bool.false_ne_true.symm⟩⟩
    rw [hsh, execHeadShadowFail, if_neg (Nat.not_le.2 hq), if_neg hgo]
    rfl

/-! ### Admission (R71, R72, R74, R79) -/

theorem State.logHazards_eq (s : State) (k : Task) : ∃ l, s.logHazards k = { s with log := l } := by
  unfold State.logHazards
  generalize s.sched.tasks.filter _ = es
  induction es generalizing s with
  | nil => exact ⟨s.log, rfl⟩
  | cons e es ih =>
    rw [List.foldl_cons]
    split
    · exact ih (s.logArbiter _ _ _ _)
    · exact ih s

/-- While no enable of its queue is held, nothing follows a record that leaves admission. -/
theorem State.releaseHeld_none {s : State} (q : Nat) (h : s.sched.heldEnable = []) : s.releaseHeld q = s := by
  rw [State.releaseHeld, h]
  split <;> rfl

theorem State.admitted_none {s : State} (a : Admission) (tid : Option Nat) (h : s.sched.heldEnable = []) : s.admitted a tid =
    { s with sched := { s.sched with
      admitting := s.sched.admitting.erase a
      known := s.sched.known ++ [({ q := a.q, index := a.index, tid := tid } : Admitted)] } } := State.releaseHeld_none a.q h

theorem Task.released_fields (k : Task) : k.released.tid = k.tid ∧ k.released.q = k.q ∧ k.released.index = k.index ∧ k.released.deckles = k.deckles ∧
    k.released.launch = k.launch ∧ k.released.depcnt = k.depcnt ∧ k.released.doomed = k.doomed := by
  unfold Task.released
  split
  · split <;> exact ⟨rfl, rfl, rfl, rfl, rfl, rfl, rfl⟩
  · exact ⟨rfl, rfl, rfl, rfl, rfl, rfl, rfl⟩

theorem Task.released_waits {k : Task} (h : k.depcnt ≠ 0) : k.released = k := if_neg fun e => h e.2
theorem Task.released_goes {k : Task} (hst : k.st = .waitdep) (h : k.depcnt = 0) : k.released =
    if k.doomed then { k with st := .done, status := .abandoned } else { k with st := .waithaz } := if_pos ⟨hst, h⟩

theorem State.depx_foldl (q index cause : Nat) (es : List PendingDec) (s : State) :
    ∃ l, es.foldl (fun s e => s.depx e.tid q index cause) s = { s with log := l } := by
  induction es generalizing s with
  | nil => exact ⟨s.log, rfl⟩
  | cons e es ih => exact ih (s.depx e.tid q index cause)

/-- The pending entries that name a record (R74). -/
def State.pendingOf (t : State) (a : Admission) : List PendingDec := t.sched.pending.filter fun e => e.q == a.q && e.index == a.index

/-- The task of an admitted record, its pending entries applied (R71, R72, R74). -/
def State.admittedTask (t : State) (a : Admission) (p : Parsed) : Task :=
  let k := a.task p t.sched.nextTid
  let used := (t.pendingOf a).take k.depcnt
  let edge (e : Task) : Bool := e.st != .done && e.cscope == 5 && (overlapAt (e.deckles.filter fun d => d.w) k.deckles).isSome
  Task.released { k with depcnt := k.depcnt - used.length, doomed := used.any fun e => e.doom
                         sysEdge := (used.any fun e => e.sys) || t.sched.tasks.any edge }

theorem State.admitTask_sched {t : State} {a : Admission} {p : Parsed} (hheld : t.sched.heldEnable = []) :
    (t.admitTask a p).sched.tasks = t.sched.tasks ++ [t.admittedTask a p] ∧ (t.admitTask a p).sched.nextTid = nextTaskId t.sched.nextTid := by
  obtain ⟨l, hl⟩ := t.logHazards_eq (a.task p t.sched.nextTid)
  unfold State.admitTask
  dsimp only
  rw [hl]
  obtain ⟨l', hl'⟩ := State.depx_foldl a.q a.index 0 ((t.pendingOf a).drop ((t.pendingOf a).take (a.task p t.sched.nextTid).depcnt).length) { t with log := l }
  rw [State.pendingOf] at hl'
  rw [hl', State.admitted_none]
  · exact ⟨rfl, rfl⟩
  · exact hheld

/-- What the task of an admitted record is. -/
theorem State.admittedTask_fields (t : State) (a : Admission) (p : Parsed) : let k := t.admittedTask a p
    k.tid = t.sched.nextTid ∧ k.q = a.q ∧ k.index = a.index ∧ k.deckles = p.deckles ∧ k.launch = p.launch ∧
      k.depcnt = fld a.bytes 4 4 - (t.pendingOf a).length ∧ (k.depcnt ≠ 0 → k.st = .waitdep) ∧ (k.depcnt = 0 → k.doomed = false → k.st = .waithaz) ∧
      (k.depcnt = 0 → k.doomed = true → k.st = .done ∧ k.status = .abandoned) := by
  intro k
  let used := (t.pendingOf a).take (fld a.bytes 4 4)
  have hk : ∃ sys, k = Task.released { a.task p t.sched.nextTid with
      depcnt := fld a.bytes 4 4 - used.length, doomed := used.any fun e => e.doom, sysEdge := sys } := ⟨_, rfl⟩
  obtain ⟨sys, hk⟩ := hk
  generalize hj : ({ a.task p t.sched.nextTid with
    depcnt := fld a.bytes 4 4 - used.length, doomed := used.any fun e => e.doom, sysEdge := sys } : Task) = j at hk
  have hwait : j.st = .waitdep := by rw [← hj, Admission.task]
  have hcount : j.depcnt = fld a.bytes 4 4 - (t.pendingOf a).length := by
    rw [← hj]
    show fld a.bytes 4 4 - ((t.pendingOf a).take (fld a.bytes 4 4)).length = _
    rw [List.length_take]
    omega
  obtain ⟨htid, hq, hindex, hdeckles, hlaunch, hdep, hdoom⟩ := j.released_fields
  rw [hk, htid, hq, hindex, hdeckles, hlaunch, hdep, hdoom]
  refine ⟨by rw [← hj, Admission.task], by rw [← hj, Admission.task], by rw [← hj, Admission.task], by rw [← hj, Admission.task],
    by rw [← hj, Admission.task], hcount, fun h => ?_, fun h hno => ?_, fun h hyes => ?_⟩
  · rw [Task.released_waits h, hwait]
  · rw [Task.released_goes hwait h, hno]
    rfl
  · rw [Task.released_goes hwait h, hyes]
    exact ⟨rfl, rfl⟩

section
variable {q : Nat} {s t : State} {a : Admission} {rest : List Admission} {p : Parsed} (hrun : s.arbRuns = true)
  (hadm : s.sched.admitting = a :: rest) (haq : a.q = q)
include hrun hadm haq

/-- The first record in admission is taken, by the event that its state calls for. -/
theorem exec_admission : exec (if a.paused then .admissionRetry q else .taskAdmit q) s = s.happens (s.tryAdmit a) := by
  cases hp : a.paused with
  | true =>
    have hexec : exec (.admissionRetry q) s = execAdmissionRetry q s := rfl
    have hfind : (s.sched.admitting.find? fun b => b.q == q && b.paused) = some a := by
      rw [hadm, List.find?_cons_of_pos (by simp [haq, hp])]
    rw [if_pos rfl, hexec, execAdmissionRetry, hfind]
    exact if_pos hrun
  | false =>
    have hexec : exec (.taskAdmit q) s = execTaskAdmit q s := rfl
    have hfind : (s.sched.admitting.find? fun b => b.q == q && !b.paused) = some a := by
      rw [hadm, List.find?_cons_of_pos (by simp [haq, hp])]
    rw [if_neg Bool.false_ne_true, hexec, execTaskAdmit, hfind]
    exact if_pos hrun

theorem exec_admission_room (hcheck : a.check s = .ok p t) (hroom : t.activeDeckles + p.deckles.length ≤ 4096) :
    exec (if a.paused then .admissionRetry q else .taskAdmit q) s = .next (t.admitTask a p) := by
  have htry : s.tryAdmit a = some (t.admitTask a p) := by
    have hno := Nat.not_lt.2 hroom
    delta State.tryAdmit
    rw [hcheck]
    dsimp only
    rw [if_neg hno]
  rw [exec_admission hrun hadm haq, State.happens, htry, Option.getD_some]

theorem exec_admission_full (hcheck : a.check s = .ok p t) (hfull : 4096 < t.activeDeckles + p.deckles.length) (hp : a.paused = false) :
    exec (if a.paused then .admissionRetry q else .taskAdmit q) s = .next { t with sched := { t.sched with
      admitting := t.sched.admitting.map fun x => if x = a then { a with paused := true } else x } } := by
  have htry : s.tryAdmit a = some { t with sched := { t.sched with
      admitting := t.sched.admitting.map fun x => if x = a then { a with paused := true } else x } } := by
    delta State.tryAdmit
    rw [hcheck]
    dsimp only
    rw [if_pos hfull, if_neg (by rw [hp]; exact Bool.false_ne_true)]
  rw [exec_admission hrun hadm haq, State.happens, htry, Option.getD_some]

end

/-- An owed message is sent, or held pending, once what it follows has been performed (R49, R66, R67). -/
theorem exec_msixSend {tid : Nat} {s : State} {e : Irq} (hrun : s.arbRuns = true) (he : (s.sched.irqs.find? fun x => x.tid == tid) = some e)
    (hnone : e.after = none → s.mem.backInv = []) (hsome : ∀ r, e.after = some r → r ∉ s.log) :
    exec (.msixSend tid) s = .next ({ s with sched := { s.sched with irqs := s.sched.irqs.erase e } }.sendMsix e.port e.vec) := by
  have hexec : exec (.msixSend tid) s = execMsixSend tid s := rfl
  have hwaits : (match e.after with | some r => s.log.contains r | none => !s.mem.backInv.isEmpty) = false := by
    cases hafter : e.after with
    | none => rw [hnone hafter]; rfl
    | some r => simpa using hsome r hafter
  rw [hexec, execMsixSend, he]
  exact if_neg (by rw [hrun]; exact not_or.2 ⟨Bool.false_ne_true.symm, fun h => Bool.false_ne_true (hwaits.symm.trans h)⟩)

theorem recordsAreAdmitted : Claims.RecordsAreAdmitted := by
  intro q tid s hrun
  refine ⟨fun a rest p t hadm haq hcheck hheld => ?_, fun e he hnone hsome => ?_⟩
  · subst haq
    intro i mine
    refine ⟨fun hroom => ?_, fun hfull hp => exec_admission_full hrun hadm rfl hcheck hfull hp⟩
    obtain ⟨htasks, hnext⟩ := State.admitTask_sched (a := a) (p := p) hheld
    obtain ⟨htid, hq, hindex, hdeckles, hlaunch, hdep, hst⟩ := t.admittedTask_fields a p
    exact ⟨t.admitTask a p, t.admittedTask a p, exec_admission_room hrun hadm rfl hcheck hroom,
      htasks ▸ List.mem_append_right _ (List.mem_singleton_self _), htid, hq, hindex, hdeckles, hlaunch, hdep,
      hst.1, hst.2.1, hst.2.2, hnext⟩
  · intro u
    rw [exec_msixSend hrun he hnone hsome]
    refine ⟨fun hopen => congrArg _ (if_pos hopen), fun hmasked hpending => ?_⟩
    have hclosed : ¬s.link.msixOpen.contains (e.port, e.vec) = true := by
      rw [hmasked]
      exact Bool.false_ne_true
    have hnew : ¬s.link.msixPending.contains (e.port, e.vec) = true := by
      rw [hpending]
      exact Bool.false_ne_true
    exact congrArg _ ((if_neg hclosed).trans (if_neg hnew))

/-- Settles O46: a record copied as it stands, the task it becomes, and the message owed after it. -/
theorem recordsEnter : Obligations.RecordsEnter := ⟨recordsArePulled, recordsAreAdmitted⟩

end Sys2Proof.Machine

/-! PROOFS. Hazards, placement and reservation (O47). -/

namespace Sys2Proof.Machine

/-! ### Hazards (R72, R76) -/

/-- What an earlier task must have come to for a later one not to wait for it. -/
theorem State.blocks_false {s : State} {e k : Task}
    (h : (e.st = .done ∨ (e.st = .drain ∧ e.drainDies = [] ∧ s.taskWrites e.tid = false)) ∨
      ((∀ a ∈ e.deckles, ∀ b ∈ k.deckles, a.w = true → a.overlap b = none) ∧
        (e.st = .drain ∨ ∀ a ∈ e.deckles, ∀ b ∈ k.deckles, b.w = true → a.overlap b = none))) : s.blocks e k = false := by
  have hmeets (f : Deckle → Deckle → Bool) (hf : ∀ a ∈ e.deckles, ∀ b ∈ k.deckles, f a b = true → a.overlap b = none) :
      (e.deckles.any fun a => k.deckles.any fun b => f a b && (a.overlap b).isSome) = false := by
    rw [List.any_eq_false]
    intro a ha hany
    obtain ⟨b, hb, hboth⟩ := List.any_eq_true.1 hany
    obtain ⟨hfab, hsome⟩ := (Bool.and_eq_true _ _).mp hboth
    rw [hf a ha b hb hfab] at hsome
    cases hsome
  rw [State.blocks]
  dsimp only
  rcases h with hdone | ⟨hwrite, hread⟩
  · have hdrained : s.drained e = true := by
      rcases hdone with h | ⟨hst, hdies, hwrites⟩
      · simp [State.drained, h]
      · simp [State.drained, hst, hdies, hwrites]
    have hst : (e.st != .drain && e.st != .done) = false := by
      rcases hdone with h | ⟨h, -⟩ <;> rw [h] <;> rfl
    rw [hdrained, Bool.and_assoc, hst]
    simp
  · rw [hmeets (fun a _ => a.w) hwrite]
    rcases hread with h | h
    · simp [h]
    · rw [hmeets (fun _ b => b.w) h]
      rfl

theorem hazardsAreReleased : Claims.HazardsAreReleased := by
  intro tid k s hk hst hrun hearlier
  have hexec : exec (.hazardRelease tid) s = execHazardRelease tid s := rfl
  have hnone : ((s.earlier tid).any fun e => s.blocks e k) = false := by
    rw [List.any_eq_false]
    intro e he
    rw [State.blocks_false (hearlier e he)]
    exact Bool.false_ne_true
  rw [hexec, execHazardRelease, hk]
  dsimp only
  rw [if_neg (by simp [hst, hrun, hnone])]
  rfl

/-! ### What putting a task back leaves (R72, R86) -/

theorem State.task?_setTask_of {s : State} {k j : Task} {tid : Nat} (hid : k.tid = tid) (h : s.task? tid = some j) : (s.setTask k).task? tid = some k := by
  subst hid
  exact State.task?_setTask s h

/-- The state that a task takes when it is put back. -/
def Task.settledSt (k : Task) : TaskSt := match k.st with | .waitdep => k.st | .waithaz => k.st | .drain => k.st | .done => k.st | _ => k.stOf

/-- A task put back is as it was given, but for its state and the time that it has waited. -/
theorem State.task?_putTask {s : State} {k old : Task} (h : s.task? k.tid = some old) :
    ∃ waited since, (s.putTask k).task? k.tid = some { k with st := k.settledSt, waited := waited, since := since } := by
  obtain ⟨k', hk'⟩ : ∃ k' : Task, k' = { k with st := k.settledSt } := ⟨_, rfl⟩
  have hput : s.putTask k = s.setTask (k'.clocked old.st (s.boot.time.getD 0 0)) := by
    have hsame : (match k.st with | .waitdep => k | .waithaz => k | .drain => k | .done => k | _ => { k with st := k.stOf }) = k' := by
      rw [hk', Task.settledSt]
      cases hst : k.st <;> simp only [← hst]
    rw [← hsame, State.putTask, h] <;> rfl
  have hclock : ∃ waited since, k'.clocked old.st (s.boot.time.getD 0 0) = { k with st := k.settledSt, waited := waited, since := since } := by
    rw [hk']
    unfold Task.clocked
    split
    · exact ⟨_, _, rfl⟩
    · split <;> exact ⟨_, _, rfl⟩
  obtain ⟨waited, since, hclock⟩ := hclock
  rw [hput, hclock]
  exact ⟨waited, since, State.task?_setTask s h⟩

/-! ### Placement (R72, R86, R88, R93, R94) -/

theorem State.takeBlocks_length (s : State) (size n : Nat) : ∀ (busy : List (Nat × Nat)) (bs : List BlockLoc),
    s.takeBlocks size n busy = some bs → bs.length = n := by
  induction n with
  | zero =>
    intro busy bs h
    cases h
    rfl
  | succ n ih =>
    intro busy bs h
    rw [State.takeBlocks] at h
    split at h
    · obtain ⟨rest, hrest, rfl⟩ := Option.map_eq_some_iff.1 h
      rw [List.length_cons, ih _ _ hrest]
    · cases h

theorem State.startBlocks_length {s : State} {k : Task} {teams : List Nat} {bs : List BlockLoc} (h : s.startBlocks k teams = some bs) :
    bs.length = teams.length := by
  rw [State.startBlocks] at h
  split at h
  · cases h
    exact List.length_map _
  · rw [State.blocksFor] at h
    split at h
    · cases h
      exact List.length_map _
    · exact s.takeBlocks_length _ _ _ _ h

/-- Seating teams adds them, and changes nothing else. -/
theorem State.seat_eq {k : Task} {set : Nat} {cw : Nat × Nat × Nat} {teams : List (Nat × TeamSpot × BlockLoc)} : ∀ {s t : State},
    s.seat k set cw teams = some t → ∃ ts : List Team, ts.length = teams.length ∧ t = { s with teams := s.teams ++ ts } := by
  induction teams with
  | nil =>
    intro s t h
    cases h
    exact ⟨[], rfl, by rw [List.append_nil]⟩
  | cons x xs ih =>
    intro s t h
    obtain ⟨n, p, b⟩ := x
    rw [State.seat] at h
    split at h
    · obtain ⟨ts, hlen, rfl⟩ := ih h
      exact ⟨Team.reserved k.tid n set p cw b :: ts, congrArg (· + 1) hlen, by rw [List.append_assoc]; rfl⟩
    · cases h

/-- The set of a task whose places are taken. -/
def Task.placedSets (k : Task) (set : Nat) (dies : List Nat) (resume : Bool) : List TeamSet :=
  k.sets.map fun x => if x.k = set then { x with st := .placed dies resume, reserved := none } else x

/-- A task one of whose sets is placed waits no longer. -/
theorem Task.stOf_placed {k : Task} {x : TeamSet} {dies : List Nat} {r : Bool} (hx : x ∈ k.sets) (hst : x.st = .placed dies r) :
    k.stOf.waits = false := by
  rw [Task.stOf]
  split
  · rfl
  · split
    · rfl
    · split
      · rfl
      · rename_i hno
        exact absurd (List.any_eq_true.2 ⟨x, hx, by simp only [hst]⟩) hno

theorem State.enterPlaced_leaves {s t : State} {k : Task} {set cwbase : Nat} {teams : List (Nat × TeamSpot × BlockLoc)} {resume : Bool}
    (hk : s.task? k.tid = some k) (hset : ∃ x ∈ k.sets, x.k = set) (h : s.enterPlaced k set teams cwbase resume = some t) :
    t.teams.length = s.teams.length + teams.length ∧ t.mem = s.mem ∧ t.groups = s.groups ∧
      ∃ k', t.task? k.tid = some k' ∧ k'.st.waits = false ∧
        ∀ y ∈ k'.sets, y.k = set → y.st = .placed (spotDies (teams.map fun x => x.2.1)) resume ∧ y.reserved = none := by
  cases teams with
  | nil => cases h
  | cons x xs =>
    rw [State.enterPlaced] at h
    dsimp only at h
    split at h
    · cases h
    · obtain ⟨u, hseat, hput⟩ := Option.map_eq_some_iff.1 h
      obtain ⟨ts, hlen, rfl⟩ := State.seat_eq hseat
      subst hput
      generalize hdies : spotDies ((x :: xs).map fun y => y.2.1) = dies
      generalize hkept : k.couched.filter _ = kept
      have hframe := fun j => State.putTask_frame { s with teams := s.teams ++ ts } j
      obtain ⟨sc, hsc⟩ := hframe { k with st := .placed, couched := kept, sets := k.placedSets set dies resume }
      have hsets : ({ k with st := .placed, couched := kept, sets := k.placedSets set dies resume } : Task).stOf.waits = false := by
        obtain ⟨y, hy, hyk⟩ := hset
        exact Task.stOf_placed (x := { y with st := .placed dies resume, reserved := none }) (List.mem_map.2 ⟨y, hy, if_pos hyk⟩) rfl
      obtain ⟨waited, since, htask⟩ := State.task?_putTask (s := { s with teams := s.teams ++ ts })
        (k := { k with st := .placed, couched := kept, sets := k.placedSets set dies resume }) hk
      refine ⟨?_, ?_, ?_, _, htask, hsets, fun y hy hyk => ?_⟩
      · show (State.putTask _ { k with st := .placed, couched := kept, sets := k.placedSets set dies resume }).teams.length = _
        rw [hsc, List.length_append, hlen]
      · show (State.putTask _ { k with st := .placed, couched := kept, sets := k.placedSets set dies resume }).mem = _
        rw [hsc]
      · show (State.putTask _ { k with st := .placed, couched := kept, sets := k.placedSets set dies resume }).groups = _
        rw [hsc]
      · obtain ⟨z, hz, hzy⟩ := List.mem_map.1 hy
        split at hzy
        · rw [← hzy]
          exact ⟨rfl, rfl⟩
        · rename_i hne
          exact absurd (hzy ▸ hyk) hne

theorem setsArePlaced : Claims.SetsArePlaced := by
  intro tid set spots cwbase k x s hk hrun hplace hgo hnext hx placed
  have hid : k.tid = tid := State.task?_tid s hk
  have hset : ∃ x ∈ k.sets, x.k = set := ⟨x, List.mem_of_find?_eq_some hnext, hx⟩
  have hk' : s.task? k.tid = some k := hid.symm ▸ hk
  refine ⟨fun hst t h => ?_, fun hst t h => ?_⟩
  · have hexec : exec (.taskPlace tid set spots cwbase) s = execTaskPlace tid set spots cwbase s := rfl
    have hgo' : ¬(k.placeable = false ∨ x.k ≠ set ∨ x.st ≠ .unplaced ∨ s.arbRuns = false ∨ s.mayGo k = false) := by
      simp [hplace, hx, hst, hrun, hgo]
    have hrunexec : exec (.taskPlace tid set spots cwbase) s = .next t := by
      rw [hexec, execTaskPlace, hk]
      dsimp only
      rw [hnext]
      dsimp only
      rw [if_neg hgo', h]
      rfl
    rw [State.place] at h
    split at h
    · cases h
    · rename_i hlen
      rw [ne_eq, Classical.not_not] at hlen
      split at h
      · rename_i bs hbs
        have hbl := State.startBlocks_length hbs
        have hspots : ((k.launch.setTeams set).zip (spots.zip bs)).map (fun y => y.2.1) = spots := by
          have hfields : (fun y : Nat × TeamSpot × BlockLoc => y.2.1) = Prod.fst ∘ Prod.snd := rfl
          rw [hfields, ← List.map_map, List.map_snd_zip (by simp [hbl, hlen]), List.map_fst_zip (by omega)]
        obtain ⟨hteams, hmem, hgroups, hout⟩ := State.enterPlaced_leaves hk' hset h
        rw [hspots] at hout
        refine ⟨hrunexec, ?_, hmem, hgroups, hid ▸ hout⟩
        rw [hteams, List.length_zip, List.length_zip]
        omega
      · cases h
  · have hexec : exec (.taskResume tid set spots) s = execTaskResume tid set spots s := rfl
    have hgo' : ¬(k.placeable = false ∨ x.k ≠ set ∨ x.st ≠ .stabled ∨ s.arbRuns = false ∨ s.mayGo k = false) := by
      simp [hplace, hx, hst, hrun, hgo]
    have hrunexec : exec (.taskResume tid set spots) s = .next t := by
      rw [hexec, execTaskResume, hk]
      dsimp only
      rw [hnext]
      dsimp only
      rw [if_neg hgo', h]
      rfl
    rw [State.resumeAt] at h
    split at h
    · cases h
    · rename_i hbases
      rw [ne_eq, Classical.not_not] at hbases
      have hlen : spots.length = (s.savedOf k.tid set).length := by
        have := congrArg List.length hbases
        simpa using this
      have hspots : (((s.savedOf k.tid set).zip spots).map fun y => ((y.1.team, y.2, BlockLoc.none) : Nat × TeamSpot × BlockLoc)).map (fun y => y.2.1) = spots := by
        rw [List.map_map]
        exact List.map_snd_zip (by omega)
      obtain ⟨hteams, hmem, hgroups, hout⟩ := State.enterPlaced_leaves hk' hset h
      rw [hspots] at hout
      refine ⟨hrunexec, ?_, hmem, hgroups, hid ▸ hout⟩
      rw [hteams, List.length_map, List.length_zip]
      omega

/-! ### Reservation (R86) -/

/-- A place is reserved for each team, on the cores that are offered. -/
theorem State.reserveSpots_leaves {s : State} {k : Task} {set : Nat} {cores : List CoreId} {bases : List (Option Nat)} : ∀ {got ps : List TeamSpot},
    s.reserveSpots k set cores bases got = some ps → ps.length = got.length + bases.length ∧ ∀ p ∈ ps, p ∈ got ∨ p.core ∈ cores := by
  induction bases with
  | nil =>
    intro got ps h
    cases h
    exact ⟨rfl, fun p hp => .inl hp⟩
  | cons b bs ih =>
    intro got ps h
    rw [State.reserveSpots] at h
    obtain ⟨p, hp, hrest⟩ := Option.bind_eq_some_iff.1 h
    obtain ⟨c, hc, hpc⟩ := List.exists_of_findSome?_eq_some hp
    have hcore : p.core = c := by
      obtain ⟨a, -, ha⟩ := Option.bind_eq_some_iff.1 hpc
      split at ha
      · cases ha
        rfl
      · cases ha
    obtain ⟨hlen, hmem⟩ := ih hrest
    refine ⟨by rw [hlen, List.length_append, List.length_singleton, List.length_cons]; omega, fun q hq => ?_⟩
    rcases hmem q hq with hq | hq
    · rcases List.mem_append.1 hq with hq | hq
      · exact .inl hq
      · rw [List.mem_singleton.1 hq, hcore]
        exact .inr hc
    · exact .inr hq

theorem State.reserveIn_leaves {s : State} {k : Task} {set : Nat} {u : List (Nat × Nat)} {r : Reserve} (h : s.reserveIn k set u = some r) :
    r.spots.length = (if s.savedOf k.tid set = [] then (k.launch.setTeams set).length else (s.savedOf k.tid set).length) ∧
      ∀ p ∈ r.spots, s.coreOpen p.core = true := by
  rw [State.reserveIn] at h
  dsimp only at h
  obtain ⟨ps, hps, hr⟩ := Option.bind_eq_some_iff.1 h
  have hspots : r.spots = ps := by
    cases ps with
    | nil => cases hr
    | cons p ps =>
      obtain ⟨a, -, ha⟩ := Option.map_eq_some_iff.1 hr
      rw [← ha]
  obtain ⟨hlen, hmem⟩ := State.reserveSpots_leaves hps
  rw [hspots]
  refine ⟨?_, fun p hp => ?_⟩
  · rw [hlen, List.length_nil, Nat.zero_add]
    split <;> exact List.length_map _
  · rcases hmem p hp with hp | hp
    · cases hp
    · exact (List.mem_filter.1 (mem_sortBy.1 hp)).2

/-- The one of a list with the most room is in it. -/
theorem foldl_pick_mem {α : Type} (better : α → α → Bool) (xs : List α) (x : α) :
    xs.foldl (fun a b => if better a b then b else a) x ∈ x :: xs := by
  induction xs generalizing x with
  | nil => exact List.mem_singleton_self x
  | cons y ys ih =>
    rw [List.foldl_cons]
    split
    · exact List.mem_cons_of_mem _ (ih y)
    · rcases List.mem_cons.1 (ih x) with h | h
      · rw [h]
        exact List.mem_cons_self
      · exact List.mem_cons_of_mem _ (List.mem_cons_of_mem _ h)

theorem longWaitsReserveCores : Claims.LongWaitsReserveCores := by
  intro tid set k x s hk hrun hplace hx hxk hwait h hunit
  have hid : k.tid = tid := State.task?_tid s hk
  have hexec : exec (.ageingReserve tid set) s = execAgeingReserve tid set s := rfl
  have hgo : ¬(x.k ≠ set ∨ k.placeable = false ∨ s.arbRuns = false ∨ s.waitedNow k ≤ (11 - k.prio) * 1000000) := by
    rw [hplace, hrun]
    rintro (e | e | e | e)
    · exact e hxk
    · exact Bool.false_ne_true e.symm
    · exact Bool.false_ne_true e.symm
    · exact Nat.not_lt.2 e hwait
  rw [hexec, execAgeingReserve, hk]
  dsimp only
  rw [hx]
  dsimp only
  rw [if_neg hgo]
  generalize hunits : ((if (k.hint set).strict then s.namedUnits k.launch.coloc (k.hint set) else s.units k.launch.coloc).filter
    fun u => (s.reserveIn k set u).isSome) = units
  cases units with
  | nil =>
    obtain ⟨u, hu, hsome⟩ := hunit
    have hmem : u ∈ ([] : List (List (Nat × Nat))) := hunits ▸ List.mem_filter.2 ⟨hu, hsome⟩
    cases hmem
  | cons u us =>
    dsimp only
    have hpick := foldl_pick_mem (fun a b => decide ((s.unitSpots k set a).length < (s.unitSpots k set b).length)) us u
    simp only [decide_eq_true_eq] at hpick
    generalize us.foldl (fun a b => if (s.unitSpots k set a).length < (s.unitSpots k set b).length then b else a) u = best at hpick ⊢
    obtain ⟨-, hsome⟩ := List.mem_filter.1 (hunits.symm ▸ hpick)
    obtain ⟨r, hr⟩ := Option.isSome_iff_exists.1 hsome
    obtain ⟨hlen, hopen⟩ := State.reserveIn_leaves hr
    rw [hid] at hlen
    refine ⟨_, r, rfl, rfl, ?_, hlen, hopen⟩
    rw [hr]
    exact State.task?_setTask_of hid hk

/-- Settles O47: when a task waits for no other, where its sets go, and what is reserved for one that has waited long. -/
theorem setsAreScheduled : Obligations.SetsAreScheduled := ⟨hazardsAreReleased, setsArePlaced, longWaitsReserveCores⟩

end Sys2Proof.Machine

/-! PROOFS. Edges, teams and mills start (O48). -/

namespace Sys2Proof.Machine

/-! ### Lines that leave a die (R80, R103) -/

theorem MemState.lose_lines (x : MemState) (tower : Nat) (phys : Option Nat) (a : LineId) : (x.lose tower phys a).lines = x.lines := by
  unfold MemState.lose
  split
  · rfl
  · split
    · rfl
    · split
      · split <;> rfl
      · rfl

/-- A write-back is a message or a loss: no line and no task changes. -/
theorem State.writeBack_leaves (s : State) (src n : Node) (a : LineId) (last : Nat) (val mask : BitVec 2048) (late : Bool) (o : WbOwner) :
    (s.writeBack src n a last val mask late o).mem.lines = s.mem.lines ∧ (s.writeBack src n a last val mask late o).sched = s.sched := by
  unfold State.writeBack
  split
  · exact ⟨rfl, rfl⟩
  · exact ⟨MemState.lose_lines _ _ _ _, rfl⟩

/-- What is left of a die's copies of a line, and of the tasks, once it has been flushed. -/
theorem State.flushDie_leaves (s : State) (die : Nat) (a : LineId) (home : Nat) (o : WbOwner) :
    (s.flushDie die a home o).mem.lines = (s.mem.lines.filter fun l => !(l.a == a && nodeDie l.node == some die)) ∧
      (s.flushDie die a home o).sched = s.sched := by
  have hput (m : BitVec 2048) (late : Bool) (t : State) (val : BitVec 2048) :
      (if m = 0 then t else t.writeBack (.l2 die) (.l2 die) a home val m late o).mem.lines = t.mem.lines ∧
        (if m = 0 then t else t.writeBack (.l2 die) (.l2 die) a home val m late o).sched = t.sched := by
    split
    · exact ⟨rfl, rfl⟩
    · exact t.writeBack_leaves _ _ _ _ _ _ _ _
  have hgather : (s.gatherDie die a).2.2.2.mem.lines = (s.mem.lines.filter fun l => !(l.a == a && nodeDie l.node == some die)) ∧
      (s.gatherDie die a).2.2.2.sched = s.sched := ⟨rfl, rfl⟩
  unfold State.flushDie
  generalize s.gatherDie die a = r at hgather
  obtain ⟨val, mask, w, t⟩ := r
  exact ⟨((hput _ _ _ _).1.trans (hput _ _ _ _).1).trans hgather.1, ((hput _ _ _ _).2.trans (hput _ _ _ _).2).trans hgather.2⟩

/-- Flushing some lines of a die leaves none of them there. -/
theorem State.flushes_leave {die : Nat} {o : WbOwner} {last : State → LineId → Nat} (as : List LineId) (s : State) :
    let t := as.foldl (fun s a => s.flushDie die a (last s a) o) s
    t.sched = s.sched ∧ ∀ l ∈ t.mem.lines, l ∈ s.mem.lines ∧ (nodeDie l.node = some die → l.a ∉ as) := by
  induction as generalizing s with
  | nil => exact ⟨rfl, fun l hl => ⟨hl, fun _ => List.not_mem_nil⟩⟩
  | cons a as ih =>
    obtain ⟨hlines, hsched⟩ := s.flushDie_leaves die a (last s a) o
    obtain ⟨hrest, hmem⟩ := ih (s.flushDie die a (last s a) o)
    refine ⟨hrest.trans hsched, fun l hl => ?_⟩
    obtain ⟨hin, hnot⟩ := hmem l hl
    rw [hlines, List.mem_filter] at hin
    refine ⟨hin.1, fun hdie hcons => ?_⟩
    rcases List.mem_cons.1 hcons with heq | hmore
    · simp [heq, hdie] at hin
    · exact hnot hdie hmore

/-- A line of a die that a deckle of a task meets (R80). -/
def Line.inDeckle (l : Line) (asid die : Nat) (d : Deckle) : Prop :=
  nodeDie l.node = some die ∧ l.a.asid = asid ∧ l.attr.dk = true ∧ d.base < (l.a.line + 1) * 256 ∧ l.a.line * 256 < d.base + d.extent

theorem State.mem_deckLines {s : State} {l : Line} {asid die : Nat} {d : Deckle} (hl : l ∈ s.mem.lines) (h : l.inDeckle asid die d) :
    l.a ∈ s.deckLines asid die d := by
  obtain ⟨hdie, hasid, hdk, hlo, hhi⟩ := h
  rw [State.deckLines, List.mem_eraseDups]
  exact List.mem_map.2 ⟨l, List.mem_filter.2 ⟨hl, by simp [hdie, hasid, hdk, hlo, hhi]⟩, rfl⟩

/-- The flushes of every deckle leave the die no line of one, but for those that `keep` holds of. -/
theorem State.deckFlushes_leave {asid die : Nat} {o : WbOwner} {last : State → LineId → Nat} {keep : LineId → Bool} (ds : List Deckle) (s : State) :
    let t := ds.foldl (fun s d => ((s.deckLines asid die d).filter fun a => !keep a).foldl (fun s a => s.flushDie die a (last s a) o) s) s
    t.sched = s.sched ∧ ∀ l ∈ t.mem.lines, l ∈ s.mem.lines ∧ ∀ d ∈ ds, l.inDeckle asid die d → keep l.a = true := by
  induction ds generalizing s with
  | nil => exact ⟨rfl, fun l hl => ⟨hl, fun d hd => by cases hd⟩⟩
  | cons d ds ih =>
    obtain ⟨hsched, hmem⟩ := State.flushes_leave (die := die) (o := o) (last := last) ((s.deckLines asid die d).filter fun a => !keep a) s
    obtain ⟨hrest, hlater⟩ := ih (((s.deckLines asid die d).filter fun a => !keep a).foldl (fun s a => s.flushDie die a (last s a) o) s)
    refine ⟨hrest.trans hsched, fun l hl => ?_⟩
    obtain ⟨hin, hkeep⟩ := hlater l hl
    obtain ⟨hold, hgone⟩ := hmem l hin
    refine ⟨hold, fun e he hdeck => ?_⟩
    rcases List.mem_cons.1 he with heq | hmore
    · subst heq
      refine Classical.byContradiction fun hno => ?_
      exact hgone hdeck.1 (List.mem_filter.2 ⟨State.mem_deckLines hold hdeck, by simpa using hno⟩)
    · exact hkeep e hmore hdeck

theorem edgesAreInvalidated : Claims.EdgesAreInvalidated := by
  intro tid die k s hk hrun hquiet hdue
  have hexec : exec (.edgeInvalidate tid die) s = execEdgeInvalidate tid die s := rfl
  have hid : k.tid = tid := State.task?_tid s hk
  obtain ⟨hsched, hlines⟩ := State.deckFlushes_leave (asid := k.asid) (die := die) (o := .task tid)
    (last := fun s a => match s.mem.line? (.l2 die) a with | some l => l.attr.home | none => 0) (keep := fun a => k.couched.contains (die, a.line)) k.deckles s
  rw [hexec, execEdgeInvalidate, hk]
  dsimp only
  rw [if_neg]
  · refine ⟨_, rfl, State.task?_setTask_of (j := k) hid ?_, fun l hl hdie hasid hdk hdeck => ?_⟩
    · exact (congrArg (fun x : SchedState => x.tasks.find? fun j : Task => j.tid == tid) hsched).trans hk
    · obtain ⟨d, hd, hlo, hhi⟩ := hdeck
      obtain ⟨-, hkeep⟩ := hlines l hl
      exact List.contains_iff_mem.1 (hkeep d hd ⟨hdie, hasid, hdk, hlo, hhi⟩)
  · rw [hrun, hquiet]
    rintro (hno | h | h)
    · obtain ⟨x, hx, ds, r, hst, hmem⟩ := hdue
      rw [List.any_eq_false] at hno
      refine hno x hx ?_
      rw [hst]
      exact List.contains_iff_mem.2 hmem
    · exact Bool.false_ne_true h.symm
    · exact Bool.false_ne_true h

/-! ### Teams that start (R159, R234) -/

/-- Removing a line's instruction lines from a die gives no core one that it had not. -/
theorem State.mem_icache_dropText {s : State} {die : Nat} {a : LineId} {c : CoreId} {l : ILine} (h : l ∈ ((s.dropText die a).core c).icache) :
    l ∈ (s.core c).icache := by
  have hfind : (s.dropText die a).cores.find? (fun k => k.id == c) = (s.cores.find? fun k => k.id == c).map fun k => if k.id.die = die then
      { k with icache := k.icache.filter fun l => !(l.asid == a.asid && l.line / 4 == a.line) } else k := by
    rw [State.dropText, List.find?_map]
    congr 2
    funext k
    simp only [Function.comp]
    split <;> rfl
  rw [State.core, hfind] at h
  rw [State.core]
  cases hk : s.cores.find? fun k => k.id == c with
  | none =>
    rw [hk] at h
    exact h
  | some k =>
    rw [hk] at h
    simp only [Option.map_some] at h
    split at h
    · exact (List.mem_filter.1 h).1
    · exact h

/-- An operation that leaves groups, teams and tasks as they are, and gives no core an instruction line. -/
structure State.Closes (s t : State) : Prop where
  groups : t.groups = s.groups
  teams : t.teams = s.teams
  sched : t.sched = s.sched
  icache : ∀ (c : CoreId) (l : ILine), l ∈ (t.core c).icache → l ∈ (s.core c).icache

theorem State.Closes.refl (s : State) : s.Closes s := ⟨rfl, rfl, rfl, fun _ _ h => h⟩
theorem State.Closes.trans {s t u : State} (h : s.Closes t) (h' : t.Closes u) : s.Closes u :=
  ⟨h'.groups.trans h.groups, h'.teams.trans h.teams, h'.sched.trans h.sched, fun c l hl => h.icache c l (h'.icache c l hl)⟩
theorem State.Closes.foldl {α : Type} {f : State → α → State} (hf : ∀ (t : State) (x : α), t.Closes (f t x)) (xs : List α) (s : State) :
    s.Closes (xs.foldl f s) := by
  induction xs generalizing s with
  | nil => exact .refl s
  | cons x xs ih => exact (hf s x).trans (ih _)

theorem State.closes_mapMem (s : State) (f : MemState → MemState) : s.Closes (s.mapMem f) := ⟨rfl, rfl, rfl, fun _ _ h => h⟩
theorem State.closes_dropText (s : State) (die : Nat) (a : LineId) : s.Closes (s.dropText die a) :=
  ⟨rfl, rfl, rfl, fun _ _ h => State.mem_icache_dropText h⟩
theorem State.closes_dropHost (s : State) (die : Nat) : s.Closes (s.dropHost die) := by
  delta State.dropHost
  exact (State.Closes.foldl (fun t (l : Line) => t.closes_dropText die l.a) _ s).trans (State.closes_mapMem _ _)
theorem State.closes_acquired (s : State) (c : CoreId) (scope : Nat) : s.Closes (s.acquired c scope) := by
  have hdrop : s.Closes (if 2 ≤ scope then s.dropDeckled c else s) := by
    split
    · exact s.closes_mapMem _
    · exact .refl s
  unfold State.acquired
  generalize (if 2 ≤ scope then s.dropDeckled c else s) = t at hdrop
  dsimp only
  split
  · exact hdrop.trans (t.closes_dropHost _)
  · exact hdrop

/-- A core opened for an ASID has no instruction line of it (R234). -/
theorem State.openCore_leaves (s : State) (asid : Nat) (sys : Bool) (c : CoreId) :
    s.Closes (s.openCore asid sys c) ∧ ∀ l ∈ ((s.openCore asid sys c).core c).icache, l.asid ≠ asid := by
  have hacq := s.closes_acquired c (if sys then 5 else 4)
  unfold State.openCore
  generalize s.acquired c (if sys then 5 else 4) = t at hacq
  dsimp only
  split
  · have hid : (t.core c).id = c := t.core_id c
    have hcore := t.core_setCore_self { t.core c with icache := (t.core c).icache.filter fun l => l.asid != asid }
    rw [show ({ t.core c with icache := (t.core c).icache.filter fun l => l.asid != asid } : Core).id = c from hid] at hcore
    refine ⟨hacq.trans ⟨State.setCore_groups _ _, State.setCore_teams _ _, State.setCore_sched _ _, fun d l hl => ?_⟩, fun l hl => ?_⟩
    · by_cases hd : d = c
      · subst hd
        rw [hcore] at hl
        exact (List.mem_filter.1 hl).1
      · rw [State.core_setCore_ne _ (by rw [hid]; exact hd)] at hl
        exact hl
    · rw [hcore] at hl
      simpa using (List.mem_filter.1 hl).2
  · rename_i hnone
    refine ⟨hacq, fun l hl heq => hnone (List.any_eq_true.2 ⟨l, hl, beq_iff_eq.2 heq⟩)⟩

theorem State.openCores_leave (asid : Nat) (sys : Bool) (ts : List Team) (s : State) :
    let u := ts.foldl (fun s t => s.openCore asid sys t.core) s
    s.Closes u ∧ ∀ t ∈ ts, ∀ l ∈ (u.core t.core).icache, l.asid ≠ asid := by
  induction ts generalizing s with
  | nil => exact ⟨.refl s, fun t ht => by cases ht⟩
  | cons t ts ih =>
    obtain ⟨hfirst, hopen⟩ := s.openCore_leaves asid sys t.core
    obtain ⟨hrest, hlater⟩ := ih (s.openCore asid sys t.core)
    refine ⟨hfirst.trans hrest, fun x hx l hl => ?_⟩
    rcases List.mem_cons.1 hx with heq | hmore
    · subst heq
      exact hopen l (hrest.icache _ _ hl)
    · exact hlater x hmore l hl

/-- A team that has started with a launch's fresh tiles (R159). -/
def Team.begun (t : Team) (l : Launch) : Prop := t.started = true ∧ t.tiles = List.replicate l.nacc (List.replicate 1024 0)

/-- Starting teams one after the other: their groups are fresh, and every team of theirs has begun. -/
theorem State.startTeams_leave (l : Launch) (ts : List Team) (s : State) :
    let u := ts.foldl (fun s t => s.startTeam t l) s
    u.cores = s.cores ∧ u.sched = s.sched ∧ (∀ g ∈ s.groups, g ∈ u.groups) ∧
      (∀ t ∈ ts, ∀ n, n < l.ngrp → Group.fresh ⟨t.tid, t.team, n⟩ l ∈ u.groups) ∧
      ∀ t ∈ u.teams, t.begun l ∨ (t ∈ s.teams ∧ t ∉ ts) := by
  induction ts generalizing s with
  | nil => exact ⟨rfl, rfl, fun g hg => hg, fun _ ht => absurd ht List.not_mem_nil, fun t ht => .inr ⟨ht, List.not_mem_nil⟩⟩
  | cons x ts ih =>
    obtain ⟨hcores, hsched, hkeeps, hfresh, hteams⟩ := ih (s.startTeam x l)
    have hgroups : (s.startTeam x l).groups = s.groups ++ (List.range l.ngrp).map fun n => Group.fresh ⟨x.tid, x.team, n⟩ l := rfl
    refine ⟨hcores, hsched, fun g hg => hkeeps g (hgroups ▸ List.mem_append_left _ hg), fun t ht n hn => ?_, fun t ht => ?_⟩
    · rcases List.mem_cons.1 ht with heq | hmore
      · subst heq
        exact hkeeps _ (hgroups ▸ List.mem_append_right _ (List.mem_map.2 ⟨n, List.mem_range.2 hn, rfl⟩))
      · exact hfresh t hmore n hn
    · rcases hteams t ht with hbegun | ⟨hin, hnot⟩
      · exact .inl hbegun
      · have hset : (s.startTeam x l).teams = s.teams.map fun y => if y.tid = x.tid ∧ y.team = x.team then x.begin l s.fresh else y := rfl
        rw [hset] at hin
        obtain ⟨y, hy, hyt⟩ := List.mem_map.1 hin
        split at hyt
        · rw [← hyt]
          exact .inl ⟨rfl, rfl⟩
        · rename_i hother
          subst hyt
          refine .inr ⟨hy, fun hcons => ?_⟩
          rcases List.mem_cons.1 hcons with heq | hmore
          · exact hother ⟨congrArg Team.tid heq, congrArg Team.team heq⟩
          · exact hnot hmore

theorem State.putTask_cores (s : State) (k : Task) : (s.putTask k).cores = s.cores := by
  obtain ⟨sc, h⟩ := s.putTask_frame k
  rw [h]

/-- Steps that all succeed, one after the other, succeed. -/
theorem Own.foldl_ok {α : Type} {f : Own Unit → α → Own Unit} {g : State → α → State} (h : ∀ s x, f (.ok () s) x = .ok () (g s x)) {xs : List α}
    {s : State} : xs.foldl f (.ok () s) = .ok () (xs.foldl g s) := by
  induction xs generalizing s with
  | nil => rfl
  | cons x xs ih => rw [List.foldl_cons, h, ih, List.foldl_cons]

/-- What TEAM_START does with a set that starts: its cores are opened, and its teams start. -/
theorem exec_teamStart_fresh {tid set : Nat} {k : Task} {x : TeamSet} {s : State} (hk : s.task? tid = some k)
    (hx : (k.sets.find? fun y => y.k == set) = some x) (hst : x.st = .placed [] false) :
    let ts := s.teams.filter fun t => t.tid == tid && t.set == set
    ¬(k.faulted = true ∨ k.couchOf.isSome = true ∨ s.taskWrites tid = true ∨ s.couching tid = true ∨
      (ts.any fun t => s.invToward t.core 4 || !s.siteRuns (.die t.core.die) || !s.roomFor ts t.core) = true ∨
      (k.sysEdge && !s.mem.backInv.isEmpty) = true) →
    let u := ts.foldl (fun s t => s.startTeam t k.launch) (ts.foldl (fun s t => s.openCore k.asid k.sysEdge t.core) s)
    ∃ v : State, exec (.teamStart tid set) s = .next v ∧ v.groups = u.groups ∧ v.teams = u.teams ∧ v.cores = u.cores := by
  intro ts hgo u
  have hexec : exec (.teamStart tid set) s = execTeamStart tid set s := rfl
  rw [hexec, execTeamStart, hk]
  dsimp only
  rw [hx]
  dsimp only
  rw [hst]
  dsimp only
  rw [if_neg hgo, Own.foldl_ok (g := fun s t => s.startTeam t k.launch) fun _ _ => rfl]
  change ∃ v, State.happens _ (match u.task? tid with | none => _ | some k => _) = _ ∧ _
  cases hu : u.task? tid with
  | none => exact ⟨u, rfl, rfl, rfl, rfl⟩
  | some j =>
    exact ⟨_, rfl, State.putTask_groups _ _, State.putTask_teams _ _, State.putTask_cores _ _⟩

theorem teamsStart : Claims.TeamsStart := by
  intro tid set k x s hk hx hst hfaulted hcouch hwrites hcouching hback ts hinv hruns
  have hback' : (k.sysEdge && !s.mem.backInv.isEmpty) = false := by
    cases hsys : k.sysEdge with
    | false => rfl
    | true => rw [hback hsys]; rfl
  have hopen : (ts.any fun t => s.invToward t.core 4 || !s.siteRuns (.die t.core.die) || !s.roomFor ts t.core) = false := by
    rw [List.any_eq_false] at hinv ⊢
    rw [List.all_eq_true] at hruns
    intro t ht
    obtain ⟨hrun, hroom⟩ := Bool.and_eq_true_iff.1 (hruns t ht)
    rw [eq_false_of_ne_true (hinv t ht), hrun, hroom]
    exact Bool.false_ne_true
  have hgo : ¬(k.faulted = true ∨ k.couchOf.isSome = true ∨ s.taskWrites tid = true ∨ s.couching tid = true ∨
      (ts.any fun t => s.invToward t.core 4 || !s.siteRuns (.die t.core.die) || !s.roomFor ts t.core) = true ∨
      (k.sysEdge && !s.mem.backInv.isEmpty) = true) := by
    rw [hfaulted, hcouch, hwrites, hcouching, hopen, hback']
    simp
  obtain ⟨u, hexec, hgroups, hteams, hcores⟩ := exec_teamStart_fresh hk hx hst hgo
  obtain ⟨hcloses, hicache⟩ := State.openCores_leave k.asid k.sysEdge ts s
  obtain ⟨hsame, -, -, hfresh, hbegun⟩ := State.startTeams_leave k.launch ts (ts.foldl (fun s t => s.openCore k.asid k.sysEdge t.core) s)
  refine ⟨u, hexec, fun t ht n hn => ⟨Group.fresh ⟨tid, t.team, n⟩ k.launch, ?_, rfl, rfl, rfl, rfl, rfl, rfl, rfl, rfl, rfl, rfl⟩, fun t ht htid hset => ?_,
    fun t ht l hl => hicache t ht l ?_⟩
  · obtain ⟨-, hmine⟩ := List.mem_filter.1 ht
    have htid : t.tid = tid := beq_iff_eq.1 (Bool.and_eq_true_iff.1 hmine).1
    have hg := hfresh t ht n hn
    rw [htid] at hg
    exact hgroups ▸ hg
  · rcases hbegun t (hteams ▸ ht) with h | ⟨hin, hnot⟩
    · exact h
    · rw [hcloses.teams] at hin
      exact absurd (List.mem_filter.2 ⟨hin, by simp [htid, hset]⟩) hnot
  · have hcore : (u.core t.core) = (ts.foldl (fun s t => s.openCore k.asid k.sysEdge t.core) s).core t.core := by
      rw [State.core, hcores, hsame]
      rfl
    exact hcore ▸ hl

/-! ### Mills (R63, R90, R94, R187, R189, R190) -/

/-- Bringing a mill task's state up to date changes the tasks only. -/
theorem State.settleMills_frame (s : State) (tid : Nat) : ∃ ks, s.settleMills tid = { s with sched := { s.sched with tasks := ks } } := by
  unfold State.settleMills
  split
  · unfold State.putTask
    dsimp only
    split
    · exact ⟨_, rfl⟩
    · exact ⟨_, rfl⟩
  · exact ⟨_, rfl⟩
theorem State.settleMills_mills (s : State) (tid : Nat) : (s.settleMills tid).mills = s.mills := by
  obtain ⟨ks, h⟩ := s.settleMills_frame tid
  rw [h]
theorem State.settleMills_mem (s : State) (tid : Nat) : (s.settleMills tid).mem = s.mem := by
  obtain ⟨ks, h⟩ := s.settleMills_frame tid
  rw [h]
theorem State.settleMills_savedMills (s : State) (tid : Nat) : (s.settleMills tid).sched.savedMills = s.sched.savedMills := by
  obtain ⟨ks, h⟩ := s.settleMills_frame tid
  rw [h]

theorem exec_millAssign {tid : Nat} {r : MillRef} {k : Task} {s : State} (hk : s.task? tid = some k) (hrun : s.siteRuns (.tower r.tower) = true)
    (hready : k.millReady = true) (htow : bit k.launch.towmask r.tower = true) (hleft : k.assigned r.tower < k.launch.nmill)
    (hidle : s.millIdle r = true) (hroom : s.millRoom k r.tower = true) (hgo : s.millMayGo k r.tower = true)
    (hfailed : s.mem.failedTowers.contains r.tower = false) :
    exec (.millAssign tid r) s = .next ((({ s with mills := s.mills ++ [Mill.loading r tid (k.assigned r.tower)] } : State).setTask
      { k with millsLeft := (k.millsLeft.filter fun (e : Nat × Nat) => e.1 != r.tower) ++ [(r.tower, k.assigned r.tower + 1)] }).settleMills tid) := by
  have hexec : exec (.millAssign tid r) s = execMillAssign tid r s := rfl
  rw [hexec, execMillAssign, hk]
  refine if_neg ?_
  rw [hready, htow, hidle, hroom, hgo, hrun, hfailed]
  simpa using hleft

theorem exec_millLoadComplete {r : MillRef} {m : Mill} {k : Task} {s : State} (hm : s.mill? r = some m) (hk : s.task? m.tid = some k)
    (hrun : s.siteRuns (.tower r.tower) = true) (hst : m.st = .load) :
    exec (.millLoadComplete r) s = .next ((s.setMill { m with
      st := .run, pc := BitVec.ofNat 64 (k.launch.code + k.launch.entry), since := s.now (.tower r.tower) }).settleMills m.tid) := by
  have hexec : exec (.millLoadComplete r) s = execMillLoadComplete r s := rfl
  rw [hexec, execMillLoadComplete, hm]
  dsimp only
  rw [hk]
  exact if_neg (by rw [hst, hrun]; simp)

/-- Saving a mill whose block is written takes it off, with its locks, and records it (R189, R190). -/
theorem State.saveMill_ok {u : MillIssuer} {s t : State} {fid : Nat} (hst : u.m.st = .save fid)
    (hb : s.blockWrite (s.towerHomeOf u.tower) u.k.asid u.m.block 0 (s.millBlock u) = .ok () t) :
    s.saveMill u = .next (State.settleMills { t.releaseLocks u.m.id with
      mills := t.mills.filter fun m => m.id != u.m.id
      sched := { t.sched with savedMills := t.sched.savedMills ++ [⟨u.k.tid, u.tower, u.m.m, u.m.block, fid, u.m.faultVa, u.m.bad⟩] } } u.k.tid) := by
  rw [State.saveMill, hb]
  dsimp only
  rw [hst]
  rfl

theorem exec_millPreempt_save {r : MillRef} {m : Mill} {k : Task} {s : State} {fid : Nat} (hm : s.mill? r = some m) (hk : s.task? m.tid = some k)
    (hrun : s.siteRuns (.tower r.tower) = true) (hfaulted : k.faulted = false) (hst : m.st = .save fid) (hrow : m.rowBusy = [])
    (hsent : m.stall.sent = false) : exec (.millPreempt r) s = s.saveMill ⟨m, k⟩ := by
  have hexec : exec (.millPreempt r) s = execMillPreempt r s := rfl
  rw [hexec, execMillPreempt, hm]
  dsimp only
  rw [hk]
  dsimp only
  rw [if_neg (by rw [hrun, hfaulted]; simp), hst]
  exact if_neg (by rw [hrow, hsent]; simp)

theorem exec_millRestore {tid rank : Nat} {r : MillRef} {k : Task} {x : SavedMill} {b : List (BitVec 8)} {s t : State} (hk : s.task? tid = some k)
    (hrun : s.siteRuns (.tower r.tower) = true) (hready : k.millReady = true) (hidle : s.millIdle r = true) (hgo : s.millMayGo k r.tower = true)
    (hx : (s.sched.savedMills.find? fun y => y.tid == tid && y.tower == r.tower && y.m == rank) = some x)
    (hb : s.blockRead (s.towerHomeOf r.tower) k.asid x.block 0 131072 = .ok b t) (hfield : bit (fld b 0x0A 2) 0 = false ∨ bit (fld b 0x0A 2) 4 = false) :
    exec (.millRestore tid rank r) s = .next (State.settleMills { t with
      mills := t.mills ++ [{ x.restore r b with since := t.now (.tower r.tower) }]
      sched := { t.sched with savedMills := t.sched.savedMills.erase x } } tid) := by
  have hexec : exec (.millRestore tid rank r) s = execMillRestore tid rank r s := rfl
  have hnone : ¬((bit (fld b 0x0A 2) 0 && bit (fld b 0x0A 2) 4) = true) := by
    rcases hfield with h | h <;> rw [h] <;> simp
  rw [hexec, execMillRestore, hk, hx]
  dsimp only
  rw [if_neg (by rw [hready, hidle, hgo, hrun]; simp), show millBlockSize = 131072 from rfl, hb]
  dsimp only
  rw [if_neg hnone]
  rfl

theorem millsComeAndGo : Claims.MillsComeAndGo := by
  intro tid rank r k m s hrun
  refine ⟨fun hk hready htow hleft hidle hroom hgo hfailed => ?_, fun hm hk hst => exec_millLoadComplete hm hk hrun hst,
    fun fid t hm hk hfaulted hst hrow hsent hb => ?_, fun x b t hk hready hidle hgo hx hb hfield => ?_⟩
  · exact ⟨_, _, exec_millAssign hk hrun hready htow hleft hidle hroom hgo hfailed, State.settleMills_mills _ _, rfl, rfl, rfl, rfl, rfl, rfl,
      State.settleMills_mem _ _⟩
  · have hlocks : ∀ l ∈ (t.releaseLocks m.id).mem.locks, l.holder ≠ m.id := by
      intro l hl
      simpa using (List.mem_filter.1 hl).2
    refine ⟨_, (exec_millPreempt_save hm hk hrun hfaulted hst hrow hsent).trans (State.saveMill_ok hst hb), State.settleMills_mills _ _, ?_,
      State.settleMills_savedMills _ _⟩
    rw [State.settleMills_mem]
    exact hlocks
  · exact ⟨_, exec_millRestore hk hrun hready hidle hgo hx hb hfield, State.settleMills_mills _ _, State.settleMills_savedMills _ _⟩

/-- Settles O48: a flush takes every line of a die, so that only couched ones stay; a set that may start opens its cores and gets fresh groups;
mills are assigned, loaded, saved and restored as the tower dispatcher's guards let them. -/
theorem teamsAndMillsStart : Obligations.TeamsAndMillsStart := ⟨edgesAreInvalidated, teamsStart, millsComeAndGo⟩

end Sys2Proof.Machine

/-! PROOFS. What the home's work on a line leaves as it is, and promotions and records posted (O54). -/

namespace Sys2Proof.Machine

/-! ### What memory operations keep of the memory's tables -/

/-- The tables of failures and promotions stand as they did. -/
structure MemState.SameTables (x y : MemState) : Prop where
  promos : y.promos = x.promos
  scans : y.scans = x.scans
  rebuilds : y.rebuilds = x.rebuilds
  failedDies : y.failedDies = x.failedDies
  failedTowers : y.failedTowers = x.failedTowers

theorem MemState.SameTables.refl (x : MemState) : x.SameTables x := ⟨rfl, rfl, rfl, rfl, rfl⟩
theorem MemState.SameTables.trans {x y z : MemState} (h : x.SameTables y) (h' : y.SameTables z) : x.SameTables z :=
  ⟨h'.promos.trans h.promos, h'.scans.trans h.scans, h'.rebuilds.trans h.rebuilds, h'.failedDies.trans h.failedDies,
    h'.failedTowers.trans h.failedTowers⟩

/-- So do the borrowers, and canonical memories stay canonical. -/
structure MemState.Steady (x y : MemState) : Prop where
  tables : x.SameTables y
  borrowed : y.borrowed = x.borrowed
  canonical : x.canonical = true → y.canonical = true

theorem MemState.Steady.refl (x : MemState) : x.Steady x := ⟨.refl x, rfl, id⟩
theorem MemState.Steady.trans {x y z : MemState} (h : x.Steady y) (h' : y.Steady z) : x.Steady z :=
  ⟨h.tables.trans h'.tables, h'.borrowed.trans h.borrowed, fun hc => h'.canonical (h.canonical hc)⟩
theorem MemState.Steady.foldl {α : Type} {f : MemState → α → MemState} (hf : ∀ (x : MemState) (a : α), x.Steady (f x a)) (as : List α)
    (x : MemState) : x.Steady (as.foldl f x) := by
  induction as generalizing x with
  | nil => exact .refl x
  | cons a as ih => exact (hf x a).trans (ih _)

theorem MemState.steady_tcWriteback (x : MemState) (t : TLine) : x.Steady (x.tcWriteback t) := by
  refine ⟨?_, ?_, fun h => MemState.canonical_tcWriteback h t⟩ <;> unfold MemState.tcWriteback <;> split
  · exact .refl x
  · exact ⟨rfl, rfl, rfl, rfl, rfl⟩
  · rfl
  · rfl
theorem MemState.steady_tcDrop (x : MemState) (tower line : Nat) : x.Steady (x.tcDrop tower line) := by
  unfold MemState.tcDrop
  split
  · exact (x.steady_tcWriteback _).trans ⟨⟨rfl, rfl, rfl, rfl, rfl⟩, rfl, id⟩
  · exact .refl x
theorem MemState.steady_tcPut (x : MemState) (t : TLine) : x.Steady (x.tcPut t) := by
  unfold MemState.tcPut
  refine MemState.Steady.trans (y := { x with tcache := t :: x.tcache.filter fun u => !(u.tower == t.tower && u.line == t.line) })
    ⟨⟨rfl, rfl, rfl, rfl, rfl⟩, rfl, id⟩ ?_
  exact MemState.Steady.foldl (fun y (v : TLine) => y.steady_tcDrop v.tower v.line) _ _
theorem MemState.steady_placeWrite (x : MemState) (p : Place) (val mask : BitVec 2048) : x.Steady (x.placeWrite p val mask) := by
  have hwatch : x.Steady (x.unwatch p) := ⟨⟨rfl, rfl, rfl, rfl, rfl⟩, rfl, id⟩
  have hwrite : (x.unwatch p).SameTables (x.placeWrite p val mask) ∧ (x.placeWrite p val mask).borrowed = (x.unwatch p).borrowed := by
    unfold MemState.placeWrite
    dsimp only
    split
    · exact ⟨((x.unwatch p).steady_tcPut _).tables, ((x.unwatch p).steady_tcPut _).borrowed⟩
    · exact ⟨⟨rfl, rfl, rfl, rfl, rfl⟩, rfl⟩
    · exact ⟨⟨rfl, rfl, rfl, rfl, rfl⟩, rfl⟩
  exact ⟨hwatch.tables.trans hwrite.1, hwrite.2.trans hwatch.borrowed, fun h => MemState.canonical_placeWrite h p val mask⟩

/-! ### What the home's work on a line keeps of the state (R108, R110, R414) -/

/-- An operation on memory, messages, instruction lines and waits of wfa. -/
structure State.MemOnly (s t : State) : Prop where
  keeps : s.KeepsMills t
  link : t.link = s.link
  boot : t.boot = s.boot
  mgmt : t.mgmt = s.mgmt
  log : t.log = s.log
  faults : t.faults = s.faults
  tables : s.mem.SameTables t.mem
  quiet : s.mem.borrowed = [] → t.out = s.out ∧ t.mem.borrowed = []
  inv : s.Inv → t.Inv

theorem State.MemOnly.refl (s : State) : s.MemOnly s := ⟨.refl s, rfl, rfl, rfl, rfl, rfl, .refl _, fun h => ⟨rfl, h⟩, id⟩
theorem State.MemOnly.trans {s t u : State} (h : s.MemOnly t) (h' : t.MemOnly u) : s.MemOnly u where
  keeps := h.keeps.trans h'.keeps
  link := h'.link.trans h.link
  boot := h'.boot.trans h.boot
  mgmt := h'.mgmt.trans h.mgmt
  log := h'.log.trans h.log
  faults := h'.faults.trans h.faults
  tables := h.tables.trans h'.tables
  quiet hb := ⟨(h'.quiet (h.quiet hb).2).1.trans (h.quiet hb).1, (h'.quiet (h.quiet hb).2).2⟩
  inv hi := h'.inv (h.inv hi)
theorem State.MemOnly.foldl {α : Type} {f : State → α → State} (hf : ∀ (t : State) (x : α), t.MemOnly (f t x)) (xs : List α) (s : State) :
    s.MemOnly (xs.foldl f s) := by
  induction xs generalizing s with
  | nil => exact .refl s
  | cons x xs ih => exact (hf s x).trans (ih _)

theorem State.memOnly_mapMem (s : State) {f : MemState → MemState} (hf : s.mem.Steady (f s.mem)) : s.MemOnly (s.mapMem f) :=
  ⟨⟨rfl, rfl, rfl⟩, rfl, rfl, rfl, rfl, rfl, hf.tables, fun h => ⟨rfl, hf.borrowed.trans h⟩, fun h => h.mapMem hf.canonical⟩

/-- A change of the lines, messages, transactions and losses is steady: nothing else of memory is looked at. -/
theorem State.memOnly_lines (s : State) {f : MemState → MemState} (htables : s.mem.SameTables (f s.mem))
    (hborrowed : (f s.mem).borrowed = s.mem.borrowed) (hcanonical : (f s.mem).canonical = s.mem.canonical) : s.MemOnly (s.mapMem f) :=
  s.memOnly_mapMem ⟨htables, hborrowed, fun h => hcanonical.trans h⟩

theorem State.memOnly_send (s : State) (c : MClass) (a b : Site) (x : Body) : s.MemOnly (s.send c a b x) :=
  ⟨⟨rfl, rfl, rfl⟩, rfl, rfl, rfl, rfl, rfl, ⟨rfl, rfl, rfl, rfl, rfl⟩, fun h => ⟨rfl, h⟩, fun h => h.send c a b x⟩
theorem State.memOnly_sendInv (s : State) (par : Node) (k : Kid) : s.MemOnly (s.sendInv par k) := s.memOnly_send _ _ _ _
theorem State.memOnly_dropText (s : State) (die : Nat) (a : LineId) : s.MemOnly (s.dropText die a) :=
  ⟨⟨rfl, rfl, rfl⟩, rfl, rfl, rfl, rfl, rfl, .refl _, fun h => ⟨rfl, h⟩, id⟩
theorem State.memOnly_dropNode (s : State) (n : Node) (a : LineId) : s.MemOnly (s.dropNode n a) := by
  have hdrop : s.MemOnly (s.mapMem fun x => x.dropLine n a) := s.memOnly_lines ⟨rfl, rfl, rfl, rfl, rfl⟩ rfl rfl
  unfold State.dropNode
  cases n with
  | l2 d => exact hdrop.trans (State.memOnly_dropText _ _ _)
  | l1 c => exact hdrop
  | hub d c => exact hdrop
  | slice t => exact hdrop
  | home t => exact hdrop

theorem State.memOnly_pull (also : Node → Bool) (fuel : Nat) : ∀ (n : Node) (a : LineId) (s : State), s.MemOnly (State.pull also fuel n a s).2.2 := by
  induction fuel with
  | zero => exact fun _ _ s => .refl s
  | succ fuel ih =>
    intro n a s
    unfold State.pull
    split
    · exact .refl s
    · rename_i l _
      have gen (ks : List Kid) : ∀ acc : BitVec 2048 × BitVec 2048 × State, acc.2.2.MemOnly (ks.foldl (fun acc k =>
          if k.yields also then
            (lineMerge acc.1 (State.pull also fuel k.node k.a acc.2.2).1 (State.pull also fuel k.node k.a acc.2.2).2.1,
              acc.2.1 ||| (State.pull also fuel k.node k.a acc.2.2).2.1, (State.pull also fuel k.node k.a acc.2.2).2.2)
          else (acc.1, acc.2.1, acc.2.2.sendInv n k)) acc).2.2 := by
        induction ks with
        | nil => exact fun acc => .refl _
        | cons k ks ih2 =>
          intro acc
          rw [List.foldl_cons]
          refine State.MemOnly.trans ?_ (ih2 _)
          split
          · exact ih _ _ _
          · exact State.memOnly_sendInv _ _ _
      exact ((s.memOnly_dropNode n a).trans (State.memOnly_lines (f := fun x => x.emptyUp n a) _ ⟨rfl, rfl, rfl, rfl, rfl⟩ rfl rfl)).trans
        (gen (l.owners ++ l.sharers) (l.val, l.dirty, (s.dropNode n a).mapMem fun x => x.emptyUp n a))

/-- Borrowers that there are not are not called. -/
theorem State.callBack_nobody {s : State} (h : s.mem.borrowed = []) (p : Borrow → Bool) : (s.callBack p).out = s.out ∧ (s.callBack p).mem.borrowed = [] := by
  have hgone : s.mem.borrowed.filter p = [] := by rw [h]; rfl
  unfold State.callBack
  dsimp only
  rw [hgone]
  refine ⟨rfl, ?_⟩
  show s.mem.borrowed.filter (fun b => !p b) = []
  rw [h]
  rfl

/-- What no call to a borrower touches. -/
def State.apart (s : State) : LinkState × BootState × List (Nat × Nat) × List LogRec × List FaultRec × List Promotion × List (Nat × Nat) × List Nat ×
    List Nat × List Nat :=
  (s.link, s.boot, s.mgmt, s.log, s.faults, s.mem.promos, s.mem.scans, s.mem.rebuilds, s.mem.failedDies, s.mem.failedTowers)
theorem State.apart_foldl {α : Type} {f : State → α → State} (hf : ∀ t x, (f t x).apart = t.apart) (xs : List α) (s : State) :
    (xs.foldl f s).apart = s.apart := by
  induction xs generalizing s with
  | nil => rfl
  | cons x xs ih => exact (ih _).trans (hf s x)
theorem State.apart_callBack (s : State) (p : Borrow → Bool) : (s.callBack p).apart = s.apart := by
  unfold State.callBack
  refine (State.apart_foldl (fun t b => ?_) _ _).trans (show (State.mapMem s _).apart = s.apart from rfl)
  split
  · split <;> rfl
  · rfl
theorem State.memOnly_callBack (s : State) (p : Borrow → Bool) : s.MemOnly (s.callBack p) := by
  have h := s.apart_callBack p
  simp only [State.apart, Prod.mk.injEq] at h
  obtain ⟨hlink, hboot, hmgmt, hlog, hfaults, hpromos, hscans, hrebuilds, hdies, htowers⟩ := h
  exact ⟨s.keepsMills_callBack p, hlink, hboot, hmgmt, hlog, hfaults, ⟨hpromos, hscans, hrebuilds, hdies, htowers⟩,
    fun hb => State.callBack_nobody hb p, fun hi => hi.callBack p⟩
theorem State.memOnly_callBorrowers (s : State) (p : Place) : s.MemOnly (s.callBorrowers p) := by
  unfold State.callBorrowers
  split
  · exact s.memOnly_callBack _
  · exact .refl s

theorem State.memOnly_placeWrite (s : State) (p : Place) (val mask : BitVec 2048) : s.MemOnly (s.mapMem fun x => x.placeWrite p val mask) :=
  s.memOnly_mapMem (MemState.steady_placeWrite _ _ _ _)
theorem State.memOnly_homeTake (s : State) (p : Place) (also : Node → Bool) : s.MemOnly (s.homeTake p also) := by
  unfold State.homeTake
  refine (s.memOnly_callBorrowers p).trans ?_
  dsimp only
  split
  · exact .refl _
  · rename_i l _
    refine State.MemOnly.trans (State.memOnly_lines (f := fun x => x.dropLine l.node l.a) _ ⟨rfl, rfl, rfl, rfl, rfl⟩ rfl rfl)
      (State.MemOnly.foldl (fun t k => ?_) _ _)
    split
    · exact (State.memOnly_pull also 4 k.node k.a t).trans (State.memOnly_placeWrite _ _ _ _)
    · exact t.memOnly_sendInv _ _
theorem State.memOnly_homeClear (s : State) (p : Place) : s.MemOnly (s.homeClear p) := s.memOnly_homeTake p _

theorem State.memOnly_endWfa (s : State) (mine : CoreId → LineId → Bool) : s.MemOnly (s.endWfa mine) :=
  ⟨⟨rfl, rfl, rfl⟩, rfl, rfl, rfl, rfl, rfl, .refl _, fun h => ⟨rfl, h⟩, id⟩
theorem State.memOnly_homeSpread (s : State) (p : Place) (val mask : BitVec 2048) : s.MemOnly (s.homeSpread p val mask) := by
  unfold State.homeSpread
  refine ((s.memOnly_callBorrowers p).trans (State.memOnly_endWfa _ _)).trans (State.memOnly_mapMem _ ?_)
  exact (MemState.steady_placeWrite _ p val mask).trans ⟨⟨rfl, rfl, rfl, rfl, rfl⟩, rfl, id⟩
/-- A write by the home works on memory, messages and waits of wfa alone. -/
theorem State.memOnly_homeWrite (s : State) (p : Place) (val mask : BitVec 2048) : s.MemOnly (s.homeWrite p val mask) := by
  unfold State.homeWrite
  split
  · exact (s.memOnly_homeClear p).trans (State.memOnly_placeWrite _ _ _ _)
  · exact s.memOnly_homeSpread p val mask
theorem State.memOnly_putTower (s : State) (tower pa n x : Nat) : s.MemOnly (s.putTower tower pa n x) := s.memOnly_homeWrite _ _ _
theorem State.memOnly_physWrite (s : State) (tower pa : Nat) (bs : List (BitVec 8)) : s.MemOnly (s.physWrite tower pa bs) := by
  unfold State.physWrite
  exact State.MemOnly.foldl (fun t p => t.memOnly_homeWrite _ _ _) _ s

/-! ### Fields of a register -/

theorem bits_setBits (v x : Nat) {hi lo : Nat} (h : lo ≤ hi) : bits (setBits v hi lo x) hi lo = x % 2 ^ (hi + 1 - lo) := by
  have hpos : 0 < 2 ^ lo := Nat.two_pow_pos lo
  have hup : 2 ^ (hi + 1 - lo) * 2 ^ lo = 2 ^ (hi + 1) := by rw [← Nat.pow_add]; congr 1; omega
  have hsplit : v - bits v hi lo * 2 ^ lo = v / 2 ^ (hi + 1) * 2 ^ (hi + 1) + v % 2 ^ lo := by
    have hlow : v % 2 ^ (hi + 1) = v / 2 ^ lo % 2 ^ (hi + 1 - lo) * 2 ^ lo + v % 2 ^ lo := by
      rw [← hup, Nat.mul_comm _ (2 ^ lo), Nat.mod_mul, Nat.mul_comm _ (2 ^ lo), Nat.add_comm]
    have hall := Nat.div_add_mod v (2 ^ (hi + 1))
    rw [Nat.mul_comm] at hall
    rw [bits]
    omega
  have hsum : setBits v hi lo x = v % 2 ^ lo + 2 ^ lo * (x % 2 ^ (hi + 1 - lo) + 2 ^ (hi + 1 - lo) * (v / 2 ^ (hi + 1))) := by
    rw [setBits, hsplit, ← hup]
    simp only [Nat.mul_add, Nat.mul_comm, Nat.mul_assoc, Nat.add_comm, Nat.add_left_comm]
  rw [hsum, bits, Nat.add_mul_div_left _ _ hpos, Nat.div_eq_of_lt (Nat.mod_lt _ hpos), Nat.zero_add, Nat.add_mul_mod_self_left, Nat.mod_mod]

/-! ### Promotions (R126, R127) -/

section
variable {tower : Nat} {v : BitVec 64} {s : State}

/-- The address that a promotion request names. -/
def promVa (v : BitVec 64) : Nat :=
  if bit v.toNat 56 then bits v.toNat 56 21 * 2 ^ 21 + (2 ^ 7 - 1) * 2 ^ 57 else bits v.toNat 56 21 * 2 ^ 21

theorem exec_promreqWrite_ignored (hlt : tower < 72) (h : bit (s.reg (0x00410000 + 0x100 * tower)) 31 = true ∨
    bit (s.reg (0x00410000 + 0x100 * tower + 8)) 63 = false) : exec (.promreqWrite tower v) s = .next s := by
  have hexec : exec (.promreqWrite tower v) s = execPromreqWrite tower v s := rfl
  rw [hexec, execPromreqWrite, if_neg (by omega)]
  refine if_pos ?_
  rcases h with h | h
  · exact .inl h
  · exact .inr (.inl h)

/-- A request for a promotion that is accepted (R127). -/
def State.promAccept (s : State) (tower : Nat) (v : BitVec 64) (tt pa : Nat) (es : List W64) : State :=
  let cfg := s.reg (offProm tower)
  let tgt := s.reg (offProm tower + 8)
  let asid := bits cfg 15 0
  let va56 := bits v.toNat 56 21 * 2 ^ 21
  ((s.setReg (offProm tower) (setBits cfg 31 31 1)).setReg (offProm tower + 8) (setBits tgt 63 63 0)).mapMem fun x => { x with
    tlb := x.tlb.filter fun e => !(e.tower == tower && e.asid == asid && decide (e.page < va56 / 65536 + 32) &&
      decide (va56 / 65536 < e.page + e.pages))
    promos := x.promos ++ [⟨tower, asid, va56, bits tgt 19 0, tt, pa, es⟩] }

section
variable (hlt : tower < 72) (hidle : bit (s.reg (0x00410000 + 0x100 * tower)) 31 = false)
  (htgt : bit (s.reg (0x00410000 + 0x100 * tower + 8)) 63 = true) (hrun : s.siteRuns (.tower tower) = true)
include hlt hidle htgt hrun

theorem exec_promreqWrite_refused (hnone : s.promEntries tower (bits (s.reg (offProm tower)) 15 0) (promVa v) = none) :
    exec (.promreqWrite tower v) s = .next (s.promLast tower 2) := by
  have hexec : exec (.promreqWrite tower v) s = execPromreqWrite tower v s := rfl
  have hoff : offProm tower = 0x00410000 + 0x100 * tower := rfl
  rw [promVa] at hnone
  rw [hexec, execPromreqWrite, if_neg (by omega)]
  dsimp only
  rw [if_neg (by rw [hoff, hidle, htgt, hrun]; simp), show ones 7 = 2 ^ 7 - 1 from rfl, hnone]

theorem exec_promreqWrite_accepted {tt pa : Nat} {es : List W64}
    (hsome : s.promEntries tower (bits (s.reg (offProm tower)) 15 0) (promVa v) = some (tt, pa, es)) :
    exec (.promreqWrite tower v) s = .next (s.promAccept tower v tt pa es) := by
  have hexec : exec (.promreqWrite tower v) s = execPromreqWrite tower v s := rfl
  have hoff : offProm tower = 0x00410000 + 0x100 * tower := rfl
  rw [promVa] at hsome
  rw [hexec, execPromreqWrite, if_neg (by omega)]
  dsimp only
  rw [if_neg (by rw [hoff, hidle, htgt, hrun]; simp), show ones 7 = 2 ^ 7 - 1 from rfl, hsome]
  unfold State.promAccept
  dsimp only

end

theorem State.reg_mapMem (s : State) (f : MemState → MemState) (off : Nat) : (s.mapMem f).reg off = s.reg off := rfl
theorem State.promAccept_regs (hrise : (s.mgmt.map fun e => e.1).Pairwise (· < ·)) (tt pa : Nat) (es : List W64) :
    (s.promAccept tower v tt pa es).reg (offProm tower) = setBits (s.reg (offProm tower)) 31 31 1 ∧
      (s.promAccept tower v tt pa es).reg (offProm tower + 8) = setBits (s.reg (offProm tower + 8)) 63 63 0 := by
  unfold State.promAccept
  generalize offProm tower = a
  have hrise' := State.setReg_rising hrise a (setBits (s.reg a) 31 31 1)
  dsimp only
  rw [State.reg_mapMem, State.reg_mapMem, State.reg_setReg_same hrise', State.reg_setReg_other hrise' _ (by omega), State.reg_setReg_same hrise]
  exact ⟨rfl, rfl⟩

end

/-- The copy of a page works on memory alone. -/
theorem State.memOnly_tcDrop (s : State) (tower line : Nat) : s.MemOnly (s.mapMem fun x => x.tcDrop tower line) :=
  s.memOnly_mapMem (MemState.steady_tcDrop _ _ _)
theorem MemState.steady_putLine (x : MemState) (a : Nat) (val mask : BitVec 2048) : x.Steady { x with dram := x.dram.putLine a val mask } := by
  refine ⟨⟨rfl, rfl, rfl, rfl, rfl⟩, rfl, fun h => ?_⟩
  rw [MemState.canonical_iff] at *
  dsimp only
  exact ⟨Mem.wf_putLine h.1 _ _ _, h.2⟩
/-- A line of a tower is written to another, which leaves the tower cache. -/
def MemState.copyLine (x : MemState) (tower src dst : Nat) : MemState :=
  let x := x.tcDrop tower (dst / 256)
  { x with dram := x.dram.putLine (tower * towerSpan + dst) (x.dram.line (tower * towerSpan + src)) lineFull }
theorem MemState.steady_copyLine (x : MemState) (tower src dst : Nat) : x.Steady (x.copyLine tower src dst) := by
  have hdrop := x.steady_tcDrop tower (dst / 256)
  unfold MemState.copyLine
  generalize x.tcDrop tower (dst / 256) = y at hdrop
  exact hdrop.trans (y.steady_putLine (tower * towerSpan + dst) (y.dram.line (tower * towerSpan + src)) lineFull)
theorem State.memOnly_copyLine (s : State) (tower src dst : Nat) : s.MemOnly (s.mapMem fun x => x.copyLine tower src dst) :=
  s.memOnly_mapMem (s.mem.steady_copyLine tower src dst)
theorem State.memOnly_promPage (s : State) (p : Promotion) (j : Nat) : s.MemOnly (s.promPage p j) := by
  unfold State.promPage
  refine State.MemOnly.foldl (fun t i => ?_) _ s
  exact ((t.memOnly_tcDrop _ _).trans (State.memOnly_homeClear _ _)).trans (State.memOnly_copyLine _ _ _ _)
theorem State.memOnly_promSwap (p : Promotion) (fuel : Nat) : ∀ (j : Nat) (s : State), s.MemOnly (s.promSwap p fuel j).1 := by
  induction fuel with
  | zero => exact fun _ s => .refl s
  | succ fuel ih =>
    intro j s
    unfold State.promSwap
    dsimp only
    split
    · exact (s.memOnly_putTower _ _ _ _).trans (ih _ _)
    · exact .refl s
theorem State.memOnly_promUndo (s : State) (p : Promotion) (n : Nat) : s.MemOnly (s.promUndo p n) := by
  unfold State.promUndo
  exact State.MemOnly.foldl (fun t j => t.memOnly_putTower _ _ _ _) _ s
theorem State.memOnly_promMoved (s : State) (p : Promotion) (n : Nat) : s.MemOnly (s.promMoved p n) :=
  s.memOnly_lines ⟨rfl, rfl, rfl, rfl, rfl⟩ rfl rfl


/-- What PROMOTION_COMPLETE does once the swaps have been tried. -/
def State.promEnds (r : State × Nat) (p : Promotion) (tower : Nat) : Out :=
  match r with
  | (s, n) =>
    let s := if n < 32 then s.promUndo p n else s
    let s := (s.promMoved p n).mapMem fun x => { x with promos := x.promos.erase p }
    let (fid, s) := s.takeFid
    let status := if n < 32 then 1 else 0
    let notice : FaultRec := ⟨fid, noTask, if bit p.va 56 then p.va + ones 7 * 2 ^ 57 else p.va, p.asid, status, 0x80, 1, if n < 32 then n else 0, tower⟩
    .next ((State.promLast { s with faults := s.faults ++ [notice] } tower status))

/-- The end of a promotion whose directories have moved. -/
def State.promEnded (y : State) (p : Promotion) (tower n : Nat) : State :=
  let s := y.mapMem fun x => { x with promos := x.promos.erase p }
  let notice : FaultRec := ⟨s.nextFid, noTask, if bit p.va 56 then p.va + ones 7 * 2 ^ 57 else p.va, p.asid, if n < 32 then 1 else 0, 0x80, 1,
    if n < 32 then n else 0, tower⟩
  State.promLast { s.takeFid.2 with faults := s.faults ++ [notice] } tower (if n < 32 then 1 else 0)

theorem State.promEnded_leaves (y : State) (p : Promotion) (tower n : Nat) : ∃ f : FaultRec, (y.promEnded p tower n).mem.promos = y.mem.promos.erase p ∧
    (y.promEnded p tower n).faults = y.faults ++ [f] ∧ f.tid = 0xFFFFFFFF ∧ f.kind = 0x80 ∧ f.code ≤ 1 ∧ f.site = tower := by
  have hcode : (if n < 32 then 1 else 0) ≤ 1 := by split <;> decide
  exact ⟨⟨y.nextFid, noTask, _, _, if n < 32 then 1 else 0, 0x80, 1, _, tower⟩, rfl, rfl, rfl, rfl, hcode, rfl⟩

theorem State.promEnds_leaves (s : State) (n : Nat) (p : Promotion) (tower : Nat) : ∃ y : State, s.MemOnly y ∧
    State.promEnds (s, n) p tower = .next (y.promEnded p tower n) := by
  have hundo : s.MemOnly (if n < 32 then s.promUndo p n else s) := by
    split
    · exact s.memOnly_promUndo p n
    · exact .refl s
  exact ⟨_, hundo.trans (State.memOnly_promMoved _ p n), rfl⟩

theorem exec_promotionComplete {tower : Nat} {p : Promotion} {s : State} (hp : (s.mem.promos.find? fun q => q.tower == tower) = some p)
    (hrun : s.siteRuns (.tower tower) = true) (hfailed : s.mem.failedTowers.contains tower = false) (hquiet : s.promQuiet p = true)
    (hbanks : s.promBanks p = true) : ∃ r : State × Nat, s.MemOnly r.1 ∧ exec (.promotionComplete tower) s = State.promEnds r p tower := by
  have hexec : exec (.promotionComplete tower) s = execPromotionComplete tower s := rfl
  have hcopy : s.MemOnly ((List.range 32).foldl (fun s j => s.promPage p j) s) := State.MemOnly.foldl (fun t j => t.memOnly_promPage p j) _ s
  rw [hexec]
  delta execPromotionComplete
  split
  · rename_i hnone
    exact absurd (hnone.symm.trans hp) (by simp)
  · rename_i q hq
    obtain rfl : q = p := Option.some.inj (hq.symm.trans hp)
    rw [if_neg (by rw [hrun, hfailed, hquiet, hbanks]; simp)]
    generalize (List.range 32).foldl (fun s j => s.promPage q j) s = c at hcopy ⊢
    refine ⟨c.promSwap q 32 0, hcopy.trans (State.memOnly_promSwap q 32 0 c), ?_⟩
    extract_lets u
    have hu : c = u := rfl
    clear_value u
    subst hu
    generalize c.promSwap q 32 0 = r
    obtain ⟨w, n⟩ := r
    rfl

/-! ### Records posted (R67, R128, R130, R202, R203) -/

/-- A vector's message goes out, or is held pending when the vector is masked (R49, R67). -/
theorem State.sendMsix_notifies (s : State) (w : Nat × Nat) :
    if s.link.msixOpen.contains w then (s.sendMsix w.1 w.2).out = s.out ++ [.msix w.1 w.2]
    else (s.sendMsix w.1 w.2).out = s.out ∧ w ∈ (s.sendMsix w.1 w.2).link.msixPending := by
  unfold State.sendMsix
  split
  · rfl
  · split
    · rename_i hpending
      exact ⟨rfl, List.contains_iff_mem.1 hpending⟩
    · exact ⟨rfl, List.mem_append_right _ List.mem_cons_self⟩
theorem State.sendMsix_mgmt (s : State) (port vec : Nat) : (s.sendMsix port vec).mgmt = s.mgmt := by
  unfold State.sendMsix
  split
  · rfl
  · split <;> rfl
theorem State.sendMsix_faults (s : State) (port vec : Nat) : (s.sendMsix port vec).faults = s.faults := by
  unfold State.sendMsix
  split
  · rfl
  · split <;> rfl
theorem State.sendMsix_log (s : State) (port vec : Nat) : (s.sendMsix port vec).log = s.log := by
  unfold State.sendMsix
  split
  · rfl
  · split <;> rfl

/-- A register reads the same once memory has worked. -/
theorem State.MemOnly.reg {s t : State} (h : s.MemOnly t) (off : Nat) : t.reg off = s.reg off := by
  unfold State.reg
  rw [h.mgmt]

section
variable {s : State} (hrise : (s.mgmt.map fun e => e.1).Pairwise (· < ·)) (hborrowed : s.mem.borrowed = [])
include hrise hborrowed

/-- A record written to the fault ring: the tail advances, and messages and hosts see nothing of it. -/
theorem State.putFault_leaves (r : FaultRec) : let t := s.putFault r
    t.faults = s.faults ∧ t.link = s.link ∧ t.out = s.out ∧ t.reg offFQTAIL = (s.reg offFQTAIL + 1) % 2 ^ 32 ∧ t.reg offFQCFG = s.reg offFQCFG := by
  have hwrite := s.memOnly_physWrite (ringTower (s.reg offFQBASE)) (ringAddr (s.reg offFQBASE) + 32 * (s.reg offFQTAIL % 2 ^ bits (s.reg offFQCFG) 19 16)) r.bytes
  unfold State.putFault
  dsimp only
  generalize s.physWrite _ _ _ = t at hwrite
  have hrise' : (t.mgmt.map fun e => e.1).Pairwise (· < ·) := hwrite.mgmt ▸ hrise
  refine ⟨hwrite.faults, hwrite.link, (hwrite.quiet hborrowed).1, State.reg_setReg_same hrise' _ _, ?_⟩
  rw [State.reg_setReg_other hrise' _ (by decide), hwrite.reg]

theorem State.putLog_leaves (r : LogRec) : let t := s.putLog r
    t.log = s.log ∧ t.reg offELTAIL = (s.reg offELTAIL + 1) % 2 ^ 32 ∧ t.reg offELCFG = s.reg offELCFG ∧
      let w := (bits (s.reg offELCFG) 23 22, bits (s.reg offELCFG) 10 0)
      if s.link.msixOpen.contains w then t.out = s.out ++ [.msix w.1 w.2] else t.out = s.out ∧ w ∈ t.link.msixPending := by
  have hwrite := s.memOnly_physWrite (ringTower (s.reg offELBASE)) (ringAddr (s.reg offELBASE) + 32 * (s.reg offELTAIL % 2 ^ bits (s.reg offELCFG) 20 16)) r.bytes
  unfold State.putLog
  dsimp only
  generalize s.physWrite _ _ _ = t at hwrite
  have hrise' : (t.mgmt.map fun e => e.1).Pairwise (· < ·) := hwrite.mgmt ▸ hrise
  have hreg (u : State) (port vec off : Nat) : (u.sendMsix port vec).reg off = u.reg off := by
    unfold State.reg
    rw [State.sendMsix_mgmt]
  have hnotifies := (t.setReg offELTAIL ((s.reg offELTAIL + 1) % 2 ^ 32)).sendMsix_notifies (bits (s.reg offELCFG) 23 22, bits (s.reg offELCFG) 10 0)
  rw [State.setReg_link, State.setReg_out, hwrite.link, (hwrite.quiet hborrowed).1] at hnotifies
  refine ⟨(State.sendMsix_log _ _ _).trans hwrite.log, ?_, ?_, hnotifies⟩
  · rw [hreg, State.reg_setReg_same hrise']
  · rw [hreg, State.reg_setReg_other hrise' _ (by decide), hwrite.reg]

end

theorem bit_eq_bits (v i : Nat) : bit v i = (bits v i i == 1) := by
  rw [bit, bits, show i + 1 - i = 1 by omega, Nat.pow_one]
theorem bit_setBits (v x i : Nat) : bit (setBits v i i x) i = (x % 2 == 1) := by
  rw [bit_eq_bits, bits_setBits _ _ (Nat.le_refl i), show i + 1 - i = 1 by omega, Nat.pow_one]

section
variable {s : State}

/-- One fault record whose ring has room goes to it, with its message (R128, R130). -/
theorem exec_faultRecordPost {f : FaultRec} (hfaults : s.faults = [f]) (hpage : f.npage = 1) (hroom : s.faultRoom ≠ 0)
    (hrun : s.siteRuns f.agent = true) (hfailed : s.mem.failedTowers.contains (ringTower (s.reg offFQBASE)) = false) :
    exec (.faultRecordPost f.fid) s = .next (State.sendMsix { s.putFault f with faults := (s.putFault f).faults.filter fun x => !([f].contains x) }
      (bits ((s.putFault f).reg offFQCFG) 23 22) (bits ((s.putFault f).reg offFQCFG) 10 0)) := by
  have hexec : exec (.faultRecordPost f.fid) s = execFaultRecordPost f.fid s := rfl
  have hfind : (s.faults.find? fun r => r.fid == f.fid) = some f := by simp [hfaults]
  have hbefore : (s.faults.takeWhile fun x => x.fid != f.fid) = [] := by simp [hfaults]
  have hother : (s.faults.find? fun x => x.begun && !(s.faults.any fun y => y.fid == x.fid && decide (y.idx < x.idx))) = none := by
    have hbegun : f.begun = false := by simp [FaultRec.begun, hpage]
    simp [hfaults, hbegun]
  have hmine : (s.faults.filter fun x => x.fid == f.fid).take s.faultRoom = [f] := by
    obtain ⟨n, hn⟩ := Nat.exists_eq_succ_of_ne_zero hroom
    simp [hfaults, hn]
  rw [hexec, execFaultRecordPost, hfind]
  dsimp only
  rw [hbefore, hother, hmine]
  exact if_neg (by rw [hrun, hfailed]; simpa using hroom)

theorem exec_errorRecordPost {l : LogRec} {rest : List LogRec} (hlog : s.log = l :: rest) (hrun : s.sheetRuns l.sheet = true) :
    exec .errorRecordPost s =
      let t := if s.logRoom then State.putLog { s with log := rest } l else State.regCount { s with log := rest } offELDROP
      .next (if bit (t.reg offELCFG) 30 = true ∧ (l.kind = 0x02 ∨ l.kind = 0x04) then t.askFreeze else t) := by
  have hexec : exec .errorRecordPost s = execErrorRecordPost s := rfl
  have hfind : (s.log.find? fun r => s.sheetRuns r.sheet) = some l := by simp [hlog, hrun]
  have herase : s.log.erase l = rest := by simp [hlog]
  rw [hexec, execErrorRecordPost, hfind]
  dsimp only
  rw [herase]
  rfl

end

section
variable {s : State} (hrise : (s.mgmt.map fun e => e.1).Pairwise (· < ·))
include hrise

/-- What the record and its message leave: the ring's tail one further, and the message sent or held pending. -/
theorem faultRecord_leaves {f : FaultRec} (hborrowed : s.mem.borrowed = []) (hfaults : s.faults = [f]) (hpage : f.npage = 1) (hroom : s.faultRoom ≠ 0)
    (hrun : s.siteRuns f.agent = true) (hfailed : s.mem.failedTowers.contains (ringTower (s.reg offFQBASE)) = false) :
    let w := (bits (s.reg offFQCFG) 23 22, bits (s.reg offFQCFG) 10 0)
    ∃ t : State, exec (.faultRecordPost f.fid) s = .next t ∧ t.faults = [] ∧ t.reg offFQTAIL = (s.reg offFQTAIL + 1) % 2 ^ 32 ∧
      if s.link.msixOpen.contains w then t.out = s.out ++ [.msix w.1 w.2] else t.out = s.out ∧ w ∈ t.link.msixPending := by
  obtain ⟨hkept, hlink, hout, htail, hcfg⟩ := State.putFault_leaves hrise hborrowed f
  refine ⟨_, exec_faultRecordPost hfaults hpage hroom hrun hfailed, ?_, ?_, ?_⟩
  · rw [State.sendMsix_faults]
    show ((s.putFault f).faults.filter fun x => !([f].contains x)) = []
    rw [hkept, hfaults]
    simp
  · rw [← htail, State.reg, State.sendMsix_mgmt]
    rfl
  · have h := State.sendMsix_notifies { s.putFault f with faults := (s.putFault f).faults.filter fun x => !([f].contains x) }
      (bits (s.reg offFQCFG) 23 22, bits (s.reg offFQCFG) 10 0)
    rw [hcfg, ← hlink, ← hout]
    exact h

theorem exec_errorRecordPost_put {l : LogRec} {rest : List LogRec} (hlog : s.log = l :: rest) (hrun : s.sheetRuns l.sheet = true)
    (hroom : s.logRoom = true) (hborrowed : s.mem.borrowed = []) (hfreeze : bit (s.reg offELCFG) 30 = false) :
    exec .errorRecordPost s = .next (State.putLog { s with log := rest } l) := by
  obtain ⟨-, -, hcfg, -⟩ := State.putLog_leaves (s := { s with log := rest }) hrise hborrowed l
  rw [exec_errorRecordPost hlog hrun]
  dsimp only
  rw [if_pos hroom, hcfg]
  exact congrArg _ (if_neg fun h => Bool.false_ne_true (hfreeze.symm.trans h.1))

theorem exec_errorRecordPost_drop {l : LogRec} {rest : List LogRec} (hlog : s.log = l :: rest) (hrun : s.sheetRuns l.sheet = true)
    (hroom : s.logRoom = false) (hfreeze : bit (s.reg offELCFG) 30 = false) :
    exec .errorRecordPost s = .next (State.regCount { s with log := rest } offELDROP) := by
  have hcfg : (State.regCount { s with log := rest } offELDROP).reg offELCFG = s.reg offELCFG :=
    State.reg_setReg_other (s := { s with log := rest }) hrise _ (by decide)
  rw [exec_errorRecordPost hlog hrun]
  dsimp only
  rw [if_neg (c := s.logRoom = true) (by rw [hroom]; exact Bool.false_ne_true), hcfg]
  exact congrArg _ (if_neg fun h => Bool.false_ne_true (hfreeze.symm.trans h.1))

end

/-- Settles O54: a request for a promotion writes its register and joins the list; its end takes it off and leaves a notice; a posted record is
written by the home, which no register, message or host sees, and its tail advances. -/
theorem postsAndPromotions : Obligations.PostsAndPromotions := by
  intro tower v f l p s hrise off notified cfg tgt va full
  refine ⟨fun hlt => ⟨exec_promreqWrite_ignored hlt, fun hidle htgt hrun => ?_⟩, fun hp hrun hfailed hquiet hbanks => ?_,
    fun hborrowed => ⟨fun hfaults hpage hroom hrun hfailed => ?_, fun rest hlog hrun hfreeze => ⟨fun hroom => ?_, fun hroom => ?_⟩⟩⟩
  · refine ⟨fun hnone => ⟨s.promLast tower 2, exec_promreqWrite_refused hlt hidle htgt hrun hnone, ?_, rfl⟩, fun tt pa es hsome => ?_⟩
    · rw [State.promLast, show off = offProm tower from rfl, State.reg_setReg_same hrise, bits_setBits _ _ (by decide)] <;> rfl
    · obtain ⟨hcfg, htarget⟩ := State.promAccept_regs (tower := tower) (v := v) hrise tt pa es
      refine ⟨_, exec_promreqWrite_accepted hlt hidle htgt hrun hsome, ?_, ?_, rfl⟩
      · rw [show off = offProm tower from rfl, hcfg, bit_setBits]
        rfl
      · rw [show off = offProm tower from rfl, htarget, bit_setBits]
        rfl
  · obtain ⟨⟨u, n⟩, hu, hexec⟩ := exec_promotionComplete hp hrun hfailed hquiet hbanks
    obtain ⟨y, hy, hends⟩ := State.promEnds_leaves u n p tower
    obtain ⟨r, hpromos, hfaults, hr⟩ := y.promEnded_leaves p tower n
    have hall := hu.trans hy
    exact ⟨_, r, hexec.trans hends, hpromos.trans (by rw [hall.tables.promos]), hfaults.trans (by rw [hall.faults]), hr⟩
  · exact faultRecord_leaves hrise hborrowed hfaults hpage hroom hrun hfailed
  · obtain ⟨hrest, htail, hcfg, hnotified⟩ := State.putLog_leaves (s := { s with log := rest }) hrise hborrowed l
    refine ⟨_, exec_errorRecordPost_put hrise hlog hrun hroom hborrowed hfreeze, hrest, htail, hnotified⟩
  · exact exec_errorRecordPost_drop hrise hlog hrun hroom hfreeze

end Sys2Proof.Machine

/-! PROOFS. What a level does with a request of a child (O51). -/

namespace Sys2Proof.Machine

/-! ### Transactions that wait for nobody (R110) -/

theorem lineMerge_none (v x : BitVec 2048) : lineMerge v x 0 = v := by
  refine BitVec.eq_of_getLsbD_eq fun i hi => ?_
  rw [getLsbD_lineMerge v x 0 hi]
  simp

/-- A transaction that asks nobody finishes at once. -/
theorem State.openTxn_nobody (s : State) {t : Txn} (r : Req) (excl : Bool) (hwait : t.waitFor = []) (hup : t.up = false) (hland : t.landing = false) :
    s.openTxn t r [] [] excl = (s.putTxn t).finishTxn t := by
  have hnone : (([] : List Kid) ++ if excl then ([] : List Kid) else []).map (fun k => (k.node, k.a)) = [] := by cases excl <;> rfl
  have hsame : { t with waitFor := ([] : List (Node × LineId)) } = t := by rw [← hwait]
  unfold State.openTxn
  rw [hnone, hsame]
  dsimp only [List.foldl_nil]
  rw [show (if excl = true then s.putTxn t else s.putTxn t) = s.putTxn t by split <;> rfl, State.settleTxn, if_pos ⟨hwait, hup, hland⟩]

/-- A child's answer, and the transaction that stays until it has landed, leave every line as it is. -/
theorem State.line?_answered (s : State) (t : Txn) (m : Msg) (c : MClass) (b : Body) (n : Node) (a : LineId) :
    ((s.putTxn t).respond m c b).mem.line? n a = s.mem.line? n a := rfl
theorem State.net_answered (s : State) (t : Txn) (m : Msg) (c : MClass) (b : Body) :
    ((s.putTxn t).respond m c b).mem.net = s.mem.net ++ [⟨c, m.dst, m.src, m.dst, m.tag, m.reqWm, s.wm m.dst, b⟩] := rfl
theorem State.net_setLine (s : State) (l : Line) : (s.mapMem fun x => x.setLine l).mem.net = s.mem.net := by
  show (s.mem.setLine l).net = s.mem.net
  unfold MemState.setLine
  split <;> rfl

theorem State.dieFailed_setLine (s : State) (l : Line) (x : Site) : (s.mapMem fun x => x.setLine l).dieFailed x = s.dieFailed x := by
  have hsame : (s.mem.setLine l).failedDies = s.mem.failedDies := by
    unfold MemState.setLine
    split <;> rfl
  unfold State.dieFailed
  rw [State.mapMem_mem, hsame]

/-! ### An L2 answers a child (R110, R111) -/

section
variable {s : State} {t : Txn} {d : Nat} {k : Node} {e : Line} {v : Attr} (hnode : t.node = .l2 d) (hline : s.mem.line? (.l2 d) t.a = some e)
  (halive : s.dieFailed (nodeSite k) = false)
include hnode hline halive

/-- Data for a child of an L2: the child is recorded in S, and the answer goes out. -/
theorem State.grantS_l2 (r : Req) (val : BitVec 2048) (hv : v.dk = false) (hkids : ∀ q ∈ e.kids, q.node = k ∧ q.a = t.a) (hat : e.node = .l2 d ∧ e.a = t.a) :
    (s.grantS t k r val v).mem.line? (.l2 d) t.a = some { e with kids := [⟨k, t.a, .s⟩], val := val } ∧
      (s.grantS t k r val v).mem.net = s.mem.net ++ [⟨.rsp, t.msg.dst, t.msg.src, t.msg.dst, t.msg.tag, t.msg.reqWm, s.wm t.msg.dst,
        .data t.a (.l2 d) k r val v⟩] := by
  have hfilter : (e.kids.map fun (q : Kid) => { q with st := q.st.shared }).filter (fun q => !(q.node == k && q.a == t.a)) = [] := by
    rw [List.filter_eq_nil_iff]
    intro q hq
    obtain ⟨p, hp, rfl⟩ := List.mem_map.1 hq
    obtain ⟨h1, h2⟩ := hkids p hp
    simp [h1, h2]
  have hentry : (s.mapMem fun x => x.dropTxn t).mem.entry (.l2 d) t.a (some v) = some e := hline
  have halive' : (s.mapMem fun x => x.dropTxn t).dieFailed (nodeSite k) = false := halive
  unfold State.grantS
  rw [hnode]
  dsimp only
  rw [if_neg (by rw [halive']; exact Bool.false_ne_true), if_neg (by rw [hv]; exact Bool.false_ne_true), hentry]
  refine ⟨?_, ?_⟩
  · refine (State.line?_answered _ _ _ _ _ _ _).trans ((MemState.line?_setLine (s.mapMem fun x => x.dropTxn t).mem _ _ _).trans
      ((if_pos ⟨hat.1.symm, hat.2.symm⟩).trans (congrArg some ?_)))
    exact congrArg (fun ks : List Kid => ({ e with kids := ks ++ [⟨k, t.a, .s⟩], val := val } : Line)) hfilter
  · exact (State.net_answered _ _ _ _ _).trans (by rw [State.net_setLine]; rfl)

/-- A line for a child of an L2: the child is its one holder, in M, and the answer goes out. -/
theorem State.grantX_l2 (r : Req) (val mask dirty : BitVec 2048) (hat : e.node = .l2 d ∧ e.a = t.a) :
    (∃ now, (s.grantX t k r val mask dirty v).mem.line? (.l2 d) t.a = some { e.written now with kids := [⟨k, t.a, .m⟩] }) ∧
      (s.grantX t k r val mask dirty v).mem.net = s.mem.net ++ [⟨.rsp, t.msg.dst, t.msg.src, t.msg.dst, t.msg.tag, t.msg.reqWm, s.wm t.msg.dst,
        .dataX t.a (.l2 d) k r val mask dirty v⟩] := by
  have hentry : (s.mapMem fun x => x.dropTxn t).mem.entry (.l2 d) t.a (some v) = some e := hline
  have halive' : (s.mapMem fun x => x.dropTxn t).dieFailed (nodeSite k) = false := halive
  unfold State.grantX
  rw [hnode]
  dsimp only
  rw [if_neg (by rw [halive']; exact Bool.false_ne_true), hentry]
  refine ⟨⟨s.now (.die d), ?_⟩, ?_⟩
  · obtain ⟨hwnode, hwa⟩ := e.written_node (s.now (.die d))
    refine (State.line?_answered _ _ _ _ _ _ _).trans ((MemState.line?_setLine (s.mapMem fun x => x.dropTxn t).mem _ _ _).trans (if_pos ⟨?_, ?_⟩))
    · exact (hwnode.trans hat.1).symm
    · exact (hwa.trans hat.2).symm
  · exact (State.net_answered _ _ _ _ _).trans (by rw [State.net_setLine]; rfl)

end

/-- The state that a level's line is in once a child may write. -/
theorem Line.written_fields (l : Line) (now : Nat) : (l.written now).st = (match l.st with | .s => .w | .e => .m | x => x) ∧
    (l.written now).val = l.val ∧ (l.written now).dirty = l.dirty := by
  obtain ⟨n, a, st, ks, val, dirty, attr, since⟩ := l
  cases st <;> exact ⟨rfl, rfl, rfl⟩

/-! ### Requests at an L2 -/

section
variable {j d : Nat} {m : Msg} {a : LineId} {k : Node} {r : Req} {e : Line} {s t : State} (htake : s.takeMsg j = some (m, t))
  (hpar : parentNode k a m.dst = .l2 d) (hline : t.mem.line? (.l2 d) a = some e) (hbusy : t.lineBusy (.l2 d) k a none = false)
include hpar hline hbusy

theorem State.serve_refused {c : Nat} (excl : Bool) (hrefuses : e.attr.refuses r.acc r.priv = some c) :
    t.serve m a k r excl = some (t.respond m .rsp (.refuse a k r c false)) := by
  rw [State.serve, hpar]
  dsimp only
  rw [State.serveMid, if_neg (by rw [hbusy]; exact Bool.false_ne_true), hline]
  dsimp only
  rw [hrefuses]
  rfl

theorem State.serve_deckled (excl : Bool) (hrefuses : e.attr.refuses r.acc r.priv = none) (hdk : e.attr.dk = true) :
    t.serve m a k r excl = some (t.respond m .rsp (.data a (.l2 d) k r e.val e.attr)) := by
  rw [State.serve, hpar]
  dsimp only
  rw [State.serveMid, if_neg (by rw [hbusy]; exact Bool.false_ne_true), hline]
  dsimp only
  rw [hrefuses]
  exact if_pos hdk

/-- A request that the level can answer itself, no other child holding the line. -/
theorem State.serve_own (excl : Bool) (hrefuses : e.attr.refuses r.acc r.priv = none) (hdk : e.attr.dk = false)
    (hkids : ∀ q ∈ e.kids, q.node = k ∧ q.a = a) :
    t.serve m a k r excl = some ((t.putTxn (freshTxn (.l2 d) a (some e.attr) m)).finishTxn (freshTxn (.l2 d) a (some e.attr) m)) := by
  have hnone (ks : List Kid) (hsub : ∀ q ∈ ks, q ∈ e.kids) : ks.filter (fun q : Kid => q.node != k) = [] := by
    rw [List.filter_eq_nil_iff]
    intro q hq
    simp [(hkids q (hsub q hq)).1]
  rw [State.serve, hpar]
  dsimp only
  rw [State.serveMid, if_neg (by rw [hbusy]; exact Bool.false_ne_true), hline]
  dsimp only
  rw [hrefuses]
  dsimp only
  rw [if_neg (by rw [hdk]; exact Bool.false_ne_true), hnone e.owners fun q hq => (List.mem_filter.1 hq).1,
    hnone e.sharers fun q hq => (List.mem_filter.1 hq).1, State.openTxn_nobody _ _ _ rfl rfl rfl]

end

/-! ### What the transaction of a request of a child of an L2 ends with -/

/-- The transaction that an L2 opens for a request on a line it has. -/
def ownTxn (d : Nat) (a : LineId) (e : Line) (m : Msg) : Txn := freshTxn (.l2 d) a (some e.attr) m
theorem ownTxn_node (d : Nat) (a : LineId) (e : Line) (m : Msg) : (ownTxn d a e m).node = .l2 d := rfl
theorem ownTxn_attr (d : Nat) (a : LineId) (e : Line) (m : Msg) : (ownTxn d a e m).attr = some e.attr := rfl

section
variable {d : Nat} {m : Msg} {a : LineId} {k : Node} {r : Req} {e : Line} {t : State} (hline : t.mem.line? (.l2 d) a = some e)
include hline

theorem State.baseVal_own : (t.putTxn (ownTxn d a e m)).baseVal (ownTxn d a e m) = some e.val :=
  (congrArg (Option.map fun l : Line => lineMerge l.val 0 0) hline).trans (congrArg some (lineMerge_none _ _))
theorem State.entry_own : (t.putTxn (ownTxn d a e m)).mem.entry (ownTxn d a e m).node (ownTxn d a e m).a (ownTxn d a e m).attr = some e := hline

theorem State.finish_getS (hbody : m.body = .getS a k r) :
    (t.putTxn (ownTxn d a e m)).finishTxn (ownTxn d a e m) = (t.putTxn (ownTxn d a e m)).grantS (ownTxn d a e m) k r e.val e.attr := by
  have hmsg : (ownTxn d a e m).msg.body = .getS a k r := hbody
  rw [State.finishTxn, hmsg]
  dsimp only
  rw [ownTxn_node, ownTxn_attr]
  dsimp only
  rw [State.baseVal_own hline]

/-- Nothing that a transaction without nibbles holds changes its L2's line. -/
theorem State.absorb_own (hat : e.node = .l2 d ∧ e.a = a) : ((t.putTxn (ownTxn d a e m)).absorb (ownTxn d a e m)).mem.line? (.l2 d) a = some e ∧
    ((t.putTxn (ownTxn d a e m)).absorb (ownTxn d a e m)) = (t.putTxn (ownTxn d a e m)).mapMem fun x => x.setLine e := by
  have heq : (t.putTxn (ownTxn d a e m)).absorb (ownTxn d a e m) = (t.putTxn (ownTxn d a e m)).mapMem fun x => x.setLine e := by
    have hline' : (t.putTxn (ownTxn d a e m)).mem.line? (.l2 d) (ownTxn d a e m).a = some e := hline
    have hsame : ({ e with val := lineMerge e.val 0 0, dirty := e.dirty ||| 0 } : Line) = e := by
      rw [lineMerge_none, show e.dirty ||| 0 = e.dirty from BitVec.or_zero]
    rw [State.absorb, ownTxn_node, ownTxn_attr]
    dsimp only
    rw [State.mapMem, State.mapMem, hline']
    exact congrArg (fun l => ({ t.putTxn (ownTxn d a e m) with mem := (t.putTxn (ownTxn d a e m)).mem.setLine l } : State)) hsame
  refine ⟨?_, heq⟩
  rw [heq]
  exact (MemState.line?_setLine _ _ _ _).trans (if_pos ⟨hat.1.symm, hat.2.symm⟩)

theorem State.finish_getX (hbody : m.body = .getX a k r) (hst : e.st ≠ .o) :
    (t.putTxn (ownTxn d a e m)).finishTxn (ownTxn d a e m) =
      ((t.putTxn (ownTxn d a e m)).absorb (ownTxn d a e m)).grantX (ownTxn d a e m) k r e.val lineFull 0 e.attr := by
  have hmsg : (ownTxn d a e m).msg.body = .getX a k r := hbody
  rw [State.finishTxn, hmsg]
  dsimp only
  rw [State.baseVal_own hline, State.entry_own hline, ownTxn_attr]
  dsimp only [Option.map_some]
  cases hs : e.st with
  | o => exact absurd hs hst
  | m => rfl
  | e => rfl
  | s => rfl
  | w => rfl

theorem State.finish_upgr (hbody : m.body = .upgr a k r) (hst : e.st ≠ .o) (hknown : (e.kids.any fun q => q.node == k && q.a == a) = true) :
    (t.putTxn (ownTxn d a e m)).finishTxn (ownTxn d a e m) =
      (t.putTxn (ownTxn d a e m)).grantX (ownTxn d a e m) k r e.val e.dirty 0 e.attr := by
  have hmsg : (ownTxn d a e m).msg.body = .upgr a k r := hbody
  rw [State.finishTxn, hmsg]
  dsimp only
  rw [State.entry_own hline, ownTxn_attr]
  dsimp only
  rw [if_neg (by rw [show (ownTxn d a e m).a = a from rfl, hknown]; exact Bool.false_ne_true), if_neg hst, ownTxn_node]
  have hval : lineMerge e.val (ownTxn d a e m).val (ownTxn d a e m).dirty = e.val := lineMerge_none _ _
  have hdirty : e.dirty ||| (ownTxn d a e m).dirty = e.dirty := BitVec.or_zero
  rw [hval, if_pos (show holdsData (.l2 d) = true from rfl), hdirty]
  rfl

end

/-! ### The events -/

theorem exec_gets {j : Nat} {m : Msg} {a : LineId} {k : Node} {r : Req} {s t u : State} (htake : s.takeMsg j = some (m, t)) (hbody : m.body = .getS a k r)
    (hu : t.serve m a k r false = some u) : exec (.gets j) s = .next u := by
  have hexec : exec (.gets j) s = execGets j s := rfl
  rw [hexec, execGets, onMsg_taken htake, hbody]
  dsimp only
  rw [hu]
  rfl
theorem exec_getx {j : Nat} {m : Msg} {a : LineId} {k : Node} {r : Req} {s t u : State} (htake : s.takeMsg j = some (m, t)) (hbody : m.body = .getX a k r)
    (hu : t.serve m a k r true = some u) : exec (.getx j) s = .next u := by
  have hexec : exec (.getx j) s = execGetx j s := rfl
  rw [hexec, execGetx, onMsg_taken htake, hbody]
  dsimp only
  rw [hu]
  rfl

/-- A registration of a child that an L2 records, no other child holding the line. -/
theorem exec_upgr {j d : Nat} {m : Msg} {a : LineId} {k : Node} {r : Req} {e : Line} {s t : State} (htake : s.takeMsg j = some (m, t))
    (hbody : m.body = .upgr a k r) (hpar : parentNode k a m.dst = .l2 d) (hline : t.mem.line? (.l2 d) a = some e)
    (hbusy : t.lineBusy (.l2 d) k a (some e.attr.place) = false) (hkids : ∀ q ∈ e.kids, q.node = k ∧ q.a = a)
    (hknown : (e.kids.any fun q => q.node == k && q.a == a) = true) :
    exec (.upgr j) s = .next ((t.putTxn (ownTxn d a e m)).finishTxn (ownTxn d a e m)) := by
  have hexec : exec (.upgr j) s = execUpgr j s := rfl
  have hnone (ks : List Kid) (hsub : ∀ q ∈ ks, q ∈ e.kids) : ks.filter (fun q : Kid => !(q.node == k && q.a == a)) = [] := by
    rw [List.filter_eq_nil_iff]
    intro q hq
    obtain ⟨h1, h2⟩ := hkids q (hsub q hq)
    simp [h1, h2]
  rw [hexec, execUpgr, onMsg_taken htake, hbody]
  dsimp only
  rw [hpar]
  dsimp only
  simp only [hline, Option.map_some]
  rw [if_neg (by rw [hbusy]; exact Bool.false_ne_true), if_pos hknown, hnone e.owners fun q hq => (List.mem_filter.1 hq).1,
    hnone e.sharers fun q hq => (List.mem_filter.1 hq).1, State.openTxn_nobody _ _ _ rfl rfl rfl]
  rfl

/-- Settles O51: a request on a line that an L2 has, no other child holding it, opens a transaction that finishes at once, with a grant; a
refusal and a deckled line are answered without one. -/
theorem levelsAnswerRequests : Obligations.LevelsAnswerRequests := by
  intro j d m a k r e s t htake hpar hline hfree hbusy halive hkids asked held
  have hat : e.node = .l2 d ∧ e.a = a := by
    have h := List.find?_some hline
    simpa using h
  have hmem (u : State) (n : Msg) (h : u.mem.net = t.mem.net ++ [n]) : n ∈ u.mem.net := h ▸ List.mem_append_right _ List.mem_cons_self
  refine ⟨fun hbody => ⟨fun c hc => ?_, fun hno hdk => ?_⟩, fun hbody => ⟨fun c hc => ?_, fun hno hdk => ?_⟩, fun hno hdk => ⟨fun hbody => ?_,
    fun hst hbody => ?_, fun hst hsome hbody => ?_⟩⟩
  · exact exec_gets htake hbody (State.serve_refused hpar hline hfree false hc)
  · exact exec_gets htake hbody (State.serve_deckled hpar hline hfree false hno hdk)
  · exact exec_getx htake hbody (State.serve_refused hpar hline hfree true hc)
  · exact exec_getx htake hbody (State.serve_deckled hpar hline hfree true hno hdk)
  · obtain ⟨hl, hnet⟩ := State.grantS_l2 (s := t.putTxn (ownTxn d a e m)) (t := ownTxn d a e m) (v := e.attr) rfl hline halive r e.val hdk hkids hat
    refine ⟨_, _, exec_gets htake hbody ((State.serve_own hpar hline hfree false hno hdk hkids).trans
      (congrArg some (State.finish_getS hline hbody))), hl, rfl, rfl, rfl, fun h => absurd h (by decide), _, hmem _ _ hnet, rfl, rfl, rfl, ?_⟩
    exact ⟨rfl, rfl, rfl, rfl, rfl, rfl, rfl⟩
  · obtain ⟨hsame, habsorb⟩ := State.absorb_own (m := m) hline hat
    have halive' : ((t.putTxn (ownTxn d a e m)).absorb (ownTxn d a e m)).dieFailed (nodeSite k) = false := by
      rw [habsorb, State.dieFailed_setLine]
      exact halive
    obtain ⟨⟨now, hl⟩, hnet⟩ := State.grantX_l2 (s := (t.putTxn (ownTxn d a e m)).absorb (ownTxn d a e m)) (t := ownTxn d a e m) (v := e.attr) rfl
      hsame halive' r e.val lineFull 0 hat
    obtain ⟨hwst, hwval, hwdirty⟩ := e.written_fields now
    have hnet' : ((t.putTxn (ownTxn d a e m)).absorb (ownTxn d a e m)).mem.net = t.mem.net := by
      rw [habsorb, State.net_setLine]
      rfl
    rw [hnet'] at hnet
    refine ⟨_, _, exec_getx htake hbody ((State.serve_own hpar hline hfree true hno hdk hkids).trans
      (congrArg some (State.finish_getX hline hbody hst))), hl, rfl, hwval, hwdirty, fun _ => hwst, _, hmem _ _ hnet, rfl, rfl, rfl, ?_⟩
    exact ⟨rfl, rfl, rfl, rfl, rfl, rfl, rfl⟩
  · have hknown : (e.kids.any fun q => q.node == k && q.a == a) = true := by
      obtain ⟨q, hq⟩ := List.exists_mem_of_ne_nil _ hsome
      obtain ⟨h1, h2⟩ := hkids q hq
      exact List.any_eq_true.2 ⟨q, hq, by simp [h1, h2]⟩
    obtain ⟨⟨now, hl⟩, hnet⟩ := State.grantX_l2 (s := t.putTxn (ownTxn d a e m)) (t := ownTxn d a e m) (v := e.attr) rfl hline halive r e.val e.dirty 0 hat
    obtain ⟨hwst, hwval, hwdirty⟩ := e.written_fields now
    refine ⟨_, _, (exec_upgr htake hbody hpar hline hbusy hkids hknown).trans (congrArg Host.Outcome.next (State.finish_upgr hline hbody hst hknown)), hl, rfl,
      hwval, hwdirty, fun _ => hwst, _, hmem _ _ hnet, rfl, rfl, rfl, ?_⟩
    exact ⟨rfl, rfl, rfl, rfl, rfl, rfl, rfl⟩

end Sys2Proof.Machine

/-! PROOFS. How lines move: what an L1 does with its parent's messages, what answers do, and how lines leave (O52). -/

namespace Sys2Proof.Machine

/-! ### Transactions at a level that nothing is open at -/

/-- A level with no transaction on a line has given nothing of it up. -/
theorem MemState.heldUp_none {x : MemState} {n : Node} {a : LineId} (h : x.txnsAt n a = []) : x.heldUp n a = (0, 0, 0, 0) := by
  have hno : ∀ t ∈ x.txns, ¬(t.node = n ∧ t.a = a) := fun t ht hat => by
    have hmem : t ∈ x.txnsAt n a := List.mem_filter.2 ⟨ht, by simp [hat.1, hat.2]⟩
    rw [h] at hmem
    exact List.not_mem_nil hmem
  unfold MemState.heldUp
  generalize x.txns = ts at hno
  induction ts with
  | nil => rfl
  | cons t ts ih =>
    rw [List.foldl_cons, if_neg fun hat => hno t List.mem_cons_self ⟨hat.1, hat.2.1⟩]
    exact ih fun u hu => hno u (List.mem_cons_of_mem _ hu)
theorem State.downTxn_idle {s : State} {n : Node} {a : LineId} (h : s.mem.txnsAt n a = []) (v : Option Attr) (m : Msg) :
    s.downTxn n a v m = freshTxn n a v m := by
  rw [State.downTxn, MemState.heldUp_none h]
  rfl

/-- No nibbles are no write-back. -/
theorem State.lateHome_none (s : State) (n frm : Node) (a : LineId) (val : BitVec 2048) (last : Nat) : s.lateHome n frm a val 0 last = s := by
  have hfold (ms : List Msg) : (ms.foldl (fun k m => match m.body with
      | .wbDirty b n' _ newer true _ => if b = a ∧ n' ≠ frm ∧ (nodePath n' a.line).contains frm = true then k &&& ~~~newer else k
      | _ => k) (0 : BitVec 2048)) = 0 := by
    induction ms with
    | nil => rfl
    | cons m ms ih =>
      rw [List.foldl_cons]
      refine Eq.trans (congrArg (fun z => List.foldl _ z ms) ?_) ih
      split
      · split
        · exact BitVec.zero_and
        · rfl
      · rfl
  unfold State.lateHome
  dsimp only
  exact if_pos (hfold _)

/-! ### An L1 answers its parent (R109, R110, R414) -/

/-- The transaction that an L1 opens for a message of its parent about a line it has. -/
def holderTxn (c : CoreId) (a : LineId) (e : Line) (m : Msg) : Txn := freshTxn (.l1 c) a (some e.attr) m
theorem holderTxn_node (c : CoreId) (a : LineId) (e : Line) (m : Msg) : (holderTxn c a e m).node = .l1 c := rfl
theorem holderTxn_attr (c : CoreId) (a : LineId) (e : Line) (m : Msg) : (holderTxn c a e m).attr = some e.attr := rfl

section
variable {c : CoreId} {m : Msg} {a : LineId} {par : Node} {r : Req} {e : Line} {t : State} (hline : t.mem.line? (.l1 c) a = some e)
  (hkids : e.kids = [])
include hline

theorem State.baseVal_holder : t.baseVal (holderTxn c a e m) = some e.val :=
  (congrArg (Option.map fun l : Line => lineMerge l.val 0 0) hline).trans (congrArg some (lineMerge_none _ _))

theorem State.finish_fwdS (hbody : m.body = .fwdS a (.l1 c) r) :
    (t.putTxn (holderTxn c a e m)).finishTxn (holderTxn c a e m) =
      State.sendOwned ((t.putTxn (holderTxn c a e m)).mapMem fun x => (x.dropTxn (holderTxn c a e m)).setLine
        { e with st := e.st.shared, kids := e.kids.map fun q => { q with st := q.st.shared }, val := e.val }) m (nodeSite r.node)
        (.data a (.l1 c) (parentNode (.l1 c) a m.src) r e.val e.attr) := by
  have hmsg : (holderTxn c a e m).msg.body = .fwdS a (.l1 c) r := hbody
  have hentry : (t.putTxn (holderTxn c a e m)).mem.entry (holderTxn c a e m).node (holderTxn c a e m).a (holderTxn c a e m).attr = some e := hline
  have hval : ((t.putTxn (holderTxn c a e m)).mapMem fun x => x.dropTxn (holderTxn c a e m)).baseVal (holderTxn c a e m) = some e.val :=
    State.baseVal_holder (t := (t.putTxn (holderTxn c a e m)).mapMem fun x => x.dropTxn (holderTxn c a e m)) hline
  rw [State.finishTxn, hmsg]
  dsimp only
  rw [hentry, hval]
  rfl

/-- A holder that is asked for the line gives it up, with its nibbles unless its copy is in E. -/
theorem State.yieldUp_holder (r : Req) :
    ((t.putTxn (holderTxn c a e m)).yieldUp (holderTxn c a e m) (some e) (.l1 c) r) =
      (((t.putTxn (holderTxn c a e m)).mapMem fun x => x.dropTxn (holderTxn c a e m)).dropNode (.l1 c) a).respond m .rsp
        (.dataX a (.l1 c) (parentNode (.l1 c) a m.src) r e.val (if e.st = .e then 0 else lineFull) e.dirty e.attr) := by
  have hval : (t.putTxn (holderTxn c a e m)).baseVal (holderTxn c a e m) = some e.val := State.baseVal_holder (t := t.putTxn (holderTxn c a e m)) hline
  have hapart : (if (holderTxn c a e m).recalls then (holderTxn c a e m).loose else 0) = 0 := by split <;> rfl
  have hdirty : (holderTxn c a e m).dirty ||| e.dirty = e.dirty := BitVec.zero_or
  have hmask (x : BitVec 2048) : x &&& ~~~(0 : BitVec 2048) = x := by
    rw [show (~~~(0 : BitVec 2048)) = BitVec.allOnes 2048 from BitVec.not_zero, BitVec.and_allOnes]
  have hclean : (if (e.st == LState.e) = true then (holderTxn c a e m).mask else if (some e.val).isSome = true then lineFull
      else (holderTxn c a e m).mask) = if e.st = .e then 0 else lineFull := by
    by_cases h : e.st = .e
    · rw [if_pos h, if_pos (by rw [h]; rfl)]
      rfl
    · rw [if_neg h, if_neg (by simpa using h), if_pos (show (some e.val).isSome = true from rfl)]
  unfold State.yieldUp
  dsimp only
  rw [hval, hapart, State.lateHome_none, hmask, hmask, if_pos (show holdsData (.l1 c) = true from rfl), hdirty, hclean]
  rfl

theorem State.finish_fwdX (hbody : m.body = .fwdX a (.l1 c) r) :
    (t.putTxn (holderTxn c a e m)).finishTxn (holderTxn c a e m) = (t.putTxn (holderTxn c a e m)).yieldUp (holderTxn c a e m) (some e) (.l1 c) r := by
  have hmsg : (holderTxn c a e m).msg.body = .fwdX a (.l1 c) r := hbody
  have hentry : (t.putTxn (holderTxn c a e m)).mem.entry (holderTxn c a e m).node (holderTxn c a e m).a (holderTxn c a e m).attr = some e := hline
  rw [State.finishTxn, hmsg]
  dsimp only
  rw [hentry]
theorem State.finish_recall (hbody : m.body = .recall a (.l1 c) par) :
    (t.putTxn (holderTxn c a e m)).finishTxn (holderTxn c a e m) =
      (t.putTxn (holderTxn c a e m)).yieldUp (holderTxn c a e m) (some e) (.l1 c) (ownReq (.l1 c) a) := by
  have hmsg : (holderTxn c a e m).msg.body = .recall a (.l1 c) par := hbody
  have hentry : (t.putTxn (holderTxn c a e m)).mem.entry (holderTxn c a e m).node (holderTxn c a e m).a (holderTxn c a e m).attr = some e := hline
  rw [State.finishTxn, hmsg]
  dsimp only
  rw [hentry]
  rfl
theorem State.finish_inv (hbody : m.body = .inv a (.l1 c) par) :
    (t.putTxn (holderTxn c a e m)).finishTxn (holderTxn c a e m) =
      (((t.putTxn (holderTxn c a e m)).mapMem fun x => x.dropTxn (holderTxn c a e m)).dropNode (.l1 c) a).respond m .rsp
        (.invAck a (.l1 c) par e.val e.dirty) := by
  have hmsg : (holderTxn c a e m).msg.body = .inv a (.l1 c) par := hbody
  have hentry : (t.putTxn (holderTxn c a e m)).mem.entry (holderTxn c a e m).node (holderTxn c a e m).a (holderTxn c a e m).attr = some e := hline
  have hval : lineMerge e.val (holderTxn c a e m).val (holderTxn c a e m).dirty = e.val := lineMerge_none _ _
  have hdirty : (holderTxn c a e m).dirty ||| e.dirty = e.dirty := BitVec.zero_or
  rw [State.finishTxn, hmsg]
  dsimp only
  rw [hentry]
  dsimp only
  rw [hval, if_pos (show holdsData (.l1 c) = true from rfl), hdirty]
  rfl

end

theorem MemState.line?_dropLine (x : MemState) (n : Node) (a : LineId) : (x.dropLine n a).line? n a = none := by
  rw [MemState.line?, MemState.dropLine, List.find?_eq_none]
  intro l hl
  have hne := (List.mem_filter.1 hl).2
  rw [Bool.not_eq_true'] at hne
  rw [hne]
  exact Bool.false_ne_true

/-- A line that its L1 has given up and answered for. -/
theorem State.gaveUp (s : State) (c : CoreId) (a : LineId) (m : Msg) (b : Body) :
    ((s.dropNode (.l1 c) a).respond m .rsp b).mem.line? (.l1 c) a = none ∧
      ((s.dropNode (.l1 c) a).respond m .rsp b).mem.net = s.mem.net ++ [⟨.rsp, m.dst, m.src, m.dst, m.tag, m.reqWm, s.wm m.dst, b⟩] :=
  ⟨MemState.line?_dropLine s.mem (.l1 c) a, rfl⟩

/-- An owner's data goes out once the owner's line has its new state. -/
theorem State.sendOwned_line {s : State} {l : Line} {n : Node} {a : LineId} (m : Msg) (site : Site) (b : Body) (hat : l.node = n ∧ l.a = a) :
    (State.sendOwned (s.mapMem fun x => x.setLine l) m site b).mem.line? n a = some l :=
  (MemState.line?_setLine s.mem l n a).trans (if_pos ⟨hat.1.symm, hat.2.symm⟩)
theorem State.sendOwned_net (s : State) (l : Line) (m : Msg) (site : Site) (b : Body) :
    let dest := if s.dieFailed site then m.src else site
    (State.sendOwned (s.mapMem fun x => x.setLine l) m site b).mem.net = s.mem.net ++ [⟨.rsp, m.dst, dest, m.dst, 0, s.wm dest, s.wm m.dst, b⟩] := by
  have hnet (u : State) : (u.sendOwned m site b).mem.net = u.mem.net ++ [⟨.rsp, m.dst, if u.dieFailed site then m.src else site, m.dst, 0,
      u.wm (if u.dieFailed site then m.src else site), u.wm m.dst, b⟩] := rfl
  rw [hnet, State.net_setLine, State.dieFailed_setLine]
  rfl

/-! ### The events of a parent's messages at an L1 -/

section
variable {j : Nat} {c : CoreId} {m : Msg} {a : LineId} {par : Node} {r : Req} {e : Line} {s t : State} (htake : s.takeMsg j = some (m, t))
  (hline : t.mem.line? (.l1 c) a = some e) (hkids : e.kids = []) (htxns : t.mem.txnsAt (.l1 c) a = []) (hfill : t.mem.filling (.l1 c) a = false)
  (hpins : t.pins (.l1 c) a = false)
include htxns hfill hpins

theorem State.mayForward_idle : t.mayForward (.l1 c) a = true := by
  rw [State.mayForward, htxns, hfill, hpins]
  rfl

include hline hkids
theorem State.giveUp_holder (r : Req) : t.giveUp m (.l1 c) a r =
    some ((State.putTxn (t.mapMem fun x => x.emptyUp (.l1 c) a) (holderTxn c a e m)).finishTxn (holderTxn c a e m)) := by
  have howners : e.owners = [] := by rw [Line.owners, hkids]; rfl
  have hsharers : e.sharers = [] := by rw [Line.sharers, hkids]; rfl
  unfold State.giveUp
  rw [if_pos (State.mayForward_idle htxns hfill hpins), hline]
  dsimp only [Option.map_some, Option.getD_some]
  rw [howners, hsharers, State.downTxn_idle htxns]
  exact congrArg some (State.openTxn_nobody _ _ _ rfl rfl rfl)

include htake
theorem exec_fwds_holder (hbody : m.body = .fwdS a (.l1 c) r) :
    exec (.fwds j) s = .next ((t.putTxn (holderTxn c a e m)).finishTxn (holderTxn c a e m)) := by
  have hexec : exec (.fwds j) s = execFwds j s := rfl
  have howners : e.owners = [] := by rw [Line.owners, hkids]; rfl
  rw [hexec, execFwds, onMsg_taken htake, hbody]
  dsimp only
  rw [if_pos (State.mayForward_idle htxns hfill hpins), hline]
  dsimp only [Option.map_some, Option.getD_some]
  rw [howners, State.downTxn_idle htxns, State.openTxn_nobody _ _ _ rfl rfl rfl]
  rfl
theorem exec_fwdx_holder (hbody : m.body = .fwdX a (.l1 c) r) : exec (.fwdx j) s =
    .next ((State.putTxn (t.mapMem fun x => x.emptyUp (.l1 c) a) (holderTxn c a e m)).finishTxn (holderTxn c a e m)) := by
  have hexec : exec (.fwdx j) s = execFwdx j s := rfl
  rw [hexec, execFwdx, onMsg_taken htake, hbody]
  dsimp only
  rw [State.giveUp_holder hline hkids htxns hfill hpins]
  rfl
theorem exec_recall_holder (hbody : m.body = .recall a (.l1 c) par) : exec (.recallMsg j) s =
    .next ((State.putTxn (t.mapMem fun x => x.emptyUp (.l1 c) a) (holderTxn c a e m)).finishTxn (holderTxn c a e m)) := by
  have hexec : exec (.recallMsg j) s = execRecallMsg j s := rfl
  rw [hexec, execRecallMsg, onMsg_taken htake, hbody]
  dsimp only
  rw [State.giveUp_holder hline hkids htxns hfill hpins]
  rfl
theorem exec_inv_holder (hbody : m.body = .inv a (.l1 c) par) : exec (.inv j) s = .next (if e.st = .s ∨ e.st = .e then
      (((t.mapMem fun x => x.emptyUp (.l1 c) a).dropNode (.l1 c) a).respond m .rsp (.invAck a (.l1 c) par 0 0))
    else (State.putTxn (t.mapMem fun x => x.emptyUp (.l1 c) a) (holderTxn c a e m)).finishTxn (holderTxn c a e m)) := by
  have hexec : exec (.inv j) s = execInv j s := rfl
  have howners : e.owners = [] := by rw [Line.owners, hkids]; rfl
  have hsharers : e.sharers = [] := by rw [Line.sharers, hkids]; rfl
  rw [hexec, execInv, onMsg_taken htake, hbody]
  dsimp only
  rw [if_neg (by rw [State.mayForward_idle htxns hfill hpins]; exact Bool.false_ne_true), hline]
  dsimp only
  rw [hsharers, howners, State.downTxn_idle htxns, State.openTxn_nobody _ _ _ rfl rfl rfl]
  split
  · rfl
  · rfl

end

theorem holdersAnswerForwards : Claims.HoldersAnswerForwards := by
  intro j c m a par r e s t htake hline hkids htxns hfill hpins up site sent
  have hat : e.node = .l1 c ∧ e.a = a := by simpa using List.find?_some hline
  obtain ⟨x, hx⟩ : ∃ x, x = t.mapMem fun x => x.emptyUp (.l1 c) a := ⟨_, rfl⟩
  have hxline : x.mem.line? (.l1 c) a = some e := by rw [hx]; exact hline
  have hxgone (b : Body) : let u := ((State.mapMem (x.putTxn (holderTxn c a e m)) fun y => y.dropTxn (holderTxn c a e m)).dropNode (.l1 c) a).respond m .rsp b
      u.mem.line? (.l1 c) a = none ∧ u.mem.net = t.mem.net ++ [⟨.rsp, m.dst, m.src, m.dst, m.tag, m.reqWm, t.wm m.dst, b⟩] := by
    obtain ⟨hnone, hnet⟩ := State.gaveUp (State.mapMem (x.putTxn (holderTxn c a e m)) fun y => y.dropTxn (holderTxn c a e m)) c a m b
    refine ⟨hnone, hnet.trans ?_⟩
    rw [hx]
    rfl
  have hfwdx : sent (.fwdX a (.l1 c) r) (.fwdx j) none (.dataX a (.l1 c) up r e.val (if e.st = .e then 0 else lineFull) e.dirty e.attr) := fun hbody =>
    ⟨_, (exec_fwdx_holder htake hline hkids htxns hfill hpins hbody).trans (congrArg Host.Outcome.next (hx ▸ (State.finish_fwdX hxline hbody).trans
      (State.yieldUp_holder hxline r))), hx ▸ hxgone _⟩
  have hrecall : sent (.recall a (.l1 c) par) (.recallMsg j) none
      (.dataX a (.l1 c) up (ownReq (.l1 c) a) e.val (if e.st = .e then 0 else lineFull) e.dirty e.attr) := fun hbody =>
    ⟨_, (exec_recall_holder htake hline hkids htxns hfill hpins hbody).trans (congrArg Host.Outcome.next (hx ▸ (State.finish_recall hxline hbody).trans
      (State.yieldUp_holder hxline (ownReq (.l1 c) a)))), hx ▸ hxgone _⟩
  refine ⟨fun hst => ?_, fun hst hclean => ?_, fun hst hbody => ?_, fun hst hbody => ?_⟩
  · have hne : e.st ≠ .e := by rcases hst with h | h <;> rw [h] <;> decide
    rw [if_neg hne] at hfwdx hrecall
    refine ⟨fun hbody => ?_, hfwdx, hrecall⟩
    have hshared : ({ e with st := e.st.shared, kids := e.kids.map fun q => { q with st := q.st.shared }, val := e.val } : Line) = { e with st := .o } := by
      rw [hkids, show e.st.shared = LState.o by rcases hst with h | h <;> rw [h] <;> rfl]
      rw [List.map_nil, ← hkids]
    refine ⟨_, (exec_fwds_holder htake hline hkids htxns hfill hpins hbody).trans (congrArg Host.Outcome.next (State.finish_fwdS hline hbody)), ?_, ?_⟩
    · rw [hshared]
      exact State.sendOwned_line (s := (t.putTxn (holderTxn c a e m)).mapMem fun y => y.dropTxn (holderTxn c a e m)) (l := { e with st := .o }) m _ _ hat
    · exact State.sendOwned_net ((t.putTxn (holderTxn c a e m)).mapMem fun y => y.dropTxn (holderTxn c a e m)) _ m _ _
  · rw [if_pos hst, hclean] at hfwdx hrecall
    exact ⟨hfwdx, hrecall⟩
  · exact ⟨_, (exec_inv_holder htake hline hkids htxns hfill hpins hbody).trans (congrArg Host.Outcome.next (if_pos hst)),
      State.gaveUp (t.mapMem fun x => x.emptyUp (.l1 c) a) c a m _⟩
  · exact ⟨_, (exec_inv_holder htake hline hkids htxns hfill hpins hbody).trans (congrArg Host.Outcome.next ((if_neg (by rw [hst]; decide)).trans
      (hx ▸ State.finish_inv hxline hbody))), hx ▸ hxgone _⟩

/-! ### Answers (R32, R110) -/

/-- An answer that is accepted ends at most a request. -/
theorem State.accept_ok {t : State} {m : Msg} (h : (t.accept m).1 = true) : ∃ rs, t.accept m = (true, t.mapMem fun x => { x with reqs := rs }) := by
  unfold State.accept at h ⊢
  split at h
  · exact absurd h Bool.false_ne_true
  · rename_i hwm
    rw [if_neg hwm]
    split at h
    · rename_i htag
      rw [if_pos htag]
      exact ⟨t.mem.reqs, rfl⟩
    · rename_i htag
      rw [if_neg htag]
      split at h
      · rename_i hreq
        rw [if_pos hreq]
        exact ⟨_, rfl⟩
      · exact absurd h Bool.false_ne_true

section
variable {j : Nat} {c : CoreId} {m : Msg} {a : LineId} {frm : Node} {r : Req} {val dirty : BitVec 2048} {v : Attr} {s t : State}

/-- A fill of a line that an L1 does not have. -/
theorem State.install_l1 (st : LState) (hline : t.mem.line? (.l1 c) a = none) (hfetch : r.acc ≠ .fetch) (hpref : r.acc ≠ .pref) :
    (t.install (.l1 c) a r val v st dirty).mem.line? (.l1 c) a = some ⟨.l1 c, a, st, [], val, dirty, v, t.now (.die c.die)⟩ := by
  have hdrop : t.dropPref a r v = false := by
    have hacc : (r.acc == Acc.pref) = false := by simpa using hpref
    rw [State.dropPref, hacc]
    rfl
  unfold State.install
  dsimp only
  rw [if_neg hfetch, if_neg hpref, hline, hdrop, if_neg Bool.false_ne_true]
  have hsector (u : State) (va : Nat) (fresh : Bool) (f : CoreId → LineId → Bool) (g : Group → MemStall → MemStall) :
      (((u.addSector c a.asid va fresh).endWfa f).wake c a g).mem = u.mem := State.setCore_mem _ _
  rw [hsector]
  exact (MemState.line?_setLine t.mem _ _ _).trans (if_pos ⟨rfl, rfl⟩)

/-- The state of an L1 whose answer has been accepted, no transaction being open. -/
def State.answered (t : State) (rs : List OutReq) (frm : Node) (c : CoreId) (a : LineId) : State :=
  (t.mapMem fun x => { x with reqs := rs }).mapMem fun x => x.landed frm (.l1 c) a

section
variable (htake : s.takeMsg j = some (m, t)) (hok : (t.accept m).1 = true) (htxns : t.mem.txns = [])
include htake hok htxns

/-- An accepted answer that nothing waits for fills its L1. -/
theorem exec_data_l1 (hbody : m.body = .data a frm (.l1 c) r val v) :
    ∃ rs, exec (.data j) s = .next ((t.answered rs frm c a).install (.l1 c) a r val v .s 0) := by
  have hexec : exec (.data j) s = execData j s := rfl
  obtain ⟨rs, hacc⟩ := State.accept_ok hok
  have hopen : (t.mapMem fun x => { x with reqs := rs }).mem.txns = [] := htxns
  have hdepth : (!true || decide (nodeDepth frm < nodeDepth (.l1 c))) = false :=
    decide_eq_false (p := nodeDepth frm < 0) (Nat.not_lt_zero _)
  have hlanded : (t.answered rs frm c a).mem.txns = [] := congrArg (List.filter _) hopen
  rw [State.answered] at hlanded
  refine ⟨rs, ?_⟩
  rw [hexec, execData, onMsg_taken htake, hbody]
  dsimp only
  rw [if_neg (show ¬(nodeDepth frm < nodeDepth (.l1 c)) from Nat.not_lt_zero _), State.dataAt, hbody]
  dsimp only
  rw [show t.makeRoom (.l1 c) a = some t from rfl]
  dsimp only [Option.bind_some]
  rw [hacc]
  dsimp only
  rw [hopen, List.find?_nil]
  dsimp only
  rw [if_neg (by rw [hdepth]; exact Bool.false_ne_true), hlanded, List.find?_nil]
  rfl

theorem exec_datax_l1 (hacc : r.acc ≠ .writeback) (hbody : m.body = .dataX a frm (.l1 c) r val lineFull dirty v) :
    ∃ rs, exec (.datax j) s = .next ((t.answered rs frm c a).install (.l1 c) a r val v .m dirty) := by
  have hexec : exec (.datax j) s = execDatax j s := rfl
  obtain ⟨rs, haccept⟩ := State.accept_ok hok
  have hopen : (t.mapMem fun x => { x with reqs := rs }).mem.txns = [] := htxns
  have hlanded : (t.answered rs frm c a).mem.txns = [] := congrArg (List.filter _) hopen
  rw [State.answered] at hlanded
  refine ⟨rs, ?_⟩
  rw [hexec, execDatax, onMsg_taken htake, hbody]
  dsimp only
  rw [if_neg fun h => hacc h.1, show t.makeRoom (.l1 c) a = some t from rfl]
  dsimp only [Option.bind_some]
  rw [haccept]
  dsimp only
  rw [hopen, List.find?_nil]
  dsimp only
  rw [if_neg hacc, if_neg (by decide), hlanded, List.find?_nil]
  dsimp only
  rw [if_neg (show ¬(nodeDepth (.l1 c) = 4) from show ¬(0 = 4) by decide), if_pos ⟨rfl, rfl, hacc⟩]
  rfl

end

theorem MemState.setLine_txns (x : MemState) (l : Line) : (x.setLine l).txns = x.txns := by
  unfold MemState.setLine
  split <;> rfl
theorem MemState.setLine_dram (x : MemState) (l : Line) : (x.setLine l).dram = x.dram := by
  unfold MemState.setLine
  split <;> rfl
/-- An acknowledgement that leaves its transaction others to wait for. -/
theorem exec_invack_waits {k par : Node} {x : Txn} (htake : s.takeMsg j = some (m, t)) (hok : (t.accept m).1 = true)
    (hbody : m.body = .invAck a k par val dirty) (hx : (t.mem.txns.find? fun y => y.node == par && y.waitFor.contains (k, a)) = some x)
    (hmore : (x.waitFor.filter fun w => w != (k, a)) ≠ []) : ∃ u : State, exec (.invack j) s = .next u ∧
      { x.takeLoose val dirty with waitFor := x.waitFor.filter fun w => w != (k, a) } ∈ u.mem.txns ∧ u.mem.dram = t.mem.dram := by
  have hexec : exec (.invack j) s = execInvack j s := rfl
  obtain ⟨rs, haccept⟩ := State.accept_ok hok
  rw [hexec, execInvack, onMsg_taken htake, hbody]
  dsimp only
  rw [haccept]
  dsimp only
  rw [show ((t.mapMem fun x => { x with reqs := rs }).mem.txns.find? fun y => y.node == par && y.waitFor.contains (k, a)) = some x from hx]
  dsimp only
  rw [if_neg (by decide), State.settleTxn, if_neg fun h => hmore h.1]
  have hmem : x ∈ t.mem.txns := List.mem_of_find?_eq_some hx
  refine ⟨_, rfl, List.mem_map.2 ⟨x, ?_, if_pos rfl⟩, ?_⟩
  · rw [State.mapMem_mem]
    split
    · rw [MemState.setLine_txns]
      exact hmem
    · exact hmem
  · rw [Option.getD_some, State.mapMem_mem, MemState.setTxn, State.mapMem_mem]
    split
    · exact MemState.setLine_dram _ _
    · rfl

end

theorem answersLand : Claims.AnswersLand := by
  intro j c m a frm r val dirty v s t htake hok
  refine ⟨fun htxns hline hfetch hpref => ⟨fun hbody => ?_, fun hacc hbody => ?_⟩, fun k par x hbody hx hmore => exec_invack_waits htake hok hbody hx hmore⟩
  · obtain ⟨rs, hexec⟩ := exec_data_l1 htake hok htxns hbody
    exact ⟨_, hexec, State.install_l1 (t := t.answered rs frm c a) .s hline hfetch hpref⟩
  · obtain ⟨rs, hexec⟩ := exec_datax_l1 htake hok htxns hacc hbody
    exact ⟨_, hexec, State.install_l1 (t := t.answered rs frm c a) .m hline hfetch hpref⟩

/-! ### Lines that leave an L1 (R103, R110) -/

theorem MemState.line?_dropLine_ne (x : MemState) {n k : Node} (h : n ≠ k) (a b : LineId) : (x.dropLine n a).line? k b = x.line? k b := by
  rw [MemState.line?, MemState.dropLine, List.find?_filter]
  congr 1
  funext l
  by_cases hn : l.node = k
  · have hne : (l.node == n) = false := by simpa [hn] using Ne.symm h
    rw [hne]
    simp [Bool.beq_eq_decide_eq]
  · have hne : (l.node == k) = false := by simpa using hn
    rw [hne]
    simp

/-- An operation that leaves a level's line, and memory behind it, as they are. -/
structure State.KeepsLine (n : Node) (a : LineId) (s t : State) : Prop where
  line : t.mem.line? n a = s.mem.line? n a
  dram : t.mem.dram = s.mem.dram

theorem State.KeepsLine.refl (n : Node) (a : LineId) (s : State) : State.KeepsLine n a s s := ⟨rfl, rfl⟩
theorem State.KeepsLine.trans {n : Node} {a : LineId} {s t u : State} (h : State.KeepsLine n a s t) (h' : State.KeepsLine n a t u) :
    State.KeepsLine n a s u := ⟨h'.line.trans h.line, h'.dram.trans h.dram⟩
theorem State.KeepsLine.foldl {α : Type} {n : Node} {a : LineId} {f : State → α → State} (hf : ∀ t x, State.KeepsLine n a t (f t x)) (xs : List α)
    (s : State) : State.KeepsLine n a s (xs.foldl f s) := by
  induction xs generalizing s with
  | nil => exact .refl n a s
  | cons x xs ih => exact (hf s x).trans (ih _)
theorem State.keepsLine_sendInv (n : Node) (a : LineId) (s : State) (par : Node) (k : Kid) : State.KeepsLine n a s (s.sendInv par k) := ⟨rfl, rfl⟩
theorem State.keepsLine_setLine {n : Node} (a : LineId) (s : State) {l : Line} (h : l.node ≠ n) :
    State.KeepsLine n a s (s.mapMem fun x => x.setLine l) :=
  ⟨(MemState.line?_setLine s.mem l n a).trans (if_neg fun he => h he.1.symm), MemState.setLine_dram _ _⟩
theorem State.keepsLine_dropLine {n k : Node} (a b : LineId) (s : State) (h : k ≠ n) : State.KeepsLine n a s (s.mapMem fun x => x.dropLine k b) :=
  ⟨MemState.line?_dropLine_ne s.mem h b a, rfl⟩
theorem MemState.lose_dram (x : MemState) (tower : Nat) (phys : Option Nat) (a : LineId) : (x.lose tower phys a).dram = x.dram := by
  unfold MemState.lose
  split
  · rfl
  · split
    · rfl
    · split
      · split <;> rfl
      · rfl
theorem State.keepsLine_lateHome (n : Node) (a : LineId) (s : State) (k frm : Node) (b : LineId) (val mask : BitVec 2048) (last : Nat) :
    State.KeepsLine n a s (s.lateHome k frm b val mask last) := by
  have hwrite (mask : BitVec 2048) : State.KeepsLine n a s (s.writeBack k frm b last val mask true .none) := by
    refine ⟨congrArg (List.find? _) (s.writeBack_leaves k frm b last val mask true .none).1, ?_⟩
    unfold State.writeBack
    split
    · rfl
    · exact MemState.lose_dram _ _ _ _
  unfold State.lateHome
  dsimp only
  split
  · exact .refl n a s
  · exact hwrite _

/-- What an L1 hands on of a line that it gives up. -/
def State.evictMerge (s : State) (c : CoreId) (l : Line) : State :=
  let s : State := s.mapMem fun x => x.dropLine l.node l.a
  if l.attr.dk then s
  else if s.unshared c l then s.lateHome (.hub c.die c.cluster) l.node l.a l.val l.dirty l.attr.home
  else s.mergeL2 c.die l.a l.val l.dirty l.attr.home
/-- What its hub then records. -/
def State.evictHub (s : State) (c : CoreId) (l : Line) : State :=
  let hub : Node := .hub c.die c.cluster
  match s.mem.line? hub l.a with
  | some e =>
    let e : Line := e.dropKid l.node
    let s : State := if l.st = LState.w then e.sharers.foldl (fun s q => s.sendInv hub q) s else s
    let st := if e.owners = [] then LState.s else e.st
    s.mapMem fun x => if e.kids = [] then x.dropLine hub l.a else x.setLine { e with st := st }
  | none => s
/-- What its L2 then records. -/
def State.evictTop (s : State) (c : CoreId) (l : Line) (hubW : Bool) : State :=
  let hub : Node := .hub c.die c.cluster
  match s.mem.line? (.l2 c.die) l.a with
  | some e =>
    let s : State := if l.st = LState.w ∨ hubW = true then (e.sharers.filter fun q => q.node != hub).foldl (fun s q => s.sendInv (.l2 c.die) q) s else s
    match s.mem.line? hub l.a with
    | none => s.mapMem fun x => x.setLine (e.dropKid hub)
    | some h => if h.owners = [] then s.mapMem fun x => x.setLine (e.setKid hub l.a .s) else s
  | none => s

theorem State.evictL1_eq (s : State) (c : CoreId) (l : Line) : ∃ hubW, s.evictL1 c l =
    if l.st = .s ∨ l.st = .e ∨ l.attr.dk = true then s.evictMerge c l else ((s.evictMerge c l).evictHub c l).evictTop c l hubW := ⟨_, rfl⟩

theorem MemState.line?_at {x : MemState} {n : Node} {a : LineId} {l : Line} (h : x.line? n a = some l) : l.node = n ∧ l.a = a := by
  simpa using List.find?_some h

theorem State.keepsLine_evictHub {n : Node} (a : LineId) (s : State) (c : CoreId) (l : Line) (h : Node.hub c.die c.cluster ≠ n) :
    State.KeepsLine n a s (s.evictHub c l) := by
  unfold State.evictHub
  dsimp only
  split
  · rename_i e he
    have hsent : State.KeepsLine n a s (if l.st = LState.w then (e.dropKid l.node).sharers.foldl (fun s q => s.sendInv (.hub c.die c.cluster) q) s else s) := by
      split
      · exact State.KeepsLine.foldl (fun t q => State.keepsLine_sendInv n a t _ q) _ s
      · exact .refl n a s
    refine hsent.trans ?_
    by_cases hk : (e.dropKid l.node).kids = []
    · simp only [if_pos hk]
      exact State.keepsLine_dropLine a l.a _ h
    · simp only [if_neg hk]
      exact State.keepsLine_setLine a _ fun hn => h ((MemState.line?_at he).1.symm.trans hn)
  · exact .refl n a s

/-- The L2's record of a line that an L1 has given up: what it holds of the line stays as it is. -/
theorem State.evictTop_leaves {a : LineId} {s : State} {c : CoreId} {l : Line} (hubW : Bool) (hla : l.a = a) {e : Line}
    (he : s.mem.line? (.l2 c.die) a = some e) :
    (s.evictTop c l hubW).mem.line? (.l1 c) a = s.mem.line? (.l1 c) a ∧ (s.evictTop c l hubW).mem.dram = s.mem.dram ∧
      ∃ e', (s.evictTop c l hubW).mem.line? (.l2 c.die) a = some e' ∧ e'.val = e.val ∧ e'.dirty = e.dirty := by
  obtain ⟨hnode, hea⟩ := MemState.line?_at he
  have hset (t : State) (e' : Line) (hn : e'.node = .l2 c.die) (ha : e'.a = a) (hk : State.KeepsLine (.l1 c) a s t) :
      (t.mapMem fun x => x.setLine e').mem.line? (.l1 c) a = s.mem.line? (.l1 c) a ∧ (t.mapMem fun x => x.setLine e').mem.dram = s.mem.dram ∧
        (t.mapMem fun x => x.setLine e').mem.line? (.l2 c.die) a = some e' := by
    have hkeep := hk.trans (State.keepsLine_setLine a t (l := e') (by rw [hn]; simp))
    exact ⟨hkeep.line, hkeep.dram, (MemState.line?_setLine t.mem e' _ _).trans (if_pos ⟨hn.symm, ha.symm⟩)⟩
  have hsent (n : Node) (ks : List Kid) : State.KeepsLine n a s (if l.st = LState.w ∨ hubW = true then ks.foldl (fun s q => s.sendInv (.l2 c.die) q) s else s) := by
    split
    · exact State.KeepsLine.foldl (fun t q => State.keepsLine_sendInv n a t _ q) _ s
    · exact .refl n a s
  unfold State.evictTop
  rw [hla, he]
  dsimp only
  split
  · obtain ⟨h1, h2, h3⟩ := hset _ (e.dropKid (.hub c.die c.cluster)) hnode hea (hsent _ _)
    exact ⟨h1, h2, _, h3, rfl, rfl⟩
  · split
    · obtain ⟨h1, h2, h3⟩ := hset _ (e.setKid (.hub c.die c.cluster) a .s) hnode hea (hsent _ _)
      exact ⟨h1, h2, _, h3, rfl, rfl⟩
    · exact ⟨(hsent _ _).line, (hsent (.l1 c) _).dram, e, (hsent _ _).line.trans he, rfl, rfl⟩

section
variable {s : State} {c : CoreId} {a : LineId} {l : Line} (hl : s.mem.line? (.l1 c) a = some l)
include hl

theorem State.unshared_dropped : (s.mapMem fun x => x.dropLine l.node l.a).unshared c l = s.unshared c l := by
  have hhub : (Node.l1 c) ≠ .hub c.die c.cluster := by simp
  have htop : (Node.l1 c) ≠ .l2 c.die := by simp
  rw [(MemState.line?_at hl).1]
  simp only [State.unshared, State.mapMem_mem, MemState.line?_dropLine_ne _ hhub, MemState.line?_dropLine_ne _ htop]

/-- A clean copy in S or E leaves without a message. -/
theorem State.evictL1_clean (hdirty : l.dirty = 0) (hst : l.st = .s ∨ l.st = .e) : s.evictL1 c l = s.mapMem fun x => x.dropLine (.l1 c) a := by
  obtain ⟨hnode, ha⟩ := MemState.line?_at hl
  obtain ⟨hubW, heq⟩ := s.evictL1_eq c l
  have hor : l.st = .s ∨ l.st = .e ∨ l.attr.dk = true := hst.elim .inl fun h => .inr (.inl h)
  rw [heq, if_pos hor, State.evictMerge, hdirty, State.lateHome_none, State.mergeL2, if_pos rfl, hnode, ha]
  split
  · rfl
  · split <;> rfl

/-- A copy that leaves an L1 hands its dirty nibbles to its L2, or sends them home beside a registered holder. -/
theorem State.evictMerge_leaves {e : Line} (he : s.mem.line? (.l2 c.die) a = some e) (hdk : l.attr.dk = false) (hdirty : l.dirty ≠ 0) :
    (s.evictMerge c l).mem.line? (.l1 c) a = none ∧ (s.evictMerge c l).mem.dram = s.mem.dram ∧
      ∃ e', (s.evictMerge c l).mem.line? (.l2 c.die) a = some e' ∧
        (s.unshared c l = false → e'.val = lineMerge e.val l.val l.dirty ∧ e'.dirty = e.dirty ||| l.dirty) ∧
        (s.unshared c l = true → e'.val = e.val ∧ e'.dirty = e.dirty) := by
  obtain ⟨hnode, ha⟩ := MemState.line?_at hl
  obtain ⟨henode, hea⟩ := MemState.line?_at he
  have hgone : (s.mapMem fun x => x.dropLine l.node l.a).mem.line? (.l1 c) a = none := by
    rw [hnode, ha]
    exact MemState.line?_dropLine s.mem _ _
  have htop : (s.mapMem fun x => x.dropLine l.node l.a).mem.line? (.l2 c.die) a = some e := by
    rw [hnode]
    exact (MemState.line?_dropLine_ne s.mem (by simp) _ _).trans he
  unfold State.evictMerge
  dsimp only
  rw [if_neg (by rw [hdk]; exact Bool.false_ne_true), State.unshared_dropped hl]
  cases hun : s.unshared c l with
  | true =>
    rw [if_pos rfl]
    have hkeep (n : Node) := State.keepsLine_lateHome n a (s.mapMem fun x => x.dropLine l.node l.a) (.hub c.die c.cluster) l.node l.a l.val l.dirty l.attr.home
    exact ⟨(hkeep _).line.trans hgone, (hkeep (.l1 c)).dram, e, (hkeep _).line.trans htop, fun h => absurd h (by decide), fun _ => ⟨rfl, rfl⟩⟩
  | false =>
    obtain ⟨x, hx⟩ : ∃ x, x = s.mapMem fun x => x.dropLine l.node l.a := ⟨_, rfl⟩
    rw [← hx] at hgone htop ⊢
    obtain ⟨hwnode, hwa⟩ := e.written_node (x.now (.die c.die))
    rw [if_neg Bool.false_ne_true, State.mergeL2, if_neg hdirty, ha, htop]
    have hkeep := State.keepsLine_setLine (n := .l1 c) a x (l := { e.written (x.now (.die c.die)) with
      val := lineMerge e.val l.val l.dirty, dirty := e.dirty ||| l.dirty }) (by rw [show (Line.node _) = _ from hwnode.trans henode]; simp)
    exact ⟨hkeep.line.trans hgone, hkeep.dram.trans (by rw [hx]; rfl), _, (MemState.line?_setLine x.mem _ _ _).trans
      (if_pos ⟨(hwnode.trans henode).symm, (hwa.trans hea).symm⟩), fun _ => ⟨rfl, rfl⟩, fun h => absurd h (by decide)⟩

end

/-! ### Lines that leave (R103, R104, R111, R116, R121, R186, R198) -/

theorem exec_lineEviction {n : Node} {a : LineId} {s u : State} (hu : s.evictLine n a.asid a.line = some u) (ecc : Ecc) :
    exec (.lineEviction n a.asid a.line ecc) s = .next (if ecc = .clean then u else
      let t := s.found ecc (some (if holdsData n then .line n a else .entry n a))
      (t.evictLine n a.asid a.line).getD t) := by
  have hexec : exec (.lineEviction n a.asid a.line ecc) s = execLineEviction n a.asid a.line ecc s := rfl
  rw [hexec, execLineEviction, hu]
  rfl

theorem State.evictLine_l1 {c : CoreId} {a : LineId} {l : Line} {s : State} (hl : s.mem.line? (.l1 c) a = some l) (hcan : s.canEvict (.l1 c) a = true) :
    s.evictLine (.l1 c) a.asid a.line = some (s.evictL1 c l) := by
  unfold State.evictLine
  dsimp only
  rw [hl]
  dsimp only
  rw [if_neg (by rw [hcan]; exact Bool.false_ne_true)]

/-- A dirty copy that leaves an L1. -/
theorem State.evictL1_dirty {s : State} {c : CoreId} {a : LineId} {l e : Line} (hl : s.mem.line? (.l1 c) a = some l)
    (he : s.mem.line? (.l2 c.die) a = some e) (hdk : l.attr.dk = false) (hdirty : l.dirty ≠ 0) :
    (s.evictL1 c l).mem.line? (.l1 c) a = none ∧ (s.evictL1 c l).mem.dram = s.mem.dram ∧
      ∃ e', (s.evictL1 c l).mem.line? (.l2 c.die) a = some e' ∧
        (s.unshared c l = false → e'.val = lineMerge e.val l.val l.dirty ∧ e'.dirty = e.dirty ||| l.dirty) ∧
        (s.unshared c l = true → e'.val = e.val ∧ e'.dirty = e.dirty) := by
  obtain ⟨hnone, hdram, e1, he1, hmerged, hkept⟩ := State.evictMerge_leaves hl he hdk hdirty
  obtain ⟨hubW, heq⟩ := s.evictL1_eq c l
  rw [heq]
  split
  · exact ⟨hnone, hdram, e1, he1, hmerged, hkept⟩
  · have hhub := State.keepsLine_evictHub (n := .l1 c) a (s.evictMerge c l) c l (by simp)
    have hhub2 := State.keepsLine_evictHub (n := .l2 c.die) a (s.evictMerge c l) c l (by simp)
    obtain ⟨hline, hdram2, e2, he2, hval, hdirty2⟩ := State.evictTop_leaves hubW (MemState.line?_at hl).2 (hhub2.line.trans he1)
    refine ⟨(hline.trans hhub.line).trans hnone, (hdram2.trans hhub.dram).trans hdram, e2, he2, fun h => ?_, fun h => ?_⟩
    · rw [hval, hdirty2]
      exact hmerged h
    · rw [hval, hdirty2]
      exact hkept h

theorem exec_wbDirty_merges {j h : Nat} {m : Msg} {a : LineId} {n : Node} {val mask : BitVec 2048} {o : WbOwner} {v : Attr} {s t t' : State}
    (htake : s.takeMsg j = some (m, t)) (hbody : m.body = .wbDirty a n val mask false o) (hdst : m.dst = .tower h)
    (hstalls : t.homeStalls h a.asid (a.line * 256) = false) (htrans : t.translateNow h a.asid (a.line * 256) .writeback true = (.ok v, t'))
    (hbank : v.tier = 0 → t'.bankHeld v.home v.pa = false)
    (hslice : ∀ d e, nodeDie n = some d → t'.mem.line? (.slice (sliceOf (dieSheet d) a.line)) a = some e → e.st ≠ .w) :
    exec (.wbdirty j) s = .next (((t'.toLender v.place .wb).mapMem fun x => x.forget n a).mapMem fun x => x.placeWrite v.place val mask) := by
  have hexec : exec (.wbdirty j) s = execWbdirty j s := rfl
  have hnotW : t'.sliceW a n = false := by
    unfold State.sliceW
    split
    · rename_i d hd
      split
      · rename_i e he
        simpa using hslice d e hd he
      · rfl
    · rfl
  have hlasts : ¬((false || t'.sliceW a n) = true) := by rw [hnotW]; exact Bool.false_ne_true
  rw [hexec, execWbdirty, onMsg_taken htake, hbody, hdst]
  dsimp only
  rw [if_neg (by rw [hstalls]; exact Bool.false_ne_true), htrans]
  dsimp only
  rw [if_neg fun hh => Bool.false_ne_true ((hbank hh.1).symm.trans hh.2), if_neg fun hh => hlasts hh.1, State.mergeHome, if_neg hlasts]
  rfl

theorem exec_pageWalk_slice {j h i : Nat} {m : Msg} {a : LineId} {r : Req} {s : State} (hm : s.mem.net[j]? = some m) (hbody : m.body = .getS a (.slice i) r)
    (hdst : m.dst = .tower h) (hat : m.at' = m.dst) (hrun : s.siteRuns m.dst = true) (hstalls : s.homeStalls h a.asid (a.line * 256) = false)
    (hwalk : s.translate h a.asid (a.line * 256) r.acc r.priv = .walk) :
    exec (.pageWalk j) s = .next (match s.walkFor h a.asid (a.line * 256) r.acc r.priv with
      | (none, t) => t
      | (some code, t) => (t.mapMem fun x => { x with net := x.net.erase m }).respond m .rsp (.refuse a (.slice i) r (t.mem.lostFirst h a code) false)) := by
  have hexec : exec (.pageWalk j) s = execPageWalk j s := rfl
  rw [hexec, execPageWalk, hm]
  dsimp only
  rw [hdst] at hat hrun
  rw [hbody, hdst]
  dsimp only [Body.needs]
  rw [if_neg]
  · rcases s.walkFor h a.asid (a.line * 256) r.acc r.priv with ⟨_ | code, t⟩ <;> rfl
  · rintro (hh | hh | hh | hh | hh)
    · exact hh hat
    · exact Bool.false_ne_true (hh.symm.trans hrun)
    · exact Bool.false_ne_true (hstalls.symm.trans hh)
    · exact hh hwalk
    · exact Bool.false_ne_true hh

theorem linesLeave : Claims.LinesLeave := by
  intro j h line m a n c val mask o v l s t t'
  refine ⟨fun htake hbody hdst hstalls htrans hbank hslice => exec_wbDirty_merges htake hbody hdst hstalls htrans hbank hslice, fun hcan hrun => ?_,
    fun hl hcan => ⟨fun hdirty hst => ?_, fun e he _ hdk hdirty => ?_, fun ecc u hecc hu => ?_⟩, fun x hx hline hbank hrun => ?_,
    fun i r hm hbody hdst hat hrun hstalls hwalk => ⟨fun hw => ?_, fun code hw => ?_⟩⟩
  · have hexec : exec (.wRegistrationTimer (.l1 c) a.asid a.line) s = execWRegistrationTimer (.l1 c) a.asid a.line s := rfl
    rw [hexec, execWRegistrationTimer, if_pos ⟨hcan, hrun⟩, State.register]
    exact congrArg Host.Outcome.next (if_pos rfl)
  · rw [exec_lineEviction (State.evictLine_l1 hl hcan), if_pos rfl, State.evictL1_clean hl hdirty hst]
  · obtain ⟨hnone, hdram, e', he', hmerged, hkept⟩ := State.evictL1_dirty hl he hdk hdirty
    exact ⟨_, e', (exec_lineEviction (State.evictLine_l1 hl hcan) .clean).trans (congrArg Host.Outcome.next (if_pos rfl)), hnone, he', hdram, hmerged, hkept⟩
  · rw [exec_lineEviction hu, if_neg hecc]
    rfl
  · have hexec : exec (.towerCacheEviction h line) s = execTowerCacheEviction h line s := rfl
    rw [hexec, execTowerCacheEviction, hx]
    exact if_pos ⟨hline, hbank, hrun⟩
  · rw [exec_pageWalk_slice hm hbody hdst hat hrun hstalls hwalk, hw]
  · rw [exec_pageWalk_slice hm hbody hdst hat hrun hstalls hwalk, hw]

/-- Settles O52: a message of a parent opens a transaction at an L1 that finishes at once; an accepted answer fills the line or is one less to
wait for; and each way for a line to leave is the operation that its event runs. -/
theorem linesMove : Obligations.LinesMove := ⟨holdersAnswerForwards, answersLand, linesLeave⟩

end Sys2Proof.Machine


/-! What homes perform (O53). -/

namespace Sys2Proof.Machine

section
variable {s t t' y : State} {j h asid : Nat} {m : Msg} {g : GroupRef} {c : CoreId} {p : Bool} {o : LaneOp} {v : Attr}

/-! ### A load's answer (R198, R305) -/

theorem exec_loadResponse {u u' : Issuer} {w : LoadWord} {ecc : Ecc} (hu : s.issuerOf g = some u') (hw : u'.g.stall.load = some w)
    (hasked : u'.g.stall.asked = []) (hsent : u'.g.stall.sent = false) (hy : (s.found ecc (u'.loadUnit w)).issuerOf g = some u) :
    exec (.loadResponse g ecc) s =
      .next ((s.found ecc (u'.loadUnit w)).settle u (memLen w.base w.off) (u.loadStep (s.found ecc (u'.loadUnit w)) w)) := by
  have hexec : exec (.loadResponse g ecc) s = execLoadResponse g ecc s := rfl
  rw [hexec, execLoadResponse, hu]
  dsimp only
  rw [hw]
  dsimp only
  rw [if_neg (by simp [hasked, hsent]), hy]

/-- A vector load from global memory with order 0 commits what each lane reads in the L1. -/
theorem State.settle_globalLoad {u : Issuer} {w : LoadWord} (hspace : w.space = .glob) (hscalar : w.scalar = false) (horder : w.m.order.val = 0)
    (hgate : u.gate y (u.addrs false w.base w.off) w.bytes .read false = none) :
    let x := u.touchAll y ((u.addrs false w.base w.off).map fun a => vaOf a.2)
    y.settle u (memLen w.base w.off) (u.loadStep y w) = (x.trimL1 u.t.core).committed u (1 + w.base.nlit + w.off.nlit)
      (u.g.pushWords u.w w.d (max 1 (w.bytes / 4)) fun i =>
        extend w.bytes w.sext (u.readL1 x (vaOf (u.g.addrPart w.base i + u.g.addrPart w.off i)) w.bytes)) := by
  intro x
  have hgate' : u.gate y (u.addrs w.scalar w.base w.off) w.bytes .read false = none := by rw [hscalar]; exact hgate
  rw [Issuer.loadStep_glob hspace hgate', Issuer.commitLoad, Issuer.settle_ordered, acquireEnd_plain (.inl horder), hscalar,
    Issuer.loaded_vector u w hscalar fun a => u.readL1 x (vaOf a.2) w.bytes]
  rfl

/-! ### Requests performed at the home (R145, R197, R311) -/

/-- No holder of a line, and no bank or copy, keeps the home from performing on it. -/
structure State.HomeFree (s : State) (v : Attr) : Prop where
  bank : v.tier = 0 → s.bankHeld v.home v.pa = false
  line : v.dk = false → s.copyHolds v.place = false ∧ s.homeQuiet v.place = true ∧ s.homeOwned v.place = false

theorem State.HomeFree.waits (hf : s.HomeFree v) :
    ((v.tier == 0 && s.bankHeld v.home v.pa) || (!v.dk && (s.copyHolds v.place || !s.homeQuiet v.place))) = false := by
  obtain ⟨hbank, hline⟩ := hf
  have htier : (v.tier == 0 && s.bankHeld v.home v.pa) = false := by
    by_cases ht : v.tier = 0
    · rw [hbank ht, Bool.and_false]
    · rw [beq_eq_false_iff_ne.2 ht, Bool.false_and]
  cases hdk : v.dk with
  | true => rw [htier]; rfl
  | false =>
    obtain ⟨hcopy, hquiet, -⟩ := hline hdk
    rw [htier, hcopy, hquiet]
    rfl

theorem State.HomeFree.owned (hf : s.HomeFree v) : (!v.dk && s.homeOwned v.place) = false := by
  cases hdk : v.dk with
  | true => rfl
  | false =>
    obtain ⟨-, -, howned⟩ := hf.line hdk
    rw [howned]
    rfl

/-- A request of one lane, which the home can perform at once. -/
theorem State.atHomes_one {acc : Acc} (hc : t.coreOf g = some c) (hh : t.mem.dieHome c.die asid o.addr = some h)
    (hstall : t.homeStalls h asid o.addr = false) (hlanes : t.homeLanes c.die asid p (t.task? g.tid) acc [o] = ([(o, v)], [], t'))
    (hfree : t'.HomeFree v) :
    t.atHomes j m g asid p acc [o] = some ((t'.homeOp o v).2.respond m .rsp (.homeRsp g [(t'.homeOp o v).1] [])) := by
  have hwaits := hfree.waits
  have howned := hfree.owned
  rw [State.atHomes, hc]
  dsimp only
  rw [if_neg (by simp [hh, hstall]), hlanes]
  dsimp only
  rw [if_neg (fun hn => hn rfl), if_neg (by rw [List.any_cons, hwaits]; exact Bool.false_ne_true),
    if_neg (by rw [List.any_cons, howned]; exact Bool.false_ne_true)]
  rfl

theorem State.homeOp_eq (s : State) (o : LaneOp) (v : Attr) :
    let x := (if v.dk then s else s.homeClear v.place).touch v.place
    let old := lineNat (x.mem.placeLine v.place) (o.addr % 256) o.bytes
    s.homeOp o v = (old, match o.op with
      | some (some op) => (match atomNew op old o.x o.y with
        | some n => x.mapMem fun z => z.placeWrite v.place (linePlace (o.addr % 256) n) (lineMask (o.addr % 256) o.bytes)
        | none => x)
      | _ => x) := by
  intro x old
  rw [State.homeOp, State.homeOwn]
  rcases o.op with _ | _ | op
  · rfl
  · rfl
  · change (match atomNew op old o.x o.y with
      | some n => (old, x.mapMem fun z => z.placeWrite v.place (linePlace (o.addr % 256) n) (lineMask (o.addr % 256) o.bytes))
      | none => (old, x)) = _
    dsimp only
    cases atomNew op old o.x o.y <;> rfl

/-! ### Accesses of another cluster (R99) -/

theorem exec_clusterWindowAccess {x : Team} (hj : s.takeMsg j = some (m, t)) (hm : m.body = .window g [o]) (hx : t.team? g.tid g.team = some x) :
    exec (.clusterWindowAccess j) s =
      .next ((match o.op with
        | some none => t.mapMem fun y => { y with
            window := y.window.write ((x.cwDie * 32 + x.cwCluster) * 2 ^ 21 + o.addr)
              (mergeBytes (y.window.nat ((x.cwDie * 32 + x.cwCluster) * 2 ^ 21 + o.addr) o.bytes) o.x o.nibs o.bytes)
            winBad := clearBad y.winBad ((x.cwDie * 32 + x.cwCluster) * 2 ^ 21 + o.addr) o.bytes }
        | _ => t).respond m .rsp (.windowRsp g [t.mem.window.nat ((x.cwDie * 32 + x.cwCluster) * 2 ^ 21 + o.addr) o.bytes])) := by
  have hexec : exec (.clusterWindowAccess j) s = execClusterWindowAccess j s := rfl
  rw [hexec, execClusterWindowAccess, onMsg_taken hj, hm]
  dsimp only
  rw [hx]
  rfl

/-! ### A mill's ldt and stt (R151, R188, R362) -/

/-- A mill's access performs on a line that the home has touched, and answers. -/
def State.millPerformed (s : State) (m : Msg) (r : MillRef) (va : Nat) (v : Attr) : Option Nat → State
  | none => s.respond m .rsp (.millRsp r (lineNat (if v.dk then s.mem.placeLine v.place else s.mem.newest v.place) (va % 256) 8) 0 false)
  | some x => (if v.dk then s.mapMem fun y => y.placeWrite v.place (linePlace (va % 256) x) (lineMask (va % 256) 8)
      else s.homeWrite v.place (linePlace (va % 256) x) (lineMask (va % 256) 8)).respond m .rsp (.millRsp r 0 0 true)

theorem exec_millLdtSttAtHome {r : MillRef} {va : Nat} {wr : Option Nat} (hj : s.takeMsg j = some (m, t))
    (hm : m.body = .millAcc r asid p va wr) (hdst : m.dst = .tower h) (hstall : t.homeStalls h asid va = false)
    (hlock : t.ownLock r h asid va p wr.isSome = false)
    (hmeet : t.meet h asid va 8 (if wr.isSome then .write else .read) p ((t.mill? r).bind fun x => t.task? x.tid) = (.ok v, t'))
    (hrow : t'.rowNames r asid v.place = false) (hfree : t'.HomeFree v) :
    exec (.millLdtSttAtHome j) s = .next ((t'.touch v.place).millPerformed m r va v wr) := by
  have hexec : exec (.millLdtSttAtHome j) s = execMillLdtSttAtHome j s := rfl
  have hwaits := hfree.waits
  rw [hexec, execMillLdtSttAtHome, onMsg_taken hj, hm, hdst]
  dsimp only
  rw [hstall, if_neg Bool.false_ne_true, hlock, if_neg Bool.false_ne_true, hmeet]
  dsimp only
  rw [hrow, Bool.or_false, hwaits, if_neg Bool.false_ne_true, hfree.owned, if_neg Bool.false_ne_true]
  cases wr <;> rfl

end

/-- Settles O53. -/
theorem homesPerform : Obligations.HomesPerform := by
  intro j h m g c asid p o v s t t'
  refine ⟨?_, ?_, ?_, ?_, ?_⟩
  · intro u' u w ecc hu hw hasked hsent hspace hscalar horder y hy _ hgate x
    rw [exec_loadResponse hu hw hasked hsent hy, State.settle_globalLoad hspace hscalar horder hgate]
  · intro hj hc hh hstall acc hlanes hbank hline x old y
    have hhome : t.atHomes j m g asid p acc [o] = some (y.respond m .rsp (.homeRsp g [old] [])) := by
      rw [State.atHomes_one hc hh hstall hlanes ⟨hbank, hline⟩, State.homeOp_eq] <;> rfl
    refine ⟨fun hacc hm => ?_, fun hacc hm => ?_⟩
    · have hexec : exec (.homeAtomic j) s = execHomeAtomic j s := rfl
      rw [hexec, execHomeAtomic, onMsg_taken hj, hm]
      dsimp only
      rw [← hacc, hhome]
      rfl
    · have hexec : exec (.nearMemoryReduction j) s = execNearMemoryReduction j s := rfl
      rw [hexec, execNearMemoryReduction, onMsg_taken hj, hm]
      dsimp only
      rw [← hacc, hhome]
      rfl
  · intro x hj hm hx at' old
    rw [exec_clusterWindowAccess hj hm hx]
    refine ⟨fun hop => ?_, fun hop => ?_⟩
    · split
      next hn => exact absurd hn hop
      next => rfl
    · rw [hop]
      rfl
  · intro r va wr hj hm hdst hstall hlock hmeet hbank hrow hline u val
    rw [exec_millLdtSttAtHome hj hm hdst hstall hlock hmeet hrow ⟨hbank, hline⟩]
    exact ⟨fun hwr => by subst hwr; rfl, fun x hwr => by subst hwr; rfl⟩
  · intro r u tier tower pa val limit hu hw
    have hexec : exec (.mparkWake r) s = execMparkWake r s := rfl
    rw [hexec, execMparkWake, hu]
    dsimp only
    rw [hw]
    rfl

end Sys2Proof.Machine


/-! Pre-emption (O49). -/

namespace Sys2Proof.Machine

/-! ### The step a set has reached (R72, R92) -/

/-- A task with the sets of one number in a state of their own. -/
def Task.withSetSt (k : Task) (set : Nat) (n : SetSt) : Task := { k with sets := k.sets.map fun y => if y.k = set then { y with st := n } else y }

/-- The sets of one number of a task have this state. -/
def State.setIs (s : State) (tid set : Nat) (n : SetSt) : Prop := ∃ k, s.task? tid = some k ∧ ∀ y ∈ k.sets, y.k = set → y.st = n

section
variable {s t u : State} {tid vtid vset set : Nat} {k v old : Task} {x : TeamSet} {n : SetSt}

theorem Task.withSetSt_sets (k : Task) (set : Nat) (n : SetSt) : ∀ y ∈ (k.withSetSt set n).sets, y.k = set → y.st = n := by
  intro y hy hyk
  obtain ⟨z, -, rfl⟩ := List.mem_map.1 hy
  by_cases hz : z.k = set
  · rw [if_pos hz]
  · rw [if_neg hz] at hyk
    exact absurd hyk hz

theorem State.setIs_putTask (h : s.task? k.tid = some old) (hsets : ∀ y ∈ k.sets, y.k = set → y.st = n) :
    (s.putTask k).setIs k.tid set n := by
  obtain ⟨waited, since, htask⟩ := State.task?_putTask h
  exact ⟨_, htask, hsets⟩

theorem State.setIs_withSetSt (h : s.task? vtid = some v) (n : SetSt) : (s.putTask (v.withSetSt set n)).setIs vtid set n := by
  have htid := s.task?_tid h
  have := State.setIs_putTask (s := s) (k := v.withSetSt set n) (old := v) (by rw [← h, ← htid]; rfl) (Task.withSetSt_sets v set n)
  rwa [show (v.withSetSt set n).tid = vtid from htid] at this

theorem State.setStep_eq (s : State) (k : Task) (set n : Nat) : s.setStep k set n = s.putTask (k.withSetSt set (.preempt n)) := rfl

theorem State.putTask_mem (s : State) (k : Task) : (s.putTask k).mem = s.mem := by
  obtain ⟨sc, h⟩ := s.putTask_frame k
  rw [h]

/-! ### Teams in order -/

/-- Teams put one after the other change the teams only. -/
theorem State.setTeams_frame {α : Type} (f : α → Team) (xs : List α) (s : State) :
    ∃ ts, xs.foldl (fun s p => s.setTeam (f p)) s = { s with teams := ts } := by
  induction xs generalizing s with
  | nil => exact ⟨_, rfl⟩
  | cons x xs ih =>
    obtain ⟨ts, h⟩ := ih (s.setTeam (f x))
    exact ⟨ts, h⟩

/-- Of teams that have all been put with a property, those that were named have it. -/
theorem State.setTeams_all {f : Team → Team} {p : Team → Prop} (hid : ∀ x, (f x).tid = x.tid ∧ (f x).team = x.team) (hf : ∀ x, p (f x)) (ts : List Team)
    (s : State) : ∀ u ∈ (ts.foldl (fun s x => s.setTeam (f x)) s).teams, p u ∨ u ∈ s.teams ∧ u ∉ ts := by
  induction ts generalizing s with
  | nil => exact fun u hu => .inr ⟨hu, List.not_mem_nil⟩
  | cons x xs ih =>
    intro u hu
    obtain hp | ⟨hmem, hno⟩ := ih _ u hu
    · exact .inl hp
    obtain ⟨y, hy, hyu⟩ := List.mem_map.1 hmem
    split at hyu
    next => exact .inl (hyu ▸ hf x)
    next hne =>
      subst hyu
      refine .inr ⟨hy, fun hin => ?_⟩
      obtain rfl | hxs := List.mem_cons.1 hin
      · exact hne ⟨(hid y).1.symm, (hid y).2.symm⟩
      · exact hno hxs

/-! ### The choice (R91) -/

/-- What a victim's choice asks of the machine. -/
structure State.Chosen (s : State) (tid vtid vset : Nat) (k v : Task) (x : TeamSet) : Prop where
  task : s.task? tid = some k
  victim : s.task? vtid = some v
  set : x.k = vset
  ready : k.st = .ready
  placeable : k.placeable = true
  runs : s.arbRuns = true
  first : ∃ rest, s.victims k.prio = (v, x) :: rest
  full : (s.without s.leaving).canPlace k = false
  frees : (s.without (s.leaving ++ [(vtid, vset)])).canPlace k = true
  space : s.spaceFor [(v, x)] = true

theorem State.Chosen.exec_eq (h : s.Chosen tid vtid vset k v x) : exec (.preemptChoose tid vtid vset) s = s.happens (match x.st with
    | .placed _ resume => some (s.unplace v vset resume)
    | _ =>
      match s.stableSpace v vset with
      | none => none
      | some bs => some ((((s.setTeamsOf vtid vset).zip bs).foldl (fun s p => s.setTeam { p.1 with block := p.2 }) s).putTask
          (v.withSetSt vset (.preempt 1)))) := by
  obtain ⟨hk, hv, hset, hready, hplace, hruns, ⟨rest, hfirst⟩, hfull, hfrees, hspace⟩ := h
  have hvtid := s.task?_tid hv
  have hexec : exec (.preemptChoose tid vtid vset) s = execPreemptChoose tid vtid vset s := rfl
  have hgo : ((List.range ((v, x) :: rest).length).any fun n =>
      (s.without (s.leaving ++ (((v, x) :: rest).take (n + 1)).map fun p => (p.1.tid, p.2.k))).canPlace k &&
        s.spaceFor (((v, x) :: rest).take (n + 1))) = true := by
    refine List.any_eq_true.2 ⟨0, by simp, ?_⟩
    simp only [Nat.zero_add, List.take_succ_cons, List.take_zero, List.map_cons, List.map_nil, hvtid, hset, hfrees, hspace, Bool.and_self]
  rw [hexec, execPreemptChoose, hk, hv]
  dsimp only
  rw [hfirst]
  dsimp only
  rw [if_neg]
  · congr 1
  · rw [hgo]
    simp [hvtid, hset, hready, hplace, hruns, hfull]

/-- A running set that is taken gets its blocks, and its sequence begins. -/
theorem State.Chosen.running (h : s.Chosen tid vtid vset k v x) {bs : List BlockLoc} (hx : x.st = .running) (hbs : s.stableSpace v vset = some bs) :
    ∃ t : State, exec (.preemptChoose tid vtid vset) s = .next t ∧ t.setIs vtid vset (.preempt 1) ∧ t.mem = s.mem ∧ t.groups = s.groups := by
  have hexec : exec (.preemptChoose tid vtid vset) s = .next ((((s.setTeamsOf vtid vset).zip bs).foldl
      (fun s p => s.setTeam { p.1 with block := p.2 }) s).putTask (v.withSetSt vset (.preempt 1))) := by
    rw [h.exec_eq, hx]
    dsimp only
    rw [hbs]
    rfl
  refine ⟨_, hexec, ?_⟩
  obtain ⟨ts, hts⟩ := State.setTeams_frame (fun p : Team × BlockLoc => { p.1 with block := p.2 }) ((s.setTeamsOf vtid vset).zip bs) s
  dsimp only at hts
  rw [hts]
  exact ⟨State.setIs_withSetSt (s := { s with teams := ts }) h.victim _, State.putTask_mem _ _, State.putTask_groups _ _⟩

/-- The teams of some sets have gone. -/
theorem State.without_teams {sets : List (Nat × Nat)} : ∀ y ∈ (s.without sets).teams, (y.tid, y.set) ∉ sets := by
  intro y hy
  have := (List.mem_filter.1 hy).2
  simpa using this

/-- A set that is placed is unplaced, with its teams. -/
theorem State.Chosen.placed (h : s.Chosen tid vtid vset k v x) {ds : List Nat} {r : Bool} (hx : x.st = .placed ds r) :
    ∃ t : State, exec (.preemptChoose tid vtid vset) s = .next t ∧ t.setIs vtid vset (if r then .stabled else .unplaced) ∧
      ∀ y ∈ t.teams, y.tid = vtid → y.set ≠ vset := by
  have hvtid := s.task?_tid h.victim
  refine ⟨s.unplace v vset r, ?_, ?_, ?_⟩
  · rw [h.exec_eq, hx]
    rfl
  · exact State.setIs_withSetSt (s := s.without [(v.tid, vset)]) h.victim _
  · intro y hy ht hs
    rw [State.unplace, State.putTask_teams] at hy
    exact State.without_teams y hy (by simp [ht, hs, hvtid])

/-! ### The sequence (R92) -/

theorem foldl_id {α β : Type} {f : α → β → α} {a : α} {xs : List β} (h : ∀ b ∈ xs, f a b = a) : xs.foldl f a = a := by
  induction xs with
  | nil => rfl
  | cons b xs ih =>
    rw [List.foldl_cons, h b List.mem_cons_self]
    exact ih fun c hc => h c (List.mem_cons_of_mem b hc)

/-- The sequence of a set whose task goes on, at its own step. -/
theorem exec_preemptSequence (hv : s.task? vtid = some v) (hx : (v.sets.find? fun y => y.k == vset) = some x) (hfaulted : v.faulted = false)
    (hruns : ((s.setTeamsOf vtid vset).all fun t => s.siteRuns (.die t.core.die)) = true) :
    (x.st = .preempt 1 → ((s.setGroups vtid vset).any fun g => g.midWord || g.stat == .exiting) = false →
      exec (.preemptSequence vtid vset) s = .next (((s.setTeamsOf vtid vset).foldl (fun s t => s.setTeam { t with started := false })
        ((s.setGroups vtid vset).foldl (fun s g => s.stopWfa g) s)).setStep v vset 2)) ∧
    (x.st = .preempt 2 → s.copiesRun vtid (s.setTeamsOf vtid vset) = false → exec (.preemptSequence vtid vset) s = .next (s.setStep v vset 3)) ∧
    (x.st = .preempt 5 → exec (.preemptSequence vtid vset) s =
      .next ((((s.setTeamsOf vtid vset).foldl (fun l t => insertAsc l t.core.die) []).foldl (fun s d => s.cleanDie v d) s).setStep v vset 6)) := by
  have hgo : ¬(v.faulted = true ∨ ((s.setTeamsOf vtid vset).any fun t => !s.siteRuns (.die t.core.die)) = true) := by
    rw [hfaulted, List.any_eq_not_all_not]
    simpa using hruns
  have hexec : exec (.preemptSequence vtid vset) s = execPreemptSequence vtid vset s := rfl
  refine ⟨fun hst hmid => ?_, fun hst hcopies => ?_, fun hst => ?_⟩
  all_goals
    rw [hexec, execPreemptSequence, hv]
    dsimp only
    rw [hx]
    dsimp only
    rw [if_neg hgo, hst]
  · rw [hmid, if_neg Bool.false_ne_true]
    rfl
  · rw [hcopies, if_neg Bool.false_ne_true]
    rfl
  · rfl

/-- A line cleaned for a task changes no group and no task. -/
theorem State.cleanDie_leaves (s : State) (k : Task) (die : Nat) : (s.cleanDie k die).groups = s.groups ∧ (s.cleanDie k die).sched = s.sched := by
  have hback (t : State) (src n : Node) (a : LineId) (last : Nat) (val mask : BitVec 2048) (late : Bool) (o : WbOwner) :
      (t.writeBack src n a last val mask late o).groups = t.groups ∧ (t.writeBack src n a last val mask late o).sched = t.sched := by
    unfold State.writeBack
    split <;> exact ⟨rfl, rfl⟩
  have hline (t : State) (l : Line) : (t.cleanFor k.tid l).groups = t.groups ∧ (t.cleanFor k.tid l).sched = t.sched := hback _ _ _ _ _ _ _ _ _
  have hsame {α : Type} {f : State → α → State} (hf : ∀ t x, (f t x).groups = t.groups ∧ (f t x).sched = t.sched) (xs : List α) (t : State) :
      (xs.foldl f t).groups = t.groups ∧ (xs.foldl f t).sched = t.sched :=
    xs.foldlRecOn (motive := fun u : State => u.groups = t.groups ∧ u.sched = t.sched) f ⟨rfl, rfl⟩
      fun u ⟨hg, hs⟩ x _ => ⟨(hf u x).1.trans hg, (hf u x).2.trans hs⟩
  exact hsame (fun t d => hsame hline _ t) _ s

theorem State.copiesRun_false {ts : List Team} (h : ∀ c ∈ s.cores, ∀ q ∈ c.cq, q.g.tid = tid → q.state ≠ .queued ∧ q.state ≠ .active) :
    s.copiesRun tid ts = false := by
  rw [State.copiesRun, List.any_eq_false]
  intro c hc
  rw [Bool.not_eq_true, List.any_eq_false]
  intro q hq
  by_cases ht : q.g.tid = tid
  · obtain ⟨h1, h2⟩ := h c hc q hq ht
    simp [h1, h2]
  · simp [ht]

end

/-- Settles O49. -/
theorem preemptionRuns : Obligations.PreemptionRuns := by
  intro tid vtid vset k v x rest s hv hx hst hruns now gs ts
  have hvtid := s.task?_tid hv
  have hset : x.k = vset := by simpa using List.find?_some hx
  refine ⟨fun hk hready hplace hfirst hfull hfrees hspace => ?_, fun hfaulted hdies => ?_, fun h6 hnet => ?_⟩
  · have hchosen : s.Chosen tid vtid vset k v x := ⟨hk, hv, hset, hready, hplace, hruns, ⟨rest, hfirst⟩, hfull, hfrees, hspace⟩
    exact ⟨fun bs => hchosen.running, fun ds r => hchosen.placed⟩
  · obtain ⟨h1, h2, h5⟩ := exec_preemptSequence hv hx hfaulted hdies
    refine ⟨fun hst hg => ?_, fun hst hc => ?_, fun hst => ?_⟩
    · have hmid : ((s.setGroups vtid vset).any fun g => g.midWord || g.stat == .exiting) = false := by
        rw [List.any_eq_false]
        intro g hgm
        obtain ⟨hm, he, -⟩ := hg g hgm
        simp [hm, he]
      have hstay : (s.setGroups vtid vset).foldl (fun s g => s.stopWfa g) s = s := foldl_id fun g hgm => by
        obtain ⟨-, -, hw⟩ := hg g hgm
        rw [State.stopWfa]
        split
        next a b c _ _ hwait _ _ => exact absurd hwait (hw a b c)
        next => rfl
      obtain ⟨us, hus⟩ := State.setTeams_frame (fun t : Team => { t with started := false }) (s.setTeamsOf vtid vset) s
      have hall := State.setTeams_all (p := fun t => t.started = false) (f := fun t : Team => { t with started := false }) (fun _ => ⟨rfl, rfl⟩)
        (fun _ => rfl) (s.setTeamsOf vtid vset) s
      refine ⟨_, h1 hst hmid, ?_⟩
      rw [hstay, State.setStep_eq]
      refine ⟨?_, ?_, ?_, fun y hy htid hyset => ?_⟩
      · rw [hus]
        exact State.setIs_withSetSt (s := { s with teams := us }) hv _
      · rw [State.putTask_groups, hus]
      · rw [State.putTask_mem, hus]
      · rw [State.putTask_teams] at hy
        obtain hp | ⟨hmem, hno⟩ := hall y hy
        · exact hp
        · exact absurd (List.mem_filter.2 ⟨hmem, by simp [htid, hyset]⟩) hno
    · obtain ⟨sc, hsc⟩ := s.putTask_frame (v.withSetSt vset (.preempt 3))
      refine ⟨_, h2 hst (State.copiesRun_false hc), State.setIs_withSetSt hv _, ?_⟩
      rw [State.setStep_eq, hsc]
    · have hclean := fun (ds : List Nat) => ds.foldlRecOn (motive := fun u : State => u.groups = s.groups ∧ u.sched = s.sched) (fun s d => s.cleanDie v d) ⟨rfl, rfl⟩
        fun u ⟨hg, hs⟩ d _ => ⟨((u.cleanDie_leaves v d).1).trans hg, ((u.cleanDie_leaves v d).2).trans hs⟩
      obtain ⟨hg, hs⟩ := hclean ((s.setTeamsOf vtid vset).foldl (fun l t => insertAsc l t.core.die) [])
      refine ⟨_, h5 hst, ?_, ?_⟩
      · exact State.setIs_withSetSt (by rw [State.task?, hs]; exact hv) _
      · rw [State.setStep_eq, State.putTask_groups, hg]
  · have hexec : exec (.preemptComplete vtid vset) s = execPreemptComplete vtid vset s := rfl
    refine ⟨(s.without [(vtid, vset)]).putTask (v.withSetSt vset .stabled), ?_, State.setIs_withSetSt (s := s.without [(vtid, vset)]) hv _, ?_, ?_⟩
    · rw [hexec, execPreemptComplete, hv]
      dsimp only
      rw [hx]
      dsimp only
      rw [if_neg]
      · rfl
      · rw [h6, hruns]
        simp only [ne_eq, not_true_eq_false, Bool.true_eq_false, or_false, false_or, Bool.not_eq_true]
        rw [List.any_eq_false]
        intro m hm
        split
        next a n b c d o hbody =>
          rw [hnet m hm a n b c d o hbody]
          exact Bool.false_ne_true
        next => exact Bool.false_ne_true
    · rw [State.putTask_mem]
      rfl
    · intro y hy ht hs
      rw [State.putTask_teams] at hy
      exact State.without_teams y hy (by simp [ht, hs])

end Sys2Proof.Machine


/-! The end of a task (O50). -/

namespace Sys2Proof.Machine

section
variable {s t u : State} {tid die : Nat} {k j old : Task}

/-! ### DRAIN (R72, R80, R81) -/

/-- Without a successor list there is no couch target. -/
theorem State.chooseCouch_nil (s : State) (p : Task) : s.chooseCouch p [] = s :=
  foldl_id fun k _ => by
    rw [State.couchable]
    simp [namesOf]

/-- A task without couch targets plans no couch data. -/
theorem State.couchPlan_nil (s : State) (h : k.couchTo = []) : s.couchPlan k = [] := by
  rw [State.couchPlan, h]
  rfl

theorem exec_taskDrain (hk : s.task? tid = some k) (hst : k.st = .running) (hfaulted : k.faulted = false) (hruns : s.arbRuns = true)
    (hfin : s.finished k = true) (hsucc : k.succN = 0) (hcouch : k.couchTo = []) (hsys : k.type = .mill → k.sysDone = false) :
    let t := ({ s with mills := s.mills.filter fun m => m.tid != tid } : State).setTask { k with st := .drain, drainDies := k.dies }
    exec (.taskDrain tid) s = .next (t.setTask { k with st := .drain, drainDies := k.dies, couchPlan := [] }) := by
  intro t
  have htid := s.task?_tid hk
  have hexec : exec (.taskDrain tid) s = execTaskDrain tid s := rfl
  have hactive : (k.st != .waitdep && k.st != .waithaz && k.st != .drain && k.st != .done) = true := by rw [hst]; rfl
  have hback : ¬(k.type = .mill ∧ k.sysDone = true) := fun h => by simp [hsys h.1] at h
  have hread (u : State) : u.readList k.asid k.succAddr k.succN = .ok [] u := by rw [hsucc]; rfl
  have ht : t.task? tid = some { k with st := .drain, drainDies := k.dies } := State.task?_setTask_of (s := { s with mills := _ }) htid hk
  rw [hexec, execTaskDrain, hk]
  dsimp only
  rw [hactive, if_neg (by simp [hruns, hfaulted, hfin]), if_neg hback, if_neg (by simp [hfaulted]), hread]
  dsimp only
  rw [State.chooseCouch_nil]
  change s.happens (some (match t.task? tid with | some p => t.setTask { p with couchPlan := t.couchPlan p } | none => t)) = _
  rw [ht]
  dsimp only
  rw [State.couchPlan_nil _ (by exact hcouch)]
  rfl

/-! ### Write-back (R80, R148) -/

theorem MemState.line?_of_mem {x : MemState} {l : Line} (h : l ∈ x.lines) : (x.line? l.node l.a).isSome = true :=
  List.find?_isSome.2 ⟨l, h, by simp⟩

/-- A line cleaned for a task is clean, and the others are as they were. -/
theorem State.cleanFor_lines (s : State) (tid : Nat) (l : Line) :
    ∀ h ∈ (s.cleanFor tid l).mem.lines, h.dirty = 0 ∨ h ∈ s.mem.lines ∧ h ≠ l := by
  intro h hh
  obtain ⟨hlines, -⟩ := s.writeBack_leaves l.node l.node l.a l.attr.home l.val l.dirty false (.task tid)
  rw [State.cleanFor] at hh
  dsimp only [State.mapMem_mem] at hh
  rw [MemState.setLine] at hh
  split at hh
  next =>
    obtain ⟨y, hy, rfl⟩ := List.mem_map.1 hh
    split
    next => exact .inl rfl
    next hne =>
      refine .inr ⟨hlines ▸ hy, fun hyl => hne ?_⟩
      rw [hyl]
      exact ⟨rfl, rfl⟩
  next hnone =>
    obtain hy | hy := List.mem_append.1 hh
    · refine .inr ⟨hlines ▸ hy, fun hyl => hnone ?_⟩
      rw [hyl] at hy
      exact MemState.line?_of_mem (l := l) hy
    · rw [List.mem_singleton.1 hy]
      exact .inl rfl

theorem State.cleanAll_lines (tid : Nat) (ls : List Line) (s : State) :
    ∀ h ∈ (ls.foldl (fun s l => s.cleanFor tid l) s).mem.lines, h.dirty = 0 ∨ h ∈ s.mem.lines ∧ h ∉ ls := by
  induction ls generalizing s with
  | nil => exact fun h hh => .inr ⟨hh, List.not_mem_nil⟩
  | cons l ls ih =>
    intro h hh
    obtain hd | ⟨hmem, hno⟩ := ih _ h hh
    · exact .inl hd
    · exact (s.cleanFor_lines tid l h hmem).imp_right fun ⟨hs, hne⟩ => ⟨hs, fun hin => (List.mem_cons.1 hin).elim hne hno⟩

/-- A deckled line of an L2 that meets a deckle of a task. -/
def Line.meets (l : Line) (asid die : Nat) (d : Deckle) : Prop :=
  l.node = .l2 die ∧ l.a.asid = asid ∧ l.attr.dk = true ∧ d.base < (l.a.line + 1) * 256 ∧ l.a.line * 256 < d.base + d.extent

theorem State.mem_dirtyLines {l : Line} {d : Deckle} {asid : Nat} (hl : l ∈ s.mem.lines) (hmeets : l.meets asid die d)
    (hno : l ∉ s.dirtyLines asid die d.base (d.base + d.extent)) : l.dirty = 0 := by
  obtain ⟨hnode, hasid, hdk, hlo, hhi⟩ := hmeets
  refine Classical.byContradiction fun hd => ?_
  refine hno (mem_sortBy.2 (List.mem_filter.2 ⟨hl, ?_⟩))
  simp only [hnode, hasid, hdk, hlo, hhi, beq_self_eq_true, decide_true, Bool.and_self, Bool.and_true, Bool.true_and, bne_iff_ne]
  exact hd

/-- The write-back of a die leaves no dirty line that meets a write deckle of the task. -/
theorem State.cleanDeckles_lines (tid asid die : Nat) (ds : List Deckle) (s : State) :
    ∀ h ∈ (ds.foldl (fun s d => (s.dirtyLines asid die d.base (d.base + d.extent)).foldl (fun s l => s.cleanFor tid l) s) s).mem.lines,
      h.dirty = 0 ∨ h ∈ s.mem.lines ∧ ∀ d ∈ ds, ¬ h.meets asid die d := by
  induction ds generalizing s with
  | nil => exact fun h hh => .inr ⟨hh, fun d hd => absurd hd List.not_mem_nil⟩
  | cons d ds ih =>
    intro h hh
    obtain hd | ⟨hmem, hno⟩ := ih _ h hh
    · exact .inl hd
    obtain hd | ⟨hs, hout⟩ := State.cleanAll_lines tid _ s h hmem
    · exact .inl hd
    by_cases hm : h.meets asid die d
    · exact .inl (State.mem_dirtyLines hs hm hout)
    · exact .inr ⟨hs, fun e he => (List.mem_cons.1 he).elim (fun heq => heq ▸ hm) (hno e)⟩

/-- Without a couch hint, a die's write-back is that of its dirty lines. -/
theorem State.drainDie_eq (s : State) (k : Task) (die : Nat) (h : ∀ d ∈ k.deckles, d.couch = false) : s.drainDie k die = s.cleanDie k die := by
  rw [State.drainDie, State.cleanDie]
  refine List.foldl_rel (r := Eq) rfl fun d hd s t hst => ?_
  rw [hst, h d (List.mem_filter.1 hd).1]
  rfl

theorem exec_edgeWriteback (hk : s.task? tid = some k) (hst : k.st = .drain) (hdie : die ∈ k.drainDies) (hruns : s.siteRuns (.die die) = true)
    (hw : s.wLines k.asid die = []) (hout : (s.nibblesOut die fun a => a.asid == k.asid) = false) (hsys : k.sysDone = false)
    (hcouch : ∀ d ∈ k.deckles, d.couch = false) :
    exec (.edgeWriteback tid die) s = .next ((s.cleanDie k die).setTask { k with drainDies := k.drainDies.erase die }) := by
  have hexec : exec (.edgeWriteback tid die) s = execEdgeWriteback tid die s := rfl
  have hrel : s.releaseDies k.asid [die] = .done := by
    have hall : [die].flatMap (s.wLines k.asid) = [] := by rw [List.flatMap_singleton, hw]
    rw [State.releaseDies, hall]
    dsimp only
    rw [List.any_cons, hout]
    rfl
  have htask : (s.cleanDie k die).task? tid = some k := by rw [State.task?, (s.cleanDie_leaves k die).2]; exact hk
  rw [hexec, execEdgeWriteback, hk]
  dsimp only
  rw [if_neg (by simp [hst, hdie, hruns]), hrel]
  dsimp only
  rw [hsys, if_neg Bool.false_ne_true, State.drainDie_eq s k die hcouch, htask]

/-! ### A task that faulted (R73, R189) -/

/-- A cleared task has nothing on cores and mills; DRAM and the tasks are as they were. -/
theorem State.clearTask_leaves (s : State) (tid : Nat) :
    (s.clearTask tid).groups = s.groups.filter (fun g => g.id.tid != tid) ∧ (s.clearTask tid).teams = s.teams.filter (fun t => t.tid != tid) ∧
      (s.clearTask tid).mills = s.mills.filter (fun m => m.tid != tid) ∧ (s.clearTask tid).mem.dram = s.mem.dram ∧
      (s.clearTask tid).sched.tasks = s.sched.tasks := by
  have hlocks := (s.mills.filter fun m => m.tid == tid).foldlRecOn
    (motive := fun u : State => ∃ ls, u = s.mapMem fun x => { x with locks := ls }) (b := s) (fun s m => s.releaseLocks m.id) ⟨s.mem.locks, rfl⟩
    fun u ⟨ls, hu⟩ m _ => ⟨ls.filter fun l => l.holder != m.id, by subst hu; rfl⟩
  obtain ⟨ls, hls⟩ := hlocks
  rw [State.clearTask, hls]
  exact ⟨rfl, rfl, rfl, rfl, rfl⟩

theorem exec_taskFaultEnd (hk : s.task? tid = some k) (hfaulted : k.faulted = true) (hst : k.st = .running) (hended : s.ended k = false)
    (hfrozen : s.frozen = false) (hmill : s.millBusy tid = false) (hruns : s.hostsRun tid = true)
    (hmid : ∀ g ∈ s.groups, g.id.tid = tid → g.midWord = false)
    (hcopies : ∀ c ∈ s.cores, ∀ q ∈ c.cq, q.g.tid = tid → q.state ≠ .queued ∧ q.state ≠ .active) :
    exec (.taskFaultEnd tid) s =
      .next ((s.clearTask tid).setTask { k with sets := k.sets.map fun x => { x with st := .exited, reserved := none } }) := by
  have hexec : exec (.taskFaultEnd tid) s = execTaskFaultEnd tid s := rfl
  have hwords : (s.groups.any fun g => g.id.tid == tid && g.midWord && (s.issuerOf g.id).isSome) = false := by
    rw [List.any_eq_false]
    intro g hg
    by_cases ht : g.id.tid = tid
    · simp [hmid g hg ht]
    · simp [ht]
  have hcq : (s.cores.any fun c => c.cq.any fun q => q.g.tid == tid && (q.state == .queued || q.state == .active)) = false := by
    rw [List.any_eq_false]
    intro c hc
    rw [Bool.not_eq_true, List.any_eq_false]
    intro q hq
    by_cases ht : q.g.tid = tid
    · obtain ⟨h1, h2⟩ := hcopies c hc q hq ht
      simp [h1, h2]
    · simp [ht]
  rw [hexec, execTaskFaultEnd, hk]
  dsimp only
  rw [hwords, hcq, if_neg (by simp [hfaulted, hst, hended, hmill, hruns, hfrozen])]

/-! ### DONE (R66, R74, R75) -/

/-- What a completion store leaves of its task and its targets. -/
def State.completedAs (t : State) (k : Task) (st : TStatus) (ok : Bool) : State :=
  (t.setTask { k with st := .done, status := st, completed := true }).freeTargets k.tid ok

theorem State.finishTask_eq {fail : Bool} (h : s.complete (k.completion k.endStatus) fail = some t) :
    s.finishTask k fail = some (t.completedAs k k.endStatus (k.endStatus == .ok)) := by
  rw [State.finishTask, h]
  rfl

theorem Task.endStatus_ok (k : Task) : (k.endStatus == .ok) = (match k.status with | .ok => !k.faulted | _ => false) := by
  rw [Task.endStatus]
  cases k.status <;> cases k.faulted <;> rfl

/-- A completion store into local memory, without an interrupt. -/
theorem State.complete_store {c : Completion} (halign : c.addr % 8 = 0) (hirq : c.irq = false) (hloc : c.loc ≠ 2)
    (hw : s.ownWrite s.arbHome c.asid c.addr (leBytes 8 (completionWord c.tid c.st c.fcode)) = .ok () t) :
    s.complete c false = some (if c.sys then t.sendBackInv else t) := by
  rw [State.complete]
  dsimp only
  rw [if_neg Bool.false_ne_true, if_neg (by omega), if_neg hloc, hw, hirq]
  rfl

theorem State.complete_fail {c : Completion} (hirq : c.irq = false) : s.complete c true = some (s.storeFailed c cTIMEOUT) := by
  rw [State.complete]
  dsimp only
  rw [if_pos rfl, hirq]
  rfl

/-- An entry that names a waiting task with a count above 1 decrements it. -/
theorem State.applyEntry_waiting {e : Nat} {doom sys : Bool} (he : e < 2 ^ 40)
    (hknown : (s.sched.known.find? fun x => x.q == bits e 39 32 && x.index == bits e 31 0) = some ⟨bits e 39 32, bits e 31 0, some j.tid⟩)
    (hj : s.task? j.tid = some j) (hst : j.st = .waitdep) (hcnt : 1 < j.depcnt) :
    s.applyEntry tid e doom sys = s.setTask { j with depcnt := j.depcnt - 1, doomed := j.doomed || doom, sysEdge := j.sysEdge || sys } := by
  have hhigh : bits e 63 40 = 0 := by rw [bits, Nat.div_eq_of_lt he, Nat.zero_mod]
  rw [State.applyEntry]
  dsimp only
  rw [if_neg (fun h => h hhigh), hknown]
  dsimp only
  rw [Option.bind_some, hj]
  dsimp only
  rw [if_pos ⟨hst, by omega⟩, Task.decremented, Task.released, if_neg]
  rintro ⟨-, h0⟩
  dsimp only at h0
  omega

theorem exec_successorListRead {es : List Nat} (hk : s.task? tid = some k) (hst : k.st = .done) (hdone : k.completed = true)
    (hruns : s.arbRuns = true) (hread : s.readList k.asid k.succAddr k.succN = .ok es t)
    (hroom : (t.applyList tid (k.status != .ok) (k.cscope == 5) es k.couchTo).sched.pending.length ≤ 16384) :
    exec (.successorListRead tid) s = .next ((t.applyList tid (k.status != .ok) (k.cscope == 5) es k.couchTo).forget tid) := by
  have hexec : exec (.successorListRead tid) s = execSuccessorListRead tid s := rfl
  rw [hexec, execSuccessorListRead, hk]
  dsimp only
  rw [if_neg (by simp [hst, hdone, hruns]), hread]
  dsimp only
  rw [if_neg (by exact Nat.not_lt.2 hroom)]
  rfl

theorem State.forget_task?_self (s : State) (tid : Nat) : (s.forget tid).task? tid = none := by
  rw [State.task?, List.find?_eq_none]
  intro x hx
  simpa using (List.mem_filter.1 (show x ∈ s.sched.tasks.filter fun k => k.tid != tid from hx)).2

theorem State.forget_task?_ne {n : Nat} (h : n ≠ tid) : (s.forget tid).task? n = s.task? n := by
  rw [State.task?, State.forget, State.task?, List.find?_filter]
  refine congrArg (fun p => s.sched.tasks.find? p) (funext fun x => ?_)
  by_cases hx : x.tid = n
  · simp [hx, h]
  · simp [hx]

end

theorem tasksDrain : Claims.TasksDrain := by
  intro tid die k s hk
  have htid := s.task?_tid hk
  refine ⟨?_, ?_, ?_⟩
  · intro hst hfaulted hruns hfin hsucc hcouch hsys
    refine ⟨_, exec_taskDrain hk hst hfaulted hruns hfin hsucc hcouch hsys, ?_, rfl, fun m hm => ?_⟩
    · exact State.task?_setTask_of htid (State.task?_setTask_of (s := { s with mills := _ }) htid hk)
    · have := (List.mem_filter.1 (show m ∈ s.mills.filter fun m => m.tid != tid from hm)).2
      simpa using this
  · intro hst hdie hruns hw hout hsys hcouch
    refine ⟨_, exec_edgeWriteback hk hst hdie hruns hw hout hsys hcouch, ?_, ?_⟩
    · refine State.task?_setTask_of htid (j := k) ?_
      rw [State.task?, (s.cleanDie_leaves k die).2]
      exact hk
    · rintro l hl hnode hasid hdk ⟨d, hd, hdw, hlo, hhi⟩
      refine (State.cleanDeckles_lines k.tid k.asid die _ s l hl).resolve_right fun ⟨_, hno⟩ => ?_
      exact hno d (List.mem_filter.2 ⟨hd, hdw⟩) ⟨hnode, hasid, hdk, hlo, hhi⟩
  · intro hfaulted hst hended hfrozen hmill hruns hmid hcopies
    obtain ⟨hgroups, hteams, hmills, hdram, htasks⟩ := s.clearTask_leaves tid
    refine ⟨_, exec_taskFaultEnd hk hfaulted hst hended hfrozen hmill hruns hmid hcopies, ?_, ?_, ?_, hdram, ?_⟩
    · rw [State.setTask_groups, hgroups]
      exact fun g hg => by simpa using (List.mem_filter.1 hg).2
    · rw [State.setTask_teams, hteams]
      exact fun g hg => by simpa using (List.mem_filter.1 hg).2
    · rw [State.setTask_mills, hmills]
      exact fun g hg => by simpa using (List.mem_filter.1 hg).2
    · refine State.task?_setTask_of htid (j := k) ?_
      rw [State.task?, htasks]
      exact hk

theorem tasksComplete : Claims.TasksComplete := by
  intro tid off v k s hk
  obtain rfl := s.task?_tid hk
  intro hruns ok st done
  have hdone (t : State) : t.completedAs k k.endStatus (k.endStatus == .ok) = done t := by
    rw [State.completedAs, Task.endStatus_ok]
    rfl
  refine ⟨fun hend => ⟨fun t halign hirq hloc hw => ?_, fun hne hirq => ?_⟩, fun hst hcomp hroom hsucc => ?_,
    fun e j t hst hcomp hcouch hread hroom he hknown hj hjtid hjst hcnt => ?_, fun hoff => ⟨fun htakes => ?_, fun htakes => ?_⟩⟩
  · have hexec : exec (.taskDone k.tid) s = execTaskDone k.tid s := rfl
    have hsys : k.sysDone = (k.cscope == 5) := by rw [Task.sysDone, hirq, Bool.or_false]
    have hstore := State.complete_store (s := s) (t := t) (c := k.completion k.endStatus) halign hirq hloc (by rw [← hw]; rfl)
    rw [hexec, execTaskDone, hk]
    dsimp only
    rw [if_pos hend, State.finishTask_eq hstore, hdone]
    change Host.Outcome.next (done (if k.sysDone = true then t.sendBackInv else t)) = _
    rw [hsys]
    simp only [beq_iff_eq]
  · have hexec : exec (.completionStoreFail k.tid) s = execCompletionStoreFail k.tid s := rfl
    rw [hexec, execCompletionStoreFail, if_neg (by exact hne), hk]
    dsimp only
    rw [if_pos hend, State.finishTask_eq (State.complete_fail hirq), hdone]
    rfl
  · have hread : s.readList k.asid k.succAddr k.succN = .ok [] s := by rw [hsucc]; rfl
    exact exec_successorListRead hk hst hcomp hruns hread hroom
  · have happly : t.applyList k.tid (k.status != .ok) (k.cscope == 5) [e] k.couchTo =
        t.setTask { j with depcnt := j.depcnt - 1, doomed := j.doomed || k.status != .ok, sysEdge := j.sysEdge || k.cscope == 5 } := by
      rw [hcouch]
      exact State.applyEntry_waiting he hknown hj hjst hcnt
    refine ⟨_, exec_successorListRead hk hst hcomp hruns hread (by rw [happly]; exact hroom), State.forget_task?_self _ _, ?_⟩
    rw [happly, State.forget_task?_ne hjtid]
    exact State.task?_setTask_of rfl hj
  · have hexec : exec (.stablePoolWrite off v) s = execStablePoolWrite off v s := rfl
    rw [hexec, execStablePoolWrite, if_neg (by rintro ⟨h1, h2⟩; exact hoff.elim h1 h2), if_neg (fun h => h htakes)]
    rfl
  · have hexec : exec (.stablePoolWrite off v) s = execStablePoolWrite off v s := rfl
    rw [hexec, execStablePoolWrite, if_neg (by rintro ⟨h1, h2⟩; exact hoff.elim h1 h2), if_pos htakes]

/-- Settles O50. -/
theorem tasksEnd : Obligations.TasksEnd := ⟨tasksDrain, tasksComplete⟩

end Sys2Proof.Machine


/-! Failures and resets (O42). -/

namespace Sys2Proof.Machine

/-! ### Operations that leave watermarks, scans and the failed dies alone, and keep the canonical form -/

/-- An operation that touches no watermark, no scan and no die's failure, and keeps the invariant. -/
structure State.Works (s t : State) : Prop where
  wms : t.link.wms = s.link.wms
  scans : t.mem.scans = s.mem.scans
  failed : t.mem.failedDies = s.mem.failedDies
  inv : s.Inv → t.Inv

section
variable {s t u : State}

theorem State.Works.refl (s : State) : s.Works s := ⟨rfl, rfl, rfl, id⟩
theorem State.Works.trans (h : s.Works t) (h' : t.Works u) : s.Works u :=
  ⟨h'.wms.trans h.wms, h'.scans.trans h.scans, h'.failed.trans h.failed, fun hi => h'.inv (h.inv hi)⟩
theorem State.Works.foldl {α : Type} {f : State → α → State} (hf : ∀ (t : State) (x : α), t.Works (f t x)) (xs : List α) (s : State) :
    s.Works (xs.foldl f s) := by
  induction xs generalizing s with
  | nil => exact .refl s
  | cons x xs ih => exact (hf s x).trans (ih _)
theorem State.MemOnly.works (h : s.MemOnly t) : s.Works t :=
  ⟨by rw [h.link], h.tables.scans, h.tables.failedDies, h.inv⟩
/-- A state that differs in tasks, cores, mills and logs only. -/
theorem State.works_of (hlink : t.link = s.link) (hmem : t.mem = s.mem) (hmgmt : t.mgmt = s.mgmt) : s.Works t :=
  ⟨by rw [hlink], by rw [hmem], by rw [hmem], fun h => h.of_eq hmem hmgmt⟩
theorem State.works_mapMem (s : State) {f : MemState → MemState} (hscans : (f s.mem).scans = s.mem.scans) (hfailed : (f s.mem).failedDies = s.mem.failedDies)
    (hcanonical : s.mem.canonical = true → (f s.mem).canonical = true) : s.Works (s.mapMem f) :=
  ⟨rfl, hscans, hfailed, fun h => h.mapMem hcanonical⟩

theorem State.works_setReg (s : State) (off v : Nat) : s.Works (s.setReg off v) := ⟨rfl, rfl, rfl, fun h => h.setReg off v⟩
theorem State.works_sendMsg (s : State) (m : Msg) : s.Works (s.sendMsg m) := ⟨rfl, rfl, rfl, fun h => h.sendMsg m⟩
theorem State.works_send (s : State) (c : MClass) (a b : Site) (x : Body) : s.Works (s.send c a b x) := s.works_sendMsg _
theorem State.works_respond (s : State) (m : Msg) (c : MClass) (x : Body) : s.Works (s.respond m c x) := s.works_sendMsg _
theorem State.works_request (s : State) (c : MClass) (a b : Site) (x : Body) : s.Works (s.request c a b x) := by
  unfold State.request
  split
  · exact s.works_send _ _ _ _
  · exact (s.works_sendMsg _).trans (State.works_mapMem _ rfl rfl id)
theorem State.works_logAdd (s : State) (kind sheet site tid addr aux unit : Nat) : s.Works (s.logAdd kind sheet site tid addr aux unit) :=
  State.works_of rfl rfl rfl

theorem MemState.lose_scans (x : MemState) (tower : Nat) (phys : Option Nat) (a : LineId) :
    (x.lose tower phys a).scans = x.scans ∧ (x.lose tower phys a).failedDies = x.failedDies := by
  unfold MemState.lose
  split
  · exact ⟨rfl, rfl⟩
  split
  · exact ⟨rfl, rfl⟩
  split
  · split <;> exact ⟨rfl, rfl⟩
  · exact ⟨rfl, rfl⟩
theorem State.works_lose (s : State) (tower : Nat) (phys : Option Nat) (a : LineId) : s.Works (s.mapMem fun x => x.lose tower phys a) :=
  s.works_mapMem (s.mem.lose_scans _ _ _).1 (s.mem.lose_scans _ _ _).2 fun h => MemState.canonical_lose h _ _ _
theorem MemState.setLine_scans (x : MemState) (l : Line) : (x.setLine l).scans = x.scans ∧ (x.setLine l).failedDies = x.failedDies := by
  unfold MemState.setLine
  split <;> exact ⟨rfl, rfl⟩
theorem State.works_setLine (s : State) (l : Line) : s.Works (s.mapMem fun x => x.setLine l) :=
  s.works_mapMem (s.mem.setLine_scans l).1 (s.mem.setLine_scans l).2 fun h => MemState.canonical_setLine h l
theorem State.works_dropLine (s : State) (n : Node) (a : LineId) : s.Works (s.mapMem fun x => x.dropLine n a) := s.works_mapMem rfl rfl id
theorem State.works_dropTxn (s : State) (t : Txn) : s.Works (s.mapMem fun x => x.dropTxn t) := s.works_mapMem rfl rfl id
theorem State.works_setTxn (s : State) (t t' : Txn) : s.Works (s.mapMem fun x => x.setTxn t t') := s.works_mapMem rfl rfl id
theorem State.works_putTxn (s : State) (t : Txn) : s.Works (s.putTxn t) := s.works_mapMem rfl rfl id
theorem State.works_placeWrite (s : State) (p : Place) (val mask : BitVec 2048) : s.Works (s.mapMem fun x => x.placeWrite p val mask) :=
  (s.memOnly_placeWrite p val mask).works

/-! ### Transactions (R108 to R111) -/

theorem State.works_loseWriteback (s : State) (tower : Nat) (a : LineId) (n : Node) (o : WbOwner) : s.Works (s.loseWriteback tower a n o) :=
  (s.works_lose tower none a).trans (State.works_logAdd _ _ _ _ _ _ _ _)
theorem State.works_writeBack (s : State) (src n : Node) (a : LineId) (last : Nat) (val mask : BitVec 2048) (late : Bool) (o : WbOwner) :
    s.Works (s.writeBack src n a last val mask late o) := by
  unfold State.writeBack
  split
  · exact s.works_send _ _ _ _
  · exact s.works_loseWriteback _ _ _ _
theorem State.works_lateHome (s : State) (n frm : Node) (a : LineId) (val mask : BitVec 2048) (last : Nat) :
    s.Works (s.lateHome n frm a val mask last) := by
  unfold State.lateHome
  dsimp only
  split
  · exact .refl s
  · exact s.works_writeBack _ _ _ _ _ _ _ _
theorem State.works_absorb (s : State) (t : Txn) : s.Works (s.absorb t) := by
  unfold State.absorb
  split
  · split
    · exact .refl s
    · exact s.works_placeWrite _ _ _
  · refine s.works_mapMem ?_ ?_ fun h => ?_
    · split
      · exact (MemState.setLine_scans _ _).1
      · rfl
    · split
      · exact (MemState.setLine_scans _ _).2
      · rfl
    · split
      · exact MemState.canonical_setLine h _
      · exact h
  · exact .refl s
theorem State.works_grantS (s : State) (t : Txn) (k : Node) (r : Req) (val : BitVec 2048) (v : Attr) : s.Works (s.grantS t k r val v) := by
  unfold State.grantS
  refine (s.works_dropTxn t).trans ?_
  generalize s.mapMem (fun x => x.dropTxn t) = u
  dsimp only
  split
  · exact .refl u
  · refine State.Works.trans ?_ ((State.works_putTxn _ _).trans (State.works_respond _ _ _ _))
    split
    · exact .refl u
    · exact u.works_setLine _
theorem State.works_unwatch (s : State) (p : Place) : s.Works (s.mapMem fun x => x.unwatch p) := s.works_mapMem rfl rfl id
theorem State.works_grantX (s : State) (t : Txn) (k : Node) (r : Req) (val mask dirty : BitVec 2048) (v : Attr) :
    s.Works (s.grantX t k r val mask dirty v) := by
  unfold State.grantX
  refine (s.works_dropTxn t).trans ?_
  generalize s.mapMem (fun x => x.dropTxn t) = u
  dsimp only
  split
  · exact u.works_lateHome _ _ _ _ _ _
  · refine State.Works.trans ?_ ((State.works_setLine _ _).trans ((State.works_putTxn _ _).trans (State.works_respond _ _ _ _)))
    split
    · exact (u.memOnly_callBorrowers _).works.trans (State.works_unwatch _ _)
    · exact .refl u
theorem State.works_askUp (s : State) (n : Node) (a : LineId) (at' : Option Attr) (r : Req) (mk : LineId → Node → Req → Body) :
    s.Works (s.askUp n a at' r mk) := by
  unfold State.askUp
  split
  · split
    · exact s.works_request _ _ _ _
    · exact .refl s
  · exact s.works_request _ _ _ _
theorem State.works_goUp (s : State) (t : Txn) (r : Req) (mk : LineId → Node → Req → Body) : s.Works (s.goUp t r mk) :=
  ((s.works_dropTxn t).trans (State.works_putTxn _ _)).trans (State.works_askUp _ _ _ _ _ _)
theorem State.works_yieldUp (s : State) (t : Txn) (e : Option Line) (n : Node) (r : Req) : s.Works (s.yieldUp t e n r) :=
  (((s.works_dropTxn t).trans (State.memOnly_dropNode _ _ _).works).trans (State.works_respond _ _ _ _)).trans (State.works_lateHome _ _ _ _ _ _ _)
theorem State.works_finishTxn (s : State) (t : Txn) : s.Works (s.finishTxn t) := by
  unfold State.finishTxn
  extract_lets +onlyGivenNames e v
  clear_value e v
  split
  · extract_lets +onlyGivenNames u
    have hu : s.Works u := by
      dsimp only [u]
      split
      · exact s.works_absorb t
      · exact .refl s
    clear_value u
    refine hu.trans ?_
    split
    · exact u.works_grantS _ _ _ _ _
    · exact u.works_goUp _ _ _
  · split
    · exact (s.works_setTxn _ _).trans (State.works_goUp _ _ _ _)
    · exact (s.works_absorb t).trans (State.works_grantX _ _ _ _ _ _ _ _)
    · exact s.works_goUp _ _ _
  · split
    · split
      · exact (s.works_dropTxn t).trans (State.works_respond _ _ _ _)
      split
      · exact s.works_goUp _ _ _
      · exact s.works_grantX _ _ _ _ _ _ _
    · exact (s.works_dropTxn t).trans (State.works_respond _ _ _ _)
  · extract_lets +onlyGivenNames par u
    have hu : s.Works u := s.works_dropTxn t
    clear_value u
    refine hu.trans ?_
    split
    · exact (u.works_setLine _).trans (State.works_sendMsg _ _)
    · exact (u.works_setLine _).trans (State.works_respond _ _ _ _)
    · exact u.works_respond _ _ _
  · exact s.works_yieldUp _ _ _ _
  · exact (s.works_absorb t).trans (State.works_dropTxn _ _)
  · exact s.works_yieldUp _ _ _ _
  · exact ((s.works_dropTxn t).trans (State.memOnly_dropNode _ _ _).works).trans (State.works_respond _ _ _ _)
  · exact s.works_dropTxn t
theorem State.works_settleTxn (s : State) (t : Txn) : s.Works (s.settleTxn t) := by
  unfold State.settleTxn
  split
  · exact s.works_finishTxn t
  · exact .refl s

/-! ### The scan of a slice (R131) -/

theorem State.works_sliceKept (s : State) (e : Line) : s.Works (s.sliceKept e) := by
  unfold State.sliceKept
  split
  · exact .refl s
  split
  · dsimp only
    split
    · exact s.works_dropLine _ _
    · exact s.works_setLine _
  split
  · exact s.works_setLine _
  · exact .refl s
theorem State.works_scanEntry (s : State) (die : Nat) (e : Line) : s.Works (s.scanEntry die e) := by
  unfold State.scanEntry
  extract_lets +onlyGivenNames gone lost rest
  split
  · exact .refl s
  extract_lets +onlyGivenNames e' u
  have hu : s.Works u := by
    dsimp only [u]
    refine s.works_mapMem ?_ ?_ fun h => ?_
    · split
      · rfl
      · exact (MemState.setLine_scans _ _).1
    · split
      · rfl
      · exact (MemState.setLine_scans _ _).2
    · split
      · exact h
      · exact MemState.canonical_setLine h _
  clear_value u
  refine (hu.trans (u.works_sliceKept e')).trans ?_
  split
  · exact State.works_lose _ _ _ _
  · exact .refl _
theorem State.works_scanTxn (s : State) (die : Nat) (lost : List LineId) (t : Txn) : s.Works (s.scanTxn die lost t) := by
  unfold State.scanTxn
  extract_lets +onlyGivenNames left served
  clear_value served
  split
  · exact s.works_dropTxn t
  split
  · exact .refl s
  split
  · exact (s.works_dropTxn t).trans (State.works_respond _ _ _ _)
  · exact (s.works_setTxn _ _).trans (State.works_settleTxn _ _)

/-! ### Requests that fail (R33 to R35) -/

theorem State.works_wake (s : State) (c : CoreId) (a : LineId) (f : Group → MemStall → MemStall) : s.Works (s.wake c a f) := State.works_of rfl rfl rfl
theorem State.works_refuseAt (s : State) (a : LineId) (dest : Node) (r : Req) (code : Nat) (dk : Bool) : s.Works (s.refuseAt a dest r code dk) := by
  unfold State.refuseAt
  split
  · extract_lets +onlyGivenNames u
    have hu : s.Works u := (s.works_dropTxn _).trans (State.works_lateHome _ _ _ _ _ _ _)
    clear_value u
    refine hu.trans ?_
    split
    · exact u.works_respond _ _ _
    · exact .refl u
  · split
    · exact s.works_wake _ _ _
    · exact .refl s
theorem State.works_failDrain (s : State) (g : GroupRef) (code : Nat) : s.Works (s.failDrain g code) := by
  unfold State.failDrain
  split
  · split
    · exact State.works_of (by simp) (by simp) (by simp)
    · exact .refl s
  · exact .refl s
theorem State.works_putCopy (s : State) (id : CoreId) (k : Nat) (c : Copy) : s.Works (s.putCopy id k c) := by
  unfold State.putCopy
  dsimp only
  split <;> exact State.works_of (by simp) (by simp) (by simp)
theorem State.works_failCopy (s : State) (g : GroupRef) (st unit code : Nat) : s.Works (s.failCopy g st unit code) := by
  unfold State.failCopy
  split
  · exact .refl s
  split
  · exact .refl s
  split
  · exact s.works_putCopy _ _ _
  · exact .refl s
theorem State.works_failRow (s : State) (r : MillRef) (slice code : Nat) : s.Works (s.failRow r slice code) := by
  unfold State.failRow
  split
  · exact State.works_of rfl rfl rfl
  · exact .refl s
theorem State.works_pullTimeout (s : State) (q : Nat) : s.Works (s.pullTimeout q) := by
  unfold State.pullTimeout State.pullError
  exact (s.works_logAdd _ _ _ _ _ _ _).trans (State.works_setReg _ _ _)
theorem State.works_failReq (s : State) (o : OutReq) (code : Nat) : s.Works (s.failReq o code) := by
  unfold State.failReq
  split
  · exact s.works_refuseAt _ _ _ _ _
  · exact s.works_refuseAt _ _ _ _ _
  · exact s.works_refuseAt _ _ _ _ _
  · exact State.works_of rfl rfl rfl
  · exact State.works_of rfl rfl rfl
  · exact State.works_of rfl rfl rfl
  · exact State.works_of rfl rfl rfl
  · exact s.works_failDrain _ _
  · exact s.works_failCopy _ _ _ _
  · exact s.works_failRow _ _ _
  · exact s.works_pullTimeout _
  · exact State.works_of rfl rfl rfl
  · exact .refl s

/-! ### Tasks that lose their state (R72, R83) -/

theorem State.works_clearTask (s : State) (tid : Nat) : s.Works (s.clearTask tid) := by
  unfold State.clearTask
  exact (State.Works.foldl (fun t (m : Mill) => t.works_mapMem rfl rfl id) _ s).trans (State.works_of rfl rfl rfl)
theorem State.works_loseTask (s : State) (k : Task) : s.Works (s.loseTask k) := (s.works_clearTask k.tid).trans (State.works_of rfl rfl rfl)
theorem State.works_loseUndrained (s : State) (k : Task) (die : Nat) : s.Works (s.loseUndrained k die) := by
  unfold State.loseUndrained
  exact State.Works.foldl (fun t d => State.Works.foldl (fun u l => u.works_lose _ _ _) _ t) _ s
theorem State.works_putTask (s : State) (k : Task) : s.Works (s.putTask k) := by
  obtain ⟨sc, h⟩ := s.putTask_frame k
  rw [h]
  exact State.works_of rfl rfl rfl
theorem State.works_without (s : State) (sets : List (Nat × Nat)) : s.Works (s.without sets) := State.works_of rfl rfl rfl
theorem State.works_replaceSets (s : State) (k : Task) (sets : List Nat) : s.Works (s.replaceSets k sets) := by
  unfold State.replaceSets
  split
  · exact .refl s
  · extract_lets +onlyGivenNames back u
    have hu : s.Works u := s.works_mapMem rfl rfl id
    clear_value u
    exact (hu.trans (State.works_without u _)).trans (State.works_putTask _ _)
theorem State.works_dieTask (s : State) (die tid : Nat) : s.Works (s.dieTask die tid) := by
  unfold State.dieTask
  split
  · exact .refl s
  split
  · exact .refl s
  split
  · split
    · exact (s.works_loseUndrained _ _).trans (State.works_loseTask _ _)
    · exact .refl s
  split
  · exact (s.works_mapMem (f := fun x => x.markAll _) rfl rfl id).trans (State.works_loseTask _ _)
  · exact s.works_replaceSets _ _

/-- What a failed die's tasks and write-backs leave of the part before its caches go. -/
def State.dieCleared (s : State) (die : Nat) : State :=
  let s := (s.sched.tasks.map fun k => k.tid).foldl (fun s t => s.dieTask die t) s
  s.mem.net.foldl (fun s m => match m.body, m.dst with
    | .wbDirty a _ _ _ _ _, .tower h => if m.src = .die die ∧ m.at' = .die die then s.mapMem fun x => x.lose h none a else s
    | _, _ => s) s
theorem State.works_dieCleared (s : State) (die : Nat) : s.Works (s.dieCleared die) := by
  unfold State.dieCleared
  refine (State.Works.foldl (fun t tid => t.works_dieTask die tid) (s.sched.tasks.map fun k => k.tid) s).trans
    (State.Works.foldl (fun t m => ?_) _ _)
  split
  · split
    · exact t.works_lose _ _ _
    · exact .refl t
  · exact .refl t

/-- A failed die's entries go, and every slice begins its scan. -/
theorem exec_towerReset {i : Nat} (hi : i < 72) : ∃ u, s.Works u ∧ exec (.towerReset i) s = .next (u.notifyReset (.tower i)) := by
  have hexec : exec (.towerReset i) s = execTowerReset i s := rfl
  rw [hexec, execTowerReset, if_neg (by omega)]
  extract_lets +onlyGivenNames a own b c d e
  have ha : s.Works a := State.Works.foldl (fun t k => t.works_loseTask k) _ s
  have hb : a.Works b := by
    dsimp only [b]
    split
    · exact .refl a
    · exact a.works_mapMem rfl rfl id
  have hc : b.Works c := b.works_mapMem rfl rfl fun h => h
  have hd : c.Works d := State.Works.foldl (fun t r => t.works_failReq r cTIMEOUT) own c
  have he : d.Works e := by
    dsimp only [e]
    split
    · exact d.works_setReg _ _
    · exact .refl d
  exact ⟨e, (((ha.trans hb).trans hc).trans hd).trans he, rfl⟩

theorem State.failDie_leaves (s : State) (die : Nat) : (s.failDie die).link.wms = s.link.wms ∧
    (s.failDie die).mem.failedDies = s.mem.failedDies ++ [die] ∧
    (s.failDie die).mem.scans = ((s.dieCleared die).mem.scans.filter fun c => c.2 != die) ++ (List.range 72).map (fun j => (j, die)) ∧
    (s.failDie die).mem.lines = ((s.dieCleared die).mem.lines.filter fun l => !(nodeDie l.node == some die)) ∧
    (s.failDie die).mem.reqs = ((s.dieCleared die).mem.reqs.filter fun r => r.site != .die die) ∧ (s.Inv → (s.failDie die).Inv) := by
  have hworks := s.works_dieCleared die
  refine ⟨hworks.wms, ?_, rfl, rfl, rfl, fun h => ?_⟩
  · show (s.dieCleared die).mem.failedDies ++ [die] = _
    rw [hworks.failed]
  · exact hworks.inv h

/-! ### Watermarks (R31) -/

theorem State.wm_of_wms (h : t.link.wms = s.link.wms) (x : Site) : t.wm x = s.wm x := by rw [State.wm, State.wm, h]
theorem State.wm_setWm (s : State) (x : Site) (v : Nat) : (s.setWm x v).wm x = v := by
  have hrest : (s.link.wms.filter fun p => p.1 != x).find? (fun p => p.1 == x) = none :=
    List.find?_eq_none.2 fun p hp => by simpa using (List.mem_filter.1 hp).2
  unfold State.wm State.setWm
  dsimp only
  by_cases hv : v = 0
  · rw [if_pos hv, hrest, hv]
  · rw [if_neg hv, List.find?_append, hrest]
    simp
theorem State.wm_notifyReset (s : State) (x : Site) : (s.notifyReset x).wm x = (s.wm x + 1) % 2 ^ 16 := by
  have hsend := State.Works.foldl (fun t (y : Site) => t.works_send .ctl (.tower (farrierTower (siteSheet x))) y (.watermark x (t.wm x))) allSites (s.advanceWm x)
  exact (State.wm_of_wms hsend.wms x).trans (s.wm_setWm x _)

end

/-- Settles O42. -/
theorem failuresAndResets : Obligations.FailuresAndResets := by
  intro i s hi
  have hlt : ¬72 ≤ i := by omega
  refine ⟨fun hdie => ?_, fun htower => ?_, fun hrebuild hruns => ?_, fun d hscan hruns => ?_, ?_, ?_⟩
  · have hexec : exec (.dieFailure i) s = execDieFailure i s := rfl
    obtain ⟨-, hfailed, hscans, hlines, hreqs, -⟩ := s.failDie_leaves i
    refine ⟨s.failDie i, ?_, hfailed, fun j hj => ?_, ?_, ?_⟩
    · rw [hexec, execDieFailure, if_neg hlt, hdie, if_neg Bool.false_ne_true]
    · rw [hscans]
      exact List.mem_append_right _ (List.mem_map.2 ⟨j, List.mem_range.2 hj, rfl⟩)
    · rw [hlines]
      exact List.all_eq_true.2 fun l hl => (List.mem_filter.1 hl).2
    · rw [hreqs]
      exact List.all_eq_true.2 fun r hr => (List.mem_filter.1 hr).2
  · have hexec : exec (.towerFailure i) s = execTowerFailure i s := rfl
    rw [hexec, execTowerFailure, if_neg hlt, htower, if_neg Bool.false_ne_true]
  · have hexec : exec (.sliceRebuildComplete i) s = execSliceRebuildComplete i s := rfl
    rw [hexec, execSliceRebuildComplete, if_pos ⟨hrebuild, hruns⟩]
  · have hexec : exec (.directoryScanComplete i d) s = execDirectoryScanComplete i d s := rfl
    have hentries (es : List Line) (u : State) := State.Works.foldl (fun t e => t.works_scanEntry d e) es u
    have htxns (lost : List LineId) (ts : List Txn) (u : State) := State.Works.foldl (fun t x => t.works_scanTxn d lost x) ts u
    rw [hexec, execDirectoryScanComplete, hscan, hruns, if_neg (by simp)]
    exact ⟨_, rfl, ((htxns _ _ _).scans.trans (hentries _ _).scans)⟩
  · have hexec : exec (.dieReset i) s = execDieReset i s := rfl
    rw [hexec, execDieReset, if_neg hlt]
    refine ⟨_, rfl, (State.wm_notifyReset _ _).trans ?_⟩
    congr 2
    refine State.wm_of_wms ?_ _
    change (if s.mem.failedDies.contains i = true then s else s.failDie i).link.wms = _
    split
    · rfl
    · exact (s.failDie_leaves i).1
  · obtain ⟨u, hu, hexec⟩ := exec_towerReset (s := s) hi
    exact ⟨_, hexec, by rw [State.wm_notifyReset, State.wm_of_wms hu.wms]⟩

end Sys2Proof.Machine


/-! Canonical form (O59): what a step's outcome must keep, and the operations on lines, caches and errors. -/

namespace Sys2Proof.Machine

/-! ### Outcomes that keep the invariant -/

/-- A state that there may be keeps the invariant. -/
def OptInv : Option State → Prop | none => True | some t => t.Inv
/-- The state that a step leaves, if it leaves one, keeps the invariant. -/
def OutInv : Out → Prop | .next t => t.Inv | .fault _ => True | .refused _ => True
/-- The state that an access of the part's own leaves keeps the invariant. -/
def OwnInv {α : Type} : Own α → Prop | .ok _ t => t.Inv | .bad _ t => t.Inv | .busy => True

section
variable {s t : State} {α : Type}

theorem OptInv.some {o : Option State} (h : OptInv o) (e : o = .some t) : t.Inv := by rw [e] at h; exact h
theorem OutInv.next {o : Out} (h : OutInv o) (e : o = .next t) : t.Inv := by rw [e] at h; exact h
theorem OwnInv.ok {o : Own α} {a : α} (h : OwnInv o) (e : o = .ok a t) : t.Inv := by rw [e] at h; exact h
theorem OwnInv.bad {o : Own α} {c : Nat} (h : OwnInv o) (e : o = .bad c t) : t.Inv := by rw [e] at h; exact h
/-- The state of a pair that keeps the invariant. -/
theorem State.Inv.snd {p : α × State} {a : α} (h : p.2.Inv) (e : p = (a, t)) : t.Inv := by rw [e] at h; exact h
theorem OptInv.getD {o : Option State} (h : OptInv o) (hs : s.Inv) : (o.getD s).Inv := by cases o with | none => exact hs | some t => exact h
/-- What happens, or not, to a state that keeps the invariant. -/
theorem State.Inv.happens {o : Option State} (h : s.Inv) (ho : OptInv o) : OutInv (s.happens o) := ho.getD h
theorem State.Inv.stays (h : s.Inv) : OutInv s.stays := h

theorem OptInv.ite {c : Prop} [Decidable c] {a b : Option State} (ha : c → OptInv a) (hb : ¬c → OptInv b) : OptInv (if c then a else b) := by
  split
  · exact ha ‹_›
  · exact hb ‹_›
theorem OutInv.ite {c : Prop} [Decidable c] {a b : Out} (ha : c → OutInv a) (hb : ¬c → OutInv b) : OutInv (if c then a else b) := by
  split
  · exact ha ‹_›
  · exact hb ‹_›
theorem OptInv.bind {o : Option α} {f : α → Option State} (h : ∀ a, o = .some a → OptInv (f a)) : OptInv (o.bind f) := by
  cases o with
  | none => trivial
  | some a => exact h a rfl
theorem OptInv.map {o : Option α} {f : α → State} (h : ∀ a, o = .some a → (f a).Inv) : OptInv (o.map f) := by
  cases o with
  | none => trivial
  | some a => exact h a rfl

/-- A fold whose accumulator carries a state keeps the invariant when its step does. -/
theorem State.Inv.foldlSnd {β : Type} {f : α × State → β → α × State} (hf : ∀ p b, p.2.Inv → (f p b).2.Inv) (xs : List β) {p : α × State} (h : p.2.Inv) :
    (xs.foldl f p).2.Inv := by
  induction xs generalizing p with
  | nil => exact h
  | cons x xs ih => exact ih (hf p x h)
theorem OwnInv.foldl {β : Type} {f : Own α → β → Own α} (hf : ∀ o b, OwnInv o → OwnInv (f o b)) (xs : List β) {o : Own α} (h : OwnInv o) :
    OwnInv (xs.foldl f o) := by
  induction xs generalizing o with
  | nil => exact h
  | cons x xs ih => exact ih (hf o x h)

/-! ### Memory (R96 to R104) -/

theorem State.Inv.placeWritten (h : s.Inv) (p : Place) (val mask : BitVec 2048) : (s.mapMem fun x => x.placeWrite p val mask).Inv :=
  h.homeWritten p val mask
theorem State.Inv.tcDropped (h : s.Inv) (tower line : Nat) : (s.mapMem fun x => x.tcDrop tower line).Inv :=
  h.mapMem fun hm => MemState.canonical_tcDrop hm _ _
theorem State.Inv.lineSet (h : s.Inv) (l : Line) : (s.mapMem fun x => x.setLine l).Inv := h.mapMem fun hm => MemState.canonical_setLine hm l
theorem State.Inv.lost (h : s.Inv) (tower : Nat) (phys : Option Nat) (a : LineId) : (s.mapMem fun x => x.lose tower phys a).Inv :=
  h.mapMem fun hm => MemState.canonical_lose hm _ _ _

theorem State.Inv.hostWrite (h : s.Inv) (port addr : Nat) (bs : List (BitVec 8)) : (s.hostWrite port addr bs).Inv := by
  unfold State.hostWrite
  split
  · refine h.mapMem fun hm => ?_
    rw [MemState.canonical_iff] at *
    obtain ⟨hd, hw, hs, ht, hh, hp⟩ := hm
    exact ⟨hd, hw, hs, ht, Mem.wf_write hh _ _, hp⟩
  · exact h
theorem State.Inv.poolByte (h : s.Inv) (addr : Nat) (b : BitVec 8) : (s.poolByte addr b).Inv :=
  (State.Inv.foldl (fun _ _ ht => State.Inv.homeWrite ht _ _ _) _ h).placeWritten _ _ _
theorem State.Inv.poolWrite (h : s.Inv) (addr : Nat) (bs : List (BitVec 8)) : (s.poolWrite addr bs).Inv :=
  State.Inv.foldl (fun _ _ ht => State.Inv.poolByte ht _ _) _ h
theorem State.Inv.putTower (h : s.Inv) (tower pa n x : Nat) : (s.putTower tower pa n x).Inv := h.homeWrite _ _ _
theorem State.Inv.physWrite (h : s.Inv) (tower pa : Nat) (bs : List (BitVec 8)) : (s.physWrite tower pa bs).Inv :=
  (s.memOnly_physWrite tower pa bs).inv h

/-! ### Links and packets (R31, R36, R54) -/

theorem State.Inv.flitAck (h : s.Inv) (f seq : Nat) : (s.flitAck f seq).Inv := by
  unfold State.flitAck
  split <;> exact h
theorem State.Inv.maskVector (h : s.Inv) (port vec : Nat) (masked : Bool) : (s.maskVector port vec masked).Inv := by
  unfold State.maskVector
  dsimp only
  split
  · exact h
  split <;> exact h
theorem State.Inv.sendPacket (h : s.Inv) (p : Packet) : OptInv (s.sendPacket p) := by
  unfold State.sendPacket
  exact .bind fun f _ => .map fun x _ => h
theorem State.Inv.toLender (h : s.Inv) (p : Place) (cls : MClass) : (s.toLender p cls).Inv := by
  unfold State.toLender
  split
  · exact (h.sendPacket _).getD h
  · exact h
theorem State.Inv.touch (h : s.Inv) (p : Place) : (s.touch p).Inv :=
  State.Inv.toLender (h.mapMem (f := fun x => x.placeTouch p) fun hm => MemState.canonical_placeTouch hm p) _ _
theorem State.Inv.accept (h : s.Inv) (m : Msg) : (s.accept m).2.Inv := by
  unfold State.accept
  split
  · exact h.setReg _ _
  split
  · exact h
  split
  · exact h
  · exact h.setReg _ _
theorem State.Inv.onMsg {k : Nat} {f : Msg → State → Option State} (h : s.Inv) (hf : ∀ m t, t.Inv → OptInv (f m t)) : OutInv (onMsg k s f) :=
  h.happens (.bind fun p hp => hf p.1 p.2 (h.takeMsg hp))
theorem State.Inv.sendMsix (h : s.Inv) (port vec : Nat) : (s.sendMsix port vec).Inv := by
  unfold State.sendMsix
  split
  · exact h
  split <;> exact h
theorem State.Inv.notifyReset (h : s.Inv) (x : Site) : (s.notifyReset x).Inv :=
  State.Inv.foldl (fun _ _ ht => State.Inv.send ht _ _ _ _) _ h

/-! ### Lines that leave (R98, R103, R110) -/

theorem State.Inv.lateHome (h : s.Inv) (n frm : Node) (a : LineId) (val mask : BitVec 2048) (last : Nat) : (s.lateHome n frm a val mask last).Inv :=
  (State.works_lateHome ..).inv h
theorem State.Inv.writeBack (h : s.Inv) (src n : Node) (a : LineId) (last : Nat) (val mask : BitVec 2048) (late : Bool) (o : WbOwner) :
    (s.writeBack src n a last val mask late o).Inv := (State.works_writeBack ..).inv h
theorem State.Inv.putTask (h : s.Inv) (k : Task) : (s.putTask k).Inv := (State.works_putTask ..).inv h
theorem State.Inv.mergeL2 (h : s.Inv) (die : Nat) (a : LineId) (val mask : BitVec 2048) (home : Nat) : (s.mergeL2 die a val mask home).Inv := by
  unfold State.mergeL2
  split
  · exact h
  split
  · exact h.lineSet _
  · exact h.lateHome ..
theorem State.Inv.sendInvs (h : s.Inv) (n : Node) (ks : List Kid) : (ks.foldl (fun s q => s.sendInv n q) s).Inv :=
  State.Inv.foldl (fun _ _ ht => State.Inv.sendInv ht _ _) _ h
theorem State.Inv.evictL1 (h : s.Inv) (c : CoreId) (l : Line) : (s.evictL1 c l).Inv := by
  unfold State.evictL1
  extract_lets +onlyGivenNames hub a b
  have hb : b.Inv := by
    dsimp only [b]
    split
    · exact h
    split
    · exact State.Inv.lateHome (s := a) h ..
    · exact State.Inv.mergeL2 (s := a) h ..
  clear_value b
  split
  · exact hb
  extract_lets +onlyGivenNames hubW d
  have hd : d.Inv := by
    dsimp only [d]
    split
    · refine State.Inv.mapMem ?_ fun hm => ?_
      · split
        · exact hb.sendInvs _ _
        · exact hb
      · split
        · exact hm
        · exact MemState.canonical_setLine hm _
    · exact hb
  clear_value d
  split
  · extract_lets +onlyGivenNames e
    have he : e.Inv := by
      dsimp only [e]
      split
      · exact hd.sendInvs _ _
      · exact hd
    clear_value e
    split
    · exact he.lineSet _
    split
    · exact he.lineSet _
    · exact he
  · exact hd
theorem State.Inv.gatherDie (h : s.Inv) (die : Nat) (a : LineId) : (s.gatherDie die a).2.2.2.Inv := h
theorem State.Inv.flushDie (h : s.Inv) (die : Nat) (a : LineId) (home : Nat) (o : WbOwner) : (s.flushDie die a home o).Inv := by
  have hput (mask val : BitVec 2048) (late : Bool) (t : State) (ht : t.Inv) :
      (if mask = 0 then t else t.writeBack (.l2 die) (.l2 die) a home val mask late o).Inv := by
    split
    · exact ht
    · exact ht.writeBack ..
  exact hput _ _ _ _ (hput _ _ _ _ (h.gatherDie die a))
theorem State.Inv.cleanFor (h : s.Inv) (tid : Nat) (l : Line) : (s.cleanFor tid l).Inv := State.Inv.lineSet (h.writeBack ..) _
theorem State.Inv.cleanDie (h : s.Inv) (k : Task) (die : Nat) : (s.cleanDie k die).Inv :=
  State.Inv.foldl (fun _ _ ht => State.Inv.foldl (fun _ _ hu => State.Inv.cleanFor hu _ _) _ ht) _ h
theorem State.Inv.trimL1 (h : s.Inv) (c : CoreId) : (s.trimL1 c).Inv := by
  unfold State.trimL1
  extract_lets +onlyGivenNames here k live u
  have hu : u.Inv := by
    dsimp only [u]
    split
    · exact h
    · exact h.setCore _
  clear_value u
  refine State.Inv.foldl (fun _ _ ht => ?_) _ hu
  dsimp only
  split
  · split
    · exact State.Inv.setCore (ht.evictL1 ..) _
    · exact ht
  · exact ht

/-! ### Errors in memories (R198 to R203) -/

theorem State.Inv.dropTextLine (h : s.Inv) (c : CoreId) (asid line : Nat) : (s.dropTextLine c asid line).Inv := h.setCore _
theorem State.Inv.disableWay (h : s.Inv) (u : EccUnit) : (s.disableWay u).Inv := by
  unfold State.disableWay
  split
  · dsimp only
    split
    · exact State.Inv.evictL1 (s := s.loseWay _) h ..
    · exact h
  · dsimp only
    split
    · exact State.Inv.flushDie (s := s.loseWay _) h ..
    · exact h
  · exact State.Inv.dropTextLine (s := s.loseWay _) h ..
  · exact State.Inv.tcDropped (s := s.loseWay _) h ..
  · exact h
theorem State.Inv.correct (h : s.Inv) (u : EccUnit) (site : Site) (tid addr : Nat) : (s.correct u site tid addr).2.Inv := h
theorem State.Inv.corrected (h : s.Inv) (u : EccUnit) : (s.corrected u).Inv := by
  unfold State.corrected
  split
  · exact h
  split
  · dsimp only
    split
    · exact State.Inv.disableWay (h.correct ..) u
    · exact h.correct ..
  · exact h
theorem State.Inv.loseLine (h : s.Inv) (l : Line) : (s.loseLine l).Inv := h.lost ..
theorem State.Inv.disown (h : s.Inv) (l : Line) : (s.disown l).Inv := by
  unfold State.disown
  split
  · exact h.writeBack ..
  · split
    · exact h.lineSet _
    · exact h
  · exact h
theorem State.Inv.dropBelow (h : s.Inv) (l : Line) : (s.dropBelow l).Inv := State.Inv.foldl (fun _ _ ht => State.Inv.dropNode ht _ _) _ h
theorem State.Inv.breakLine (h : s.Inv) (l : Line) : (s.breakLine l).2.Inv := by
  unfold State.breakLine
  split
  · show State.Inv (match l.node with | .l1 c => _ | .l2 d => _ | _ => _)
    split
    · exact h.evictL1 ..
    · exact h.flushDie ..
    · exact h
  · show State.Inv (match l.node with | .l1 c => _ | _ => _)
    split
    · exact State.Inv.loseLine (h.evictL1 ..) _
    · exact State.Inv.disown (State.Inv.loseLine (h.dropBelow l) l) l
theorem State.Inv.breakEntry (h : s.Inv) (l : Line) : (s.breakEntry l).2.Inv := by
  unfold State.breakEntry
  dsimp only
  split
  · exact State.Inv.disown (State.Inv.loseLine (h.dropBelow l) l) l
  · exact h.dropBelow l
theorem State.Inv.breakUnit (h : s.Inv) (u : EccUnit) : (s.breakUnit u).2.Inv := by
  unfold State.breakUnit
  split
  · dsimp only
    split <;> exact h
  · exact h
  · exact h
  · dsimp only
    split <;> exact h
  · split
    · exact h.breakLine _
    · exact h
  · split
    · exact h.breakEntry _
    · exact h
  · exact h.dropTextLine ..
  · dsimp only
    split
    · refine State.Inv.lost ?_ ..
      exact h
    · exact h
  · exact h.lost ..
  · exact h
theorem State.Inv.broken (h : s.Inv) (u : EccUnit) : (s.broken u).Inv := by
  unfold State.broken
  split
  · exact h
  split
  · exact h.breakUnit u
  · exact h
theorem State.Inv.found (h : s.Inv) (e : Ecc) (u : Option EccUnit) : (s.found e u).Inv := by
  unfold State.found
  split
  · exact h.corrected _
  · exact h.broken _
  · exact h

end

end Sys2Proof.Machine


/-! Canonical form (O59): the part's own accesses, queues, tasks and boot. -/

namespace Sys2Proof.Machine

section
variable {s t : State}

/-! ### Translations and accesses of the part's own (R116, R121) -/

theorem State.Inv.walkFor (h : s.Inv) (tower asid va : Nat) (acc : Acc) (priv : Bool) : (s.walkFor tower asid va acc priv).2.Inv := by
  unfold State.walkFor
  split
  · exact h
  split
  · exact h
  extract_lets +onlyGivenNames page e' u
  have hu : u.Inv := by
    dsimp only [u]
    split
    · exact h
    · exact h.putTower ..
  clear_value u
  dsimp only
  split
  · exact hu
  · exact hu
  split
  · split <;> exact hu
  · exact hu
theorem State.Inv.translateNow (h : s.Inv) (tower asid va : Nat) (acc : Acc) (priv : Bool) : (s.translateNow tower asid va acc priv).2.Inv := by
  unfold State.translateNow
  split
  · exact h
  split
  · exact h
  · exact h
  split
  next heq => exact (h.walkFor ..).snd heq
  next heq =>
    have ht := (h.walkFor ..).snd heq
    split <;> exact ht
theorem State.Inv.meet (h : s.Inv) (home asid va n : Nat) (acc : Acc) (priv : Bool) (k : Option Task) :
    (s.meet home asid va n acc priv k).2.Inv := by
  unfold State.meet
  dsimp only
  split
  next heq => exact (h.translateNow ..).snd heq
  next heq =>
    have ht := (h.translateNow ..).snd heq
    repeat' split
    all_goals exact ht
theorem State.Inv.ownLine (h : s.Inv) (home : HomeOf) (asid va : Nat) (acc : Acc) : OwnInv (s.ownLine home asid va acc) := by
  unfold State.ownLine
  split
  · exact h
  split
  · exact h
  split
  · trivial
  split
  next heq => exact (h.meet ..).snd heq
  next heq =>
    split
    · trivial
    · exact (h.meet ..).snd heq
theorem State.Inv.ownRead (h : s.Inv) (home : HomeOf) (asid va n : Nat) : OwnInv (s.ownRead home asid va n) := by
  unfold State.ownRead
  refine OwnInv.foldl (fun o p ho => ?_) _ (show OwnInv (.ok [] s) from h)
  split
  next t =>
    have ht : t.Inv := ho
    split
    next heq => exact ((ht.ownLine ..).ok heq).touch _
    next heq => exact (ht.ownLine ..).bad heq
    next => trivial
  next => exact ho
theorem State.Inv.ownWrite (h : s.Inv) (home : HomeOf) (asid va : Nat) (bs : List (BitVec 8)) : OwnInv (s.ownWrite home asid va bs) := by
  unfold State.ownWrite
  extract_lets +onlyGivenNames parts checked
  have hchecked : OwnInv checked := by
    refine OwnInv.foldl (fun o p ho => ?_) _ (show OwnInv (.ok [] s) from h)
    split
    next t =>
      have ht : t.Inv := ho
      split
      next heq => exact (ht.ownLine ..).ok heq
      next heq => exact (ht.ownLine ..).bad heq
      next => trivial
    next => exact ho
  clear_value checked
  split
  · refine State.Inv.foldl (fun _ _ ht => ?_) _ hchecked
    dsimp only
    split
    · exact ht.placeWritten ..
    · exact State.Inv.homeWrite ht ..
  · exact hchecked
  · trivial
theorem MemState.canonical_borrow {x : MemState} (h : x.canonical = true) (who : Grantee) (p : Place) : (x.borrow who p).canonical = true := by
  unfold MemState.borrow
  dsimp only
  split <;> exact h
theorem State.Inv.extLine (h : s.Inv) (who : Grantee) (p : Place) (dk : Bool) (off n : Nat) (w : Option (List (BitVec 8))) :
    ∀ r, s.extLine who p dk off n w = some r → r.2.Inv := by
  intro r hr
  unfold State.extLine at hr
  split at hr
  · cases hr
  split at hr
  · cases hr
    have ht := h.touch p
    generalize s.touch p = u at ht
    show State.Inv (if dk then u else u.mapMem fun x => x.borrow who p)
    split
    · exact ht
    · exact ht.mapMem fun hm => MemState.canonical_borrow hm ..
  · cases hr
    show State.Inv (if dk then _ else _)
    split
    · refine State.Inv.placeWritten ?_ ..
      exact h
    · refine State.Inv.homeWrite ?_ ..
      exact h

/-! ### Registers (R52) -/

theorem State.Inv.storeWord (h : s.Inv) (off x : Nat) : OptInv (s.storeWord off x) := by
  unfold State.storeWord
  dsimp only
  split
  · trivial
  · exact h
  · show State.Inv (if _ then _ else _)
    split <;> exact h.regWrite ..
theorem State.Inv.qSet (h : s.Inv) (q mask : Nat) : (s.qSet q mask).Inv := h.setReg _ _
theorem State.Inv.enableQueue (h : s.Inv) (q v : Nat) : (s.enableQueue q v).Inv := by
  unfold State.enableQueue
  extract_lets +onlyGivenNames a
  have ha : a.Inv := h.setReg _ _
  clear_value a
  split
  · exact ha.qSet ..
  extract_lets +onlyGivenNames b c d
  have hb : b.Inv := ha.setReg _ _
  clear_value b
  have hc : c.Inv := hb.setReg _ _
  clear_value c
  have hd : d.Inv := (hc.setReg _ _).setReg _ _
  clear_value d
  exact hd.of_eq rfl rfl
theorem State.Inv.logs {α : Type} {f : State → α → State} (hf : ∀ t x, ∃ r, f t x = { t with log := r }) (xs : List α) (h : s.Inv) : (xs.foldl f s).Inv :=
  State.Inv.foldl (fun t x ht => by obtain ⟨r, hr⟩ := hf t x; rw [hr]; exact ht) xs h
theorem State.Inv.dropPending (h : s.Inv) (q : Nat) : (s.dropPending q).Inv := h.logs (fun _ _ => ⟨_, rfl⟩) _
theorem State.Inv.tailIn (h : s.Inv) (src : TailSource) (q : Nat) (t : BitVec 32) : (s.tailIn src q t).Inv := by
  unfold State.tailIn
  dsimp only
  split
  · exact h
  split
  · exact h
  split
  · exact h
  split
  · exact h.setReg _ _
  split
  · exact h.qSet ..
  · exact h.setReg _ _
theorem State.Inv.recordBytes (h : s.Inv) (q : Nat) (ext : List (BitVec 8)) : OwnInv (s.recordBytes q ext) := by
  unfold State.recordBytes
  dsimp only
  split
  · exact h.ownRead ..
  · exact h
  split
  · exact h
  next heq => exact (h.sendPacket _).some heq
theorem State.Inv.shadowFail (h : s.Inv) (q code : Nat) : (s.shadowFail q code).Inv := h.qSet _ _
theorem State.Inv.headShadow (h : s.Inv) (q : Nat) : OptInv (s.headShadow q) := by
  unfold State.headShadow
  dsimp only
  split
  · exact h
  split
  · exact h.shadowFail ..
  split
  next heq => exact (h.ownWrite ..).ok heq
  next heq => exact State.Inv.shadowFail ((h.ownWrite ..).bad heq) ..
  next => trivial

/-! ### Completion and admission (R61 to R75) -/

theorem State.Inv.complete (h : s.Inv) (c : Completion) (fail : Bool) : OptInv (s.complete c fail) := by
  have howe (u : State) (r : Option LogRec) (hu : u.Inv) : (if c.irq && c.loc != 2 then
      ({ u with sched := { u.sched with irqs := u.sched.irqs ++ [⟨c.tid, c.port, c.vec, r⟩] } } : State) else u).Inv := by
    split <;> exact hu
  unfold State.complete
  dsimp only
  split
  · exact howe _ _ h
  split
  · exact howe _ _ h
  split
  · split
    · exact howe _ _ h
    next heq =>
      have ht := (h.sendPacket _).some heq
      exact ht
  split
  next heq =>
    have ht := (h.ownWrite ..).ok heq
    refine howe _ _ ?_
    split <;> exact ht
  next heq =>
    have ht := (h.ownWrite ..).bad heq
    exact howe _ _ ht
  next => trivial
theorem State.Inv.releaseHeld (h : s.Inv) (q : Nat) : (s.releaseHeld q).Inv := by
  unfold State.releaseHeld
  split
  · exact h
  split
  · extract_lets +onlyGivenNames sc u
    have hu : u.Inv := h.of_eq rfl rfl
    clear_value u
    split
    · exact hu
    · exact hu.enableQueue ..
  · exact h
theorem State.Inv.admitted (h : s.Inv) (a : Admission) (tid : Option Nat) : (s.admitted a tid).Inv := by
  unfold State.admitted
  extract_lets +onlyGivenNames sc u
  have hu : u.Inv := h.of_eq rfl rfl
  clear_value u
  exact hu.releaseHeld _
theorem State.Inv.readList (h : s.Inv) (asid addr n : Nat) : OwnInv (s.readList asid addr n) := by
  unfold State.readList
  split
  · exact h
  split
  next heq => exact (h.ownRead ..).ok heq
  next heq => exact (h.ownRead ..).bad heq
  next => trivial
theorem State.Inv.applyEntry (h : s.Inv) (tid e : Nat) (doom sys : Bool) : (s.applyEntry tid e doom sys).Inv := by
  unfold State.applyEntry
  dsimp only
  split
  · exact h
  split
  · exact h
  split
  · split <;> exact h
  · exact h
theorem State.Inv.applyList (tid : Nat) (doom sys : Bool) (es : List Nat) : ∀ {s : State}, s.Inv → ∀ had, (s.applyList tid doom sys es had).Inv := by
  induction es with
  | nil => exact fun h _ => h
  | cons e es ih =>
    intro s h had
    unfold State.applyList
    dsimp only
    split
    · exact ih h _
    · exact ih (h.applyEntry ..) _
theorem State.Inv.rejectRecord (h : s.Inv) (a : Admission) (st : TStatus) (fail : Bool) : OptInv (s.rejectRecord a st fail) := by
  unfold State.rejectRecord
  extract_lets +onlyGivenNames b n c
  split
  · trivial
  next t heq =>
    have ht := (h.complete ..).some heq
    extract_lets +onlyGivenNames mine u sc w x
    have hu : u.Inv := ht.logs (fun _ _ => ⟨_, rfl⟩) _
    clear_value u
    have hw : w.Inv := hu.of_eq rfl rfl
    clear_value w
    have hx : x.Inv := hw.admitted ..
    clear_value x
    split
    · exact hx
    split
    next =>
      dsimp only
      split
      · trivial
      · exact State.Inv.foldl (fun _ _ ht => State.Inv.applyEntry ht ..) _ ((hx.readList ..).ok ‹_›)
    next heq =>
      have hy := (hx.readList ..).bad heq
      exact hy
    next => trivial
theorem State.Inv.logHazards (h : s.Inv) (k : Task) : (s.logHazards k).Inv := by
  unfold State.logHazards
  refine State.Inv.foldl (fun _ _ ht => ?_) _ h
  split <;> exact ht
theorem State.Inv.admitTask (h : s.Inv) (a : Admission) (p : Parsed) : (s.admitTask a p).Inv := by
  unfold State.admitTask
  extract_lets +onlyGivenNames mine tid k u used edge k' v
  have hu : u.Inv := h.logHazards k
  clear_value u
  have hv : v.Inv := hu.logs (fun _ _ => ⟨_, rfl⟩) _
  clear_value v
  extract_lets +onlyGivenNames sc w
  have hw : w.Inv := hv.of_eq rfl rfl
  clear_value w
  exact hw.admitted ..
/-- The state that a record's checks leave keeps the invariant. -/
def CheckedInv : Checked → Prop | .ok _ t => t.Inv | .reject _ t => t.Inv | .busy => True
theorem State.Inv.admissionRead {a : Admission} {k : List (BitVec 8) → State → Checked} (h : s.Inv) (hk : ∀ b t, t.Inv → CheckedInv (k b t))
    (va n : Nat) : CheckedInv (a.read s va n k) := by
  unfold Admission.read
  split
  next heq => exact hk _ _ ((h.ownRead ..).ok heq)
  next heq => exact (h.ownRead ..).bad heq
  next => trivial
theorem State.Inv.admissionMap {a : Admission} {k : List Nat → State → Checked} (h : s.Inv) (hk : ∀ b t, t.Inv → CheckedInv (k b t)) (l : Launch)
    (mill : Bool) : CheckedInv (a.readMap s l mill k) := by
  unfold Admission.readMap
  split
  · exact hk _ _ h
  · refine h.admissionRead (fun b t ht => ?_) ..
    dsimp only
    split
    · exact ht
    · exact hk _ _ ht
theorem State.Inv.check (h : s.Inv) (a : Admission) : CheckedInv (a.check s) := by
  unfold Admission.check
  extract_lets +onlyGivenNames b type n
  split
  · exact h
  extract_lets +onlyGivenNames decks
  have hdecks (k : List (BitVec 8) → State → Checked) (hk : ∀ b t, t.Inv → CheckedInv (k b t)) : CheckedInv (decks k) := by
    dsimp only [decks]
    split
    · exact hk _ _ h
    split
    · exact hk _ _ h
    · exact h.admissionRead hk ..
  refine hdecks _ fun db t ht => ?_
  dsimp only
  split
  · exact ht
  split
  · exact ht
  refine ht.admissionRead (fun lb u hu => ?_) ..
  split
  · exact hu
  refine hu.admissionMap (fun es v hv => ?_) ..
  split <;> exact hv
theorem State.Inv.tryAdmit (h : s.Inv) (a : Admission) : OptInv (s.tryAdmit a) := by
  have hc := h.check a
  unfold State.tryAdmit
  split
  · trivial
  next heq =>
    rw [heq] at hc
    exact State.Inv.rejectRecord hc ..
  next heq =>
    rw [heq] at hc
    split
    · split
      · trivial
      · exact hc
    · exact State.Inv.admitTask hc ..

/-! ### Placement (R86 to R94) -/

theorem State.Inv.seat (k : Task) (set : Nat) (cw : Nat × Nat × Nat) (xs : List (Nat × TeamSpot × BlockLoc)) :
    ∀ {s : State}, s.Inv → OptInv (s.seat k set cw xs) := by
  induction xs with
  | nil => exact fun h => h
  | cons x xs ih =>
    intro s h
    obtain ⟨t, p, b⟩ := x
    unfold State.seat
    dsimp only
    split
    · exact ih (s := { s with teams := _ }) (h.of_eq rfl rfl)
    · trivial
theorem State.Inv.enterPlaced (h : s.Inv) (k : Task) (set : Nat) (teams : List (Nat × TeamSpot × BlockLoc)) (cwbase : Nat) (resume : Bool) :
    OptInv (s.enterPlaced k set teams cwbase resume) := by
  unfold State.enterPlaced
  split
  · trivial
  dsimp only
  split
  · trivial
  · exact .map fun u hu => State.Inv.putTask ((State.Inv.seat _ _ _ _ h).some hu) _
theorem State.Inv.resumeAt (h : s.Inv) (k : Task) (set : Nat) (spots : List TeamSpot) : OptInv (s.resumeAt k set spots) := by
  unfold State.resumeAt
  dsimp only
  split
  · trivial
  · exact h.enterPlaced ..
theorem State.Inv.place (h : s.Inv) (k : Task) (set : Nat) (spots : List TeamSpot) (cwbase : Nat) : OptInv (s.place k set spots cwbase) := by
  unfold State.place
  dsimp only
  split
  · trivial
  split
  · exact h.enterPlaced ..
  · trivial
theorem State.Inv.placeSets (tid : Nat) (xs : List TeamSet) : ∀ {s : State}, s.Inv → (s.placeSets tid xs).Inv := by
  induction xs with
  | nil => exact fun h => h
  | cons x xs ih =>
    intro s h
    unfold State.placeSets
    split
    · exact h
    next k _ =>
      have hp : OptInv ((s.findSpots k x.k).bind fun r => s.place k x.k r.1 r.2) := .bind fun r _ => h.place ..
      split
      next heq => exact ih (hp.some heq)
      next => exact h
theorem State.Inv.chooseCouch (h : s.Inv) (p : Task) (es : List Nat) : (s.chooseCouch p es).Inv := by
  unfold State.chooseCouch
  refine State.Inv.foldl (fun u k hu => ?_) _ h
  split
  · extract_lets +onlyGivenNames k'
    have hp : OptInv ((u.findSpots k' 0).bind fun r => u.place k' 0 r.1 r.2) := .bind fun r _ => hu.place ..
    split
    next heq =>
      extract_lets +onlyGivenNames v
      have hv : v.Inv := State.Inv.placeSets _ _ (hp.some heq)
      clear_value v
      split
      · exact hv.setTask _
      · exact hv
    next => exact hu
  · exact hu

/-! ### Teams that start and are restored (R83, R94, R139) -/

theorem State.Inv.dropHost (h : s.Inv) (die : Nat) : (s.dropHost die).Inv := by
  unfold State.dropHost
  refine State.Inv.mapMem (State.Inv.foldl (fun _ _ ht => ?_) _ h) fun hm => hm
  exact ht
theorem State.Inv.acquired (h : s.Inv) (c : CoreId) (scope : Nat) : (s.acquired c scope).Inv := by
  unfold State.acquired
  extract_lets +onlyGivenNames u
  have hu : u.Inv := by
    dsimp only [u]
    split <;> exact h
  clear_value u
  split
  · exact hu.dropHost _
  · exact hu
theorem State.Inv.openCore (h : s.Inv) (asid : Nat) (sys : Bool) (c : CoreId) : (s.openCore asid sys c).Inv := by
  unfold State.openCore
  extract_lets +onlyGivenNames u k
  have ha : u.Inv := h.acquired ..
  clear_value u
  split
  · exact ha.setCore _
  · exact ha
theorem State.Inv.blockRead (h : s.Inv) (home : HomeOf) (asid : Nat) (b : BlockLoc) (off n : Nat) : OwnInv (s.blockRead home asid b off n) := by
  unfold State.blockRead
  split
  · exact h
  · exact h.ownRead ..
  · exact h
theorem State.Inv.blockWrite (h : s.Inv) (home : HomeOf) (asid : Nat) (b : BlockLoc) (off : Nat) (bs : List (BitVec 8)) :
    OwnInv (s.blockWrite home asid b off bs) := by
  unfold State.blockWrite
  split
  · exact h
  · exact h.ownWrite ..
  · exact h.physWrite ..
theorem State.Inv.deliverCancels (h : s.Inv) (t : Team) (k : Task) (parked : List ParkedGroup) (b : List (BitVec 8)) :
    (s.deliverCancels t k parked b).Inv := by
  unfold State.deliverCancels
  refine State.Inv.foldl (fun u n hu => ?_) _ h
  dsimp only
  split
  · split
    · exact hu.takeFault ..
    · exact hu
  · exact hu
theorem State.Inv.restoreTeam (h : s.Inv) (t : Team) (k : Task) : OwnInv (s.restoreTeam t k) := by
  unfold State.restoreTeam
  split
  · exact h
  split
  · trivial
  next heq => exact (h.blockRead ..).bad heq
  next u heq =>
    have hu := (h.blockRead ..).ok heq
    extract_lets +onlyGivenNames r core v sc w
    have hv : v.Inv := (hu.setTeam _).setCore _
    clear_value v
    have hw : w.Inv := hv.of_eq rfl rfl
    clear_value w
    exact hw.deliverCancels ..
theorem State.Inv.startTeam (h : s.Inv) (t : Team) (l : Launch) : (s.startTeam t l).Inv := h.of_eq rfl rfl

/-! ### Pre-emption and the end of a task (R66 to R95) -/

theorem State.Inv.unplace (h : s.Inv) (k : Task) (set : Nat) (resume : Bool) : (s.unplace k set resume).Inv :=
  State.Inv.putTask (s := s.without _) (h.of_eq rfl rfl) _
theorem State.Inv.setStep (h : s.Inv) (k : Task) (set n : Nat) : (s.setStep k set n).Inv := h.putTask _
theorem State.Inv.stopWfa (h : s.Inv) (g : Group) : (s.stopWfa g).Inv := by
  unfold State.stopWfa
  split
  · refine h.settle _ _ fun t ht => ?_
    cases ht
    exact h
  · exact h
theorem State.Inv.kStep (h : s.Inv) (c : CoreId) (o : MatOp) (rest : List MatOp) (t : Team) : (s.kStep c o rest t).Inv := by
  unfold State.kStep
  dsimp only
  split
  · have hu : (s.setCore { s.core c with mq := rest }).Inv := h.setCore _
    split
    · exact hu.setGroup _
    · exact hu
  · exact (h.setTeam _).setCore _
theorem State.Inv.transientResidue (h : s.Inv) (c : CoreId) (tid : Nat) : (s.transientResidue c tid).Inv :=
  (h.setCore { s.core c with residue := (s.core c).residue + 1 }).of_eq rfl rfl
theorem State.Inv.writeBlocks (h : s.Inv) (k : Task) (ts : List Team) : OwnInv (s.writeBlocks k ts) := by
  unfold State.writeBlocks
  refine OwnInv.foldl (fun o t ho => ?_) _ (show OwnInv (.ok () s) from h)
  split
  next u => exact State.Inv.blockWrite (s := u) ho ..
  next => exact ho
theorem State.Inv.strip (h : s.Inv) (t : Team) : (s.strip t).Inv := by
  unfold State.strip
  extract_lets +onlyGivenNames x core mine u v w
  have hu : u.Inv := h.setCore _
  clear_value u
  have hv : v.Inv := hu.setTeam _
  clear_value v
  have hw : w.Inv := hv.mapMem fun hm => hm
  clear_value w
  exact hw.of_eq rfl rfl
theorem State.Inv.askUp (h : s.Inv) (n : Node) (a : LineId) (at' : Option Attr) (r : Req) (mk : LineId → Node → Req → Body) :
    (s.askUp n a at' r mk).Inv := (State.works_askUp ..).inv h
theorem State.Inv.register (h : s.Inv) (n : Node) (a : LineId) : (s.register n a).Inv := h.askUp ..
/-- What a release of the dies leaves keeps the invariant. -/
def ReleasingInv : Releasing → Prop | .going t => t.Inv | _ => True
theorem State.Inv.releaseDies (h : s.Inv) (asid : Nat) (dies : List Nat) : ReleasingInv (s.releaseDies asid dies) := by
  unfold State.releaseDies
  dsimp only
  split
  · split <;> trivial
  · trivial
  · refine State.Inv.foldl (fun u l hu => ?_) _ h
    split
    · exact hu.register ..
    · exact hu
theorem State.Inv.sendBackInv (h : s.Inv) : s.sendBackInv.Inv := h
theorem State.Inv.flushHost (h : s.Inv) (die : Nat) : (s.flushHost die).Inv := by
  have hflush (ls : List Line) (x : MemState) (hx : x.canonical = true) : (ls.foldl (fun (x : MemState) l =>
      let x := x.placeWrite l.attr.place l.val l.dirty
      { x with lines := x.lines.map fun h => if h.a == l.a && h.node == .l2 die && h.node != l.node then
          { h with val := lineMerge h.val l.val (l.dirty &&& ~~~h.dirty) } else h }) x).canonical = true :=
    ls.foldlRecOn (motive := fun x : MemState => x.canonical = true) _ hx fun y hy l _ =>
      (MemState.canonical_placeWrite hy l.attr.place l.val l.dirty : _)
  exact ⟨hflush _ _ h.1, h.2⟩
theorem State.Inv.couch (h : s.Inv) (ptid die : Nat) (l : Line) : (s.couch ptid die l).Inv := by
  unfold State.couch
  split
  · exact h
  · refine State.Inv.foldl (fun u e hu => ?_) _ h
    split
    · exact hu
    · exact hu.send ..
theorem State.Inv.drainDie (h : s.Inv) (k : Task) (die : Nat) : (s.drainDie k die).Inv := by
  unfold State.drainDie
  refine State.Inv.foldl (fun u d hu => State.Inv.foldl (fun v l hv => ?_) _ hu) _ h
  dsimp only
  split
  · exact State.Inv.couch (hv.cleanFor ..) ..
  · exact hv.cleanFor ..
theorem State.Inv.clearTask (h : s.Inv) (tid : Nat) : (s.clearTask tid).Inv := (State.works_clearTask ..).inv h
theorem State.Inv.freeTargets (h : s.Inv) (tid : Nat) (ok : Bool) : (s.freeTargets tid ok).Inv := by
  unfold State.freeTargets
  refine State.Inv.foldl (fun u k hu => ?_) _ h
  split
  · exact hu.setTask _
  · exact (hu.clearTask _).setTask _
theorem State.Inv.finishTask (h : s.Inv) (k : Task) (fail : Bool) : OptInv (s.finishTask k fail) := by
  unfold State.finishTask
  dsimp only
  split
  · trivial
  next heq => exact State.Inv.freeTargets (((h.complete ..).some heq).setTask _) ..
theorem State.Inv.settleMills (h : s.Inv) (tid : Nat) : (s.settleMills tid).Inv := by
  unfold State.settleMills
  split
  · exact h.putTask _
  · exact h
theorem State.Inv.taskFault (h : s.Inv) (sheet site tid code unit : Nat) : (s.taskFault sheet site tid code unit).Inv :=
  h.of_eq (s.taskFault_mem_mgmt ..).1 (s.taskFault_mem_mgmt ..).2
theorem State.Inv.saveMill (h : s.Inv) (u : MillIssuer) : OutInv (s.saveMill u) := by
  unfold State.saveMill
  split
  · exact h
  next heq => exact State.Inv.taskFault ((h.blockWrite ..).bad heq) ..
  next heq =>
    have ht := (h.blockWrite ..).ok heq
    extract_lets +onlyGivenNames fid x u
    have hu : u.Inv := ht.mapMem fun hm => hm
    clear_value u
    have hv (ms : List Mill) (sc : SchedState) : State.Inv { u with mills := ms, sched := sc } := hu
    exact State.Inv.settleMills (hv _ _) _
theorem State.Inv.chooseMills (h : s.Inv) (k : Task) (tower : Nat) : (s.chooseMills k tower).Inv := by
  unfold State.chooseMills
  dsimp only
  split
  · have hk (ms : List Mill) (k : Task) : (({ s with mills := ms }).setTask k).Inv := h
    exact State.Inv.settleMills (hk _ _) _
  split
  · exact h
  · exact State.Inv.settleMills (State.Inv.foldl (fun _ _ ht => ht.setMill _) _ h) _

/-! ### Boot and reset (R19 to R33) -/

theorem State.Inv.partReset (h : s.Inv) : s.partReset.Inv := by
  have hm := h.1
  refine ⟨?_, List.Pairwise.nil, nofun⟩
  unfold State.Canonical at *
  rw [MemState.canonical_iff] at *
  obtain ⟨hd, -, -, -, hh, hp⟩ := hm
  exact ⟨hd, rfl, rfl, rfl, hh, hp⟩
theorem State.Inv.dieSpWrites (h : s.Inv) (f : Nat → Nat) (b : List (BitVec 8)) (n : Nat) :
    (s.mapMem fun x => { x with dieSp := (List.range n).foldl (fun m i => m.write (f i) b) x.dieSp }).Inv := by
  refine h.mapMem fun hm => ?_
  rw [MemState.canonical_iff] at *
  obtain ⟨hd, hw, hs, ht, hh, hp⟩ := hm
  exact ⟨hd, hw, Mem.wf_foldl (fun _ _ hx => Mem.wf_write hx ..) _ hs, ht, hh, hp⟩
theorem State.Inv.phaseDone (h : s.Inv) (p : Nat) (r : BootReport) : (s.phaseDone p r).Inv := by
  unfold State.phaseDone
  split
  · exact h.of_eq rfl rfl
  · exact h.of_eq rfl rfl
  · exact h.of_eq rfl rfl
  · refine State.Inv.foldl (fun _ _ ht => State.Inv.notifyReset ht _) _ (h.mapMem fun hm => ?_)
    rw [MemState.canonical_iff] at *
    obtain ⟨hd, -, -, -, hh, hp⟩ := hm
    exact ⟨hd, rfl, rfl, rfl, hh, hp⟩
  · exact State.Inv.logs (fun _ _ => ⟨_, rfl⟩) _ (h.of_eq rfl rfl)
  · have hu := h.dieSpWrites (fun i => i * 2 ^ 24 + 0xF10000) (lbtabBytes r.lbtab) 72
    dsimp only
    generalize (s.mapMem _) = u at hu ⊢
    exact hu.of_eq rfl rfl
  · exact h

/-! ### Posted records (R67, R130, R202) -/

theorem State.Inv.putFault (h : s.Inv) (r : FaultRec) : (s.putFault r).Inv := (h.physWrite ..).setReg _ _
theorem State.Inv.putLog (h : s.Inv) (r : LogRec) : (s.putLog r).Inv := ((h.physWrite ..).setReg _ _).sendMsix ..

end

end Sys2Proof.Machine


/-! Canonical form (O59): the directory. -/

namespace Sys2Proof.Machine

section
variable {s t : State}

/-! ### Transactions -/

theorem State.Inv.settleTxn (h : s.Inv) (t : Txn) : (s.settleTxn t).Inv := (State.works_settleTxn ..).inv h
theorem State.Inv.putTxn (h : s.Inv) (t : Txn) : (s.putTxn t).Inv := h.mapMem fun hm => hm
theorem State.Inv.setTxn (h : s.Inv) (t t' : Txn) : (s.mapMem fun x => x.setTxn t t').Inv := h.mapMem fun hm => hm
theorem State.Inv.dropTxn (h : s.Inv) (t : Txn) : (s.mapMem fun x => x.dropTxn t).Inv := h.mapMem fun hm => hm
theorem State.Inv.emptyUp (h : s.Inv) (n : Node) (a : LineId) : (s.mapMem fun x => x.emptyUp n a).Inv := h.mapMem fun hm => hm
theorem State.Inv.landed (h : s.Inv) (frm dest : Node) (a : LineId) : (s.mapMem fun x => x.landed frm dest a).Inv := h.mapMem fun hm => hm
theorem State.Inv.loseWriteback (h : s.Inv) (tower : Nat) (a : LineId) (n : Node) (o : WbOwner) : (s.loseWriteback tower a n o).Inv :=
  (State.works_loseWriteback ..).inv h
theorem State.Inv.refuse (h : s.Inv) (m : Msg) (a : LineId) (k : Node) (r : Req) (code : Nat) (dk : Bool) : (s.refuse m a k r code dk).Inv :=
  h.respond ..
/-- An entry that a level holds is written again, if it holds one. -/
theorem State.Inv.lineMapped (h : s.Inv) (o : MemState → Option Line) (f : Line → Line) :
    (s.mapMem fun x => match o x with | some e => x.setLine (f e) | none => x).Inv := by
  refine h.mapMem fun hm => ?_
  split
  · exact MemState.canonical_setLine hm _
  · exact hm
theorem State.Inv.openTxn (h : s.Inv) (t : Txn) (r : Req) (owners sharers : List Kid) (excl : Bool) : (s.openTxn t r owners sharers excl).Inv := by
  unfold State.openTxn
  extract_lets +onlyGivenNames t' u v w
  have hu : u.Inv := h.putTxn _
  clear_value u
  have hv : v.Inv := State.Inv.foldl (fun _ _ ht => State.Inv.send ht ..) _ hu
  clear_value v
  have hw : w.Inv := by
    dsimp only [w]
    split
    · exact hv.sendInvs ..
    · exact hv
  clear_value w
  exact hw.settleTxn _
theorem State.Inv.recall (h : s.Inv) (v : Attr) (n : Node) (kids : List Kid) : (s.recall v n kids).Inv := by
  unfold State.recall
  split
  · exact h
  · refine State.Inv.foldl (fun _ _ ht => ?_) _ (h.putTxn _)
    split
    · exact ht.send ..
    · exact ht.sendInv ..
theorem State.Inv.recallOwners (h : s.Inv) (v : Attr) : (s.recallOwners v).Inv := by
  unfold State.recallOwners
  split
  · exact h
  · exact h.recall ..
theorem State.Inv.recallAll (h : s.Inv) (v : Attr) : (s.recallAll v).Inv := by
  unfold State.recallAll
  split
  · exact h
  · exact h.recall ..

/-! ### Requests -/

theorem State.Inv.serveHome (h : s.Inv) (m : Msg) (home : Nat) (a : LineId) (k : Node) (r : Req) (excl : Bool) :
    OptInv (s.serveHome m home a k r excl) := by
  unfold State.serveHome
  split
  · trivial
  split
  · trivial
  · exact h.refuse ..
  next v _ =>
    extract_lets +onlyGivenNames p
    split
    · exact h.refuse ..
    split
    · trivial
    extract_lets +onlyGivenNames u t
    have hu : u.Inv := h.touch p
    clear_value u
    split
    · exact hu.respond ..
    split
    · exact hu.openTxn ..
    · exact hu.openTxn ..
theorem State.Inv.serveMid (h : s.Inv) (m : Msg) (n : Node) (a : LineId) (k : Node) (r : Req) (excl : Bool) :
    OptInv (s.serveMid m n a k r excl) := by
  unfold State.serveMid
  split
  · trivial
  split
  · split
    · exact h.refuse ..
    split
    · exact h.respond ..
    · exact h.openTxn ..
  · extract_lets noHome
    clear_value noHome
    split
    · exact h.refuse ..
    · exact h.openTxn ..
theorem State.Inv.serve (h : s.Inv) (m : Msg) (a : LineId) (k : Node) (r : Req) (excl : Bool) : OptInv (s.serve m a k r excl) := by
  unfold State.serve
  split
  · exact h.serveHome ..
  · exact h.serveMid ..
theorem execGets_inv (k : Nat) (h : s.Inv) : OutInv (execGets k s) :=
  h.onMsg fun m t ht => by
    split
    · exact ht.serve ..
    · trivial
theorem execGetx_inv (k : Nat) (h : s.Inv) : OutInv (execGetx k s) :=
  h.onMsg fun m t ht => by
    split
    · exact ht.serve ..
    · trivial
theorem execUpgr_inv (k : Nat) (h : s.Inv) : OutInv (execUpgr k s) :=
  h.onMsg fun m t ht => by
    split
    · extract_lets +onlyGivenNames n e v
      clear_value v e
      split
      · trivial
      extract_lets +onlyGivenNames known u
      clear_value known
      split
      · dsimp only
        split
        · exact ht.openTxn ..
        · exact ht.openTxn ..
      · exact ht.openTxn ..
    · trivial

/-! ### Forwards and invalidations -/

theorem execFwds_inv (k : Nat) (h : s.Inv) : OutInv (execFwds k s) :=
  h.onMsg fun m t ht => by
    split
    · split
      · exact ht.openTxn ..
      · trivial
    · trivial
theorem State.Inv.giveUp (h : s.Inv) (m : Msg) (n : Node) (a : LineId) (r : Req) : OptInv (s.giveUp m n a r) := by
  unfold State.giveUp
  split
  · exact State.Inv.openTxn ((h.emptyUp n a).sendInvs ..) ..
  · trivial
theorem execFwdx_inv (k : Nat) (h : s.Inv) : OutInv (execFwdx k s) :=
  h.onMsg fun m t ht => by
    split
    · exact ht.giveUp ..
    · trivial
theorem execRecallMsg_inv (k : Nat) (h : s.Inv) : OutInv (execRecallMsg k s) :=
  h.onMsg fun m t ht => by
    split
    · exact ht.giveUp ..
    · trivial
theorem execInv_inv (k : Nat) (h : s.Inv) : OutInv (execInv k s) :=
  h.onMsg fun m t ht => by
    split
    next a n par _ =>
      split
      · trivial
      split
      · exact ht.respond ..
      next l _ =>
        have hu := (ht.emptyUp n a).sendInvs n l.sharers
        dsimp only
        split
        · exact (hu.dropNode n a).respond ..
        · exact hu.openTxn ..
    · trivial

/-! ### Fills (R102, R110) -/

theorem State.Inv.makeRoom (h : s.Inv) (n : Node) (a : LineId) : OptInv (s.makeRoom n a) := by
  unfold State.makeRoom
  split
  · dsimp only
    split
    · exact h
    split
    · trivial
    · exact State.Inv.foldl (fun _ _ ht => State.Inv.flushDie ht ..) _ h
  · exact h
theorem State.Inv.putICache (h : s.Inv) (c : CoreId) (asid va : Nat) (val : BitVec 2048) (v : Attr) : (s.putICache c asid va val v).Inv := h.setCore _
theorem State.Inv.addSector (h : s.Inv) (c : CoreId) (asid va : Nat) (fresh : Bool) : (s.addSector c asid va fresh).Inv := h.setCore _
theorem State.Inv.wake (h : s.Inv) (c : CoreId) (a : LineId) (f : Group → MemStall → MemStall) : (s.wake c a f).Inv := h
theorem State.Inv.endWfa (h : s.Inv) (mine : CoreId → LineId → Bool) : (s.endWfa mine).Inv := h
theorem State.Inv.install (h : s.Inv) (n : Node) (a : LineId) (r : Req) (val : BitVec 2048) (v : Attr) (st : LState) (dirty : BitVec 2048) :
    (s.install n a r val v st dirty).Inv := by
  unfold State.install
  extract_lets +onlyGivenNames fresh put
  have hput (t : State) (ht : t.Inv) : (put t).Inv := by
    dsimp only [put]
    split
    · exact ht
    · exact ht.lineSet _
  clear_value put
  split
  · extract_lets +onlyGivenNames u w
    have hu : u.Inv := by
      dsimp only [u]
      split
      · exact h.putICache ..
      · exact (hput _ h).addSector ..
    clear_value u
    have hw : w.Inv := by
      dsimp only [w]
      split
      · exact hu.trimL1 _
      · exact hu
    clear_value w
    exact (hw.endWfa _).wake ..
  · exact hput _ h
  · exact h
theorem State.Inv.dataAt (h : s.Inv) (m : Msg) : OptInv (s.dataAt m) := by
  unfold State.dataAt
  split
  next a frm dest r val v _ =>
    refine .bind fun u hu => ?_
    have hw := ((h.makeRoom dest a).some hu).accept m
    generalize u.accept m = p at hw
    obtain ⟨ok, w⟩ := p
    replace hw : w.Inv := hw
    dsimp -zeta only
    split
    · split
      · exact hw
      · exact (hw.setTxn ..).settleTxn _
    · extract_lets +onlyGivenNames y
      have hl : y.Inv := hw.landed ..
      clear_value y
      split
      · exact hl
      split
      · exact hl.install ..
      · split
        · trivial
        extract_lets +onlyGivenNames z
        have hi : z.Inv := by
          dsimp only [z]
          split
          · exact hl.install ..
          · exact hl
        clear_value z
        split
        · split
          · exact (hi.dropTxn _).respond ..
          · refine State.Inv.settleTxn ?_ _
            split
            · exact hi.setTxn ..
            · exact (hi.setTxn ..).lineSet _
        · exact hi.dropTxn _
  · trivial
theorem State.Inv.fillPath (fuel : Nat) : ∀ {s : State} (m : Msg), s.Inv → OptInv (State.fillPath fuel m s) := by
  induction fuel with
  | zero => exact fun _ h => h
  | succ fuel ih =>
    intro s m h
    unfold State.fillPath
    split
    · split
      · trivial
      · refine .bind fun t ht => ?_
        have ht := (h.dataAt m).some ht
        split
        · extract_lets follows
          clear_value follows
          split
          · exact ih _ (by exact ht.mapMem fun hm => hm)
          · exact ht
        · exact ht
    · exact h
theorem execData_inv (k : Nat) (h : s.Inv) : OutInv (execData k s) :=
  h.onMsg fun m t ht => by
    split
    · split
      · exact State.Inv.fillPath _ _ ht
      · exact ht.dataAt _
    · trivial

/-! ### Answers to writes (R110, R111, R414) -/

theorem State.Inv.regrant (h : s.Inv) (n : Node) (a : LineId) (r : Req) (val mask dirty : BitVec 2048) (v : Attr) :
    (s.regrant n a r val mask dirty v).Inv := by
  have hpass (t : State) (ht : t.Inv) (os ss : List Kid) (f : Kid → Body) :
      (os.foldl (fun s q => s.send .rsp (nodeSite n) (nodeSite q.node) (f q)) (ss.foldl (fun s q => s.sendInv n q) t)).Inv :=
    State.Inv.foldl (fun _ _ ht => State.Inv.send ht ..) _ (ht.sendInvs ..)
  unfold State.regrant
  extract_lets +onlyGivenNames kept
  split
  · split
    · exact h
    · exact h.lateHome ..
  split
  · exact h
  extract_lets +onlyGivenNames st newer
  split
  · extract_lets +onlyGivenNames take l' u
    have hu : u.Inv := h.lineSet _
    clear_value u
    split
    · exact hu
    · exact hpass _ hu ..
  · extract_lets +onlyGivenNames u
    have hu : u.Inv := h.lineSet _
    clear_value u
    split
    · exact hu
    extract_lets +onlyGivenNames w
    have hw : w.Inv := hu.sendInvs ..
    clear_value w
    split
    · split
      · exact hw
      · exact hw.lateHome ..
    · exact State.Inv.foldl (fun _ _ ht => State.Inv.send ht ..) _ hw
theorem execDatax_inv (k : Nat) (h : s.Inv) : OutInv (execDatax k s) :=
  h.onMsg fun m t ht => by
    split
    next a frm dest r val mask dirty v _ =>
      refine .bind fun u hu => ?_
      have hu : u.Inv := by
        split at hu
        · cases hu
        · exact (ht.makeRoom dest a).some hu
      have hw := hu.accept m
      generalize u.accept m = p at hw
      obtain ⟨ok, w⟩ := p
      dsimp only at hw ⊢
      split
      · split
        · exact hw.lateHome ..
        · exact State.Inv.settleTxn (State.Inv.setTxn (hw.lineMapped ..) ..) _
      · have hl : State.Inv (if r.acc = .writeback then w else w.mapMem fun x => x.landed frm dest a) := by
          split
          · exact hw
          · exact hw.landed ..
        generalize (if r.acc = .writeback then w else w.mapMem fun x => x.landed frm dest a) = y at hl
        split
        · exact hl.lateHome ..
        split
        · split
          · exact hl.lateHome ..
          split
          · exact hl.install ..
          have hz : State.Inv (match y.mem.txns.find? fun t => t.node == dest && t.a == a && t.up && !t.reads with
              | some t => y.mapMem fun x => x.setTxn t (t.answered (r.newer (((y.mem.line? dest a).map fun l => l.st).getD .s)) val mask mask)
              | none => y.regrant dest a r val mask dirty v) := by
            split
            · exact hl.setTxn ..
            · exact hl.regrant ..
          split
          · exact (State.Inv.endWfa hz _).wake ..
          · exact hz
        · split
          · trivial
          refine State.Inv.settleTxn (State.Inv.setTxn ?_ ..) _
          split
          · split
            · exact hl.install ..
            split
            · exact hl
            · exact hl.lineSet _
          · split
            · exact hl.install ..
            · exact hl.lateHome ..
          · split
            · split
              · exact hl
              · exact hl.lineSet _
            · exact hl
    · trivial
theorem State.Inv.joinDown (h : s.Inv) (n : Node) (a : LineId) (kid : Node) (val mask : BitVec 2048) : OptInv (s.joinDown n a kid val mask) :=
  .map fun _ _ => h.setTxn ..
theorem execInvack_inv (k : Nat) (h : s.Inv) : OutInv (execInvack k s) :=
  h.onMsg fun m t ht => by
    split
    next a kid par val mask _ =>
      have hw := ht.accept m
      generalize t.accept m = p at hw
      obtain ⟨ok, w⟩ := p
      dsimp only at hw ⊢
      split
      · split
        · exact hw.lateHome ..
        · exact State.Inv.settleTxn (State.Inv.setTxn (hw.lineMapped ..) ..) _
      · split
        · exact hw
        split
        · trivial
        · exact (hw.joinDown ..).getD (hw.lateHome ..)
    · trivial

/-! ### Write-backs (R104, R121, R414) -/

theorem MemState.canonical_forget {x : MemState} (h : x.canonical = true) (n : Node) (a : LineId) : (x.forget n a).canonical = true := by
  unfold MemState.forget
  split
  · extract_lets +onlyGivenNames sl y
    have hy : y.canonical = true := by
      dsimp only [y]
      split
      · split
        · exact h
        · exact MemState.canonical_setLine h _
      · exact h
    clear_value y
    split
    · split
      · dsimp only
        split
        · exact hy
        · exact MemState.canonical_setLine hy _
      · split
        · exact MemState.canonical_setLine hy _
        · exact hy
    · exact hy
  · exact h
theorem State.Inv.mergeHome (h : s.Inv) (p : Place) (a : LineId) (n : Node) (val mask : BitVec 2048) (late : Bool) :
    (s.mergeHome p a n val mask late).Inv := by
  unfold State.mergeHome
  extract_lets +onlyGivenNames lasts u
  have hu : u.Inv := h.toLender ..
  clear_value u
  split
  · exact (hu.homeTake ..).placeWritten ..
  · exact State.Inv.placeWritten (hu.mapMem fun hm => MemState.canonical_forget hm ..) ..
theorem State.Inv.couchIn (h : s.Inv) (die : Nat) (a : LineId) (tids : List Nat) (val mask : BitVec 2048) (attr : Attr) :
    (s.couchIn die a tids val mask attr).Inv := by
  have hg := h.gatherDie die a
  unfold State.couchIn
  generalize s.gatherDie die a = g at hg
  obtain ⟨own, ownMask, w, u⟩ := g
  dsimp only at hg ⊢
  split
  · exact h
  · refine State.Inv.foldl (fun u t hu => ?_) _ (State.Inv.lineSet ?_ _)
    · split
      · exact hu.setTask _
      · exact hu
    · split
      · exact hg
      · exact hg.writeBack ..
theorem execWbdirty_inv (k : Nat) (h : s.Inv) : OutInv (execWbdirty k s) :=
  h.onMsg fun m t ht => by
    split
    · split
      · trivial
      · exact .map fun u hu => State.Inv.couchIn ((ht.makeRoom ..).some hu) ..
    · split
      · trivial
      split
      next heq => exact State.Inv.loseWriteback ((ht.translateNow ..).snd heq) ..
      next heq =>
        split
        · trivial
        split
        · trivial
        · exact State.Inv.mergeHome ((ht.translateNow ..).snd heq) ..
    · trivial

/-! ### Registration, evictions and page walks -/

theorem execWRegistrationTimer_inv (n : Node) (asid line : Nat) (h : s.Inv) : OutInv (execWRegistrationTimer n asid line s) := by
  unfold execWRegistrationTimer
  split
  · exact h.register ..
  · exact h
theorem execTowerCacheEviction_inv (tower line : Nat) (h : s.Inv) : OutInv (execTowerCacheEviction tower line s) := by
  unfold execTowerCacheEviction
  split
  · split
    · exact h.tcDropped ..
    · exact h
  · exact h
theorem execPageWalk_inv (k : Nat) (h : s.Inv) : OutInv (execPageWalk k s) := by
  refine h.happens ?_
  split
  · trivial
  split
  · refine .ite (fun _ => trivial) fun _ => ?_
    split
    next heq => exact (h.walkFor ..).snd heq
    next heq =>
      have ht := (h.walkFor ..).snd heq
      split
      · exact State.Inv.refuse (ht.mapMem fun hm => hm) ..
      · exact State.Inv.refuse (ht.mapMem fun hm => hm) ..
      · exact State.Inv.loseWriteback (ht.mapMem fun hm => hm) ..
      · exact ht
  · trivial

end

end Sys2Proof.Machine


/-! Canonical form (O59): fences, loads, stores, atomics and cache maintenance. -/

namespace Sys2Proof.Machine

/-! ### What a word's body answers -/

/-- The state that a word's body answers, if it answers one, keeps the invariant. -/
def WordInv : WordOut → Prop
  | .done _ s => s.Inv | .goto _ _ s => s.Inv | .acquire _ _ s => s.Inv | .wait _ s => s.Inv | .fault _ _ _ => True | .stop s => s.Inv
/-- So it does if the body answers at all. -/
def OptWordInv : Option WordOut → Prop | none => True | some o => WordInv o

section
variable {s t : State} {u : Issuer}

theorem WordInv.state {o : WordOut} (h : WordInv o) : ∀ t, o.state? = some t → t.Inv := by
  intro t e
  cases o <;> cases e <;> exact h
theorem OptWordInv.some {o : Option WordOut} {x : WordOut} (h : OptWordInv o) (e : o = .some x) : WordInv x := by rw [e] at h; exact h
theorem WordInv.ite {c : Prop} [Decidable c] {a b : WordOut} (ha : c → WordInv a) (hb : ¬c → WordInv b) : WordInv (if c then a else b) := by
  split
  · exact ha ‹_›
  · exact hb ‹_›
theorem State.Inv.settled (h : s.Inv) (u : Issuer) (len : Nat) {o : WordOut} (ho : WordInv o) : (s.settle u len o).Inv := h.settle u len ho.state
theorem State.Inv.wordTo (h : s.Inv) {d : Dst} {ok : Bool} {top len : Nat} {body : Issuer → State → WordOut}
    (hb : ∀ u s, s.Inv → WordInv (body u s)) : OutInv (Machine.runWordTo d ok top len body s) := by
  cases e : Machine.runWordTo d ok top len body s with
  | next t => exact h.runWordTo (fun u s r hs => (hb u s hs).state r) e
  | fault _ => trivial
  | refused _ => trivial
theorem State.Inv.word (h : s.Inv) {ok : Bool} {top len : Nat} {body : Issuer → State → WordOut}
    (hb : ∀ u s, s.Inv → WordInv (body u s)) : OutInv (Machine.runWord ok top len body s) := h.wordTo hb
theorem State.Inv.pureTo (h : s.Inv) (d : Dst) (ok : Bool) (top len : Nat) (f : Issuer → Group) : OutInv (Machine.runPureTo d ok top len f s) :=
  h.wordTo fun _ _ hs => hs

/-! ### Fences (R112, R138, R139) -/

theorem State.Inv.putBack (h : s.Inv) (k : Nat) (m : Msg) : (s.putBack k m).Inv := h.mapMem fun hm => hm
theorem State.Inv.passOn (h : s.Inv) (m : Msg) (dst : Site) (b : Body) : (s.passOn m dst b).Inv := h.sendMsg _
theorem State.Inv.sendDrain (h : s.Inv) (g : GroupRef) (c : CoreId) (acq : Bool) (scope : Nat) : (s.sendDrain g c acq scope).Inv := h.send ..
theorem execDrain_inv (k : Nat) (h : s.Inv) : OutInv (execDrain k s) :=
  h.onMsg fun m t ht => by
    split
    · split
      · exact ht
      extract_lets +onlyGivenNames todo can
      split
      · exact State.Inv.putBack (State.Inv.foldl (fun _ _ hu => State.Inv.register hu ..) _ ht) ..
      split
      · trivial
      split
      · show State.Inv (if _ then _ else _)
        split
        · exact ht.passOn ..
        · split
          · exact ht.request ..
          · exact ht.passOn ..
      · extract_lets +onlyGivenNames u
        have hu : u.Inv := by
          dsimp only [u]
          split
          · exact ht.flushHost _
          · exact ht
        clear_value u
        show State.Inv (if _ then _ else _)
        split
        · exact hu
        · exact hu.respond ..
    · trivial
theorem execDrainack_inv (k : Nat) (h : s.Inv) : OutInv (execDrainack k s) :=
  h.onMsg fun m t ht => by
    split
    · have hw := ht.accept m
      generalize t.accept m = p at hw
      obtain ⟨ok, w⟩ := p
      dsimp only at hw ⊢
      split
      · split
        · exact hw
        split
        · split
          · trivial
          · exact hw.setGroup _
        · split
          · trivial
          · exact (hw.setGroup _).acquired ..
        · exact hw
      · exact hw
    · trivial
theorem execBackInvalidateResponse_inv (port : Nat) (h : s.Inv) : OutInv (execBackInvalidateResponse port s) := by
  unfold execBackInvalidateResponse
  split
  · exact h.mapMem fun hm => hm
  · exact h
theorem Issuer.release_inv (h : s.Inv) (scope : Nat) : OptWordInv (u.release s scope) := by
  unfold Issuer.release
  split
  · trivial
  · split
    · trivial
    · exact h.sendDrain ..
theorem Issuer.acquire_inv (h : s.Inv) (g : Group) (scope : Nat) : WordInv (u.acquire s g scope) := by
  unfold Issuer.acquire
  split
  · exact h
  · exact h.sendDrain ..
theorem execFence_inv (scope : Fin 8) (order : Fin 4) (h : s.Inv) : OutInv (execFence scope order s) :=
  h.word fun u t ht => by
    split
    · exact Issuer.acquire_inv ht ..
    split
    next heq => exact (Issuer.release_inv ht _).some heq
    · split
      · exact Issuer.acquire_inv ht ..
      · exact ht

/-! ### What stands before an access (R128, R176) -/

theorem Issuer.transl_inv (h : s.Inv) (vas : List (Nat × Nat)) (va lanes : W64) : WordInv (u.transl s vas va lanes) := h
theorem Issuer.deliver_inv (h : s.Inv) (acc : Acc) (cs : List LaneCode) : OptWordInv (u.deliver s acc cs) := by
  unfold Issuer.deliver
  split
  · trivial
  · split
    · exact Issuer.transl_inv h ..
    · trivial
theorem Issuer.ask_inv (h : s.Inv) (va : Nat) (acc : Acc) (mk : LineId → Node → Req → Body) : (u.ask s va acc mk).Inv := by
  unfold Issuer.ask
  dsimp only
  split
  · exact h
  · refine State.Inv.askUp ?_ ..
    split
    · exact h
    · exact h.setCore _
theorem Issuer.askAll_inv (h : s.Inv) (vas : List Nat) (acc : Acc) (mk : LineId → Node → Req → Body) : WordInv (u.askAll s vas acc mk) :=
  State.Inv.foldl (fun _ _ ht => Issuer.ask_inv ht ..) _ h
theorem Issuer.gate_inv (h : s.Inv) (addrs : List LaneAddr) (bytes : Nat) (acc : Acc) (excl : Bool) : OptWordInv (u.gate s addrs bytes acc excl) := by
  unfold Issuer.gate
  split
  next heq => exact (Issuer.deliver_inv h ..).some heq
  · extract_lets +onlyGivenNames need
    clear_value need
    split
    · exact Issuer.askAll_inv h ..
    · split
      next heq => exact (Issuer.deliver_inv h ..).some heq
      · extract_lets +onlyGivenNames shared
        clear_value shared
        split
        · trivial
        · exact Issuer.askAll_inv h ..
theorem Issuer.registerUp_inv (h : s.Inv) (vas : List Nat) (scope : Nat) : OptWordInv (u.registerUp s vas scope) := by
  unfold Issuer.registerUp
  extract_lets +onlyGivenNames todo
  clear_value todo
  split
  · trivial
  · refine State.Inv.foldl (fun t p ht => ?_) _ h
    dsimp only
    split
    · exact ht
    · split
      · exact ht.register ..
      · exact ht
theorem Issuer.ownStart_inv (h : s.Inv) (vas : List Nat) : OptInv (u.ownStart s vas) := by
  unfold Issuer.ownStart
  extract_lets +onlyGivenNames ids dk ws out
  split
  · trivial
  · extract_lets +onlyGivenNames t
    have ht : t.Inv := by
      refine State.Inv.foldl (fun v a hv => ?_) _ h
      split
      · exact hv.flushDie ..
      · exact hv.gatherDie ..
    clear_value t
    refine State.Inv.foldl (fun v a hv => ?_) _ ht
    split
    · exact hv.register ..
    · exact hv
theorem Issuer.ownFirst_inv (h : s.Inv) (vas : List Nat) : OptWordInv (u.ownFirst s vas) := by
  have ho := Issuer.ownStart_inv (u := u) h vas
  unfold Issuer.ownFirst
  cases e : u.ownStart s vas with
  | none => trivial
  | some t => rw [e] at ho; exact ho
theorem Issuer.touchL1_inv (h : s.Inv) (va : Nat) : (u.touchL1 s va).Inv := by
  unfold Issuer.touchL1
  split
  · exact h
  · dsimp only
    split
    · exact h.setCore _
    · split
      · exact State.Inv.lineSet (h.setCore _) _
      · exact h.setCore _
theorem Issuer.touchAll_inv (h : s.Inv) (vas : List Nat) : (u.touchAll s vas).Inv := State.Inv.foldl (fun _ _ ht => Issuer.touchL1_inv ht _) _ h
theorem Issuer.inL1_inv (h : s.Inv) (vas : List Nat) {f : State → State} (hf : ∀ t, t.Inv → (f t).Inv) : (u.inL1 s vas f).Inv :=
  State.Inv.trimL1 (hf _ (Issuer.touchAll_inv h vas)) _
theorem Issuer.writeL1_inv (h : s.Inv) (va : Nat) (val mask : BitVec 2048) : (u.writeL1 s va val mask).Inv := by
  unfold Issuer.writeL1
  split
  · exact h
  · extract_lets +onlyGivenNames t v
    have ht : t.Inv := h
    clear_value t
    split
    · extract_lets +onlyGivenNames w
      have hw : w.Inv := ht.lineSet _
      clear_value w
      split
      · exact hw.lineSet _
      · exact hw
    · exact ht.lineSet _
theorem Issuer.storeL1_inv (h : s.Inv) (x : LaneStore) : (u.storeL1 s x).Inv := Issuer.writeL1_inv h ..
theorem Issuer.sendOut_inv (h : s.Inv) (cls : MClass) (dst : Site) (b : Body) : WordInv (u.sendOut s cls dst b) := h.request ..

/-! ### Loads (R305, R308) -/

theorem keepLoad_inv (w : LoadWord) {o : WordOut} (h : WordInv o) : WordInv (keepLoad w o) := by cases o <;> exact h
theorem Issuer.commitLoad_inv (h : s.Inv) (w : LoadWord) (vals : List Nat) : WordInv (u.commitLoad s w vals) := by
  unfold Issuer.commitLoad
  dsimp only
  split
  · exact Issuer.acquire_inv h ..
  · exact h
theorem Issuer.lostRequest_inv (h : s.Inv) (acc : Acc) (addrs : List LaneAddr) : OptWordInv (u.lostRequest s acc addrs) := by
  unfold Issuer.lostRequest
  split
  · trivial
  · exact Issuer.deliver_inv h ..
theorem Issuer.loadStep_inv (h : s.Inv) (w : LoadWord) : WordInv (u.loadStep s w) := by
  unfold Issuer.loadStep
  extract_lets +onlyGivenNames addrs
  split
  · split
    next heq => exact keepLoad_inv w ((Issuer.gate_inv h ..).some heq)
    · exact Issuer.commitLoad_inv ((Issuer.touchAll_inv h _).trimL1 _) ..
  · split
    next heq => exact (Issuer.deliver_inv h ..).some heq
    · split
      · split
        · exact Issuer.commitLoad_inv h ..
        · split
          next heq => exact (Issuer.lostRequest_inv h ..).some heq
          · split
            · exact keepLoad_inv w h
            · exact keepLoad_inv w (Issuer.sendOut_inv h ..)
      · exact Issuer.commitLoad_inv h ..
theorem vload_inv (h : s.Inv) (ok : Bool) (space : Space) (bytes : Nat) (sext : Bool) (d : Dst) (base off : Src) (m : MemMods) :
    OutInv (vload ok space bytes sext d base off m s) := h.word fun _ _ ht => Issuer.loadStep_inv ht _
theorem sload_inv (h : s.Inv) (ok : Bool) (space : Space) (bytes : Nat) (d : Dst) (base off : Src) (m : MemMods) :
    OutInv (sload ok space bytes d base off m s) := h.wordTo fun _ _ ht => Issuer.loadStep_inv ht _
theorem execLoadResponse_inv (g : GroupRef) (ecc : Ecc) (h : s.Inv) : OutInv (execLoadResponse g ecc s) := by
  unfold execLoadResponse
  split
  · exact h
  split
  · exact h
  split
  · exact h
  · extract_lets +onlyGivenNames t
    have ht : t.Inv := h.found ..
    clear_value t
    split
    · exact ht.settled _ _ (Issuer.loadStep_inv ht _)
    · exact ht

/-! ### Stores (R306 to R308) -/

theorem Issuer.storeStep_inv (h : s.Inv) (space : Space) (xs : List LaneStore) (bytes : Nat) (m : MemMods) :
    WordInv (u.storeStep s space xs bytes m) := by
  unfold Issuer.storeStep
  extract_lets +onlyGivenNames addrs rel
  have hrel (k : WordOut) (hk : WordInv k) : WordInv (rel k) := by
    dsimp only [rel]
    split
    · split
      next heq => exact (Issuer.release_inv h _).some heq
      · exact hk
    · exact hk
  clear_value rel
  split
  · split
    next heq => exact (Issuer.gate_inv h ..).some heq
    · refine hrel _ ?_
      split
      next heq =>
        split at heq
        · exact (Issuer.registerUp_inv h ..).some heq
        · cases heq
      · have hw : State.Inv (u.inL1 s (xs.map fun x => vaOf x.addr) fun s => xs.foldl (fun s x => u.storeL1 s x) s) :=
          Issuer.inL1_inv h _ fun t ht => State.Inv.foldl (fun _ _ hv => Issuer.storeL1_inv hv _) _ ht
        show State.Inv (if _ then _ else _)
        split
        · exact hw.flushHost _
        · exact hw
  · split
    next heq => exact (Issuer.deliver_inv h ..).some heq
    · refine hrel _ ?_
      split
      · split
        · exact h
        · split
          next heq => exact (Issuer.lostRequest_inv h ..).some heq
          · split
            · exact h
            · exact Issuer.sendOut_inv h ..
      · exact State.Inv.foldl (fun _ _ hv => State.Inv.writeSram hv ..) _ h
theorem vstore_inv (h : s.Inv) (ok : Bool) (space : Space) (bytes : Nat) (x base off : Src) (m : MemMods) :
    OutInv (vstore ok space bytes x base off m s) := h.word fun _ _ ht => Issuer.storeStep_inv ht ..
theorem nstore_inv (h : s.Inv) (space : Space) (x base off : Src) (m : MemMods) : OutInv (nstore space x base off m s) :=
  h.word fun _ _ ht => Issuer.storeStep_inv ht ..
theorem sstore_inv (h : s.Inv) (space : Space) (bytes : Nat) (x base off : Src) (m : MemMods) : OutInv (sstore space bytes x base off m s) :=
  h.word fun _ _ ht => Issuer.storeStep_inv ht ..

/-! ### Atomics and reductions (R309 to R312) -/

/-- A request that a home performs whole, or what it returned, keeps the invariant. -/
def HomeInv : WordOut ⊕ List (Nat × Nat) → Prop | .inl o => WordInv o | .inr _ => True
theorem atomFold_inv (op : AtomOp) (rd : State → LaneAtom → Nat) {wr : State → LaneAtom → Nat → State} (hw : ∀ t x v, t.Inv → (wr t x v).Inv)
    (xs : List LaneAtom) (h : s.Inv) : (atomFold op rd wr xs s).2.Inv :=
  State.Inv.foldlSnd (fun p x hp => by
    dsimp only
    split
    · exact hw _ _ _ hp
    · exact hp) _ h
theorem Issuer.atHome_inv (h : s.Inv) (acc : Acc) (addrs : List LaneAddr) (ops : List LaneOp) : HomeInv (u.atHome s acc addrs ops) := by
  unfold Issuer.atHome
  split
  · trivial
  extract_lets +onlyGivenNames outside
  split
  · split
    next heq =>
      split at heq
      · exact (Issuer.deliver_inv h ..).some heq
      · cases heq
    · trivial
  · split
    · exact h
    extract_lets +onlyGivenNames codes known
    split
    next heq =>
      split at heq
      · exact (Issuer.deliver_inv h ..).some heq
      · cases heq
    · extract_lets +onlyGivenNames ops'
      split
      · exact h
      · exact Issuer.sendOut_inv h ..
theorem Issuer.homeFirst_inv (h : s.Inv) (addrs : List LaneAddr) : OptWordInv (u.homeFirst s addrs) := by
  unfold Issuer.homeFirst
  split
  · trivial
  · exact Issuer.ownFirst_inv h _
theorem Issuer.atomNear_inv (h : s.Inv) (op : AtomOp) (scope : Nat) (xs : List LaneAtom) : (u.atomNear s op scope xs).2.Inv :=
  State.Inv.trimL1 (atomFold_inv _ _ (fun _ _ _ ht => Issuer.storeL1_inv ht _) _ (Issuer.touchAll_inv h _)) _
theorem Issuer.atomStep_inv (h : s.Inv) (acc : Acc) (op : AtomOp) (xs : List LaneAtom) (m : MemMods) (commit : List (Nat × Nat) → Group) :
    WordInv (u.atomStep s acc op xs m commit) := by
  unfold Issuer.atomStep
  extract_lets +onlyGivenNames addrs scope rel fin
  have hrel (k : WordOut) (hk : WordInv k) : WordInv (rel k) := by
    dsimp only [rel]
    split
    · split
      next heq => exact (Issuer.release_inv h _).some heq
      · exact hk
    · exact hk
  have hfin (t : State) (ht : t.Inv) (vals : List (Nat × Nat)) : WordInv (fin t vals) := by
    dsimp only [fin]
    split
    · exact Issuer.acquire_inv ht ..
    · exact ht
  clear_value rel fin
  split
  next heq => exact (Issuer.deliver_inv h ..).some heq
  split
  · refine hrel _ ?_
    split
    next heq => exact (Issuer.homeFirst_inv h _).some heq
    · have ha := Issuer.atHome_inv (u := u) h acc addrs (xs.map (atomOp op))
      split
      next heq => rw [heq] at ha; exact ha
      · exact hfin _ h _
  split
  · extract_lets +onlyGivenNames held far
    split
    next heq => exact (Issuer.homeFirst_inv h _).some heq
    · have ha := Issuer.atHome_inv (u := u) h acc (far.map fun x => (x.lane, x.addr)) (far.map (atomOp op))
      split
      next heq => rw [heq] at ha; exact ha
      · extract_lets +onlyGivenNames near
        split
        next heq => exact (Issuer.gate_inv h ..).some heq
        · split
          next heq => exact (Issuer.registerUp_inv h ..).some heq
          · exact hfin _ (Issuer.atomNear_inv h ..) _
  · split
    next heq => exact (Issuer.gate_inv h ..).some heq
    · refine hrel _ ?_
      extract_lets +onlyGivenNames near
      split
      next heq => exact (Issuer.registerUp_inv h ..).some heq
      · split
        · exact h
        split
        · exact hfin _ (Issuer.atomNear_inv h ..) _
        · exact h
theorem Issuer.atomsStep_inv (h : s.Inv) (op : AtomOp) (xs : List LaneAtom) (m : MemMods) (commit : List (Nat × Nat) → Group) :
    WordInv (u.atomsStep s op xs m commit) := by
  unfold Issuer.atomsStep
  extract_lets +onlyGivenNames scope
  split
  next heq => exact (Issuer.deliver_inv h ..).some heq
  · split
    next heq =>
      split at heq
      · exact (Issuer.release_inv h ..).some heq
      · cases heq
    · extract_lets +onlyGivenNames r
      have hr : r.2.Inv := atomFold_inv _ _ (fun _ _ _ ht => State.Inv.writeSram ht ..) _ h
      clear_value r
      split
      · exact Issuer.acquire_inv hr ..
      · exact hr
theorem vatom_inv (h : s.Inv) (ok : Bool) (op : AtomOp) (d : Dst) (base off : Src) (m : MemMods) : OutInv (vatom ok op d base off m s) :=
  h.word fun _ _ ht => Issuer.atomStep_inv ht ..
theorem vatoms_inv (h : s.Inv) (ok : Bool) (op : AtomOp) (d : Dst) (base off : Src) (m : MemMods) : OutInv (vatoms ok op d base off m s) :=
  h.word fun _ _ ht => Issuer.atomsStep_inv ht ..
theorem satom_inv (h : s.Inv) (ok : Bool) (op : AtomOp) (d : Dst) (base off : Src) (m : MemMods) : OutInv (satom ok op d base off m s) :=
  h.wordTo fun _ _ ht => Issuer.atomStep_inv ht ..
theorem vred_inv (h : s.Inv) (op : AtomOp) (x base off : Src) (m : MemMods) : OutInv (vred op x base off m s) :=
  h.word fun _ _ ht => Issuer.atomStep_inv ht ..

/-! ### At the home (R145, R197, R311) -/

theorem State.Inv.homeOwn (h : s.Inv) (v : Attr) : (s.homeOwn v).Inv := by
  unfold State.homeOwn
  split
  · exact h
  · exact h.homeClear _
theorem State.Inv.homeLanes (h : s.Inv) (die asid : Nat) (priv : Bool) (k : Option Task) (acc : Acc) (ops : List LaneOp) :
    (s.homeLanes die asid priv k acc ops).2.2.Inv := by
  unfold State.homeLanes
  refine ops.foldlRecOn (motive := fun r : List (LaneOp × Attr) × List LineFault × State => r.2.2.Inv) _ h fun r hr o _ => ?_
  dsimp only
  split
  · exact hr
  · split
    next heq => exact (hr.meet ..).snd heq
    next heq => exact (hr.meet ..).snd heq
theorem State.Inv.homeOp (h : s.Inv) (o : LaneOp) (v : Attr) : (s.homeOp o v).2.Inv := by
  have ht : ((s.homeOwn v).touch v.place).Inv := (h.homeOwn v).touch _
  unfold State.homeOp
  extract_lets +onlyGivenNames t old
  replace ht : t.Inv := ht
  clear_value t
  split
  · split
    · exact ht.placeWritten ..
    · exact ht
  · exact ht
theorem State.Inv.atHomes (h : s.Inv) (k : Nat) (m : Msg) (g : GroupRef) (asid : Nat) (priv : Bool) (acc : Acc) (ops : List LaneOp) :
    OptInv (s.atHomes k m g asid priv acc ops) := by
  unfold State.atHomes
  split
  · exact h
  refine .ite (fun _ => trivial) fun _ => ?_
  extract_lets +onlyGivenNames r t
  have ht : t.Inv := h.homeLanes ..
  clear_value r
  clear_value t
  split
  · exact ht.respond ..
  split
  · trivial
  split
  · refine State.Inv.putBack (State.Inv.foldl (fun v p hv => ?_) _ ht) ..
    split
    · exact hv
    · exact hv.recallOwners _
  · refine State.Inv.respond (State.Inv.foldlSnd (fun p o hp => ?_) _ ht) ..
    exact State.Inv.homeOp hp ..
theorem execHomeAtomic_inv (k : Nat) (h : s.Inv) : OutInv (execHomeAtomic k s) :=
  h.onMsg fun m t ht => by
    split
    · exact ht.atHomes ..
    · trivial
theorem execNearMemoryReduction_inv (k : Nat) (h : s.Inv) : OutInv (execNearMemoryReduction k s) :=
  h.onMsg fun m t ht => by
    split
    · exact ht.atHomes ..
    · trivial
theorem State.Inv.windowWritten (h : s.Inv) (a : Nat) (f : MemState → List (BitVec 8)) (g : MemState → List Nat) :
    (s.mapMem fun x => { x with window := x.window.write a (f x), winBad := g x }).Inv := by
  refine h.mapMem fun hm => ?_
  rw [MemState.canonical_iff] at *
  obtain ⟨hd, hw, hs, ht, hh, hp⟩ := hm
  exact ⟨hd, Mem.wf_write hw .., hs, ht, hh, hp⟩
theorem execClusterWindowAccess_inv (k : Nat) (h : s.Inv) : OutInv (execClusterWindowAccess k s) :=
  h.onMsg fun m t ht => by
    split
    · split
      · exact ht
      · refine State.Inv.respond (State.Inv.foldlSnd (fun p o hp => ?_) _ ht) ..
        dsimp only
        split
        · exact hp.windowWritten ..
        · exact hp
    · trivial

/-! ### Prefetch and cache maintenance (R314 to R318) -/

theorem Issuer.prefetch_inv (h : s.Inv) (scope : Nat) (a : Int) : (u.prefetch s scope a).Inv := by
  unfold Issuer.prefetch
  extract_lets +onlyGivenNames va id
  split
  · exact h
  split
  · split
    · exact h
    · exact Issuer.ask_inv h ..
  split
  · exact h
  split
  · dsimp only
    split
    · exact h
    · exact h.askUp ..
  · split
    · exact h
    split
    · exact h
    split
    next heq =>
      have ht := (h.translateNow ..).snd heq
      split
      · exact ht
      · exact ht.touch _
    next heq => exact (h.translateNow ..).snd heq
theorem execPref_inv (base off : Src) (scope : Fin 8) (nt : Bool) (h : s.Inv) : OutInv (execPref base off scope nt s) :=
  h.word fun _ _ ht => State.Inv.foldl (fun _ _ hv => Issuer.prefetch_inv hv ..) _ ht
theorem Issuer.cleanLine_inv (h : s.Inv) (l : Line) : (u.cleanLine s l).Inv := by
  unfold Issuer.cleanLine
  split
  · exact h
  · exact State.Inv.lineSet (h.writeBack ..) _
theorem execCwb_inv (base off : Src) (scope : Fin 8) (h : s.Inv) : OutInv (execCwb base off scope s) :=
  h.word fun u t ht => by
    split
    · trivial
    · extract_lets +onlyGivenNames ls
      split
      · trivial
      · exact State.Inv.foldl (fun _ _ hv => State.Inv.send hv ..) _ (State.Inv.foldl (fun _ _ hv => Issuer.cleanLine_inv hv _) _ ht)
theorem execCinv_inv (base off : Src) (h : s.Inv) : OutInv (execCinv base off s) :=
  h.word fun u t ht => by
    split
    · split <;> exact ht
    · split
      · trivial
      · extract_lets +onlyGivenNames ls
        split
        · trivial
        · split
          · exact ht
          · extract_lets +onlyGivenNames v
            have hv : v.Inv := State.Inv.foldl (fun _ _ hv => State.Inv.flushDie hv ..) _ ht
            clear_value v
            split <;> exact hv
theorem execDkflush_inv (base : Src) (h : s.Inv) : OutInv (execDkflush base s) :=
  h.word fun u t ht => by
    split
    · trivial
    · split
      · trivial
      · extract_lets +onlyGivenNames lo
        split
        · exact Issuer.cleanLine_inv ht _
        · split <;> exact ht

end

end Sys2Proof.Machine


/-! Canonical form (O59): copies. -/

namespace Sys2Proof.Machine

/-- The state that a unit's read or write leaves keeps the invariant. -/
def UnitInv {α : Type} : UnitOut α → Prop | .ok _ s => s.Inv | .bad _ _ _ s => s.Inv | .held => True | .busy s => s.Inv
/-- The state in which data crosses the fabric keeps the invariant. -/
def WireInv : Wire → Prop | .sent s => s.Inv | .arrived s => s.Inv | .away => True

section
variable {s t : State} {u : Issuer} {α : Type}

theorem UnitInv.ok {o : UnitOut α} {a : α} (h : UnitInv o) (e : o = .ok a t) : t.Inv := by rw [e] at h; exact h
theorem UnitInv.bad {o : UnitOut α} {c va : Nat} {ps : List (Nat × Nat)} (h : UnitInv o) (e : o = .bad c va ps t) : t.Inv := by rw [e] at h; exact h
theorem UnitInv.busy {o : UnitOut α} (h : UnitInv o) (e : o = .busy t) : t.Inv := by rw [e] at h; exact h
theorem UnitInv.foldl {β : Type} {f : UnitOut α → β → UnitOut α} (hf : ∀ o b, UnitInv o → UnitInv (f o b)) (xs : List β) {o : UnitOut α}
    (h : UnitInv o) : UnitInv (xs.foldl f o) := by
  induction xs generalizing o with
  | nil => exact h
  | cons x xs ih => exact ih (hf o x h)

/-! ### Issue (R321) -/

theorem Issuer.pagePart_inv (h : s.Inv) (p : Nat × Nat) (acc : Acc) : (u.pagePart s p acc).2.Inv := by
  unfold Issuer.pagePart
  split
  · exact h
  · exact h.translateNow ..
theorem Issuer.globRow_inv (h : s.Inv) (a : Int) (n : Nat) (acc : Acc) : (u.globRow s a n acc).2.Inv := by
  unfold Issuer.globRow
  split
  · extract_lets +onlyGivenNames r
    have hr : r.2.2.Inv := by
      refine List.foldlRecOn (motive := fun r : List (Nat × Nat × Nat) × List (Nat × Nat) × State => r.2.2.Inv) _ _ h fun r hr o _ => ?_
      split
      next heq => exact (Issuer.pagePart_inv hr ..).snd heq
      next heq => exact (Issuer.pagePart_inv hr ..).snd heq
    clear_value r
    split <;> exact hr
  · exact h
theorem Issuer.globRows_inv (h : s.Inv) (rows : List Int) (n : Nat) (acc : Acc) : (u.globRows s rows n acc).2.Inv := by
  refine State.Inv.foldlSnd (fun p a hp => ?_) _ h
  have hr := Issuer.globRow_inv (u := u) hp a n acc
  exact hr
theorem Issuer.sideCodes_inv (h : s.Inv) (c : Copy) (first : Nat) : (u.sideCodes s c first).2.Inv := by
  unfold Issuer.sideCodes
  extract_lets +onlyGivenNames n al src dst
  have hsrc : src.2.Inv := by
    dsimp only [src]
    split
    · exact h
    split
    · exact Issuer.globRows_inv h ..
    · exact h
  clear_value src
  show dst.2.Inv
  dsimp only [dst]
  split
  · exact Issuer.globRows_inv hsrc ..
  split <;> exact hsrc
theorem Issuer.takeLines_inv (h : s.Inv) (c : Copy) : (u.takeLines s c).2.Inv := by
  unfold Issuer.takeLines
  split
  · exact h
  · refine State.Inv.foldlSnd (fun p l hp => ?_) _ h
    split
    · exact hp
    split
    · exact hp
    split
    next heq => exact (hp.translateNow ..).snd heq
    next heq =>
      have ht := (hp.translateNow ..).snd heq
      split
      · exact ht
      split
      · exact ht
      split
      · exact ht
      · exact ht.recallAll _
theorem Issuer.copyFault_inv (h : s.Inv) (cs : List (Nat × Nat × Nat)) : OptWordInv (u.copyFault s cs) := by
  unfold Issuer.copyFault
  split
  · trivial
  · split
    · exact Issuer.transl_inv h ..
    · trivial
theorem Issuer.issueCopy_inv (h : s.Inv) (op : CopyOp) (st desc : SReg) (srcsp dstsp vscope mode : Nat) :
    WordInv (u.issueCopy s op st desc srcsp dstsp vscope mode) := by
  unfold Issuer.issueCopy
  extract_lets +onlyGivenNames core r at'
  split
  · exact h
  split
  · trivial
  split
  · trivial
  split
  · trivial
  extract_lets +onlyGivenNames xword c d
  split
  · exact h
  split
  · trivial
  extract_lets +onlyGivenNames badList
  clear_value badList
  split
  · trivial
  extract_lets +onlyGivenNames lost
  clear_value lost
  split
  · trivial
  extract_lets +onlyGivenNames c'
  clear_value c'
  split
  · trivial
  split
  · exact h
  have hs := Issuer.sideCodes_inv (u := u) h c' 0
  generalize u.sideCodes s c' = p at hs
  obtain ⟨cs, v⟩ := p
  dsimp only at hs ⊢
  split
  next heq => exact (Issuer.copyFault_inv hs _).some heq
  · split
    next heq => exact (Issuer.takeLines_inv hs _).snd heq
    next heq => exact State.Inv.setCore ((Issuer.takeLines_inv hs _).snd heq) _
theorem copyWord_inv (h : s.Inv) (ok : Bool) (op : CopyOp) (st desc : SReg) (srcsp dstsp vscope mode : Nat) :
    OutInv (copyWord ok op st desc srcsp dstsp vscope mode s) := h.word fun _ _ ht => Issuer.issueCopy_inv ht ..

/-! ### The engine (R169, R170) -/

theorem State.Inv.takeFid (h : s.Inv) : s.takeFid.2.Inv := h
theorem State.Inv.faultRecords (h : s.Inv) (fid tid asid site : Nat) (vas : List (Nat × Nat)) : (s.faultRecords fid tid asid site vas).Inv := h
theorem State.Inv.putCopy (h : s.Inv) (c : CoreId) (k : Nat) (q : Copy) : (s.putCopy c k q).Inv := (State.works_putCopy ..).inv h
theorem Issuer.unitLine_inv (h : s.Inv) (va n : Nat) (acc : Acc) : UnitInv (u.unitLine s va n acc) := by
  unfold Issuer.unitLine
  extract_lets +onlyGivenNames a bad
  split
  · exact h
  split
  · exact h
  split
  · trivial
  split
  next heq => exact (h.meet ..).snd heq
  next heq =>
    split
    · trivial
    · exact (h.meet ..).snd heq
theorem Issuer.lineCodes_inv (h : s.Inv) (a : Int) (n : Nat) (acc : Acc) : (u.lineCodes s a n acc).2.Inv := by
  unfold Issuer.lineCodes
  split
  · exact h
  · refine State.Inv.foldlSnd (fun p l hp => ?_) _ h
    split
    next heq => exact (Issuer.unitLine_inv hp ..).ok heq
    next heq => exact (Issuer.unitLine_inv hp ..).bad heq
    next => exact hp
    next heq => exact (Issuer.unitLine_inv hp ..).busy heq
theorem Issuer.unitCodes_inv (h : s.Inv) (c : Copy) (row off n : Nat) (elem : Bool) : (u.unitCodes s c row off n elem).2.Inv := by
  unfold Issuer.unitCodes
  extract_lets +onlyGivenNames a al e l space out lost src
  have he : e.2.Inv := by
    dsimp only [e]
    split
    · exact Issuer.globRow_inv h ..
    · exact h
  clear_value e
  have hl : l.2.Inv := Issuer.lineCodes_inv he ..
  clear_value l lost out space
  have hsrc : src.2.Inv := by
    dsimp only [src]
    split
    · exact h
    split
    · exact hl
    · exact h
  clear_value src
  split
  · exact Issuer.lineCodes_inv hsrc ..
  · exact hsrc
theorem Issuer.unitRead_inv (h : s.Inv) (space : Space) (a : Int) (n : Nat) : UnitInv (u.unitRead s space a n) := by
  unfold Issuer.unitRead
  split
  · refine UnitInv.foldl (fun o p ho => ?_) _ (show UnitInv (.ok [] s) from h)
    split
    next t =>
      have ht : t.Inv := ho
      split
      next heq => exact (Issuer.unitLine_inv ht ..).ok heq
      next heq => exact (Issuer.unitLine_inv ht ..).bad heq
      next => trivial
      next heq => exact (Issuer.unitLine_inv ht ..).busy heq
    next => exact ho
  · exact h
theorem Issuer.unitStore_inv (h : s.Inv) (va : Nat) (bs : List (BitVec 8)) (v : Attr) : (u.unitStore s va bs v).Inv := by
  unfold Issuer.unitStore
  extract_lets +onlyGivenNames a val mask
  split
  · extract_lets +onlyGivenNames l2
    refine h.mapMem fun hm => ?_
    dsimp only
    split
    · exact MemState.canonical_setLine (MemState.canonical_setLine hm _) _
    · exact MemState.canonical_setLine hm _
  · exact h.homeWrite ..
theorem Issuer.pieceStore_inv (h : s.Inv) (space : Space) (a : Nat) (bs : List (BitVec 8)) (comb : Option Nat) :
    UnitInv (u.pieceStore s space a bs comb) := by
  unfold Issuer.pieceStore
  extract_lets +onlyGivenNames u'
  clear_value u'
  split
  · exact h.writeSram ..
  · split
    · exact h
    · exact h.writeSram ..
theorem Issuer.unitWrite_inv (h : s.Inv) (c : Copy) (row off : Nat) (bs : List (BitVec 8)) : UnitInv (u.unitWrite s c row off bs) := by
  unfold Issuer.unitWrite
  extract_lets +onlyGivenNames comb step
  have hstep (t : Issuer) (space : Space) (base : Int) (r : UnitOut Unit) (hr : UnitInv r) : UnitInv (step t space base r) := by
    refine UnitInv.foldl (fun o p ho => ?_) _ hr
    split
    next t => exact Issuer.pieceStore_inv (s := t) ho ..
    next => exact ho
  clear_value step comb
  split
  · refine UnitInv.foldl (fun o p ho => ?_) _ (show UnitInv (.ok () s) from h)
    split
    · exact hstep _ _ _ _ ho
    · exact ho
  · extract_lets +onlyGivenNames a
    refine UnitInv.foldl (fun o p ho => ?_) _ (show UnitInv (.ok () s) from h)
    split
    next t =>
      have ht : t.Inv := ho
      split
      next heq =>
        have hv := (Issuer.unitLine_inv ht ..).ok heq
        dsimp only
        split
        · exact Issuer.unitStore_inv hv ..
        · exact ((hv.homeOwn _).touch _).placeWritten ..
      next heq => exact (Issuer.unitLine_inv ht ..).bad heq
      next => trivial
      next heq => exact (Issuer.unitLine_inv ht ..).busy heq
    next => exact ho
  · exact hstep _ _ _ _ h
/-- What stands before a unit, if something does, keeps the invariant. -/
def OptUnitInv : Option (UnitOut α) → Prop | none => True | some o => UnitInv o
theorem OptUnitInv.some {o : Option (UnitOut α)} {x : UnitOut α} (h : OptUnitInv o) (e : o = .some x) : UnitInv x := by rw [e] at h; exact h
theorem OptUnitInv.findSome {β : Type} {f : β → Option (UnitOut α)} (hf : ∀ b, OptUnitInv (f b)) (xs : List β) : OptUnitInv (xs.findSome? f) := by
  induction xs with
  | nil => trivial
  | cons x xs ih =>
    have hx := hf x
    rw [List.findSome?_cons]
    cases e : f x with
    | none => exact ih
    | some o => rw [e] at hx; exact hx
theorem Issuer.mredFirst_inv (h : s.Inv) (vas : List Nat) : OptUnitInv (u.mredFirst s vas) := by
  unfold Issuer.mredFirst
  split
  next heq => exact (Issuer.ownStart_inv h _).some heq
  · refine .findSome (fun va => ?_) _
    split
    next heq =>
      have ht := (Issuer.unitLine_inv h ..).ok heq
      split
      · trivial
      split
      · trivial
      split
      · exact ht.recallOwners _
      · trivial
    next => trivial
theorem Issuer.relist_inv (h : s.Inv) (c : Copy) : (u.relist s c).2.Inv := by
  unfold Issuer.relist
  extract_lets +onlyGivenNames d
  split
  · split
    · exact h
    · extract_lets +onlyGivenNames c' row
      clear_value c'
      split
      · exact h
      · extract_lets +onlyGivenNames r
        have hr : r.2.Inv := Issuer.sideCodes_inv h ..
        clear_value r
        split <;> exact hr
  · exact h
theorem State.Inv.bulk (h : s.Inv) (a b : Site) (x : Body) : WireInv (s.bulk a b x) := by
  unfold State.bulk
  extract_lets +onlyGivenNames t
  have ht : t.Inv := h.mapMem fun hm => hm
  clear_value t
  split
  · exact ht.request ..
  · split
    · trivial
    · exact ht.mapMem fun hm => hm
theorem WireInv.sent {w : Wire} (h : WireInv w) (e : w = .sent t) : t.Inv := by rw [e] at h; exact h
theorem WireInv.arrived {w : Wire} (h : WireInv w) (e : w = .arrived t) : t.Inv := by rw [e] at h; exact h
theorem Issuer.unitStep_inv (h : s.Inv) (c : Copy) : UnitInv (u.unitStep s c).2 := by
  unfold Issuer.unitStep
  split
  next heq => exact (Issuer.relist_inv h _).snd heq
  next c v heq =>
    have hv := (Issuer.relist_inv h _).snd heq
    clear heq
    obtain ⟨row, off, n⟩ := c.unit c.units
    dsimp -zeta only
    extract_lets +onlyGivenNames fresh
    clear_value fresh
    split
    · exact hv
    next c _ =>
      have hw := Issuer.unitCodes_inv (u := u) hv c row off n fresh
      generalize u.unitCodes v c row off n fresh = p at hw
      obtain ⟨cs, w⟩ := p
      replace hw : w.Inv := hw
      extract_lets +onlyGivenNames vas
      clear_value vas
      split
      · trivial
      split
      · exact hw
      extract_lets +onlyGivenNames go
      have hgo (t : State) (ht : t.Inv) : UnitInv (go t) := by
        dsimp -zeta only [go]
        split
        next heq => exact (Issuer.mredFirst_inv ht _).some heq
        · extract_lets +onlyGivenNames src
          have hsrc : UnitInv src := by
            dsimp only [src]
            split
            · exact ht
            · exact Issuer.unitRead_inv ht ..
          clear_value src
          split
          · exact Issuer.unitWrite_inv hsrc ..
          · exact hsrc
          · trivial
          · exact hsrc
      clear_value go
      split
      · exact hgo _ hw
      · split
        next heq => exact (hw.bulk ..).sent heq
        next => trivial
        next heq =>
          have ha := hgo _ ((hw.bulk ..).arrived heq)
          split
          · exact hgo _ hw
          · exact ha
theorem execCopyStart_inv (c : CoreId) (k : Nat) (h : s.Inv) : OutInv (execCopyStart c k s) := by
  unfold execCopyStart
  split
  · exact h
  · split
    · exact h.putCopy ..
    · exact h
theorem execCopyUnitComplete_inv (c : CoreId) (k : Nat) (ecc : Ecc) (h : s.Inv) : OutInv (execCopyUnitComplete c k ecc s) := by
  refine h.happens ?_
  split
  · trivial
  split
  · trivial
  next q _ _ u _ =>
    split
    · trivial
    have hs := Issuer.unitStep_inv (u := u) (h.found ecc (u.copyUnit s q)) q
    generalize u.unitStep (s.found ecc (u.copyUnit s q)) q = p at hs
    obtain ⟨q', o⟩ := p
    replace hs : UnitInv o := hs
    split
    next => trivial
    next heq => cases heq; exact State.Inv.putCopy hs ..
    next heq => cases heq; exact State.Inv.putCopy hs ..
    next heq =>
      cases heq
      split
      · exact State.Inv.putCopy (State.Inv.faultRecords (State.Inv.takeFid hs) ..) ..
      · exact State.Inv.putCopy hs ..

end

end Sys2Proof.Machine


/-! Canonical form (O59): control words, barriers, tethers, exits and matrix words. -/

namespace Sys2Proof.Machine

section
variable {s t : State} {u : Issuer}

/-! ### Control transfers and the mask stack (R276 to R280) -/

theorem Issuer.transferVal_inv (h : s.Inv) (g : Group) (target : W64) : WordInv (u.transferVal s g target) := by
  unfold Issuer.transferVal
  split
  · trivial
  · exact h
theorem branch_inv (h : s.Inv) (ok : Bool) (o : BitVec 18) (taken : Issuer → Bool) : OutInv (branch ok o taken s) :=
  h.word fun u t ht => by split <;> exact ht
theorem execCall_inv (o : BitVec 18) (h : s.Inv) : OutInv (execCall o s) := h.wordTo fun _ _ ht => ht
theorem execCallIndirect_inv (k : SReg) (h : s.Inv) : OutInv (execCallIndirect k s) := h.wordTo fun _ _ ht => Issuer.transferVal_inv ht ..
theorem execRet_inv (h : s.Inv) : OutInv (execRet s) := h.word fun _ _ ht => Issuer.transferVal_inv ht ..
theorem execJmpi_inv (x : Src) (h : s.Inv) : OutInv (execJmpi x s) := h.word fun _ _ ht => Issuer.transferVal_inv ht ..
theorem execExif_inv (f : Code) (h : s.Inv) : OutInv (execExif f s) :=
  h.word fun _ _ ht => by
    split
    · trivial
    · exact ht
theorem execExelse_inv (h : s.Inv) : OutInv (execExelse s) :=
  h.word fun _ _ ht => by
    split
    · trivial
    · exact ht
theorem execExend_inv (h : s.Inv) : OutInv (execExend s) :=
  h.word fun _ _ ht => by
    split
    · trivial
    · exact ht

/-! ### Barriers (R171, R153) -/

theorem State.Inv.settleBarriers (h : s.Inv) (tid team : Nat) : (s.settleBarriers tid team).Inv := by
  unfold State.settleBarriers
  split
  · exact h
  · exact h.setTeam _
theorem State.Inv.arrive (h : s.Inv) (g : GroupRef) (b : Nat) : (s.arrive g b).Inv := by
  unfold State.arrive
  split
  · exact h
  · exact (h.setTeam _).settleBarriers ..
theorem State.Inv.settleCbar (h : s.Inv) (tid set : Nat) : (s.settleCbar tid set).Inv := by
  unfold State.settleCbar
  dsimp only
  split <;> exact h
theorem execTbar_inv (f : Code) (h : s.Inv) : OutInv (execTbar f s) :=
  h.word fun u t ht => by
    split
    · split
      · exact ht
      · exact Issuer.acquire_inv ht ..
    · split
      next heq => exact (Issuer.release_inv ht _).some heq
      · split
        · exact ht
        · extract_lets +onlyGivenNames v
          have hv : v.Inv := ht.arrive ..
          clear_value v
          split
          · split
            · exact hv
            · exact Issuer.acquire_inv hv ..
          · exact Issuer.acquire_inv hv ..
theorem execTarr_inv (f : Code) (h : s.Inv) : OutInv (execTarr f s) :=
  h.word fun u t ht => by
    split
    · exact ht
    · exact ht.arrive ..
theorem execTwait_inv (f : Code) (h : s.Inv) : OutInv (execTwait f s) :=
  h.word fun u t ht => by split <;> exact ht
theorem execCbar_inv (f : Code) (h : s.Inv) : OutInv (execCbar f s) :=
  h.word fun u t ht => by
    split
    · split
      · exact ht
      · exact Issuer.acquire_inv ht ..
    · split
      next heq => exact (Issuer.release_inv ht _).some heq
      · extract_lets +onlyGivenNames g v
        have hv : v.Inv := (ht.setGroup _).settleCbar ..
        clear_value v
        split
        · split
          · exact hv
          · exact Issuer.acquire_inv hv ..
        · exact hv

/-! ### Tethers (R172, R173) -/

theorem execTethArr_inv (f : Code) (h : s.Inv) : OutInv (execTethArr f s) :=
  h.word fun u t ht => by
    split
    · trivial
    split <;> exact ht
theorem execTethWait_inv (f : Code) (h : s.Inv) : OutInv (execTethWait f s) :=
  h.word fun u t ht => by
    split
    · trivial
    split
    · exact ht
    split <;> exact ht
theorem State.Inv.tethCountIn (h : s.Inv) (x : Team) (n : Nat) : (s.tethCountIn x n).Inv := by
  unfold State.tethCountIn
  extract_lets +onlyGivenNames v arrived
  have hv : v.Inv := h.setTeam _
  clear_value arrived
  clear_value v
  split
  · exact hv.setReg _ _
  · extract_lets +onlyGivenNames w
    have hw : w.Inv := hv.setReg _ _
    clear_value w
    exact hw.of_eq rfl rfl
theorem State.Inv.tethLast (h : s.Inv) (x : Team) : (s.tethLast x).Inv := by
  refine State.Inv.foldl (fun v n hv => ?_) _ h
  split
  · split
    · exact hv.tethCountIn ..
    · exact hv
  · exact hv
theorem execTetherArrival_inv (tid team n : Nat) (h : s.Inv) : OutInv (execTetherArrival tid team n s) := by
  unfold execTetherArrival
  split
  · trivial
  split
  · exact h
  · split
    · exact h.tethCountIn ..
    · exact h
theorem execTetherRelease_inv (n : Nat) (h : s.Inv) : OutInv (execTetherRelease n s) := by
  unfold execTetherRelease
  split
  · trivial
  split <;> exact h
theorem execTethcfgWrite_inv (n : Nat) (v : BitVec 32) (h : s.Inv) : OutInv (execTethcfgWrite n v s) := by
  unfold execTethcfgWrite
  split
  · trivial
  split
  · exact h
  · show State.Inv (if _ then _ else _)
    split
    · exact (h.regWrite ..).setReg _ _
    · exact h.regWrite ..
theorem execTethcntWrite_inv (n : Nat) (v : BitVec 32) (h : s.Inv) : OutInv (execTethcntWrite n v s) := by
  unfold execTethcntWrite
  split
  · trivial
  split
  · exact h
  · exact h.regWrite ..

/-! ### Launches and tail writes (R340, R341) -/

theorem Issuer.tail_inv (h : s.Inv) (src : TailSource) (q : Nat) (x : W32) : (u.tail s src q x).Inv := h.send ..
theorem execTlaunch_inv (k : SReg) (h : s.Inv) : OutInv (execTlaunch k s) :=
  h.word fun u t ht => by
    extract_lets +onlyGivenNames x
    split
    · trivial
    split
    · trivial
    extract_lets +onlyGivenNames send
    have hsend (v : State) (hv : v.Inv) : WordInv (send v) := Issuer.tail_inv hv ..
    clear_value send
    split
    · exact hsend _ ht
    · extract_lets +onlyGivenNames v
      have hv : v.Inv := by
        dsimp only [v]
        split
        · exact ht
        · exact State.Inv.foldl (fun _ _ hw => State.Inv.foldl (fun _ _ hx => Issuer.cleanLine_inv hx _) _ hw) _ ht
      clear_value v
      split
      · exact hv
      · split
        next heq => exact (Issuer.release_inv hv _).some heq
        · exact hsend _ hv
theorem execQtail_inv (k : SReg) (h : s.Inv) : OutInv (execQtail k s) :=
  h.word fun u t ht => by
    extract_lets +onlyGivenNames x q pkg tail
    split
    · trivial
    split
    · split
      · trivial
      · exact Issuer.tail_inv ht ..
    split
    · exact Issuer.tail_inv ht ..
    · show State.Inv (match t.sendPacket _ with | some _ => _ | none => _)
      split
      next heq =>
        have hv := (ht.sendPacket _).some heq
        exact hv.of_eq rfl rfl
      next => exact ht

/-! ### Leaving (R170, R179, R342) -/

theorem State.Inv.retireCopy (h : s.Inv) (c : CoreId) (i : Nat) : (s.retireCopy c i).Inv := h.setCore _
theorem State.Inv.raiseCopy (h : s.Inv) (u : Issuer) (p : Nat × Copy) : (s.raiseCopy u p).Inv := (h.retireCopy ..).takeFault ..
theorem execExit_inv (h : s.Inv) : OutInv (execExit s) :=
  h.word fun u t ht => by
    split
    · exact ht.raiseCopy ..
    · exact ht.setGroup _
theorem State.Inv.freeTeam (h : s.Inv) (x : Team) : (s.freeTeam x).Inv := by
  unfold State.freeTeam
  extract_lets +onlyGivenNames core v w
  have hv : v.Inv := h.setCore _
  clear_value v
  have hw : w.Inv := hv.of_eq rfl rfl
  clear_value w
  split
  · exact hw
  split
  · exact hw.putTask _
  · exact hw
theorem execExitComplete_inv (r : GroupRef) (h : s.Inv) : OutInv (execExitComplete r s) := by
  refine h.happens ?_
  split
  · extract_lets +onlyGivenNames core last
    split
    · trivial
    split
    · trivial
    split
    · exact (h.setGroup _).raiseCopy ..
    · split
      · trivial
      extract_lets +onlyGivenNames v w
      have hv : v.Inv := by
        dsimp only [v]
        split
        · exact h.tethLast _
        · exact h
      clear_value v
      have hw : w.Inv := hv.setGroup _
      clear_value w
      split
      · exact (hw.freeTeam _).settleCbar ..
      · exact (hw.settleBarriers ..).settleCbar ..
  · trivial
theorem execTrap_inv (o : BitVec 18) (h : s.Inv) : OutInv (execTrap o s) := h.word fun _ _ _ => trivial
theorem execBrk_inv (o : BitVec 18) (h : s.Inv) : OutInv (execBrk o s) := h.word fun _ _ _ => trivial
theorem execWfa_inv (k : SReg) (l : BitVec 18) (h : s.Inv) : OutInv (execWfa k l s) :=
  h.word fun u t ht => by
    extract_lets +onlyGivenNames now
    split
    · extract_lets +onlyGivenNames same
      clear_value same
      split <;> exact ht
    · extract_lets +onlyGivenNames addrs
      split
      next heq => exact (Issuer.gate_inv ht ..).some heq
      · extract_lets +onlyGivenNames v
        have hv : v.Inv := (Issuer.touchL1_inv ht _).trimL1 _
        clear_value v
        split <;> exact hv
theorem execWfaWake_inv (r : GroupRef) (h : s.Inv) : OutInv (execWfaWake r s) := by
  unfold execWfaWake
  split
  · exact h
  · split
    · exact h.settled _ _ (show WordInv (.done _ s) from h)
    · exact h

/-! ### Matrix words (R166 to R168, R327 to R337) -/

theorem Issuer.enqueue_inv (h : s.Inv) (o : MatOp) : WordInv (u.enqueue s o) := h.setCore _
theorem Issuer.tileRead_inv (h : s.Inv) (n : Nat) {k : Unit → WordOut} (hk : WordInv (k ())) : WordInv (u.tileRead s n k) := by
  unfold Issuer.tileRead
  split
  · trivial
  split
  · exact h
  · exact hk
theorem Issuer.drainTo_inv (h : s.Inv) (p : OpMap) (lines : List (List (BitVec 8))) (loose : List (Nat × BitVec 8)) :
    (u.drainTo s p lines loose).Inv := by
  unfold Issuer.drainTo
  split
  · exact h
  · exact h.setTeam _
theorem mmaWord_inv (h : s.Inv) (zero : Bool) (n : Fin 16) (amap bmap fblk : SReg) (ra rb : Bool) : OutInv (mmaWord zero n amap bmap fblk ra rb s) :=
  h.word fun u t ht => by
    split
    · trivial
    split
    · exact ht
    extract_lets +onlyGivenNames at'
    split
    · trivial
    · exact Issuer.enqueue_inv ht _
theorem execMbatch_inv (d : Dst) (h : s.Inv) : OutInv (execMbatch d s) :=
  h.wordTo fun u t ht => by split <;> exact ht
theorem execMwait_inv (a : Src) (h : s.Inv) : OutInv (execMwait a s) :=
  h.word fun u t ht => by
    dsimp only
    split <;> exact ht
theorem execMdrain_inv (d : Code) (a : Src) (c : Code) (h : s.Inv) : OutInv (execMdrain d a c s) :=
  h.word fun u t ht => Issuer.tileRead_inv ht _ (by
    extract_lets +onlyGivenNames p
    split
    · trivial
    · exact Issuer.drainTo_inv ht ..)
theorem execMdrainx_inv (d : Code) (a b : Src) (c : Code) (h : s.Inv) : OutInv (execMdrainx d a b c s) :=
  h.word fun u t ht => Issuer.tileRead_inv ht _ (by
    extract_lets +onlyGivenNames p set at'
    split
    · trivial
    · exact Issuer.drainTo_inv ht ..)
theorem execMfill_inv (d : Code) (a : Src) (c : Code) (h : s.Inv) : OutInv (execMfill d a c s) :=
  h.word fun u t ht => by
    split
    · trivial
    split
    · exact ht
    split
    · trivial
    · exact Issuer.enqueue_inv ht _
theorem execMzero_inv (d : Code) (h : s.Inv) : OutInv (execMzero d s) :=
  h.word fun u t ht => by
    split
    · trivial
    split
    · exact ht
    · exact Issuer.enqueue_inv ht _
theorem execMrdv_inv (d : Dst) (a : Code) (b : Src) (c : Code) (h : s.Inv) : OutInv (execMrdv d a b c s) :=
  h.word fun _ _ ht => Issuer.tileRead_inv ht _ ht
theorem execMwrv_inv (d : Code) (a b : Src) (c : Code) (h : s.Inv) : OutInv (execMwrv d a b c s) :=
  h.word fun u t ht => by
    split
    · trivial
    split
    · exact ht
    · exact Issuer.enqueue_inv ht _
theorem execMprog_inv (d : Dst) (a : Code) (h : s.Inv) : OutInv (execMprog d a s) :=
  h.wordTo fun u t ht => by
    split
    · trivial
    · exact ht
theorem State.Inv.fenceCore (h : s.Inv) (u : Issuer) : (s.fenceCore u).Inv := h.of_eq (s.fenceCore_mem_mgmt u).1 (s.fenceCore_mem_mgmt u).2
theorem execMatrixKStep_inv (c : CoreId) (res : Residue) (h : s.Inv) : OutInv (execMatrixKStep c res s) := by
  unfold execMatrixKStep
  split
  · exact h
  split
  · exact h
  split
  · exact h
  split
  · exact h.kStep ..
  · exact (h.transientResidue ..).kStep ..
  · split
    · exact h.fenceCore _
    · exact h

end

end Sys2Proof.Machine


/-! Canonical form (O59): mill words, row operations and bank locks. -/

namespace Sys2Proof.Machine

/-- The state that a mill word's body answers, if it answers one, keeps the invariant. -/
def MillInv : MillOut → Prop
  | .done _ s => s.Inv | .goto _ _ s => s.Inv | .wait _ s => s.Inv | .trap _ => True | .park _ _ s => s.Inv | .stop s => s.Inv
/-- The state that resolving an address leaves keeps the invariant. -/
def FoundInv : Found → Prop | .at _ s => s.Inv | .code _ s => s.Inv
/-- The state that preparing a slice leaves keeps the invariant. -/
def SliceInv : SliceOut → Prop | .step _ s => s.Inv | .code _ _ _ s => s.Inv

section
variable {s t : State} {u : MillIssuer}

theorem FoundInv.at {o : Found} {v : Attr} (h : FoundInv o) (e : o = .at v t) : t.Inv := by rw [e] at h; exact h
theorem FoundInv.code {o : Found} {c : Nat} (h : FoundInv o) (e : o = .code c t) : t.Inv := by rw [e] at h; exact h

/-! ### One word (R355, R358) -/

theorem State.Inv.releaseLocks (h : s.Inv) (r : MillRef) : (s.releaseLocks r).Inv := h.mapMem fun hm => hm
theorem State.Inv.millPark (h : s.Inv) (u : MillIssuer) (va kind : Nat) : (s.millPark u va kind).Inv := (h.takeFid.faultRecords ..).setMill _
theorem State.Inv.millSettle (h : s.Inv) (u : MillIssuer) {o : MillOut} (ho : MillInv o) : (s.millSettle u o).Inv := by
  cases o with
  | done m t => exact State.Inv.setMill (s := t) ho _
  | goto m x t => exact State.Inv.setMill (s := t) ho _
  | wait m t => exact State.Inv.setMill (s := t) ho _
  | trap c => exact h.millTrap ..
  | park va kind t => exact State.Inv.millPark (s := t) ho ..
  | stop t => exact ho
theorem State.Inv.mill (h : s.Inv) {ok : Bool} {body : MillIssuer → State → MillOut} (hb : ∀ u, MillInv (body u s)) : OutInv (runMill ok body s) := by
  unfold Machine.runMill
  split
  · trivial
  · split
    · exact h.millTrap ..
    · exact h.millSettle _ (hb _)
theorem execMillLui_inv (d : GReg) (imm : BitVec 16) (h : s.Inv) : OutInv (execMillLui d imm s) := h.mill fun _ => h
theorem millLocal_inv (h : s.Inv) (buf : Bool) (a : GReg) (imm : BitVec 16) (n : Nat) (reads : Bool) (f : Mill → Nat → Mill) :
    OutInv (millLocal buf a imm n reads f s) :=
  h.mill fun u => by
    dsimp only
    split
    · trivial
    · split <;> exact h
theorem execMillWffma_inv (d a b c : Fin 16) (k : Fin 4) (h : s.Inv) : OutInv (execMillWffma d a b c k s) := h.mill fun _ => h
theorem execMillWredaddF32_inv (d a : Fin 16) (k : Fin 4) (h : s.Inv) : OutInv (execMillWredaddF32 d a k s) := h.mill fun _ => h
theorem execMillWcmp_inv (kd : Fin 4) (a b : Fin 16) (k : Fin 4) (cond : Fin 16) (h : s.Inv) : OutInv (execMillWcmp kd a b k cond s) :=
  h.mill fun _ => h
theorem execMillWsel_inv (d a b : Fin 16) (kc k : Fin 4) (h : s.Inv) : OutInv (execMillWsel d a b kc k s) := h.mill fun _ => h
theorem execMillWbcast_inv (d a b : Fin 16) (k : Fin 4) (h : s.Inv) : OutInv (execMillWbcast d a b k s) := h.mill fun _ => h
theorem millBranch_inv (h : s.Inv) (a b : GReg) (off : BitVec 16) (f : W64 → W64 → Bool) : OutInv (millBranch a b off f s) :=
  h.mill fun u => by split <;> exact h
theorem execMillJal_inv (d : GReg) (imm : BitVec 16) (h : s.Inv) : OutInv (execMillJal d imm s) := h.mill fun _ => h
theorem execMillJr_inv (d a : GReg) (h : s.Inv) : OutInv (execMillJr d a s) :=
  h.mill fun u => by
    split
    · trivial
    · exact h

/-! ### Tower accesses (R151, R188, R362) -/

theorem MillIssuer.access_inv (h : s.Inv) (va : Int) (wr : Option Nat) {k : Nat → MillOut} (hk : ∀ x, MillInv (k x)) : MillInv (u.access s va wr k) := by
  unfold MillIssuer.access
  extract_lets +onlyGivenNames a kind
  split
  · trivial
  split
  · exact h
  split
  · exact h
  split
  · split
    · exact h
    · trivial
  · split
    · exact hk _
    · split
      · exact h
      split
      · trivial
      · exact h.request ..
theorem execMillLdt_inv (d a : GReg) (imm : BitVec 16) (h : s.Inv) : OutInv (execMillLdt d a imm s) :=
  h.mill fun _ => MillIssuer.access_inv h _ _ fun _ => h
theorem execMillStt_inv (d a : GReg) (imm : BitVec 16) (h : s.Inv) : OutInv (execMillStt d a imm s) :=
  h.mill fun _ => MillIssuer.access_inv h _ _ fun _ => h
theorem execMillLdtSttAtHome_inv (k : Nat) (h : s.Inv) : OutInv (execMillLdtSttAtHome k s) :=
  h.onMsg fun m t ht => by
    split
    · extract_lets +onlyGivenNames bad
      have hbad (c : Nat) (v : State) (hv : v.Inv) : OptInv (bad c v) := hv.respond ..
      clear_value bad
      split
      · trivial
      split
      · exact hbad _ _ ht
      split
      next heq => exact hbad _ _ ((ht.meet ..).snd heq)
      next v w heq =>
        have hw := (ht.meet ..).snd heq
        split
        · trivial
        split
        · exact (hw.recallOwners _).putBack ..
        extract_lets +onlyGivenNames x
        have hx : x.Inv := hw.touch _
        clear_value x
        split
        · exact hx.respond ..
        · extract_lets +onlyGivenNames val mask y
          have hy : y.Inv := by
            dsimp only [y]
            split
            · exact hx.placeWritten ..
            · exact hx.homeWrite ..
          exact hy.respond ..
    · trivial

/-! ### Control and system words (R354, R370, R371) -/

theorem execMillMsync_inv (h : s.Inv) : OutInv (execMillMsync s) := h.mill fun u => by split <;> exact h
theorem execMillMhalt_inv (h : s.Inv) : OutInv (execMillMhalt s) :=
  h.mill fun u => by
    split
    · exact h
    · exact ((h.setMill _).releaseLocks _).setTask _
theorem execMillMtrap_inv (imm : BitVec 16) (h : s.Inv) : OutInv (execMillMtrap imm s) := h.mill fun _ => trivial
theorem execMillMrdsr_inv (d : GReg) (id : BitVec 16) (h : s.Inv) : OutInv (execMillMrdsr d id s) := h.mill fun _ => h
theorem execMillMwrsr_inv (a : GReg) (id : BitVec 16) (h : s.Inv) : OutInv (execMillMwrsr a id s) := h.mill fun _ => h
theorem execMillMpark_inv (a : GReg) (limit : BitVec 16) (h : s.Inv) : OutInv (execMillMpark a limit s) :=
  h.mill fun u => by
    split
    · extract_lets +onlyGivenNames p
      split <;> exact h
    · refine MillIssuer.access_inv h _ _ fun _ => ?_
      split
      · trivial
      · split
        next heq => exact State.Inv.mapMem ((h.translateNow ..).snd heq) fun hm => hm
        next heq => exact (h.translateNow ..).snd heq
theorem execMparkWake_inv (r : MillRef) (h : s.Inv) : OutInv (execMparkWake r s) := by
  unfold execMparkWake
  split
  · exact h
  · split
    · exact h.millSettle _ (show MillInv (.done _ s) from h)
    · exact h

/-! ### Row words (R366 to R369) -/

theorem rowWord_inv (h : s.Inv) (op : Nat) (d a b : GReg) (mask : Mill → Nat) (index : Mill → Option Nat) (pages : Mill → List W64) :
    OutInv (rowWord op d a b mask index pages s) :=
  h.mill fun u => by
    split
    · exact h
    split
    · trivial
    · exact h
theorem MillIssuer.frame_inv (h : s.Inv) (va : Nat) (acc : Acc) (own : Bool) : FoundInv (u.frame s va acc own) := by
  unfold MillIssuer.frame
  split
  · exact h
  split
  · exact h
  split
  · exact h
  split
  next heq => exact (h.translateNow ..).snd heq
  next heq =>
    have ht := (h.translateNow ..).snd heq
    split <;> exact ht
theorem MillIssuer.slice_inv (h : s.Inv) (page c : Nat) (write own : Bool) : FoundInv (u.slice s page c write own) := by
  unfold MillIssuer.slice
  extract_lets +onlyGivenNames va lost
  clear_value lost
  split
  next heq => exact (MillIssuer.frame_inv h ..).code heq
  next heq =>
    have ht := (MillIssuer.frame_inv h ..).at heq
    split
    · exact ht
    split <;> exact ht
theorem MillIssuer.bankPage_inv (h : s.Inv) (p : GReg) {k : Attr → State → MillOut} (hk : ∀ v t, t.Inv → MillInv (k v t)) :
    MillInv (u.bankPage s p k) := by
  unfold MillIssuer.bankPage
  extract_lets +onlyGivenNames page
  split
  · trivial
  split
  · exact h
  split
  next heq =>
    have ht := (MillIssuer.frame_inv h ..).code heq
    split
    · exact ht
    · trivial
  next heq => exact hk _ _ ((MillIssuer.frame_inv h ..).at heq)
theorem execMillRowmac_inv (o p m : GReg) (h : s.Inv) : OutInv (execMillRowmac o p m s) :=
  h.mill fun u => by
    extract_lets +onlyGivenNames mask out n
    clear_value n out mask
    split
    · exact h
    split
    · trivial
    split
    · trivial
    split
    · trivial
    split
    · exact h
    split
    next heq =>
      have ht := (MillIssuer.frame_inv h ..).code heq
      split
      · exact ht
      · trivial
    next heq =>
      have ht := (MillIssuer.frame_inv h ..).at heq
      split
      · exact ht
      · trivial
theorem execMillRowwait_inv (h : s.Inv) : OutInv (execMillRowwait s) := h.mill fun u => by split <;> exact h

/-! ### Steps (R191 to R193, R366) -/

theorem State.Inv.recallRow (h : s.Inv) (r : Option (Nat × Nat)) (dk : Bool) : OptInv (s.recallRow r dk) := by
  unfold State.recallRow
  split
  · trivial
  · extract_lets +onlyGivenNames owned
    clear_value owned
    split
    · trivial
    · exact State.Inv.foldl (fun _ _ hu => State.Inv.recallOwners hu _) _ h
theorem State.Inv.readDuty (h : s.Inv) (r : Nat × Nat) : (s.readDuty r).Inv :=
  State.Inv.foldl (fun _ _ hu => hu.mapMem fun hm => MemState.canonical_tcClean hm ..) _ h
theorem State.Inv.writeDuty (h : s.Inv) (r : Nat × Nat) (dk : Bool) : (s.writeDuty r dk).Inv := by
  refine State.Inv.foldl (fun v p hv => ?_) _ h
  refine State.Inv.tcDropped ?_ ..
  split
  · exact hv
  · exact hv.homeClear _
theorem State.Inv.invDuty (h : s.Inv) (asid page c : Nat) (r : Nat × Nat) (dk : Bool) : (s.invDuty asid page c r dk).Inv := by
  refine State.Inv.foldl (fun v j hv => ?_) _ h
  refine State.Inv.tcDropped ?_ ..
  split
  · refine State.Inv.foldl (fun w d hw => State.Inv.mapMem (hw.gatherDie ..) fun hm => ?_) _ hv
    split
    · exact hm
    · exact MemState.canonical_placeWrite hm ..
  · exact hv.homeClear _
theorem State.Inv.rowPut (h : s.Inv) (r : Nat × Nat) (vs : List (BitVec 2048)) : (s.mapMem fun x => x.putRow r vs).Inv :=
  h.mapMem fun hm => MemState.canonical_putRow hm ..
theorem State.Inv.performStep (h : s.Inv) (m : Mill) (asid : Nat) (r : RowStep) : (s.performStep m asid r).2.Inv := by
  unfold State.performStep
  extract_lets +onlyGivenNames v vs
  have hv : v.Inv := by
    dsimp only [v]
    split
    · exact h.readDuty _
    · exact h
  clear_value vs
  clear_value v
  split
  · dsimp only
    split
    · exact hv.writeDuty ..
    · exact (hv.writeDuty ..).rowPut ..
  · exact (hv.writeDuty ..).rowPut ..
  · exact hv
  · exact (hv.writeDuty ..).rowPut ..
  · exact hv
  · exact hv.invDuty ..
  · exact hv
theorem MillIssuer.prepare_inv (h : s.Inv) (c : Nat) : SliceInv (u.prepare s c) := by
  unfold MillIssuer.prepare
  extract_lets +onlyGivenNames a b one
  have hone (page : Nat) (write : Bool) (k : Attr → State → SliceOut) (hk : ∀ v t, t.Inv → SliceInv (k v t)) : SliceInv (one page write k) := by
    dsimp only [one]
    split
    next heq => exact (MillIssuer.slice_inv h ..).code heq
    next heq => exact hk _ _ ((MillIssuer.slice_inv h ..).at heq)
  clear_value one
  split
  · extract_lets +onlyGivenNames ra wa
    split
    next heq =>
      have ht := (MillIssuer.slice_inv h ..).code heq
      split
      next heq =>
        have hv := (MillIssuer.slice_inv ht ..).code heq
        split <;> exact hv
      next heq => exact (MillIssuer.slice_inv ht ..).at heq
    next heq =>
      have ht := (MillIssuer.slice_inv h ..).at heq
      split
      next heq => exact (MillIssuer.slice_inv ht ..).code heq
      next heq => exact (MillIssuer.slice_inv ht ..).at heq
  · exact hone _ _ _ fun _ _ ht => ht
  · split
    · exact h
    · exact hone _ _ _ fun _ _ ht => ht
  · split
    · exact h
    · exact hone _ _ _ fun _ _ ht => ht
  · exact hone _ _ _ fun _ _ ht => ht
theorem execRowStepStart_inv (r : MillRef) (c : Nat) (h : s.Inv) : OutInv (execRowStepStart r c s) := by
  refine h.happens ?_
  split
  · trivial
  next u _ =>
    split
    · trivial
    have hp := MillIssuer.prepare_inv (u := u) h c
    split
    next heq =>
      rw [heq] at hp
      split
      · exact State.Inv.setMill (State.Inv.faultRecords (State.Inv.takeFid hp) ..) _
      · exact State.Inv.setMill hp _
    next heq =>
      rw [heq] at hp
      split
      · exact State.Inv.setMill hp _
      · trivial
theorem execRowStepComplete_inv (r : MillRef) (c : Nat) (h : s.Inv) : OutInv (execRowStepComplete r c s) := by
  refine h.happens ?_
  split
  · trivial
  split
  · split
    · trivial
    split
    next heq => exact (h.recallRow ..).some heq
    next heq => exact (h.recallRow ..).some heq
    · extract_lets +onlyGivenNames go
      have hgo (v : State) (hv : v.Inv) : (go v).Inv := State.Inv.setMill (hv.performStep ..) _
      clear_value go
      split
      · exact hgo _ h
      · split
        next heq => exact (h.bulk ..).sent heq
        next => trivial
        next heq => exact hgo _ ((h.bulk ..).arrived heq)
  · trivial

/-! ### Refresh and bank locks (R194, R195, R368) -/

theorem execRefresh_inv (tower ch bank : Nat) (h : s.Inv) : OutInv (execRefresh tower ch bank s) := by
  unfold execRefresh
  split
  · trivial
  extract_lets +onlyGivenNames pa steps
  split
  · exact h
  · exact h.mapMem fun hm => hm
theorem execRefreshComplete_inv (tower ch bank : Nat) (h : s.Inv) : OutInv (execRefreshComplete tower ch bank s) := by
  unfold execRefreshComplete
  split
  · exact h.mapMem fun hm => hm
  · exact h
/-- The state that trying a lock leaves, if it leaves one, keeps the invariant. -/
theorem State.Inv.tryLock (h : s.Inv) (m : Mill) (pair : Nat) : ∀ r, s.tryLock m pair = some r → r.2.Inv := by
  intro r e
  unfold State.tryLock at e
  dsimp only at e
  split at e
  · cases e
  split at e
  · cases e
    exact State.Inv.foldl (fun _ _ hu => State.Inv.recallOwners hu _) _ h
  · cases e
    exact State.Inv.mapMem (State.Inv.foldl (fun _ _ hu => State.Inv.tcDropped hu ..) _ h) fun hm => hm
theorem execMillBanklk_inv (p : GReg) (h : s.Inv) : OutInv (execMillBanklk p s) :=
  h.mill fun u => MillIssuer.bankPage_inv h _ fun v t ht => by
    dsimp only
    split
    · exact ht
    split
    · trivial
    split
    next heq => exact ht.tryLock _ _ _ heq
    next heq => exact ht.tryLock _ _ _ heq
    next => exact ht
theorem execMillBankul_inv (p : GReg) (h : s.Inv) : OutInv (execMillBankul p s) :=
  h.mill fun u => by
    split
    · exact h
    · exact MillIssuer.bankPage_inv h _ fun v t ht => ht.mapMem fun hm => hm
theorem execBankLockTaken_inv (r : MillRef) (h : s.Inv) : OutInv (execBankLockTaken r s) := by
  have htry (m : Mill) (pair : Nat) (x : Mill) : OptInv ((s.tryLock m pair).map fun t => if t.1 then t.2.setMill x else t.2) :=
    .map fun t ht => by
      have hv := h.tryLock _ _ _ ht
      split
      · exact hv.setMill _
      · exact hv
  refine h.happens ?_
  split
  · trivial
  split
  · trivial
  split
  · split
    · trivial
    · exact htry ..
  · split
    · exact .map fun _ _ => h.millTrap ..
    · exact htry ..
  · trivial
theorem execBankLockForcedRelease_inv (r : MillRef) (pair : Nat) (h : s.Inv) : OutInv (execBankLockForcedRelease r pair s) := by
  refine h.happens ?_
  split
  · split
    · trivial
    · split
      · trivial
      · refine State.Inv.millTrap ?_ ..
        exact h
  · trivial

end

end Sys2Proof.Machine


/-! Canonical form (O59): answers, system words, boot, links and the pool. -/

namespace Sys2Proof.Machine

section
variable {s t : State} {u : Issuer}

/-! ### Answers and failed requests (R31 to R37) -/

theorem State.Inv.stallGroup (h : s.Inv) (r : GroupRef) (f : MemStall → MemStall) : (s.stallGroup r f).Inv := h
theorem State.Inv.stallMill (h : s.Inv) (r : MillRef) (f : MemStall → MemStall) : (s.stallMill r f).Inv := h
theorem State.Inv.refuseAt (h : s.Inv) (a : LineId) (dest : Node) (r : Req) (code : Nat) (dk : Bool) : (s.refuseAt a dest r code dk).Inv :=
  (State.works_refuseAt ..).inv h
theorem State.Inv.failReq (h : s.Inv) (o : OutReq) (code : Nat) : (s.failReq o code).Inv := (State.works_failReq ..).inv h
theorem execResponseArrival_inv (k : Nat) (h : s.Inv) : OutInv (execResponseArrival k s) :=
  h.onMsg fun m t ht => by
    extract_lets +onlyGivenNames take
    have htake (f : State → State) (hf : ∀ v, v.Inv → (f v).Inv) : OptInv (take f) := by
      have hw := ht.accept m
      dsimp only [take]
      generalize t.accept m = p at hw
      obtain ⟨ok, w⟩ := p
      show State.Inv (if ok then f w else w)
      split
      · exact hf _ hw
      · exact hw
    clear_value take
    split
    · exact htake _ fun v hv => hv.refuseAt ..
    · exact htake _ fun v hv => hv.stallGroup ..
    · exact htake _ fun v hv => hv.stallGroup ..
    · exact htake _ fun v hv => hv.stallGroup ..
    · exact htake _ fun v hv => hv.stallMill ..
    · trivial
theorem execRequestTimeout_inv (site : Site) (tag : Nat) (h : s.Inv) : OutInv (execRequestTimeout site tag s) := by
  unfold execRequestTimeout
  split
  · exact h
  · refine .ite (fun _ => h) fun _ => ?_
    exact State.Inv.failReq (h.mapMem fun hm => hm) ..
theorem execRetiredTagRelease_inv (site : Site) (tag : Nat) (h : s.Inv) : OutInv (execRetiredTagRelease site tag s) := by
  unfold execRetiredTagRelease
  split
  · exact h
  · split
    · exact h
    · exact h.mapMem fun hm => hm
theorem execWatermarkNotice_inv (k : Nat) (h : s.Inv) : OutInv (execWatermarkNotice k s) :=
  h.onMsg fun m t ht => by
    split
    · exact State.Inv.foldl (fun _ _ hv => State.Inv.failReq hv ..) _ (ht.mapMem fun hm => hm)
    · trivial
theorem execTnowRequestArrival_inv (k : Nat) (h : s.Inv) : OutInv (execTnowRequestArrival k s) :=
  h.onMsg fun m t ht => by
    split
    · exact ht.respond ..
    · trivial

/-! ### System words (R344 to R352) -/

theorem execRdsys_inv (d : Dst) (id : BitVec 12) (h : s.Inv) : OutInv (execRdsys d id s) :=
  h.wordTo fun u t ht => by
    split
    · trivial
    · exact ht
theorem execWrsys_inv (a : Src) (id : BitVec 12) (h : s.Inv) : OutInv (execWrsys a id s) := h.word fun _ _ ht => ht
theorem execTopo_inv (d : Dst) (c : Code) (h : s.Inv) : OutInv (execTopo d c s) := h.wordTo fun _ _ ht => ht
theorem execTnow_inv (d : Dst) (c : Code) (h : s.Inv) : OutInv (execTnow d c s) :=
  h.wordTo fun u t ht => by
    split
    · exact ht
    extract_lets +onlyGivenNames sheet
    split
    · exact ht
    · trivial
    · split
      · exact ht
      · exact ht.request ..
theorem execPmrd_inv (d : Dst) (c : Code) (h : s.Inv) : OutInv (execPmrd d c s) := h.wordTo fun _ _ ht => ht

/-! ### fltack (R129, R349) -/

theorem State.Inv.ackGroup (h : s.Inv) (fid : Nat) (cancel : Bool) (g : Group) : (s.ackGroup fid cancel g).Inv := by
  unfold State.ackGroup
  split
  · exact h
  extract_lets +onlyGivenNames mine g' v
  have hv : v.Inv := h.setGroup _
  clear_value v
  split
  · split
    · exact hv.takeFault ..
    · exact hv
  · exact hv
theorem State.Inv.ackCopies (h : s.Inv) (fid : Nat) (cancel : Bool) : (s.ackCopies fid cancel).Inv := by
  unfold State.ackCopies
  extract_lets +onlyGivenNames hit v
  have hv : v.Inv := h.of_eq rfl rfl
  clear_value v
  refine State.Inv.foldl (fun w c hw => ?_) _ hv
  split
  · exact hw.setGroup _
  · exact hw
theorem State.Inv.ackMill (h : s.Inv) (fid : Nat) (cancel : Bool) (m : Mill) : (s.ackMill fid cancel m).Inv := by
  unfold State.ackMill
  split
  · exact h
  split
  · exact h
  · dsimp only
    split
    · exact h.millTrap ..
    · exact h.setMill _
theorem State.Inv.recordIn (h : s.Inv) (home : HomeOf) (x : Site) (tid unit asid : Nat) (b : BlockLoc) (ws : List (Nat × List (BitVec 8))) :
    OwnInv (s.recordIn home x tid unit asid b ws) := by
  unfold State.recordIn
  refine OwnInv.foldl (fun o w ho => ?_) _ (show OwnInv (.ok () s) from h)
  split
  next v =>
    have hb := State.Inv.blockWrite (s := v) ho home asid b w.1 w.2
    split
    next heq => exact State.Inv.taskFault (hb.bad heq) ..
    next => exact hb
  next => exact ho
theorem State.Inv.ackSaved (h : s.Inv) (die fid : Nat) (cancel : Bool) : OwnInv (s.ackSaved die fid cancel) := by
  unfold State.ackSaved
  extract_lets +onlyGivenNames teams mills
  have hteams : OwnInv teams := by
    refine OwnInv.foldl (fun o x ho => ?_) _ (show OwnInv (.ok () s) from h)
    split
    next v =>
      have hv : v.Inv := ho
      split
      · exact hv
      · split
        next heq => exact State.Inv.recordIn ((hv.blockRead ..).ok heq) ..
        next heq => exact State.Inv.taskFault ((hv.blockRead ..).bad heq) ..
        next => trivial
    next => exact ho
  have hmills : OwnInv mills := by
    refine OwnInv.foldl (fun o x ho => ?_) _ hteams
    split
    next v =>
      have hv : v.Inv := ho
      split
      · exact hv
      · split
        next heq => exact State.Inv.recordIn ((hv.blockRead ..).ok heq) ..
        next heq => exact State.Inv.taskFault ((hv.blockRead ..).bad heq) ..
        next => trivial
    next => exact ho
  clear_value teams mills
  split
  next v => exact State.Inv.of_eq (s := v) hmills rfl rfl
  next => exact hmills
theorem execFltack_inv (a : Src) (c : Code) (h : s.Inv) : OutInv (execFltack a c s) :=
  h.word fun u t ht => by
    extract_lets +onlyGivenNames fid cancel
    split
    · trivial
    split
    · trivial
    split
    next heq =>
      have hv := (ht.ackSaved ..).ok heq
      extract_lets +onlyGivenNames w x
      have hw : w.Inv := State.Inv.foldl (fun _ _ hy => State.Inv.ackGroup hy ..) _ hv
      clear_value w
      have hx : x.Inv := hw.ackCopies ..
      clear_value x
      exact State.Inv.foldl (fun _ _ hy => State.Inv.ackMill hy ..) _ hx
    next => exact ht

/-! ### xlinv and dbgmk (R124, R125, R350, R351) -/

theorem State.Inv.homeNow (h : s.Inv) (die : Nat) (a : LineId) (last : Nat) (val mask : BitVec 2048) (o : WbOwner) :
    (s.homeNow die a last val mask o).Inv := by
  unfold State.homeNow
  split
  · exact h
  split
  · exact h.loseWriteback ..
  · split
    next heq => exact State.Inv.loseWriteback ((h.translateNow ..).snd heq) ..
    next heq =>
      have ht := (h.translateNow ..).snd heq
      split
      · exact ht.placeWritten ..
      · exact ht.homeWrite ..
theorem State.Inv.evictEverywhere (h : s.Inv) (a : LineId) (o : WbOwner) : (s.evictEverywhere a o).Inv := by
  unfold State.evictEverywhere
  extract_lets +onlyGivenNames last got v order
  have hgot : got.2.Inv := by
    dsimp only [got]
    refine State.Inv.foldlSnd (fun p d hp => ?_) _ h
    exact hp.gatherDie ..
  clear_value got
  have hv : v.Inv := hgot.mapMem fun hm => hm
  clear_value order v
  exact State.Inv.foldl (fun _ _ hy => State.Inv.homeNow hy ..) _ hv
theorem execXlinv_inv (a b c : Src) (h : s.Inv) : OutInv (execXlinv a b c s) :=
  h.word fun u t ht => by
    extract_lets +onlyGivenNames start len asid
    clear_value len start
    split
    · trivial
    split
    · exact ht
    refine .ite (fun _ => trivial) fun _ => ?_
    extract_lets +onlyGivenNames lo hi p0 p1 v mine busy
    have hv : v.Inv := ht.mapMem fun hm => hm
    clear_value busy
    clear_value v mine
    split
    · exact hv
    · extract_lets +onlyGivenNames names w
      have hw : w.Inv := State.Inv.foldl (fun _ _ hy => State.Inv.evictEverywhere hy ..) _ hv
      clear_value w
      exact hw.of_eq rfl rfl
theorem execDbgmk_inv (a : Src) (h : s.Inv) : OutInv (execDbgmk a s) :=
  h.word fun u t ht => by
    show State.Inv (if _ then _ else _)
    split <;> exact ht

/-! ### Reset, boot and freezes (R19 to R24, R205 to R209) -/

theorem execBootPhase_inv (r : BootReport) (h : s.Inv) : OutInv (execBootPhase r s) := by
  unfold execBootPhase
  extract_lets +onlyGivenNames b
  split
  · exact h
  split
  · exact h
  split
  · exact h
  split
  · exact h
  · show State.Inv (if _ then _ else _)
    split <;> exact h
  · extract_lets +onlyGivenNames v
    have hv : v.Inv := h.phaseDone ..
    clear_value v
    show State.Inv (if _ then _ else _)
    split <;> exact hv
theorem execBootPhaseLimitExpiry_inv (h : s.Inv) : OutInv (execBootPhaseLimitExpiry s) := by
  unfold execBootPhaseLimitExpiry
  split <;> exact h
theorem execClockStretchChange_inv (sheet : Fin 4) (n : Nat) (h : s.Inv) : OutInv (execClockStretchChange sheet n s) := by
  unfold execClockStretchChange
  split <;> exact h
theorem execFreezeRequest_inv (h : s.Inv) : OutInv (execFreezeRequest s) := by
  show State.Inv (if _ then _ else _)
  split <;> exact h
theorem execDebugFreezeRequest_inv (h : s.Inv) : OutInv (execDebugFreezeRequest s) := by
  show State.Inv (if _ then _ else _)
  split <;> exact h
theorem execSheetFreeze_inv (sheet : Fin 4) (h : s.Inv) : OutInv (execSheetFreeze sheet s) := by
  unfold execSheetFreeze
  split
  · exact h
  · show State.Inv (if _ then _ else _)
    split <;> exact h
theorem execThaw_inv (h : s.Inv) : OutInv (execThaw s) := by
  show State.Inv (if _ then _ else _)
  split <;> exact h
theorem execFrzctlReset_inv (h : s.Inv) : OutInv (execFrzctlReset s) := by
  show State.Inv (if _ then _ else _)
  split
  · exact h.partReset
  · exact h
theorem execReadout1687_inv (what : ReadTarget) (h : s.Inv) : OutInv (execReadout1687 what s) := by
  unfold execReadout1687
  split <;> exact h
theorem execDebugGrant_inv (valid : Bool) (marker : Option (BitVec 64)) (h : s.Inv) : OutInv (execDebugGrant valid marker s) := by
  show State.Inv (if _ then _ else _)
  split <;> exact h
theorem execFarrierLost_inv (sheet : Fin 4) (h : s.Inv) : OutInv (execFarrierLost sheet s) := by
  unfold execFarrierLost
  split
  · exact h
  · show State.Inv (if _ then _ else _)
    split <;> exact h
theorem execAttestationGo_inv (v : BitVec 32) (h : s.Inv) : OutInv (execAttestationGo v s) := by
  unfold execAttestationGo
  split <;> exact h
theorem execAttestationDone_inv (h : s.Inv) : OutInv (execAttestationDone s) := by
  unfold execAttestationDone
  split <;> exact h

/-! ### Links and fibres (R25 to R42, R199) -/

theorem execLinkFlitCrcFail_inv (l : LinkId) (h : s.Inv) : OutInv (execLinkFlitCrcFail l s) := by
  unfold execLinkFlitCrcFail
  split
  · trivial
  · refine h.happens ?_
    split
    · exact h
    · trivial
theorem execLinkRetrain_inv (l : LinkId) (h : s.Inv) : OutInv (execLinkRetrain l s) := by
  unfold execLinkRetrain
  split
  · trivial
  split <;> exact h
theorem execLinkRetrainComplete_inv (l : LinkId) (h : s.Inv) : OutInv (execLinkRetrainComplete l s) := by
  unfold execLinkRetrainComplete
  split
  · trivial
  split <;> exact h
theorem execRouterForward_inv (k : Nat) (h : s.Inv) : OutInv (execRouterForward k s) := by
  unfold execRouterForward
  split
  · exact h
  split
  · exact h
  extract_lets +onlyGivenNames next ahead
  clear_value ahead
  split
  · exact h
  split
  · split
    · exact h
    · refine h.mapMem fun hm => ?_
      split <;> exact hm
  · exact h
theorem execOpticalNak_inv (f : FlitRef) (h : s.Inv) : OutInv (execOpticalNak f s) := by
  unfold execOpticalNak
  dsimp only
  split
  · trivial
  split
  · split <;> exact h
  · exact h
theorem execFibreRetrain_inv (f good : Nat) (h : s.Inv) : OutInv (execFibreRetrain f good s) := by
  unfold execFibreRetrain
  split
  · trivial
  · refine h.happens ?_
    split
    · split
      · trivial
      · extract_lets +onlyGivenNames v w
        have hv : v.Inv := h.logs (fun _ _ => ⟨_, rfl⟩) _
        clear_value v
        have hw : w.Inv := hv
        clear_value w
        show State.Inv (if _ then _ else _)
        split <;> exact hw
    · trivial
theorem execFibreComesBack_inv (f : Nat) (h : s.Inv) : OutInv (execFibreComesBack f s) := by
  unfold execFibreComesBack
  split
  · trivial
  split
  · split <;> exact h
  · exact h
theorem execHashBucketMove_inv (b f : Nat) (h : s.Inv) : OutInv (execHashBucketMove b f s) := by
  unfold execHashBucketMove
  split
  · split <;> exact h
  · exact h
theorem execOpticalTransit_inv (p : Nat) (pkt : Packet) (h : s.Inv) : OutInv (execOpticalTransit p pkt s) := by
  unfold execOpticalTransit
  split
  · trivial
  split
  · exact h
  · dsimp only
    split
    · exact h
    · exact (h.sendPacket _).getD h
theorem State.Inv.arrives (h : s.Inv) (cls : MClass) (pkg hops addr : Nat) {f : State → State} (hf : ∀ t, t.Inv → (f t).Inv) :
    (s.arrives cls pkg hops addr f).Inv := by
  unfold State.arrives
  split
  · exact h
  · exact hf _ h
theorem execRouteEntryWrite_inv (p k : Nat) (v : BitVec 32) (h : s.Inv) : OutInv (execRouteEntryWrite p k v s) := by
  unfold execRouteEntryWrite
  split
  · trivial
  · exact h.regWrite ..
theorem execXtocfgWrite_inv (site : Site) (v : BitVec 32) (h : s.Inv) : OutInv (execXtocfgWrite site v s) := by
  unfold execXtocfgWrite
  split
  · trivial
  · exact h.setReg _ _
theorem execPkgnumWrite_inv (v : BitVec 32) (h : s.Inv) : OutInv (execPkgnumWrite v s) := by
  show State.Inv (if _ then _ else _)
  split
  · exact h
  · exact h.setReg _ _

/-! ### Loans, the pool and the aperture (R43 to R48, R152) -/

theorem execLrbaseWrite_inv (r : Nat) (v : BitVec 64) (h : s.Inv) : OutInv (execLrbaseWrite r v s) := by
  unfold execLrbaseWrite
  split
  · trivial
  extract_lets +onlyGivenNames old new x
  clear_value x
  split
  · split
    · exact h
    split
    · exact h
    · exact h.setReg _ _
  split
  · exact h
  · exact h.setReg _ _
theorem execLrgrantWrite_inv (r g : Nat) (v : BitVec 64) (h : s.Inv) : OutInv (execLrgrantWrite r g v s) := by
  unfold execLrgrantWrite
  split
  · trivial
  · show State.Inv (if _ then _ else _)
    split
    · exact (h.setReg _ _).setReg _ _
    · exact h.setReg _ _
theorem execGrantWithdrawComplete_inv (r : Nat) (h : s.Inv) : OutInv (execGrantWithdrawComplete r s) := by
  unfold execGrantWithdrawComplete
  split
  · trivial
  split
  · exact h
  extract_lets +onlyGivenNames x mine
  clear_value mine
  split
  · exact h
  · exact State.Inv.setReg (State.Inv.callBack (State.Inv.foldl (fun _ _ hy => State.Inv.homeClear hy _) _ h) _) _ _
/-- The state that an access to a lent region leaves keeps the invariant. -/
def ExtInv : ExtOut → Prop | .ok _ s => s.Inv | .refused _ => True | .wait => True
theorem State.Inv.loanAccess (h : s.Inv) (r off : Nat) (who : Grantee) (acc : ExtAccess) : ExtInv (s.loanAccess r off who acc) := by
  unfold State.loanAccess
  extract_lets +onlyGivenNames dk parts place
  clear_value place
  split
  · trivial
  split
  · trivial
  · refine parts.foldlRecOn (motive := ExtInv) _ (show ExtInv (.ok [] s) from h) fun o ho q _ => ?_
    split
    next v =>
      have hv : v.Inv := ho
      split
      · trivial
      · extract_lets +onlyGivenNames w
        clear_value w
        split
        next heq => exact hv.extLine _ _ _ _ _ _ _ heq
        next => trivial
    next => exact ho
theorem execPoolAccess_inv (who : PoolSource) (region off : Nat) (acc : ExtAccess) (h : s.Inv) : OutInv (execPoolAccess who region off acc s) := by
  unfold execPoolAccess
  dsimp only
  split
  · exact h
  split
  · exact h.arrives _ _ _ _ fun _ hv => hv
  · have ha := h.loanAccess region off who.who acc
    split
    · exact h
    · exact h
    next heq =>
      rw [heq] at ha
      exact State.Inv.of_eq ha rfl rfl
theorem execCompositionEntryWrite_inv (n : Nat) (v : BitVec 64) (h : s.Inv) : OutInv (execCompositionEntryWrite n v s) := by
  unfold execCompositionEntryWrite
  split
  · trivial
  · exact h.setReg _ _
theorem State.Inv.compMiss (h : s.Inv) (port dpa : Nat) (acc : ExtAccess) : (s.compMiss port dpa acc).Inv := h
theorem State.Inv.poolSet (h : s.Inv) (a : Nat) (bs : List (BitVec 8)) : (s.mapMem fun x => { x with pool := x.pool.write a bs }).Inv := by
  refine h.mapMem fun hm => ?_
  rw [MemState.canonical_iff] at *
  obtain ⟨hd, hw, hs, ht, hh, hp⟩ := hm
  exact ⟨hd, hw, hs, ht, hh, Mem.wf_write hp ..⟩
theorem State.Inv.farAccess (h : s.Inv) (port pkg region byte : Nat) (acc : ExtAccess) : ExtInv (s.farAccess port pkg region byte acc) := by
  unfold State.farAccess
  extract_lets +onlyGivenNames base
  split
  · trivial
  · extract_lets +onlyGivenNames v
    have hv : v.Inv := (h.sendPacket _).getD h
    clear_value v
    split
    · exact hv
    · exact hv.poolSet ..
theorem execCxlMemAccess_inv (port dpa : Nat) (acc : ExtAccess) (h : s.Inv) : OutInv (execCxlMemAccess port dpa acc s) := by
  unfold execCxlMemAccess
  split
  · trivial
  split
  · exact h
  split
  · exact h
  extract_lets +onlyGivenNames e region byte pkg
  clear_value region byte pkg
  split
  · exact h.compMiss ..
  extract_lets +onlyGivenNames r
  have hr : ExtInv r := by
    dsimp only [r]
    split
    · exact h.loanAccess ..
    · exact h.farAccess ..
  clear_value r
  split
  · exact h
  · split
    · exact h
    · exact h.compMiss ..
  next v => exact State.Inv.of_eq (s := v) hr rfl rfl
theorem execBar4Access_inv (port off : Nat) (acc : ExtAccess) (h : s.Inv) : OutInv (execBar4Access port off acc s) := by
  unfold execBar4Access
  split
  · trivial
  split
  · exact h
  split
  · exact h
  split
  · exact h
  · extract_lets +onlyGivenNames bad
    have hbad (v : State) (hv : v.Inv) : OutInv (bad v) := hv
    clear_value bad
    split
    · split
      next heq =>
        have hv := (h.ownRead ..).ok heq
        exact hv
      next heq => exact hbad _ ((h.ownRead ..).bad heq)
      next => exact h
    · split
      next heq => exact (h.ownWrite ..).ok heq
      next heq => exact hbad _ ((h.ownWrite ..).bad heq)
      next => exact h

end

end Sys2Proof.Machine


/-! Canonical form (O59): queues, admission, placement, pre-emption, the end of tasks, tables, posts and failures. -/

namespace Sys2Proof.Machine

section
variable {s t : State} {u : Issuer}

/-! ### Queues and records (R53 to R59) -/

theorem execQueueEnable_inv (q : Nat) (v : BitVec 32) (h : s.Inv) : OutInv (execQueueEnable q v s) := by
  unfold execQueueEnable
  split
  · trivial
  split
  · exact h
  split
  · exact h
  · exact h.enableQueue ..
theorem execQueueDisable_inv (q : Nat) (v : BitVec 32) (h : s.Inv) : OutInv (execQueueDisable q v s) := by
  unfold execQueueDisable
  split
  · trivial
  split
  · exact h
  · extract_lets +onlyGivenNames v
    have hv : v.Inv := (h.setReg _ _).dropPending _
    clear_value v
    exact hv.of_eq rfl rfl
theorem execQstatClear_inv (q : Nat) (v : BitVec 32) (h : s.Inv) : OutInv (execQstatClear q v s) := by
  unfold execQstatClear
  split
  · trivial
  · exact h.setReg _ _
theorem execTailWrite_inv (src : TailSource) (q : Nat) (x : BitVec 32) (h : s.Inv) : OutInv (execTailWrite src q x s) := by
  unfold execTailWrite
  split
  · trivial
  refine h.happens ?_
  split
  · trivial
  extract_lets +onlyGivenNames k
  split
  next heq => exact (h.takeMsg heq).tailIn ..
  next => trivial
  next =>
    show State.Inv (if _ then _ else _)
    split
    · exact h.tailIn ..
    · exact h
  next =>
    split
    · exact h.arrives _ _ _ _ fun v hv => hv.tailIn ..
    · trivial
theorem State.Inv.pullTimeout (h : s.Inv) (q : Nat) : (s.pullTimeout q).Inv := (State.works_pullTimeout ..).inv h
theorem State.Inv.pullError (h : s.Inv) (q : Nat) : (s.pullError q).Inv := h.setReg _ _
theorem State.Inv.pullData (h : s.Inv) (q va : Nat) : WireInv (s.pullData q va) := by
  unfold State.pullData
  split
  · split
    · exact h
    · exact h.bulk ..
  · exact h
theorem execRecordPull_inv (q : Nat) (ext : List (BitVec 8)) (h : s.Inv) : OutInv (execRecordPull q ext s) := by
  unfold execRecordPull
  split
  · trivial
  refine h.happens ?_
  split
  · trivial
  extract_lets +onlyGivenNames wire
  have hwire : WireInv wire := by
    dsimp only [wire]
    split
    · exact h.pullData ..
    · exact h
  clear_value wire
  split
  · exact hwire
  · trivial
  next v =>
    have hv : v.Inv := hwire
    split
    · trivial
    next heq =>
      have hw := (hv.recordBytes ..).bad heq
      show State.Inv (if _ then _ else _)
      split
      · exact hw.pullTimeout _
      · exact hw.pullError _
    next heq =>
      have hw := (hv.recordBytes ..).ok heq
      extract_lets +onlyGivenNames a x
      have hx : x.Inv := hw.setReg _ _
      clear_value x
      have hy (c : SchedState) : State.Inv { x with sched := c } := hx
      exact State.Inv.headShadow (hy _) _
theorem execRecordReadFail_inv (q : Nat) (h : s.Inv) : OutInv (execRecordReadFail q s) := by
  unfold execRecordReadFail
  split
  · trivial
  split
  · exact h
  · exact h.pullTimeout _
theorem execHeadShadowFail_inv (q : Nat) (h : s.Inv) : OutInv (execHeadShadowFail q s) := by
  unfold execHeadShadowFail
  split
  · trivial
  split
  · exact h
  · exact h.shadowFail ..

/-! ### Clause headers (R164, R219) -/

theorem State.Inv.headerWait (h : s.Inv) (u : Issuer) : (s.headerWait u).Inv := h.setGroup _
theorem State.Inv.headerDone (h : s.Inv) (u : Issuer) : (s.headerDone u).Inv := h
theorem State.Inv.header (h : s.Inv) (u : Issuer) (mbw : Nat) (sdr cpw : Bool) : (s.header u mbw sdr cpw).Inv := by
  unfold State.header
  split
  · exact (h.setGroup _).takeFault ..
  split
  · exact h.raiseCopy ..
  split
  · exact h.setGroup _
  split
  · exact h.headerWait _
  generalize (if cpw = true then s.errCopy u.t.core u.g.id else none) = o
  cases o with
  | some p => exact h.raiseCopy ..
  | none =>
    dsimp only
    split
    · exact h.headerWait _
    split
    · exact h.headerWait _
    · exact h.headerDone _
theorem execClauseHeader_inv (n : Fin 16) (cls : Fin 8) (mbw : Fin 16) (sdr cpw : Bool) (h : s.Inv) : OutInv (execClauseHeader n cls mbw sdr cpw s) := by
  unfold execClauseHeader
  split
  · trivial
  split
  · exact h
  split
  · exact h.takeFault ..
  · exact h.header ..

/-! ### Admission (R61 to R65) -/

theorem execMsixSend_inv (tid : Nat) (h : s.Inv) : OutInv (execMsixSend tid s) := by
  unfold execMsixSend
  split
  · extract_lets +onlyGivenNames waits
    refine .ite (fun _ => h) fun _ => ?_
    show State.Inv (State.sendMsix _ _ _)
    refine State.Inv.sendMsix ?_ _ _
    exact h.of_eq rfl rfl
  · exact h
theorem execTaskAdmit_inv (q : Nat) (h : s.Inv) : OutInv (execTaskAdmit q s) := by
  unfold execTaskAdmit
  split
  · split
    · exact h.happens (h.tryAdmit _)
    · exact h
  · exact h
theorem execAdmissionRetry_inv (q : Nat) (h : s.Inv) : OutInv (execAdmissionRetry q s) := by
  unfold execAdmissionRetry
  split
  · split
    · exact h.happens (h.tryAdmit _)
    · exact h
  · exact h

/-! ### Placement and start (R76, R83 to R94) -/

theorem execHazardRelease_inv (tid : Nat) (h : s.Inv) : OutInv (execHazardRelease tid s) := by
  unfold execHazardRelease
  split
  · exact h
  split
  · exact h
  · exact h.setTask _
theorem execTaskPlace_inv (tid set : Nat) (spots : List TeamSpot) (cwbase : Nat) (h : s.Inv) : OutInv (execTaskPlace tid set spots cwbase s) := by
  refine h.happens ?_
  split
  · trivial
  split
  · split
    · trivial
    · exact h.place ..
  · trivial
theorem execTaskResume_inv (tid set : Nat) (spots : List TeamSpot) (h : s.Inv) : OutInv (execTaskResume tid set spots s) := by
  refine h.happens ?_
  split
  · trivial
  split
  · split
    · trivial
    · exact h.resumeAt ..
  · trivial
theorem execAgeingReserve_inv (tid set : Nat) (h : s.Inv) : OutInv (execAgeingReserve tid set s) := by
  unfold execAgeingReserve
  split
  · exact h
  split
  · exact h
  split
  · exact h
  extract_lets +onlyGivenNames hint units room
  clear_value units
  split
  · exact h
  · exact h.setTask _
theorem execEdgeInvalidate_inv (tid die : Nat) (h : s.Inv) : OutInv (execEdgeInvalidate tid die s) := by
  unfold execEdgeInvalidate
  split
  · exact h
  extract_lets +onlyGivenNames due
  clear_value due
  split
  · exact h
  · exact State.Inv.setTask (State.Inv.foldl (fun _ _ hv => State.Inv.foldl (fun _ _ hw => State.Inv.flushDie hw ..) _ hv) _ h) _
theorem execTeamStart_inv (tid set : Nat) (h : s.Inv) : OutInv (execTeamStart tid set s) := by
  refine h.happens ?_
  split
  · trivial
  extract_lets +onlyGivenNames ts
  split
  · trivial
  split
  · split
    · trivial
    extract_lets +onlyGivenNames v r
    have hv : v.Inv := State.Inv.foldl (fun _ _ hw => State.Inv.openCore hw ..) _ h
    clear_value v
    have hr : OwnInv r := by
      refine OwnInv.foldl (fun o x ho => ?_) _ (show OwnInv (.ok () v) from hv)
      split
      next w =>
        have hw : w.Inv := ho
        split
        · exact hw.restoreTeam ..
        · exact hw.startTeam ..
      next => exact ho
    clear_value r
    split
    · trivial
    next w => exact State.Inv.taskFault (s := w) hr ..
    next w =>
      have hw : w.Inv := hr
      split
      · exact hw
      · exact hw.putTask _
  · trivial

/-! ### Pre-emption (R90 to R95) -/

theorem State.Inv.blocksSet (h : s.Inv) (ps : List (Team × BlockLoc)) : (ps.foldl (fun s p => s.setTeam { p.1 with block := p.2 }) s).Inv :=
  State.Inv.foldl (fun _ _ hv => State.Inv.setTeam hv _) _ h
theorem execPreemptChoose_inv (tid vtid vset : Nat) (h : s.Inv) : OutInv (execPreemptChoose tid vtid vset s) := by
  refine h.happens ?_
  split
  · extract_lets +onlyGivenNames vs after
    clear_value after
    clear_value vs
    split
    · trivial
    split
    · trivial
    split
    · exact h.unplace ..
    · split
      · trivial
      · exact (h.blocksSet _).putTask _
  · trivial
theorem State.Inv.privEvict (h : s.Inv) (die asid line : Nat) : OptInv (s.privEvict die asid line) := by
  refine .bind fun p _ => ?_
  split
  next heq =>
    refine OwnInv.ok (OwnInv.foldl (fun o c ho => ?_) _ (show OwnInv (.ok () s) from h)) heq
    split
    next v => exact State.Inv.blockWrite (s := v) ho ..
    next => exact ho
  next => trivial
theorem State.Inv.evictLine (h : s.Inv) (n : Node) (asid line : Nat) : OptInv (s.evictLine n asid line) := by
  unfold State.evictLine
  extract_lets +onlyGivenNames a
  split
  · split
    · split
      · exact h.privEvict ..
      · trivial
    · trivial
  · split
    · trivial
    split
    · exact h.evictL1 ..
    · exact h.flushDie ..
    · split
      · exact h.mapMem fun hm => hm
      · trivial
theorem execLineEviction_inv (n : Node) (asid line : Nat) (ecc : Ecc) (h : s.Inv) : OutInv (execLineEviction n asid line ecc s) :=
  h.happens (.map fun u hu => by
    split
    · exact (h.evictLine ..).some hu
    · exact (State.Inv.evictLine (h.found ..) ..).getD (h.found ..))
theorem State.Inv.finishHead (h : s.Inv) (tid set : Nat) (c : CoreId) : (s.finishHead tid set c).Inv := by
  unfold State.finishHead
  split
  · split
    · split
      next heq => exact (execMatrixKStep_inv c .clean h).next heq
      next => exact h
    · exact h
  · exact h
theorem execPreemptSequence_inv (tid set : Nat) (h : s.Inv) : OutInv (execPreemptSequence tid set s) := by
  refine h.happens ?_
  split
  · trivial
  extract_lets +onlyGivenNames ts gs dies
  clear_value dies
  clear_value ts gs
  split
  · trivial
  split
  · trivial
  split
  · split
    · trivial
    · exact State.Inv.setStep (State.Inv.foldl (fun _ _ hv => State.Inv.setTeam hv _) _ (State.Inv.foldl (fun _ _ hv => State.Inv.stopWfa hv _) _ h)) ..
  · split
    · trivial
    · exact h.setStep ..
  · exact State.Inv.setStep (State.Inv.foldl (fun _ _ hv => State.Inv.finishHead hv ..) _ h) ..
  · split
    · trivial
    have hr := h.releaseDies (by assumption : Task).asid dies
    split
    next => trivial
    next heq =>
      rw [heq] at hr
      exact hr
    next =>
      split
      next => trivial
      next heq => exact State.Inv.taskFault ((h.writeBlocks ..).bad heq) ..
      next heq => exact State.Inv.setStep (State.Inv.foldl (fun _ _ hv => State.Inv.strip hv _) _ ((h.writeBlocks ..).ok heq)) ..
  · exact State.Inv.setStep (State.Inv.foldl (fun _ _ hv => State.Inv.cleanDie hv ..) _ h) ..
  · trivial
theorem execPreemptComplete_inv (tid set : Nat) (h : s.Inv) : OutInv (execPreemptComplete tid set s) := by
  unfold execPreemptComplete
  split
  · exact h
  extract_lets +onlyGivenNames own busy
  clear_value busy
  split
  · exact h
  split
  · exact h
  · exact State.Inv.putTask (s := s.without _) (h.of_eq rfl rfl) _

/-! ### The end of tasks (R66, R72 to R82) -/

theorem execTaskFaultEnd_inv (tid : Nat) (h : s.Inv) : OutInv (execTaskFaultEnd tid s) := by
  unfold execTaskFaultEnd
  split
  · exact h
  extract_lets +onlyGivenNames words copies
  split
  · exact h
  · exact (h.clearTask _).setTask _
theorem execTaskDrain_inv (tid : Nat) (h : s.Inv) : OutInv (execTaskDrain tid s) := by
  refine h.happens ?_
  split
  · trivial
  extract_lets +onlyGivenNames active
  clear_value active
  refine .ite (fun _ => trivial) fun _ => ?_
  extract_lets +onlyGivenNames v w x
  have hv : v.Inv := h.of_eq rfl rfl
  clear_value v
  have hw : w.Inv := hv.setTask _
  clear_value w
  have hx : x.Inv := by
    dsimp only [x]
    split
    · exact hw.sendBackInv
    · exact hw
  clear_value x
  split
  · exact hx
  split
  next => trivial
  next heq => exact (hx.readList ..).bad heq
  next heq =>
    have hy := State.Inv.chooseCouch ((hx.readList ..).ok heq)
    dsimp only
    show State.Inv (match State.task? _ tid with | some _ => _ | none => _)
    split
    · exact (hy ..).setTask _
    · exact hy ..
theorem execEdgeWriteback_inv (tid die : Nat) (h : s.Inv) : OutInv (execEdgeWriteback tid die s) := by
  unfold execEdgeWriteback
  split
  · exact h
  next k _ =>
    split
    · exact h
    have hr := h.releaseDies k.asid [die]
    split
    next => exact h
    next heq =>
      rw [heq] at hr
      exact hr
    next =>
      extract_lets +onlyGivenNames v w
      have hv : v.Inv := by
        dsimp only [v]
        split
        · exact h.flushHost _
        · exact h
      clear_value v
      have hw : w.Inv := hv.drainDie ..
      clear_value w
      split
      · exact hw.setTask _
      · exact hw
theorem execTaskDone_inv (tid : Nat) (h : s.Inv) : OutInv (execTaskDone tid s) := by
  unfold execTaskDone
  split
  · split
    · exact h.happens (h.finishTask ..)
    · exact h
  · exact h
theorem execCompletionStoreFail_inv (tid : Nat) (h : s.Inv) : OutInv (execCompletionStoreFail tid s) := by
  refine h.happens ?_
  split
  · split
    · trivial
    next a _ _ =>
      split
      · trivial
      have hc := h.check a
      split
      next heq =>
        rw [heq] at hc
        exact State.Inv.rejectRecord hc ..
      next => trivial
  split
  · split
    · exact h.finishTask ..
    · trivial
  · trivial
theorem State.Inv.forget (h : s.Inv) (tid : Nat) : (s.forget tid).Inv := h.of_eq rfl rfl
theorem State.Inv.depxList (h : s.Inv) (tid addr code : Nat) :
    (s.depxList tid addr code).Inv := h.of_eq rfl rfl
theorem execSuccessorListRead_inv (tid : Nat) (h : s.Inv) : OutInv (execSuccessorListRead tid s) := by
  refine h.happens ?_
  split
  · trivial
  split
  · trivial
  split
  next => trivial
  next heq =>
    have hv := (h.readList ..).bad heq
    exact State.Inv.forget (hv.depxList ..) _
  next heq =>
    dsimp only
    split
    · trivial
    · exact State.Inv.forget (State.Inv.applyList _ _ _ _ ((h.readList ..).ok heq) _) _
theorem execStablePoolWrite_inv (off : Nat) (v : BitVec 64) (h : s.Inv) : OutInv (execStablePoolWrite off v s) := by
  unfold execStablePoolWrite
  split
  · trivial
  split
  · exact h
  · exact h.regWrite ..

/-! ### Registers and tables (R51, R52, R101, R113, R132) -/

theorem execRegisterWrite_inv (off : BarWrite) (v : BitVec 64) (h : s.Inv) : OutInv (execRegisterWrite off v s) := by
  unfold execRegisterWrite
  dsimp only
  split
  · trivial
  split
  · exact h
  split
  · exact h
  split
  · exact h.happens (h.storeWord ..)
  split
  · refine h.happens ?_
    split
    · trivial
    · exact h
    · exact h.regWrite ..
  · exact ((h.storeWord ..).getD h).happens (((h.storeWord ..).getD h).storeWord ..)
theorem execOwnerTableWrite_inv (die n : Nat) (v : BitVec 32) (h : s.Inv) : OutInv (execOwnerTableWrite die n v s) := by
  unfold execOwnerTableWrite
  split
  · trivial
  · exact h.regWrite ..
theorem State.Inv.dieSpPut (h : s.Inv) (a n x : Nat) : (s.mapMem fun y => { y with dieSp := y.dieSp.putNat a n x }).Inv := by
  refine h.mapMem fun hm => ?_
  rw [MemState.canonical_iff] at *
  obtain ⟨hd, hw, hs, ht, hh, hp⟩ := hm
  exact ⟨hd, hw, Mem.wf_write hs .., ht, hh, hp⟩
theorem State.Inv.towerTabPut (h : s.Inv) (a n x : Nat) : (s.mapMem fun y => { y with towerTab := y.towerTab.putNat a n x }).Inv := by
  refine h.mapMem fun hm => ?_
  rw [MemState.canonical_iff] at *
  obtain ⟨hd, hw, hs, ht, hh, hp⟩ := hm
  exact ⟨hd, hw, hs, Mem.wf_write ht .., hh, hp⟩
theorem execHomeTableWrite_inv (die n : Nat) (v : BitVec 128) (h : s.Inv) : OutInv (execHomeTableWrite die n v s) := by
  unfold execHomeTableWrite
  split
  · trivial
  · exact h.dieSpPut ..
theorem execTowerHomeTableWrite_inv (tower n : Nat) (v : BitVec 128) (h : s.Inv) : OutInv (execTowerHomeTableWrite tower n v s) := by
  unfold execTowerHomeTableWrite
  split
  · trivial
  · exact h.towerTabPut ..
theorem execLostMarkClear_inv (tower : Nat) (v : BitVec 32) (h : s.Inv) : OutInv (execLostMarkClear tower v s) := by
  unfold execLostMarkClear
  split
  · trivial
  · exact h.mapMem fun hm => hm

/-! ### Promotion (R126, R127) -/

theorem State.Inv.promLast (h : s.Inv) (tower status : Nat) : (s.promLast tower status).Inv := h.setReg _ _
theorem execPromreqWrite_inv (tower : Nat) (v : BitVec 64) (h : s.Inv) : OutInv (execPromreqWrite tower v s) := by
  unfold execPromreqWrite
  split
  · trivial
  extract_lets +onlyGivenNames cfg tgt asid va56 va
  clear_value va
  clear_value cfg tgt va56
  split
  · exact h
  split
  · exact h.promLast ..
  · exact State.Inv.mapMem ((h.setReg _ _).setReg _ _) fun hm => hm
theorem execPromotionComplete_inv (tower : Nat) (h : s.Inv) : OutInv (execPromotionComplete tower s) := by
  unfold execPromotionComplete
  split
  · exact h
  next p _ =>
    split
    · exact h
    extract_lets +onlyGivenNames v
    have hv : v.Inv := State.Inv.foldl (fun v j hw => (v.memOnly_promPage p j).inv hw) _ h
    clear_value v
    have hw := (State.memOnly_promSwap p 32 0 v).inv hv
    generalize v.promSwap p 32 0 = r at hw
    obtain ⟨w, n⟩ := r
    replace hw : w.Inv := hw
    dsimp -zeta only
    extract_lets +onlyGivenNames x y
    have hx : x.Inv := by
      dsimp only [x]
      split
      · exact (w.memOnly_promUndo p n).inv hw
      · exact hw
    clear_value x
    have hy : y.Inv := State.Inv.mapMem ((x.memOnly_promMoved p n).inv hx) fun hm => hm
    clear_value y
    exact State.Inv.promLast (hy.takeFid.of_eq rfl rfl) ..

/-! ### Posted records (R67, R130, R202) -/

theorem execFaultRecordPost_inv (fid : Nat) (h : s.Inv) : OutInv (execFaultRecordPost fid s) := by
  unfold execFaultRecordPost
  split
  · exact h
  extract_lets +onlyGivenNames before room other
  refine .ite (fun _ => h) fun _ => ?_
  · extract_lets +onlyGivenNames mine v cfg
    have hv : v.Inv := State.Inv.foldl (fun _ _ hw => State.Inv.putFault hw _) _ h
    clear_value cfg v
    show State.Inv (State.sendMsix _ _ _)
    refine State.Inv.sendMsix ?_ _ _
    exact hv.of_eq rfl rfl
theorem execErrorRecordPost_inv (h : s.Inv) : OutInv (execErrorRecordPost s) := by
  unfold execErrorRecordPost
  split
  · exact h
  · extract_lets +onlyGivenNames v w
    have hv : v.Inv := h.of_eq rfl rfl
    clear_value v
    have hw : w.Inv := by
      dsimp only [w]
      split
      · exact hv.putLog _
      · exact hv.setReg _ _
    clear_value w
    show State.Inv (if _ then _ else _)
    split <;> exact hw

/-! ### Failures (R31 to R33, R131 to R133, R199) -/

theorem State.Inv.failDie (h : s.Inv) (die : Nat) : (s.failDie die).Inv := by
  obtain ⟨-, -, -, -, -, hinv⟩ := s.failDie_leaves die
  exact hinv h
theorem execDieFailure_inv (die : Nat) (h : s.Inv) : OutInv (execDieFailure die s) := by
  unfold execDieFailure
  split
  · trivial
  split
  · exact h
  · exact h.failDie _
theorem execLinkRetrainFail_inv (l : LinkId) (h : s.Inv) : OutInv (execLinkRetrainFail l s) := by
  unfold execLinkRetrainFail
  split
  · trivial
  split
  · exact h
  · extract_lets +onlyGivenNames v
    have hv : v.Inv := h
    clear_value v
    show State.Inv (if _ then _ else _)
    split
    · exact hv
    · exact hv.failDie _
theorem execDirectoryScanComplete_inv (tower die : Nat) (h : s.Inv) : OutInv (execDirectoryScanComplete tower die s) := by
  unfold execDirectoryScanComplete
  split
  · exact h
  · extract_lets +onlyGivenNames es lost v w
    have hv : v.Inv := h.mapMem fun hm => hm
    clear_value v
    have hw : w.Inv := State.Inv.foldl (fun x e hx => (x.works_scanEntry die e).inv hx) _ hv
    clear_value w
    exact State.Inv.foldl (fun x e hx => (x.works_scanTxn die lost e).inv hx) _ hw
theorem execTowerFailure_inv (tower : Nat) (h : s.Inv) : OutInv (execTowerFailure tower s) := by
  unfold execTowerFailure
  split
  · trivial
  split
  · exact h
  · exact h.mapMem fun hm => hm
theorem execSliceRebuildComplete_inv (tower : Nat) (h : s.Inv) : OutInv (execSliceRebuildComplete tower s) := by
  unfold execSliceRebuildComplete
  split
  · exact h.mapMem fun hm => hm
  · exact h
theorem execDieReset_inv (die : Nat) (h : s.Inv) : OutInv (execDieReset die s) := by
  unfold execDieReset
  split
  · trivial
  · refine State.Inv.notifyReset (State.Inv.mapMem ?_ fun hm => hm) _
    split
    · exact h
    · exact h.failDie _
theorem execTowerReset_inv (tower : Nat) (h : s.Inv) : OutInv (execTowerReset tower s) := by
  by_cases hi : tower < 72
  · obtain ⟨v, hv, e⟩ := exec_towerReset (s := s) hi
    have e : execTowerReset tower s = .next (v.notifyReset (.tower tower)) := e
    rw [e]
    exact (hv.inv h).notifyReset _
  · unfold execTowerReset
    rw [if_pos (by omega)]
    trivial

/-! ### Mills (R187 to R190) -/

theorem execMillAssign_inv (tid : Nat) (r : MillRef) (h : s.Inv) : OutInv (execMillAssign tid r s) := by
  unfold execMillAssign
  split
  · exact h
  extract_lets +onlyGivenNames n
  split
  · exact h
  · extract_lets +onlyGivenNames v
    have hv : v.Inv := h
    clear_value v
    exact (hv.setTask _).settleMills _
theorem execMillLoadComplete_inv (r : MillRef) (h : s.Inv) : OutInv (execMillLoadComplete r s) := by
  unfold execMillLoadComplete
  split
  · exact h
  split
  · exact h
  split
  · exact h
  · exact (h.setMill _).settleMills _
theorem execMillPreempt_inv (r : MillRef) (h : s.Inv) : OutInv (execMillPreempt r s) := by
  have hchoose (b : Bool) (k : Task) : OutInv (if b then .next (s.chooseMills k r.tower) else s.stays) := by
    split
    · exact h.chooseMills ..
    · exact h
  unfold execMillPreempt
  split
  · exact h
  split
  · exact h
  split
  · exact h
  split
  · split
    · exact h
    · exact h.saveMill _
  · exact hchoose ..
  · exact hchoose ..
  · exact hchoose ..
  · exact h
theorem execMillRestore_inv (tid rank : Nat) (r : MillRef) (h : s.Inv) : OutInv (execMillRestore tid rank r s) := by
  refine h.happens ?_
  split
  · split
    · trivial
    split
    next => trivial
    next heq => exact State.Inv.taskFault ((h.blockRead ..).bad heq) ..
    next heq =>
      have hv := (h.blockRead ..).ok heq
      extract_lets +onlyGivenNames m m' sc v f w
      have hv' : v.Inv := hv.of_eq rfl rfl
      clear_value v
      have hw : w.Inv := by
        dsimp only [w]
        split
        · exact hv'.millTrap ..
        · exact hv'
      clear_value w
      exact hw.settleMills _
  · trivial

end

end Sys2Proof.Machine

/-! ## Every step keeps the canonical form (O59) -/

namespace Sys2Proof.Machine
section
variable {s : State}

/-! ### Every instruction -/

/-- An ALU word is an effect on its group alone. -/
theorem exec_alu_inv {i : Instr} (h : s.Inv) (hc : i.ctx = some (.clause .alu)) : OutInv (exec i s) := by
  obtain ⟨d, ok, top, len, f, hexec, -⟩ := exec_alu_eq_runPureTo hc
  rw [hexec]
  exact h.pureTo ..

/-- The words by the operation they share, then every other word and event by its own lemma. -/
theorem exec_inv (h : s.Inv) (i : Instr) : OutInv (exec i s) := by
  cases i with
  | nop | vbfx | vbfi | vsel | vfrnd | vcmpS | vcmpZ | vfcmp | mand | mor | mxor | mnot | mtoex | mfrex | mfroms | vshfl | vbcast
    | vmxscale | sadd | ssub | smul | smulhS | smulhZ | sdivS | sdivZ | sremS | sremZ | sand | sor | sxor | sshl | sshr | ssar | sminS
    | smaxS | sminZ | smaxZ | scmpS | scmpZ | ssel | smovl | sbfx | sbfi | smad | mpopc | mfirst | mtos | vtos | smov | sclz | spopc | sexw
    | szxw | vadd | vsub | vmul | vmulhS | vmulhZ | vaddsS | vsubsS | vminS | vmaxS | vminZ | vmaxZ | vand | vor | vxor | vshl | vshr
    | vsar | vfadd | vfsub | vfmul | vfmin | vfmax | vfdiv | vmad | vffma | vabsS | vclz | vpopc | vmov | vfabs | vfneg | vfsqrt | vfrcp
    | vfrsq | vfex2 | vflg2 | vfsinp | vfcosp | vfcls | vredaddF32 | vredaddB32 | vredminS | vredmaxS | vredminF32 | vredmaxF32
    | vscanaddF32 | vscanaddB32 | vcvtF32S32 | vcvtF32Z32 | vcvtS32F32 | vcvtZ32F32 | vcvtF16F32 | vcvtBf16F32 | vcvtF32F16 | vcvtF32Bf16
    | vcvtE8F32 | vcvtF32E8 | vcvtN4F32 | vcvtF32N4 => exact exec_alu_inv h rfl
  | ldB8 | ldS8 | ldB16 | ldS16 | ldB32 | ldB64 | ldB128 | ldsB8 | ldsS8 | ldsB16 | ldsS16 | ldsB32 | ldsB64 | ldsB128 | ldcB8 | ldcS8
    | ldcB16 | ldcS16 | ldcB32 | ldcB64 | ldcB128 | lddB8 | lddS8 | lddB16 | lddS16 | lddB32 | lddB64 | lddB128 | ldpB8 | ldpS8 | ldpB16
    | ldpS16 | ldpB32 | ldpB64 | ldpB128 => exact vload_inv (h := h) ..
  | stB8 | stB16 | stB32 | stB64 | stB128 | stsB8 | stsB16 | stsB32 | stsB64 | stsB128 | stcB8 | stcB16 | stcB32 | stcB64 | stcB128 | stdB8
    | stdB16 | stdB32 | stdB64 | stdB128 | stpB8 | stpB16 | stpB32 | stpB64 | stpB128 => exact vstore_inv (h := h) ..
  | stN4 | stsN4 => exact nstore_inv (h := h) ..
  | sldB32 | sldB64 | sldsB64 => exact sload_inv (h := h) ..
  | sstB32 | sstB64 | sstsB64 => exact sstore_inv (h := h) ..
  | atomAddB32 | atomAddF32 | atomMinS32 | atomMaxS32 | atomMinZ32 | atomMaxZ32 | atomAnd | atomOr | atomXor | atomXchg | atomCas
    | atomAddB64 | atomCasB64 => exact vatom_inv (h := h) ..
  | atomsAddB32 | atomsAddF32 | atomsMinS32 | atomsMaxS32 | atomsMinZ32 | atomsMaxZ32 | atomsAnd | atomsOr | atomsXor | atomsXchg
    | atomsCas | atomsAddB64 | atomsCasB64 => exact vatoms_inv (h := h) ..
  | satomAddB64 | satomCasB64 => exact satom_inv (h := h) ..
  | redAddB32 | redAddF32 | redMinS32 | redMaxS32 | redAnd | redOr | redXor => exact vred_inv (h := h) ..
  | cpy | cpy2 | cpyg | cpys | cpym | cpyr | cpyf | mred => exact copyWord_inv (h := h) ..
  | mma | mmaz => exact mmaWord_inv (h := h) ..
  | br | bcc | bmz | bmnz | bxz | bxnz => exact branch_inv (h := h) ..
  | millAdd | millSub | millMul | millMulh | millAnd | millOr | millXor | millShl | millShr | millSar | millSlt | millSltz | millMin
    | millMax => exact h.mill fun _ => h
  | millAddi | millAndi | millOri | millXori | millShfi => exact h.mill fun _ => h
  | millLd64 d a imm => exact show OutInv (execMillLd64 d a imm s) from millLocal_inv (h := h) ..
  | millSt64 d a imm => exact show OutInv (execMillSt64 d a imm s) from millLocal_inv (h := h) ..
  | millLd32 d a imm => exact show OutInv (execMillLd32 d a imm s) from millLocal_inv (h := h) ..
  | millSt32 d a imm => exact show OutInv (execMillSt32 d a imm s) from millLocal_inv (h := h) ..
  | millWld w buf a imm => exact show OutInv (execMillWld w buf a imm s) from millLocal_inv (h := h) ..
  | millWst w buf a imm => exact show OutInv (execMillWst w buf a imm s) from millLocal_inv (h := h) ..
  | millBeq a b off => exact show OutInv (execMillBeq a b off s) from millBranch_inv (h := h) ..
  | millBne a b off => exact show OutInv (execMillBne a b off s) from millBranch_inv (h := h) ..
  | millBlt a b off => exact show OutInv (execMillBlt a b off s) from millBranch_inv (h := h) ..
  | millBge a b off => exact show OutInv (execMillBge a b off s) from millBranch_inv (h := h) ..
  | millWaddB32 | millWsubB32 | millWmulB32 | millWfadd | millWfmul | millWfmax | millWfmin => exact h.mill fun _ => h
  | millRowcp m d src => exact show OutInv (execMillRowcp m d src s) from rowWord_inv (h := h) ..
  | millRowzero m p => exact show OutInv (execMillRowzero m p s) from rowWord_inv (h := h) ..
  | millRowbuf p idx => exact show OutInv (execMillRowbuf p idx s) from rowWord_inv (h := h) ..
  | millBufrow p idx => exact show OutInv (execMillBufrow p idx s) from rowWord_inv (h := h) ..
  | millRowinv m p => exact show OutInv (execMillRowinv m p s) from rowWord_inv (h := h) ..
  | partReset => exact h.partReset
  | bootPhase => exact execBootPhase_inv (h := h) ..
  | bootPhaseLimitExpiry => exact execBootPhaseLimitExpiry_inv (h := h)
  | clockStretchChange => exact execClockStretchChange_inv (h := h) ..
  | freezeRequest => exact execFreezeRequest_inv (h := h)
  | debugFreezeRequest => exact execDebugFreezeRequest_inv (h := h)
  | sheetFreeze => exact execSheetFreeze_inv (h := h) ..
  | thaw => exact execThaw_inv (h := h)
  | frzctlReset => exact execFrzctlReset_inv (h := h)
  | readout1687 => exact execReadout1687_inv (h := h) ..
  | debugGrant => exact execDebugGrant_inv (h := h) ..
  | farrierLost => exact execFarrierLost_inv (h := h) ..
  | linkFlitCrcFail => exact execLinkFlitCrcFail_inv (h := h) ..
  | linkRetrain => exact execLinkRetrain_inv (h := h) ..
  | linkRetrainFail => exact execLinkRetrainFail_inv (h := h) ..
  | routerForward => exact execRouterForward_inv (h := h) ..
  | opticalNak => exact execOpticalNak_inv (h := h) ..
  | fibreRetrain => exact execFibreRetrain_inv (h := h) ..
  | hashBucketMove => exact execHashBucketMove_inv (h := h) ..
  | opticalTransit => exact execOpticalTransit_inv (h := h) ..
  | routeEntryWrite => exact execRouteEntryWrite_inv (h := h) ..
  | responseArrival => exact execResponseArrival_inv (h := h) ..
  | watermarkNotice => exact execWatermarkNotice_inv (h := h) ..
  | requestTimeout => exact execRequestTimeout_inv (h := h) ..
  | xtocfgWrite => exact execXtocfgWrite_inv (h := h) ..
  | pkgnumWrite => exact execPkgnumWrite_inv (h := h) ..
  | lrbaseWrite => exact execLrbaseWrite_inv (h := h) ..
  | lrgrantWrite => exact execLrgrantWrite_inv (h := h) ..
  | grantWithdrawComplete => exact execGrantWithdrawComplete_inv (h := h) ..
  | poolAccess => exact execPoolAccess_inv (h := h) ..
  | compositionEntryWrite => exact execCompositionEntryWrite_inv (h := h) ..
  | cxlMemAccess => exact execCxlMemAccess_inv (h := h) ..
  | bar4Access => exact execBar4Access_inv (h := h) ..
  | registerWrite => exact execRegisterWrite_inv (h := h) ..
  | queueEnable => exact execQueueEnable_inv (h := h) ..
  | queueDisable => exact execQueueDisable_inv (h := h) ..
  | qstatClear => exact execQstatClear_inv (h := h) ..
  | tailWrite => exact execTailWrite_inv (h := h) ..
  | recordPull => exact execRecordPull_inv (h := h) ..
  | recordReadFail => exact execRecordReadFail_inv (h := h) ..
  | headShadowFail => exact execHeadShadowFail_inv (h := h) ..
  | taskAdmit => exact execTaskAdmit_inv (h := h) ..
  | admissionRetry => exact execAdmissionRetry_inv (h := h) ..
  | successorListRead => exact execSuccessorListRead_inv (h := h) ..
  | hazardRelease => exact execHazardRelease_inv (h := h) ..
  | taskPlace => exact execTaskPlace_inv (h := h) ..
  | ageingReserve => exact execAgeingReserve_inv (h := h) ..
  | edgeInvalidate => exact execEdgeInvalidate_inv (h := h) ..
  | teamStart => exact execTeamStart_inv (h := h) ..
  | preemptChoose => exact execPreemptChoose_inv (h := h) ..
  | preemptSequence => exact execPreemptSequence_inv (h := h) ..
  | preemptComplete => exact execPreemptComplete_inv (h := h) ..
  | taskResume => exact execTaskResume_inv (h := h) ..
  | taskDrain => exact execTaskDrain_inv (h := h) ..
  | edgeWriteback => exact execEdgeWriteback_inv (h := h) ..
  | taskDone => exact execTaskDone_inv (h := h) ..
  | taskFaultEnd => exact execTaskFaultEnd_inv (h := h) ..
  | completionStoreFail => exact execCompletionStoreFail_inv (h := h) ..
  | msixSend => exact execMsixSend_inv (h := h) ..
  | stablePoolWrite => exact execStablePoolWrite_inv (h := h) ..
  | millAssign => exact execMillAssign_inv (h := h) ..
  | millLoadComplete => exact execMillLoadComplete_inv (h := h) ..
  | millPreempt => exact execMillPreempt_inv (h := h) ..
  | millRestore => exact execMillRestore_inv (h := h) ..
  | ownerTableWrite => exact execOwnerTableWrite_inv (h := h) ..
  | homeTableWrite => exact execHomeTableWrite_inv (h := h) ..
  | towerHomeTableWrite => exact execTowerHomeTableWrite_inv (h := h) ..
  | gets => exact execGets_inv (h := h) ..
  | getx => exact execGetx_inv (h := h) ..
  | upgr => exact execUpgr_inv (h := h) ..
  | inv => exact execInv_inv (h := h) ..
  | fwds => exact execFwds_inv (h := h) ..
  | fwdx => exact execFwdx_inv (h := h) ..
  | recallMsg => exact execRecallMsg_inv (h := h) ..
  | drain => exact execDrain_inv (h := h) ..
  | drainack => exact execDrainack_inv (h := h) ..
  | data => exact execData_inv (h := h) ..
  | datax => exact execDatax_inv (h := h) ..
  | invack => exact execInvack_inv (h := h) ..
  | wbdirty => exact execWbdirty_inv (h := h) ..
  | wRegistrationTimer => exact execWRegistrationTimer_inv (h := h) ..
  | lineEviction => exact execLineEviction_inv (h := h) ..
  | towerCacheEviction => exact execTowerCacheEviction_inv (h := h) ..
  | pageWalk => exact execPageWalk_inv (h := h) ..
  | promreqWrite => exact execPromreqWrite_inv (h := h) ..
  | promotionComplete => exact execPromotionComplete_inv (h := h) ..
  | lostMarkClear => exact execLostMarkClear_inv (h := h) ..
  | faultRecordPost => exact execFaultRecordPost_inv (h := h) ..
  | dieFailure => exact execDieFailure_inv (h := h) ..
  | directoryScanComplete => exact execDirectoryScanComplete_inv (h := h) ..
  | towerFailure => exact execTowerFailure_inv (h := h) ..
  | sliceRebuildComplete => exact execSliceRebuildComplete_inv (h := h) ..
  | dieReset => exact execDieReset_inv (h := h) ..
  | towerReset => exact execTowerReset_inv (h := h) ..
  | loadResponse => exact execLoadResponse_inv (h := h) ..
  | matrixKStep => exact execMatrixKStep_inv (h := h) ..
  | copyStart => exact execCopyStart_inv (h := h) ..
  | copyUnitComplete => exact execCopyUnitComplete_inv (h := h) ..
  | tethcfgWrite => exact execTethcfgWrite_inv (h := h) ..
  | tethcntWrite => exact execTethcntWrite_inv (h := h) ..
  | tetherArrival => exact execTetherArrival_inv (h := h) ..
  | tetherRelease => exact execTetherRelease_inv (h := h) ..
  | exitComplete => exact execExitComplete_inv (h := h) ..
  | rowStepStart => exact execRowStepStart_inv (h := h) ..
  | rowStepComplete => exact execRowStepComplete_inv (h := h) ..
  | refresh => exact execRefresh_inv (h := h) ..
  | refreshComplete => exact execRefreshComplete_inv (h := h) ..
  | bankLockTaken => exact execBankLockTaken_inv (h := h) ..
  | bankLockForcedRelease => exact execBankLockForcedRelease_inv (h := h) ..
  | wfaWake => exact execWfaWake_inv (h := h) ..
  | mparkWake => exact execMparkWake_inv (h := h) ..
  | errorRecordPost => exact execErrorRecordPost_inv (h := h)
  | attestationGo => exact execAttestationGo_inv (h := h) ..
  | attestationDone => exact execAttestationDone_inv (h := h)
  | clauseHeader => exact execClauseHeader_inv (h := h) ..
  | homeAtomic => exact execHomeAtomic_inv (h := h) ..
  | nearMemoryReduction => exact execNearMemoryReduction_inv (h := h) ..
  | fence => exact execFence_inv (h := h) ..
  | pref _ _ _ nt => exact execPref_inv (nt := nt) (h := h) ..
  | cwb => exact execCwb_inv (h := h) ..
  | cinv => exact execCinv_inv (h := h) ..
  | dkflush => exact execDkflush_inv (h := h) ..
  | mbatch => exact execMbatch_inv (h := h) ..
  | mwait => exact execMwait_inv (h := h) ..
  | mdrain => exact execMdrain_inv (h := h) ..
  | mdrainx => exact execMdrainx_inv (h := h) ..
  | mfill => exact execMfill_inv (h := h) ..
  | mzero => exact execMzero_inv (h := h) ..
  | mrdv => exact execMrdv_inv (h := h) ..
  | mwrv => exact execMwrv_inv (h := h) ..
  | mprog => exact execMprog_inv (h := h) ..
  | call => exact execCall_inv (h := h) ..
  | callIndirect => exact execCallIndirect_inv (h := h) ..
  | ret => exact execRet_inv (h := h)
  | jmpi => exact execJmpi_inv (h := h) ..
  | exif => exact execExif_inv (h := h) ..
  | exelse => exact execExelse_inv (h := h)
  | exend => exact execExend_inv (h := h)
  | tbar => exact execTbar_inv (h := h) ..
  | tarr => exact execTarr_inv (h := h) ..
  | twait => exact execTwait_inv (h := h) ..
  | cbar => exact execCbar_inv (h := h) ..
  | tethArr => exact execTethArr_inv (h := h) ..
  | tethWait => exact execTethWait_inv (h := h) ..
  | tlaunch => exact execTlaunch_inv (h := h) ..
  | qtail => exact execQtail_inv (h := h) ..
  | exit => exact execExit_inv (h := h)
  | trap o => exact execTrap_inv (o := o) (h := h)
  | brk o => exact execBrk_inv (o := o) (h := h)
  | wfa => exact execWfa_inv (h := h) ..
  | rdsys => exact execRdsys_inv (h := h) ..
  | wrsys => exact execWrsys_inv (h := h) ..
  | topo => exact execTopo_inv (h := h) ..
  | tnow => exact execTnow_inv (h := h) ..
  | pmrd => exact execPmrd_inv (h := h) ..
  | fltack => exact execFltack_inv (h := h) ..
  | xlinv => exact execXlinv_inv (h := h) ..
  | dbgmk => exact execDbgmk_inv (h := h) ..
  | millLui => exact execMillLui_inv (h := h) ..
  | millLdt => exact execMillLdt_inv (h := h) ..
  | millStt => exact execMillStt_inv (h := h) ..
  | millJal => exact execMillJal_inv (h := h) ..
  | millJr => exact execMillJr_inv (h := h) ..
  | millWffma => exact execMillWffma_inv (h := h) ..
  | millWredaddF32 => exact execMillWredaddF32_inv (h := h) ..
  | millWcmp => exact execMillWcmp_inv (h := h) ..
  | millWsel => exact execMillWsel_inv (h := h) ..
  | millWbcast => exact execMillWbcast_inv (h := h) ..
  | millRowmac => exact execMillRowmac_inv (h := h) ..
  | millBanklk => exact execMillBanklk_inv (h := h) ..
  | millBankul => exact execMillBankul_inv (h := h) ..
  | millRowwait => exact execMillRowwait_inv (h := h)
  | millMsync => exact execMillMsync_inv (h := h)
  | millMhalt => exact execMillMhalt_inv (h := h)
  | millMtrap imm => exact execMillMtrap_inv (imm := imm) (h := h)
  | millMrdsr => exact execMillMrdsr_inv (h := h) ..
  | millMwrsr => exact execMillMwrsr_inv (h := h) ..
  | millMpark => exact execMillMpark_inv (h := h) ..
  | linkRetrainComplete => exact execLinkRetrainComplete_inv (h := h) ..
  | retiredTagRelease => exact execRetiredTagRelease_inv (h := h) ..
  | fibreComesBack => exact execFibreComesBack_inv (h := h) ..
  | backInvalidateResponse => exact execBackInvalidateResponse_inv (h := h) ..
  | millLdtSttAtHome => exact execMillLdtSttAtHome_inv (h := h) ..
  | clusterWindowAccess => exact execClusterWindowAccess_inv (h := h) ..
  | tnowRequestArrival => exact execTnowRequestArrival_inv (h := h) ..

/-! ### Fetch (R103, R220, R355, R366) -/

/-- The state that a fetch leaves when it acts instead. -/
def FetchedInv : Fetched → Prop
  | .act t => t.Inv
  | .word _ | .idle => True

theorem FetchedInv.ite {c : Prop} [Decidable c] {a b : Fetched} (ha : c → FetchedInv a) (hb : ¬c → FetchedInv b) :
    FetchedInv (if c then a else b) := by
  split
  · exact ha ‹_›
  · exact hb ‹_›

theorem State.Inv.fetchFault (h : s.Inv) (u : Issuer) (fs : List LineFault) : (s.fetchFault u fs).Inv := by
  unfold State.fetchFault
  dsimp only
  split
  · exact h
  · split
    · exact h.settled _ _ (Issuer.transl_inv h ..)
    · exact h.takeFault ..

theorem State.Inv.fetchGroup (h : s.Inv) (u : Issuer) : FetchedInv (s.fetchGroup u) := by
  unfold State.fetchGroup
  split
  · extract_lets +onlyGivenNames d
    cases d with
    | ok i rest => trivial
    | error e => exact h.takeFault ..
  · split
    · split
      · exact h.setGroup _
      · exact h.fetchFault ..
    · split
      · exact .ite (fun _ => trivial) fun _ => h.settled _ _ (Issuer.askAll_inv h ..)
      · exact h.fetchFault ..

theorem State.Inv.fillMill (h : s.Inv) (u : MillIssuer) : OptInv (s.fillMill u) := by
  unfold State.fillMill
  extract_lets +onlyGivenNames pc
  clear_value pc
  refine .ite (fun _ => h.millPark ..) fun _ => ?_
  split
  · exact h.millTrap ..
  next home _ =>
    refine .ite (fun _ => trivial) fun _ => ?_
    have hmet := h.meet home u.k.asid pc 0 .fetch u.priv none
    split
    next c t e =>
      rw [e] at hmet
      show State.Inv (if _ then _ else _)
      split
      · exact State.Inv.millPark hmet ..
      · exact State.Inv.millTrap hmet ..
    next v t e =>
      rw [e] at hmet
      replace hmet : t.Inv := hmet
      refine .ite (fun _ => trivial) fun _ => .ite (fun _ => ?_) fun _ => (hmet.touch _).setMill _
      exact .ite (fun _ => hmet.recallOwners _) fun _ => trivial

theorem State.Inv.millWord (h : s.Inv) (u : MillIssuer) : FetchedInv (s.millWord u) := by
  unfold State.millWord
  split
  · split
    · trivial
    · exact h.millTrap ..
  · split
    next t e => exact (h.fillMill u).some e
    next => trivial

theorem State.Inv.fetchMill (h : s.Inv) (u : MillIssuer) : FetchedInv (s.fetchMill u) := by
  unfold State.fetchMill
  split
  · exact .ite (fun _ => h.millWord u) fun _ => .ite (fun _ => h.millTrap ..) fun _ => trivial
  · exact h.millWord u

theorem State.Inv.fetch (h : s.Inv) (a : Agent) : FetchedInv (s.fetch a) := by
  unfold State.fetch
  split
  · split
    · exact h.fetchGroup _
    · trivial
  · split
    · exact h.fetchMill _
    · trivial

/-! ### The step (log entries 10, 23, 137) -/

theorem State.Inv.tick (h : s.Inv) : s.tick.Inv := h.of_eq rfl rfl
theorem State.Inv.pass (h : s.Inv) (a : Agent) : (s.pass a).Inv := h.of_eq rfl rfl
theorem State.Inv.readied (h : s.Inv) : s.readied.Inv := h.of_eq rfl rfl

theorem State.Inv.act (h : s.Inv) (o : Outside) : (s.act o).Inv := by
  cases o with
  | host port addr bytes => exact h.hostWrite ..
  | pool addr bytes => exact h.poolWrite ..
  | lender x => exact h
  | flitAck f seq => exact h.flitAck ..
  | vectorMask port vec masked =>
    show State.Inv (if _ then _ else _)
    split
    · exact h.maskVector ..
    · exact h
  | residue r => exact h
  | corrected u => exact h.corrected u
  | broken u => exact h.broken u

theorem State.Inv.first (h : s.Inv) (is : List Instr) : OptInv (s.first is) := by
  induction is with
  | nil => trivial
  | cons i is ih =>
    unfold State.first
    split
    next t e => exact .ite (fun _ => ih) fun _ => (exec_inv h i).next e
    next => exact ih

theorem State.Inv.internal (h : s.Inv) : OptInv s.internal := .ite (fun _ => trivial) fun _ => h.first _

theorem OutInv.afterwards {o : Out} {f : State → State} (h : OutInv o) (hf : ∀ t : State, t.Inv → (f t).Inv) : OutInv (afterwards f o) := by
  cases o with
  | next t => exact hf t h
  | fault r => trivial
  | refused r => trivial

theorem State.Inv.stepAgent (h : s.Inv) (a : Agent) (i : Instr) : OutInv (Machine.afterwards (fun t => (t.pass a).tick) (exec i s)) :=
  (exec_inv h i).afterwards fun _ ht => (ht.pass a).tick

/-- What the outside has put first, an event of the machine's own, or the turn of an agent. -/
theorem State.Inv.step (h : s.Inv) : OutInv (Machine.step s) := by
  unfold Machine.step
  split
  next o rest _ => exact (State.Inv.act (s := { s with agenda := rest }) h o).tick
  next e rest _ =>
    have hs : State.Inv { s with agenda := rest } := h
    refine .ite (fun _ => hs.tick) fun _ => .ite (fun _ => ?_) fun _ => ?_
    · exact State.Inv.tick (s := { s with agenda := rest, held := s.held ++ [e] }) h
    · exact (exec_inv hs e).afterwards fun _ ht => ht.tick
  next =>
    split
    next t e => exact (h.internal.some e).tick
    next =>
      have hr := h.readied
      dsimp only
      split
      · exact hr.tick
      next a _ =>
        have ha : State.Inv { s.readied with focus := some a } := hr
        have hf := ha.fetch a
        split
        next i _ => exact ha.stepAgent a i
        next t e =>
          rw [e] at hf
          exact (State.Inv.pass (s := t) hf a).tick
        next => exact (ha.pass a).tick

/-- Settles O59: each instruction keeps the memories and the management registers in their canonical form, and so do what the outside
does, a fetch, the passing of time and the passing of the turn. -/
theorem stepsKeepCanonicalForm : Obligations.StepsKeepCanonicalForm := fun _ _ h e => h.step.next e

end
end Sys2Proof.Machine
